-- ==== Sys2Proof/Syntax.lean ====
section
/-! DEFINITION. The operand frames of the Hjelrek words (01 R12 to R23) and the one inductive of the
steps of the part: one constructor per row of the opcode table. An F-form word carries its own
operands; a P-form word is named by its half X and carries half Y; an event names the unit it
happens at. -/

namespace Sys2Proof

/-- The guard of a word (R14, R19): none, or the lanes where `q` is set (`neg = false`) or clear. -/
inductive Guard where
  | none
  | on (neg : Bool) (q : BitVec 3)
deriving DecidableEq, Repr

/-- How the B operand is read (R17). -/
inductive BKind where
  | vec | sca | imm | sys
deriving DecidableEq, Repr

/-- The rounding modes (R15, R129). -/
inductive RMode where
  | rne | rtz | rup | rdn
deriving DecidableEq, Repr

/-- The fields of an F-form word with the common modifier layout (R14, R15), less its opcode. `fs` is
true for flag SB, `ck` is true for a scalar C, and `ox` holds the opcode-specific modifiers. -/
structure FOps where
  g : Guard
  d : BitVec 8
  a : BitVec 8
  b : BitVec 8
  c : BitVec 8
  bk : BKind
  fs : Bool
  ck : Bool
  rm : RMode
  sat : Bool
  ox : BitVec 8
deriving DecidableEq, Repr

/-- The fields of a word in the immediate frame (R18): `mods` is [30:23] and `imm` is imm23. -/
structure ImmOps where
  g : Guard
  d : BitVec 8
  a : BitVec 8
  mods : BitVec 8
  imm : BitVec 23
deriving DecidableEq, Repr

/-- The fields of MOVI and SMOVI (R18): modifiers [38:32] and the 32-bit immediate. -/
structure Imm32Ops where
  g : Guard
  d : BitVec 8
  mods : BitVec 7
  imm : BitVec 32
deriving DecidableEq, Repr

/-- The restricted opcodes of the P-form (R22). -/
inductive POp where
  | iadd | isub | imin | imax | and | or | xor | shl | shr | sar | mov | imul | fadd | fsub | fmul | fmin | fmax | hadd2 | hmul2 | sadd | ssub | sand | sor | sxor | smov | sshl | sshr | lds | sts | nop
deriving DecidableEq, Repr

/-- The fields of a P-form half less its restricted opcode (R19): the guard predicate if G = 1, D, S,
I and the sub-modifier. -/
structure PFields where
  g : Option (BitVec 3)
  d : BitVec 8
  s : BitVec 8
  imm : Bool
  sub : BitVec 3
deriving DecidableEq, Repr

/-- A whole P-form half. -/
structure PHalf where
  op : POp
  f : PFields
deriving DecidableEq, Repr

/-- A clause header (R23). `len` is LEN: the clause holds `len + 1` words after its header. -/
structure Header where
  wait : BitVec 12
  sa : Option (BitVec 4)
  sb : Option (BitVec 4)
  len : BitVec 4
  yld : Bool
deriving DecidableEq, Repr

/-- The protected files of R110, and the memory of a die, which a memory ECC protects (R313). -/
inductive RegFile where
  | vector | scalar | predicate | tile | accumulator | scratchpad | l1 | memory
deriving DecidableEq, Repr

/-- A 32-bit word of a protected file of a core, by its physical index (R40, R110); of the L1 by tenant and address,
`tenant × 2^54 + VA / 4`; a sector of memory by its machine address / 32. -/
structure FileWord where
  file : RegFile
  index : Nat
deriving DecidableEq, Repr

/-- What the error code of a word shows (R110): one bit in error, two bits in error that a second read
does not show again, or two bits that it shows again. -/
inductive WordError where
  | none | single | doubleTransient | doubleSingle | doubleLasting
deriving DecidableEq, Repr

/-- What SCRUB_PASS brings to a word: the error, and whether it is the scrubber that meets it. -/
structure Finding where
  error : WordError
  reads : Bool
deriving DecidableEq, Repr

/-- One rank of a collective that another module holds, as its engine reports it (R104, R105). -/
structure RankInput where
  rank : Nat
  seq : BitVec 32
  kind : BitVec 8
  op : BitVec 8
  type : BitVec 8
  count : Nat
  root : BitVec 32
  data : List (BitVec 8)
deriving DecidableEq, Repr

/-- A remote push as it reaches the target task unit (R268): the tail write carries the slot index, the
handle, and a source port and tag. -/
structure RemotePush where
  die : Nat
  tenant : BitVec 16
  handle : BitVec 32
  slot : Nat
  port : Nat
  tag : Nat
deriving DecidableEq, Repr

/-- Who writes a control register or gives a command: a level, the delegation entry it holds (R328,
R329), the tenant it runs for, and its context where it has one. -/
structure Writer where
  level : Nat
  entry : Nat
  tenant : BitVec 16
  ctx : Nat
deriving DecidableEq, Repr

/-- Which part of a routing row a write reaches (R331). -/
inductive RowPart where
  | all | low | high
deriving DecidableEq, Repr

/-- A field of a partition-table entry (R333). -/
inductive PartField where
  | ctl | dies | s2root | reserved
deriving DecidableEq, Repr

/-- A flit at a die-to-die port (R332): the context that owns the access, and the line request it carries, if any. -/
structure Flit where
  die : Nat
  port : Nat
  inbound : Bool
  addr : BitVec 56
  tenant : BitVec 16
  ctx : Nat
  req : Option Nat
deriving DecidableEq, Repr

/-- A flit that fails its CRC (R339, R313): the link, whether the link-level replay fails too, and the
retry after it. -/
structure CrcFail where
  chipToChip : Bool
  die : Nat
  port : Nat
  replayFails : Bool
  retryFails : Bool
  addr : BitVec 56
  ctx : Nat
  req : Option Nat
deriving DecidableEq, Repr

/-- What a peer module asks for over a chip-to-chip port (R339): bytes written, or an atomic of a type and kind of R197. -/
inductive PeerOp where
  | write (bytes : List (BitVec 8))
  | atomic (ty kind : Nat) (cas : Bool) (x y : Nat)
deriving DecidableEq, Repr

/-- A flit of a peer module: the port and tag that tell its replay, and what it asks for. -/
structure PeerFlit where
  port : Nat
  tag : BitVec 16
  op : PeerOp
deriving DecidableEq, Repr

/-- An inbound access of a peer module: its flit, and a partition address. -/
structure PeerAccess extends PeerFlit where
  part : Nat
  addr : BitVec 52
deriving DecidableEq, Repr

/-- What reaches the dies from the hub's side (R338, R315): DMA of a port function, the context that level 1 assigns to
one, an application core's access to device memory, and its read of a control register. -/
inductive HostAccess where
  | dmaRead (n : Nat)
  | dmaWrite
  | assign (w : Writer) (ctx : Nat)
  | load (n : Nat)
  | store
  | atomic (ty kind : Nat) (cas : Bool) (x y : Nat)
  | register (w : Writer) (size : Nat)
deriving DecidableEq, Repr

/-- An access that reaches the dies through the hub: a peer's, or one of its own side. -/
inductive HubAccess where
  | peer (p : PeerAccess)
  | host (function : Nat) (addr : BitVec 64) (a : HostAccess) (bytes : List (BitVec 8))
deriving DecidableEq, Repr

/-- What boot finds (R341): the firmware stages in order with their signatures, the configuration
blob with its signature and the identity key it names, and what level 0 then writes. -/
structure BootImage where
  stages : List (List (BitVec 8) × List (BitVec 8))
  config : List (BitVec 8)
  configSig : List (BitVec 8)
  configKey : List (BitVec 8)
  rootMask0 : BitVec 16
  rootMask1 : BitVec 16
  module : BitVec 13
  partitions : List (BitVec 24 × BitVec 52)
  /-- The system's link map, as (module, port). -/
  links : List (Nat × Nat) := []
deriving DecidableEq, Repr

/-- The steps of the part: every instruction word and every event of the opcode table. -/
inductive Instr where
  /-- IADD (R144): F-form 32-bit integer add, modulo 2^32, in each active lane. -/
  | iadd (o : FOps)
  /-- ISUB (R144): F-form 32-bit integer subtract, modulo 2^32. -/
  | isub (o : FOps)
  /-- IMUL (R144): F-form low 32 bits of an integer product. -/
  | imul (o : FOps)
  /-- IMULH (R144): High 32 bits of a signed or unsigned 64-bit product. -/
  | imulh (o : FOps)
  /-- IMAD (R144): Integer multiply-add, modulo 2^32. -/
  | imad (o : FOps)
  /-- IMADW (R146): Wide multiply-add into a 64-bit register pair. -/
  | imadw (o : FOps)
  /-- IADDC (R145): Add with carry in and carry out through a predicate. -/
  | iaddc (o : FOps)
  /-- ISUBB (R145): Subtract with borrow in and borrow out through a predicate. -/
  | isubb (o : FOps)
  /-- IABS (R144): Integer absolute value, optionally saturating. -/
  | iabs (o : FOps)
  /-- INEG (R144): Integer negation, optionally saturating. -/
  | ineg (o : FOps)
  /-- IMIN (R144): F-form signed or unsigned integer minimum. -/
  | imin (o : FOps)
  /-- IMAX (R144): F-form signed or unsigned integer maximum. -/
  | imax (o : FOps)
  /-- IADDS (R144): Integer add clamped to the INT32 or UINT32 range. -/
  | iadds (o : FOps)
  /-- ISUBS (R144): Integer subtract clamped to the INT32 or UINT32 range. -/
  | isubs (o : FOps)
  /-- IDOT4 (R147): Dot product of four byte pairs added to an INT32 accumulator. -/
  | idot4 (o : FOps)
  /-- IDOT8 (R147): Dot product of eight nibble pairs added to an INT32 accumulator. -/
  | idot8 (o : FOps)
  /-- LEA (R144): Computes a + b shifted left by sh, modulo 2^32. -/
  | lea (o : FOps)
  /-- MOV (R113): F-form move of the B operand into a vector register. -/
  | mov (o : FOps)
  /-- MOVI (R113): Moves a 32-bit immediate into a vector register. -/
  | movi (o : Imm32Ops)
  /-- SEL (R114): Selects per lane between two sources by a predicate. -/
  | sel (o : FOps)
  /-- AND (R148): F-form bitwise AND. -/
  | and (o : FOps)
  /-- OR (R148): F-form bitwise OR. -/
  | or (o : FOps)
  /-- XOR (R148): F-form bitwise XOR. -/
  | xor (o : FOps)
  /-- NOT (R148): Bitwise complement. -/
  | not (o : FOps)
  /-- TRI (R148): Any bitwise function of three inputs, given by an 8-bit table. -/
  | tri (o : FOps)
  /-- SHL (R148): F-form logical shift left by b mod 32. -/
  | shl (o : FOps)
  /-- SHR (R148): F-form logical shift right by b mod 32. -/
  | shr (o : FOps)
  /-- SAR (R148): F-form arithmetic shift right by b mod 32. -/
  | sar (o : FOps)
  /-- SHF (R151): Funnel shift of a 64-bit value left or right. -/
  | shf (o : FOps)
  /-- POPC (R148): Population count of a word. -/
  | popc (o : FOps)
  /-- CLZ (R148): Count of leading zero bits. -/
  | clz (o : FOps)
  /-- BREV (R148): Bit reversal of a word. -/
  | brev (o : FOps)
  /-- BFE (R149): Bit-field extract, zero- or sign-extended. -/
  | bfe (o : FOps)
  /-- BFI (R149): Bit-field insert. -/
  | bfi (o : FOps)
  /-- PRMB (R150): Byte permute from two source words. -/
  | prmb (o : FOps)
  /-- FADD (R152): F-form FP32 add, rounded once. -/
  | fadd (o : FOps)
  /-- FSUB (R152): F-form FP32 subtract. -/
  | fsub (o : FOps)
  /-- FMUL (R152): F-form FP32 multiply. -/
  | fmul (o : FOps)
  /-- FFMA (R152): FP32 fused multiply-add with a single rounding. -/
  | ffma (o : FOps)
  /-- FMIN (R153): F-form FP32 minimum, with -0 below +0. -/
  | fmin (o : FOps)
  /-- FMAX (R153): F-form FP32 maximum, with -0 below +0. -/
  | fmax (o : FOps)
  /-- FRCP (R154): Long-latency, correctly rounded FP32 reciprocal. -/
  | frcp (o : FOps)
  /-- FRSQ (R154): Long-latency FP32 reciprocal square root. -/
  | frsq (o : FOps)
  /-- FSQRT (R154): Long-latency FP32 square root. -/
  | fsqrt (o : FOps)
  /-- FEXP2 (R154): Long-latency FP32 base-2 exponential. -/
  | fexp2 (o : FOps)
  /-- FLOG2 (R154): Long-latency FP32 base-2 logarithm. -/
  | flog2 (o : FOps)
  /-- FTANH (R154): Long-latency FP32 hyperbolic tangent. -/
  | ftanh (o : FOps)
  /-- FSINPI (R154): Long-latency FP32 sin(pi x). -/
  | fsinpi (o : FOps)
  /-- FCOSPI (R154): Long-latency FP32 cos(pi x). -/
  | fcospi (o : FOps)
  /-- FRND (R155): Rounds FP32 to an integral value in mode RM. -/
  | frnd (o : FOps)
  /-- FCLASS (R155): Writes a one-hot class mask of an FP32 value. -/
  | fclass (o : FOps)
  /-- FSCALE (R155): Multiplies an FP32 value by 2^n, rounded. -/
  | fscale (o : FOps)
  /-- HADD2 (R156): F-form packed FP16 or BF16 add. -/
  | hadd2 (o : FOps)
  /-- HMUL2 (R156): F-form packed FP16 or BF16 multiply. -/
  | hmul2 (o : FOps)
  /-- HFMA2 (R156): Packed 16-bit fused multiply-add. -/
  | hfma2 (o : FOps)
  /-- HMIN2 (R156): Packed 16-bit minimum. -/
  | hmin2 (o : FOps)
  /-- HMAX2 (R156): Packed 16-bit maximum. -/
  | hmax2 (o : FOps)
  /-- FDOT2 (R157): Dot product of two 16-bit pairs plus FP32, rounded once. -/
  | fdot2 (o : FOps)
  /-- CVTFF (R159): Converts float to float, merging into an element of the destination. -/
  | cvtff (o : FOps)
  /-- CVTFI (R159): Converts float to integer with saturation. -/
  | cvtfi (o : FOps)
  /-- CVTIF (R159): Converts integer to float. -/
  | cvtif (o : FOps)
  /-- CVTII (R159): Converts integer to integer, truncating or saturating. -/
  | cvtii (o : FOps)
  /-- PACK8 (R161): Converts two FP32 values into two adjacent bytes. -/
  | pack8 (o : FOps)
  /-- UNPK8 (R161): Widens one byte to FP32. -/
  | unpk8 (o : FOps)
  /-- PACKQ (R162): Quantises a 32-element block into Q4X quads. -/
  | packq (o : FOps)
  /-- UNPKQ (R163): Decodes Q4X quads into scaled 16-bit elements. -/
  | unpkq (o : FOps)
  /-- KEYF (R164): Writes an order key of a float, or its inverse. -/
  | keyf (o : FOps)
  /-- QSCL (R165): Computes the SC8 scale that fits a block maximum into a target range. -/
  | qscl (o : FOps)
  /-- ICMP (R166): Integer compare into a predicate. -/
  | icmp (o : FOps)
  /-- FCMP (R167): FP32 compare into a predicate. -/
  | fcmp (o : FOps)
  /-- PLOP (R168): Predicate function of three predicates, given by a table. -/
  | plop (o : FOps)
  /-- VOTE (R117): Writes a ballot, any, all or uniform vote into a scalar. -/
  | vote (o : FOps)
  /-- XCH (R115): Lane exchange within segments by index, up, down or butterfly. -/
  | xch (o : FOps)
  /-- GRED (R116): Long-latency tree reduction of the active lanes into a scalar. -/
  | gred (o : FOps)
  /-- PMOV (R118): Moves a predicate to or from a scalar or vector. -/
  | pmov (o : FOps)
  /-- SADD (R120): F-form scalar add, 32- or 64-bit. -/
  | sadd (o : FOps)
  /-- SSUB (R120): F-form scalar subtract. -/
  | ssub (o : FOps)
  /-- SMUL (R120): Scalar multiply, low or high half. -/
  | smul (o : FOps)
  /-- SAND (R120): F-form scalar AND. -/
  | sand (o : FOps)
  /-- SOR (R120): F-form scalar OR. -/
  | sor (o : FOps)
  /-- SXOR (R120): F-form scalar XOR. -/
  | sxor (o : FOps)
  /-- SSHL (R120): F-form scalar shift left. -/
  | sshl (o : FOps)
  /-- SSHR (R120): F-form scalar shift right, logical or arithmetic. -/
  | sshr (o : FOps)
  /-- SMOV (R120): F-form scalar move. -/
  | smov (o : FOps)
  /-- SMOVI (R120): Moves a 32-bit immediate into a scalar. -/
  | smovi (o : Imm32Ops)
  /-- SPOPC (R120): Scalar population count. -/
  | spopc (o : FOps)
  /-- SFFS (R120): Index of the lowest set bit of a scalar. -/
  | sffs (o : FOps)
  /-- SMIN (R120): Scalar minimum. -/
  | smin (o : FOps)
  /-- SMAX (R120): Scalar maximum. -/
  | smax (o : FOps)
  /-- SCMP (R120): Scalar compare, writing 1 or 0. -/
  | scmp (o : FOps)
  /-- SLD (R122): Scalar load from global memory, long-latency. -/
  | sld (o : FOps)
  /-- SST (R122): Scalar store through the region store buffer. -/
  | sst (o : FOps)
  /-- SREAD (R123): Reads a sy.* system register into a scalar. -/
  | sread (o : FOps)
  /-- SWRITE (R123): Writes a scalar into a writable sy.* register. -/
  | swrite (o : FOps)
  /-- LD (R64): Per-lane global load with region-buffer merge, long-latency, on path LD. -/
  | ld (o : FOps)
  /-- ST (R64): Per-lane global store into the region store buffer, on path ST. -/
  | st (o : FOps)
  /-- LDP (R65): Loads words of the lane's per-thread memory. -/
  | ldp (o : FOps)
  /-- STP (R65): Stores words of the lane's per-thread memory. -/
  | stp (o : FOps)
  /-- PREF (R66): Starts a fill of each addressed line into L1 and L2 or L2 only. -/
  | pref (o : FOps)
  /-- CINV (R66): Writes back and invalidates named lines, or all tenant lines of the L1. -/
  | cinv (o : FOps)
  /-- CWB (R66): Writes back dirty sectors of named lines without invalidating them. -/
  | cwb (o : FOps)
  /-- LDS (R73): F-form scratchpad load, long-latency, on path LD. -/
  | lds (o : FOps)
  /-- STS (R73): F-form scratchpad store through the region store buffer. -/
  | sts (o : FOps)
  /-- TLD (R74): Loads a tile from scratchpad. -/
  | tld (o : FOps)
  /-- TST (R74): Stores a tile to scratchpad through the region store buffer. -/
  | tst (o : FOps)
  /-- TMOV (R75): Moves tile data between tiles and vector registers. -/
  | tmov (o : FOps)
  /-- PDECL (R85): Declares a palette in the lowest free slot and returns a handle word. -/
  | pdecl (o : FOps)
  /-- PENTER (R80): Enters a palette, admitting, queueing or filling it. -/
  | penter (o : FOps)
  /-- PWAIT (R85): Blocks until the group's entered palette is Ready. -/
  | pwait (o : FOps)
  /-- PLEAVE (R85): Leaves the group's entered palette. -/
  | pleave (o : FOps)
  /-- PDROP (R85): Drops a palette with no entrants, releasing its lines. -/
  | pdrop (o : FOps)
  /-- PQRY (R85): Returns a palette's state, entrants, missing and free lines. -/
  | pqry (o : FOps)
  /-- ATOM (R198): Atomic read-modify-write at the home slice, returning old values. -/
  | atom (o : FOps)
  /-- ACAS (R198): Atomic compare-and-swap at the home slice. -/
  | acas (o : FOps)
  /-- RED (R198): Atomic reduction without return, possibly combined in the cluster buffer. -/
  | red (o : FOps)
  /-- ACONT (R203): Continuation atomic that appends a record to a node when its condition holds. -/
  | acont (o : FOps)
  /-- FENCE (R209): Acquire, release or sequentially consistent fence at a scope. -/
  | fence (o : FOps)
  /-- WAITN (R90): Blocks until a path counter is at or below a count. -/
  | waitn (o : FOps)
  /-- MMA (R176): Matrix multiply-accumulate of A registers and a B tile into an accumulator. -/
  | mma (o : FOps)
  /-- MMAS (R176): Scaled matrix multiply-accumulate with SC8 block scales. -/
  | mmas (o : FOps)
  /-- ACLR (R179): Clears an accumulator to zero. -/
  | aclr (o : FOps)
  /-- AMOV (R180): Copies accumulator columns into vector registers. -/
  | amov (o : FOps)
  /-- ALOAD (R181): Loads or adds memory rows into an accumulator. -/
  | aload (o : FOps)
  /-- DRAIN (R188): Drains an accumulator through bias, activation and requantisation to a destination. -/
  | drain (o : FOps)
  /-- DREPL (R191): Privileged replay of the unperformed rows of a pinned drain entry. -/
  | drepl (o : FOps)
  /-- ATBL (R182): Loads a team activation-table slot from global memory. -/
  | atbl (o : FOps)
  /-- CKICK (R96): Validates a copy request and queues it to the kick queue. -/
  | ckick (o : FOps)
  /-- GTHR (R103): Gathers indexed global rows into scratchpad. -/
  | gthr (o : FOps)
  /-- SCTR (R103): Scatters scratchpad rows to indexed global addresses. -/
  | sctr (o : FOps)
  /-- COLL (R104): Queues a collective request to the die's collective engine. -/
  | coll (o : FOps)
  /-- BINIT (R94): Initialises a barrier object in scratchpad. -/
  | binit (o : FOps)
  /-- BEXP (R94): Adds expected bytes to a barrier object. -/
  | bexp (o : FOps)
  /-- BWAIT (R94): Blocks until a barrier object's phase parity differs from p. -/
  | bwait (o : FOps)
  /-- CSTAT (R107): Reads a path counter or the kick-queue free count. -/
  | cstat (o : FOps)
  /-- BRA (R213): Unconditional branch of the issuing slot. -/
  | bra (o : ImmOps)
  /-- BRC (R213): Branch on a scalar compared with zero. -/
  | brc (o : ImmOps)
  /-- BRS (R216): Splits the slot's lanes by a predicate into the other slot or a stack entry. -/
  | brs (o : ImmOps)
  /-- JOIN (R219): Reconverges with a stack entry or the partner slot, or parks or branches. -/
  | join (o : ImmOps)
  /-- BRX (R215): Branches through a permitted-target table. -/
  | brx (o : FOps)
  /-- CALL (R213): Calls a target, saving the return address in a scalar pair. -/
  | call (o : ImmOps)
  /-- CALLX (R215): Calls through a permitted-target table. -/
  | callx (o : FOps)
  /-- RET (R213): Returns to the address in a scalar pair. -/
  | ret (o : FOps)
  /-- EXIT (R220): Retires the slot's lanes, resuming a stack entry or retiring the group. -/
  | exit (o : FOps)
  /-- NOP (R224): F-form no operation. -/
  | nop (o : FOps)
  /-- REGROUP (R223): Compacts live lanes across the role's groups of a team. -/
  | regroup (o : FOps)
  /-- YIELD (R224): Asks the scheduler to prefer another group for a while. -/
  | yield (o : FOps)
  /-- BARV (R229): Arrives at a named barrier without waiting. -/
  | barv (o : FOps)
  /-- BSYN (R229): Arrives at a named barrier and waits for the phase. -/
  | bsyn (o : FOps)
  /-- BPHS (R229): Team release, then waits until a barrier phase differs from p. -/
  | bphs (o : FOps)
  /-- QPUSH (R232): Pushes an item to a scratchpad queue, waiting for allowance. -/
  | qpush (o : FOps)
  /-- QPOP (R232): Pops an item from a scratchpad queue, waiting for one. -/
  | qpop (o : FOps)
  /-- QALW (R232): Grants allowance to a bound queue. -/
  | qalw (o : FOps)
  /-- QALW_INIT (R232): Binds a queue to a ring and capacity. -/
  | qalwInit (o : FOps)
  /-- QTRY_PUSH (R232): Pushes to a queue without blocking, reporting success. -/
  | qtryPush (o : FOps)
  /-- QTRY_POP (R232): Pops from a queue without blocking, reporting success. -/
  | qtryPop (o : FOps)
  /-- GSYNC (R236): Grid barrier through an atomic arrival at a global object. -/
  | gsync (o : FOps)
  /-- DEQ (R277): Takes records of the group's binding into lanes, blocking for them. -/
  | deq (o : FOps)
  /-- DEQT (R277): As DEQ, with a timeout in device time. -/
  | deqt (o : FOps)
  /-- RPUSH (R278): Pushes one record per active lane to a node, local or remote. -/
  | rpush (o : FOps)
  /-- RPASS (R279): Reports that held commute records passed their stage. -/
  | rpass (o : FOps)
  /-- RREJ (R279): Reports that held commute records were rejected. -/
  | rrej (o : FOps)
  /-- LNCH (R281): Fires a node: spawns a batch or makes a bin due. -/
  | lnch (o : FOps)
  /-- NODEQ_QRY (R282): Reads a node's count, flags, mode and bound groups. -/
  | nodeqQry (o : FOps)
  /-- NODEQ_SEAL (R282): Seals a node in the task unit and its descriptor. -/
  | nodeqSeal (o : FOps)
  /-- NODEQ_OPEN (R282): Unseals a node. -/
  | nodeqOpen (o : FOps)
  /-- RBIND (R283): Binds the group to a local feed node, or clears the binding. -/
  | rbind (o : FOps)
  /-- TSTAMP (R321): Reads device time into a scalar pair. -/
  | tstamp (o : FOps)
  /-- CYCLES (R321): Reads the cluster cycle count into a scalar pair. -/
  | cycles (o : FOps)
  /-- PHINT (R300): Commits the region and opens one with an explicit live set. -/
  | phint (o : FOps)
  /-- PHINTS (R301): Sets one of the team's live scratchpad ranges. -/
  | phints (o : FOps)
  /-- OSTAGE (R109): Fills the operand staging buffer with a register range. -/
  | ostage (o : FOps)
  /-- TRAP (R310): Raises cause group 14 with a code and value. -/
  | trap (o : ImmOps)
  /-- BKPT (R310): Raises cause group 13, breakpoint. -/
  | bkpt (o : ImmOps)
  /-- EVRD (R327): Reads an owned event counter. -/
  | evrd (o : FOps)
  /-- EVCFG (R327): Privileged configuration of an event counter, taking ownership. -/
  | evcfg (o : FOps)
  /-- OPHINT (R322): Changes the team's operating-point request. -/
  | ophint (o : FOps)
  /-- IADD_P (R22): P-form half: integer add into D. -/
  | iaddP (x : PFields) (y : PHalf)
  /-- ISUB_P (R22): P-form half: integer subtract. -/
  | isubP (x : PFields) (y : PHalf)
  /-- IMIN_P (R22): P-form half: integer minimum. -/
  | iminP (x : PFields) (y : PHalf)
  /-- IMAX_P (R22): P-form half: integer maximum. -/
  | imaxP (x : PFields) (y : PHalf)
  /-- AND_P (R22): P-form half: bitwise AND. -/
  | andP (x : PFields) (y : PHalf)
  /-- OR_P (R22): P-form half: bitwise OR. -/
  | orP (x : PFields) (y : PHalf)
  /-- XOR_P (R22): P-form half: bitwise XOR. -/
  | xorP (x : PFields) (y : PHalf)
  /-- SHL_P (R22): P-form half: shift left. -/
  | shlP (x : PFields) (y : PHalf)
  /-- SHR_P (R22): P-form half: logical shift right. -/
  | shrP (x : PFields) (y : PHalf)
  /-- SAR_P (R22): P-form half: arithmetic shift right. -/
  | sarP (x : PFields) (y : PHalf)
  /-- MOV_P (R22): P-form half: vector move. -/
  | movP (x : PFields) (y : PHalf)
  /-- IMUL_P (R22): P-form half: integer multiply. -/
  | imulP (x : PFields) (y : PHalf)
  /-- FADD_P (R22): P-form half: FP32 add. -/
  | faddP (x : PFields) (y : PHalf)
  /-- FSUB_P (R22): P-form half: FP32 subtract. -/
  | fsubP (x : PFields) (y : PHalf)
  /-- FMUL_P (R22): P-form half: FP32 multiply. -/
  | fmulP (x : PFields) (y : PHalf)
  /-- FMIN_P (R22): P-form half: FP32 minimum. -/
  | fminP (x : PFields) (y : PHalf)
  /-- FMAX_P (R22): P-form half: FP32 maximum. -/
  | fmaxP (x : PFields) (y : PHalf)
  /-- HADD2_P (R22): P-form half: packed FP16 add. -/
  | hadd2P (x : PFields) (y : PHalf)
  /-- HMUL2_P (R22): P-form half: packed FP16 multiply. -/
  | hmul2P (x : PFields) (y : PHalf)
  /-- SADD_P (R22): P-form half: 32-bit scalar add. -/
  | saddP (x : PFields) (y : PHalf)
  /-- SSUB_P (R22): P-form half: scalar subtract. -/
  | ssubP (x : PFields) (y : PHalf)
  /-- SAND_P (R22): P-form half: scalar AND. -/
  | sandP (x : PFields) (y : PHalf)
  /-- SOR_P (R22): P-form half: scalar OR. -/
  | sorP (x : PFields) (y : PHalf)
  /-- SXOR_P (R22): P-form half: scalar XOR. -/
  | sxorP (x : PFields) (y : PHalf)
  /-- SMOV_P (R22): P-form half: scalar move. -/
  | smovP (x : PFields) (y : PHalf)
  /-- SSHL_P (R22): P-form half: scalar shift left. -/
  | sshlP (x : PFields) (y : PHalf)
  /-- SSHR_P (R22): P-form half: logical scalar shift right. -/
  | sshrP (x : PFields) (y : PHalf)
  /-- LDS_P (R22): P-form half: scratchpad load on flag SA. -/
  | ldsP (x : PFields) (y : PHalf)
  /-- STS_P (R22): P-form half: scratchpad store. -/
  | stsP (x : PFields) (y : PHalf)
  /-- NOP_P (R22): P-form half that does nothing. -/
  | nopP (x : PFields) (y : PHalf)
  /-- CLAUSE_START (R26): A slot reaches a header with non-zero mask and clear WAIT flags; the clause starts and clears pending marks. -/
  | clauseStart (h : Header)
  /-- CLAUSE_SKIP (R28): A header with zero mask is skipped after its WAIT flags clear, using one issue opportunity. -/
  | clauseSkip (h : Header)
  /-- ISSUE_OPPORTUNITY (R294): Each quadrant cycle chooses the candidate that issues under budget, dueness and recency. -/
  | issueOpportunity (core quad : Nat)
  /-- LONG_LATENCY_COMPLETE (R26): A long-latency operation writes its results; its flag clears when all its operations have done so. -/
  | longLatencyComplete (op : Nat)
  /-- SCRUB_PASS (R111): The scrubber reads a word once per 2^20 cycles, correcting or poisoning it. -/
  | scrubPass (core : Nat) (at_ : FileWord) (found : Finding)
  /-- SLICE_LOAD (R54): A load request reaches its home slice, hitting or starting translation and fetch. -/
  | sliceLoad (op : Nat)
  /-- SLICE_STORE (R54): A store reaches its home slice, checked for WR and merged under its mask. -/
  | sliceStore (op : Nat)
  /-- SLICE_WRITEBACK (R356): A write-back of dirty L1 bytes reaches the slice, translated if no line is held. -/
  | sliceWriteback (op : Nat)
  /-- SLICE_ATOMIC (R198): An atomic request is applied in one step at the home slice. -/
  | sliceAtomic (op : Nat)
  /-- SLICE_ADD_ON_STORE (R189): A DRAIN .add line is applied as one indivisible update at the slice. -/
  | sliceAddOnStore (op : Nat)
  /-- SLICE_ACONT (R203): A continuation atomic reserves launch-queue entries, checks the node and applies its lanes. -/
  | sliceAcont (op : Nat)
  /-- REPLAY_FILTER_ACK (R208): A source's acknowledgement frees a replay-filter entry. -/
  | replayFilterAck (slice port tag : Nat)
  /-- WALK_COMPLETE (R57): A nested two-stage walk finishes, giving a translation or a fault. -/
  | walkComplete (op : Nat)
  /-- MEMORY_FILL_RETURN (R54): Sectors fetched from HBM4E or LPDDR6 arrive at the slice. -/
  | memoryFillReturn (op : Nat)
  /-- L1_FILL_RETURN (R68): Requested sectors return to the L1, which allocates the line unless .nl1. -/
  | l1FillReturn (op : Nat)
  /-- STORE_ACCEPTED (R68): The slice accepts a sent-on store and the L1 merges or allocates the bytes. -/
  | storeAccepted (op : Nat)
  /-- COMBINE_TIMEOUT (R200): A combining-buffer entry is sent 64 cycles after it was taken. -/
  | combineTimeout (cluster entry : Nat)
  /-- HPT_EPOCH_END (R48): At each epoch the tracker chooses page pairs, starts swaps and halves counts. -/
  | hptEpochEnd (die : Nat)
  /-- HPT_SWAP_DONE (R49): A page swap finishes its write-backs, exchange and invalidation; stalled accesses proceed. -/
  | hptSwapDone (die : Nat)
  /-- SLQ_ENTRY_PLACE (R205): A slice launch-queue entry is placed in the node's bin and freed. -/
  | slqEntryPlace (slice : Nat)
  /-- MATRIX_TAKE (R170): The matrix unit takes a matrix instruction in issue order and applies it. -/
  | matrixTake (core : Nat)
  /-- MATRIX_OP_COMPLETE (R170): A matrix operation finishes writing its accumulator or registers. -/
  | matrixOpComplete (op : Nat)
  /-- DRAIN_ENTRY_TAKE (R188): A DRAIN waits for a free drain-buffer entry and copies the accumulator into it. -/
  | drainEntryTake (core : Nat)
  /-- DRAIN_ROW_PERFORMED (R190): A drain row is performed; the entry frees when all are, or pins on a fault. -/
  | drainRowPerformed (core entry row : Nat)
  /-- KICK_QUEUE_TAKE (R99): The request engine takes a copy request and hands out its pieces. -/
  | kickQueueTake (core : Nat)
  /-- COPY_BYTE_PERFORMED (R97): A copied byte is performed and counted, arriving on its barrier object. -/
  | copyBytePerformed (op : Nat)
  /-- GATHER_ROW_PERFORMED (R103): A gather or scatter row is moved; GT falls when all rows are. -/
  | gatherRowPerformed (op lane : Nat)
  /-- COLLECTIVE_COMPLETE (R106): A collective writes its result at this rank and counts its bytes. -/
  | collectiveComplete (op : Nat) (remote : List RankInput)
  /-- PALETTE_LINE_FILLED (R80): A palette line becomes valid; the fill completes when all are. -/
  | paletteLineFilled (op : Nat)
  /-- LQ_RECORD_TAKE (R260): The task unit reads a posted launch record, validates it and advances HEAD. -/
  | lqRecordTake (ctx queue : Nat)
  /-- DEP_POLL (R261): The task unit rereads a dependence word at least every microsecond. -/
  | depPoll (grid : Nat)
  /-- RECORD_AGING (R284): Each 100 µs ready raises a record's effective priority. -/
  | recordAging (grid : Nat)
  /-- RECORD_CHOICE (R284): A task unit chooses the next ready record to serve. -/
  | recordChoice (ctx die : Nat)
  /-- TEAM_PLACE (R289): The scheduler places a team on a fitting core and assigns slots. -/
  | teamPlace (ctx die : Nat)
  /-- RESERVATION_TIMEOUT (R291): A team waiting 100 µs is given a core reservation. -/
  | reservationTimeout (ctx die : Nat)
  /-- RELOCK_COMPLETE (R319): A cluster's clock relock ends, timers are corrected and held teams released. -/
  | relockComplete (cluster : Nat)
  /-- OPHINT_DWELL_EXPIRY (R322): A kept OPHINT request takes effect after the 200 µs dwell. -/
  | ophintDwellExpiry (team : Nat)
  /-- GRID_COMPLETE (R248): After write-backs are accepted, a grid counts as complete as a release at .sys. -/
  | gridComplete (grid : Nat)
  /-- BIN_TIMER_EXPIRY (R264): A bin's timer expires and the bin becomes due. -/
  | binTimerExpiry (ctx die node : Nat)
  /-- GOVERNOR_EVAL (R267): Every 10 µs the governor may move one governed group per ring. -/
  | governorEval (ctx die : Nat)
  /-- DEQT_TIMEOUT (R277): A DEQT's timeout passes and it returns TIMEOUT. -/
  | deqtTimeout (gid : Nat)
  /-- ROUTER_ENTRY (R272): A record pushed to a commute entry node gets its manifest and is routed. -/
  | routerEntry (die router : Nat)
  /-- ROUTER_RPASS (R272): The router applies a stage pass, updates statistics and routes the record. -/
  | routerRpass (die router : Nat)
  /-- ROUTER_RREJ (R272): The router applies a rejection and sends the record to reject or drops it. -/
  | routerRrej (die router : Nat)
  /-- REMOTE_TAIL_WRITE (R268): A remote push's tail write arrives at the target task unit, which pulls the record. -/
  | remoteTailWrite (push : RemotePush)
  /-- REMOTE_PULL_COMPLETE (R268): The pulled record arrives and is accepted into the bin, and an acknowledgement is sent. -/
  | remotePullComplete (die : Nat) (record : List (BitVec 32))
  /-- PUSH_ACK (R268): An acknowledgement frees the outbox slot, or a refusal halts the pusher. -/
  | pushAck (op : Nat) (kind : BitVec 4)
  /-- ARBITER_EPOCH (R317): Every 2 µs the arbiter recomputes budgets, loans and balancing moves. `since` is the start of
  the epoch that ends. -/
  | arbiterEpoch (since : Nat)
  /-- BUDGET_APPLY (R316): A new budget takes effect at the cluster's next 16-cycle window boundary. -/
  | budgetApply (cluster : Nat)
  /-- DEFICIT_REPORT (R324): A module's collective deficit arrives through completion messages. -/
  | deficitReport (module : Nat) (deficit : BitVec 16)
  /-- DROOP_ALARM (R320): A supply droop stretches 6 cycles and halves issue for 64 cycles. -/
  | droopAlarm (cluster : Nat)
  /-- DROOP_HALVING_END (R320): The 64-cycle halving period expires and full issue resumes. -/
  | droopHalvingEnd (cluster : Nat)
  /-- THERMAL_OVER_THRESHOLD (R325): A stack exceeds its threshold; refresh doubles and shares scale. -/
  | thermalOverThreshold (die : Nat) (temp : BitVec 12)
  /-- THERMAL_RESTORE (R325): After 1 ms below threshold, shares are restored. -/
  | thermalRestore (die : Nat) (temp : BitVec 12)
  /-- STOP_RECORDS_COMPLETE (R304): All stop records are written; STOPPED sets and the handler is interrupted. -/
  | stopRecordsComplete (ctx : Nat)
  /-- HALT_RESUME (R307): Resume command: held operations reissue and groups continue. -/
  | haltResume (ctx : Nat) (w : Writer)
  /-- HALT_STEP (R311): Step command: groups with STEP issue one word each, then halt again. -/
  | haltStep (ctx : Nat) (w : Writer)
  /-- HALT_PREEMPT (R307): Pre-empt command: groups roll back and save, unless held operations remain. -/
  | haltPreempt (ctx : Nat) (w : Writer)
  /-- HALT_TERMINATE (R307): Terminate command: everything of the context is discarded and teams retire. -/
  | haltTerminate (ctx : Nat) (w : Writer)
  /-- WATCHDOG_EXPIRY (R312): A group blocked for hb.wdt µs raises cause group 17. -/
  | watchdogExpiry (gid : Nat)
  /-- TIME_SLICE_EXPIRY (R302): A tenant's time slice ends and every team of the context is pre-empted. -/
  | timeSliceExpiry (ctx : Nat)
  /-- TEAM_RESUME (R303): A pre-empted team is placed, re-admitted and restored from its save area. -/
  | teamResume (team : Nat)
  /-- TC_INVALIDATE_S1 (R337): Command 1: invalidates a tenant's virtual range in every cache. -/
  | tcInvalidateS1 (w : Writer)
  /-- TC_INVALIDATE_S2 (R337): Command 2: invalidates a partition-address range. -/
  | tcInvalidateS2 (w : Writer)
  /-- TC_RELOAD_CONTEXT (R337): Command 3: reloads a context descriptor, loading or releasing routers. -/
  | tcReloadContext (w : Writer)
  /-- TC_RELOAD_TASK (R337): Command 4: reloads the task descriptors of a context. -/
  | tcReloadTask (w : Writer)
  /-- TC_COMMAND_DONE (R337): A translation-control command finishes everywhere and BUSY clears. -/
  | tcCommandDone
  /-- DL_ENTRY_WRITE_LOW (R330): A write of a delegation entry's low doubleword is staged. -/
  | dlEntryWriteLow (w : Writer) (index : Nat) (value : BitVec 64)
  /-- DL_ENTRY_WRITE_HIGH (R330): A write of the high doubleword checks and commits the whole entry. -/
  | dlEntryWriteHigh (w : Writer) (index : Nat) (value : BitVec 64)
  /-- DL_REVOKE (R330): A write to dl.revoke raises an entry's generation, starting propagation. -/
  | dlRevoke (w : Writer) (value : BitVec 32)
  /-- DL_REVOKE_DONE (R330): Revocation has propagated and BUSY clears. -/
  | dlRevokeDone
  /-- RT_ROW_WRITE (R331): A write to a routing row changes only the cells the writer may write. -/
  | rtRowWrite (w : Writer) (row : Nat) (part : RowPart) (value : BitVec 64)
  /-- PW_SHARE_WRITE (R317): A power share write, ignored if a level's shares would exceed 1024. -/
  | pwShareWrite (w : Writer) (index : Nat) (value : BitVec 32)
  /-- BW_SHARE_WRITE (R325): A bandwidth share write, ignored if shares would exceed 256. -/
  | bwShareWrite (w : Writer) (die index : Nat) (value : BitVec 32)
  /-- PARTITION_TABLE_WRITE (R333): A partition-table write, accepted only with disjoint masks and rules kept. -/
  | partitionTableWrite (w : Writer) (entry : Nat) (field : PartField) (value : BitVec 64)
  /-- LK_MODULE_WRITE (R357): Sets the module number, ignored while a context is resident. -/
  | lkModuleWrite (w : Writer) (value : BitVec 32)
  /-- PF_SEL_WRITE (R55): Writing a prefetch selector zeroes that bucket's counters. -/
  | pfSelWrite (w : Writer) (slice index : Nat) (value : BitVec 32)
  /-- RMF_ENTRY_WRITE (R61): A remap-filter entry write, dropped for another tenant's entry. -/
  | rmfEntryWrite (w : Writer) (core index : Nat) (canon : Bool) (value : BitVec 64)
  /-- HPT_CTL_WRITE (R50): Writes tracker control; clearing EN clears the tables. -/
  | hptCtlWrite (w : Writer) (die : Nat) (value : BitVec 32)
  /-- REGISTER_WRITE (R9): A write to a control register without behaviour of its own. -/
  | registerWrite (w : Writer) (addr : BitVec 52) (size : Nat) (value : BitVec 64)
  /-- FIREWALL_FLIT (R332): A flit crossing a die-to-die port is checked against its firewall. -/
  | firewallFlit (f : Flit)
  /-- FLIT_CRC_FAIL (R339): A flit failing CRC is replayed; a second failure is lasting. -/
  | flitCrcFail (l : CrcFail)
  /-- LINK_DOWN (R339): A chip-to-chip port goes down, giving cause group 18. -/
  | linkDown (port : Nat) (gid : Option Nat) (ctx : Nat) (addr : BitVec 56)
  /-- PEER_DIRECT_WRITE (R339): An inbound peer write is accepted only into a pinned page. -/
  | peerDirectWrite (addr : BitVec 52) (part : Nat) (flit : PeerFlit)
  /-- ROOT_PORT_DMA (R338): Inbound DMA from a root port is translated in two stages. `addr` is the address that the access
  names, bits [51:0] of it where that is a machine address. -/
  | rootPortDma (function : Nat) (addr : BitVec 64) (a : HostAccess) (bytes : List (BitVec 8))
  /-- BOOT (R341): Reset starts verified boot of firmware stages and configuration. -/
  | boot (b : BootImage)
  /-- ATTESTATION_REQUEST (R342): A level requests a signed attestation report of its partition. -/
  | attestationRequest (w : Writer) (part : Nat) (nonce : List (BitVec 8))
  /-- REPLY_TIMEOUT (R308): A request sent over a link gets no reply in time, so the source resends it or cause group 18 with reason 0x3 is raised. -/
  | replyTimeout (op : Nat) (again : Bool)
  /-- RD_CTL_WRITE (R254): A write to rd.ctl switches the race detector on or off for accesses issued after it and, when it sets EN, restarts the rd.logwr count. -/
  | rdCtlWrite (w : Writer) (ctx : Nat) (value : BitVec 32)
deriving DecidableEq, Repr

end Sys2Proof
end

