-- ==== Sys2Proof/Machine/Fields.lean ====
section
/-! DEFINITION. What the encoding of each instruction admits: the class, alignment and count of every
operand field, the kinds of B and C, the modifier bits, and the codes its rule marks illegal (01 R13
to R25 and the rule of each instruction). One row per instruction; the decoder, the well-formedness
check and the allocation and pending checks all read this table. -/

namespace Sys2Proof

/-- The reasons of cause group 5 (16 R308). -/
inductive Reason where
  | form | opcode | reserved | range | pair | clause | flag | modifier | system
deriving DecidableEq, Repr

/-- REASON as cause-5 detail carries it (16 R308). -/
def Reason.code : Reason → Nat
  | .form => 0 | .opcode => 1 | .reserved => 2 | .range => 3 | .pair => 4
  | .clause => 5 | .flag => 6 | .modifier => 7 | .system => 8

/-- The register classes with their CLASS codes of cause 7 (16 R308). -/
inductive RegCls where
  | vec | sca | pred | tile | acc
deriving DecidableEq, Repr

/-- CLASS of the cause-7 detail (16 R308). -/
def RegCls.code : RegCls → Nat
  | .vec => 0 | .sca => 1 | .pred => 2 | .tile => 3 | .acc => 4

/-- A register of a group. -/
structure Reg where
  cls : RegCls
  idx : Nat
deriving DecidableEq, Repr

/-- The field of `w` bits of `x` that starts at bit `lo`, as a number. -/
def fld {n : Nat} (x : BitVec n) (lo w : Nat) : Nat := (x.toNat >>> lo) % 2 ^ w

/-- What an operand field holds: `vec al n` is a vector register that is a multiple of `al` and the
first of `n`, and `sca` likewise; `raw` is a field its own rule reads. -/
inductive Use where
  | zero | vec (al n : Nat) | sca (al n : Nat) | pred | tile | acc | sys | raw
deriving DecidableEq, Repr

/-- What the C field holds: nothing (or the immediate of BK = 0b10), a third source by CK, a scalar
only (CK = 1), a vector only (CK = 0), a predicate, or selectors within a mask. -/
inductive CUse where
  | none | src (al n : Nat) | scaOnly (al n : Nat) | vecOnly (al n : Nat) | pred | mask (m : BitVec 8)
deriving DecidableEq, Repr

/-- One row of the encoding table. `dR`, `dW`, `aW` say whether D is read, D is written, A is written;
`ll` is long-latency (R25); `rm`, `sat`, `ox` name the modifier bits in use; `ord` is the frame of
R195, which uses all of M[10:0]; `more` lists the registers named outside D, A, B, C (true = written);
`bad` is the first illegal code, if any. -/
structure Rule where
  d : Use := .zero
  dR : Bool := false
  dW : Bool := false
  a : Use := .zero
  aW : Bool := false
  b : List (BKind × Use) := []
  c : CUse := .none
  ll : Bool := false
  rm : Bool := false
  sat : Bool := false
  ox : BitVec 8 := 0
  ord : Bool := false
  guard : Bool := true
  more : List (Reg × Bool) := []
  bad : Option Reason := none

/-- The `sy.*` indices that a chapter assigns (02 R44, 03 R62, 06 R112, 07 R133, 11 R218). -/
def sysKnown (i : Nat) : Bool := i ≤ 0x19 || (0x40 ≤ i && i ≤ 0x46)

/-- The first reason of a list of checks. -/
def first : List (Option Reason) → Option Reason
  | [] => none
  | some r :: _ => some r
  | none :: rest => first rest

/-- A check that fails with `r` when `c` holds. -/
def badIf (c : Bool) (r : Reason) : Option Reason := if c then some r else none

/-- The B kinds of R17 with a vector-class source. -/
def anyB : List (BKind × Use) := [(.vec, .vec 1 1), (.sca, .sca 1 1), (.imm, .zero), (.sys, .sys)]

/-- The B kinds of an instruction with a C operand (R17), and of the memory index (R62). -/
def regB : List (BKind × Use) := [(.vec, .vec 1 1), (.sca, .sca 1 1), (.sys, .sys)]

/-- The B kinds of the scalar group (R119). -/
def scaB : List (BKind × Use) := [(.sca, .sca 1 1), (.imm, .zero), (.sys, .sys)]

/-- The B kinds of the `.d` scalar forms (R120): an even pair, and no system register. -/
def scaD (w : Nat) : List (BKind × Use) := if w = 2 then [(.sca, .sca 2 2), (.imm, .zero)] else scaB

/-- The index kinds of SLD and SST (R122). -/
def idxS : List (BKind × Use) := [(.sca, .sca 1 1), (.sys, .sys)]

/-- The predicate that OX[2:0] names. -/
def predOf (ox : BitVec 8) : Reg := ⟨.pred, fld ox 0 3⟩

/-- Registers of a `.d` scalar operand (R120). -/
def wd (o : FOps) : Nat := if o.ox.getLsbD 0 then 2 else 1

/-- Bytes of the access width OX[7:5] (R63). -/
def accBytes (o : FOps) : Nat :=
  match fld o.ox 5 3 with
  | 0 => 1 | 1 => 1 | 2 => 2 | 3 => 2 | 4 => 4 | 5 => 8 | 6 => 16 | _ => 4

/-- Registers of the access width OX[7:5] (R63). -/
def accWords (o : FOps) : Nat :=
  match fld o.ox 5 3 with
  | 5 => 2 | 6 => 4 | _ => 1

/-- Consecutive words of LDP and STP (R65). -/
def ptmWords (o : FOps) : Nat :=
  match fld o.ox 0 2 with
  | 1 => 2 | 2 => 4 | _ => 1

/-- ORD in M[10:6] of the frame of R195: RM, SAT and OX[7:6]. -/
def ordOf (o : FOps) : Nat :=
  (match o.rm with | .rne => 0 | .rtz => 1 | .rup => 2 | .rdn => 3) * 8 + o.sat.toNat * 4 + fld o.ox 6 2

/-- Registers of an operand of type TY, OX[5:4] (R195). -/
def tyWords (o : FOps) : Nat := if o.ox.getLsbD 5 then 2 else 1

/-- An atomic KIND that R197 does not give, or `.fadd` with another type than 0b00. -/
def badKind (o : FOps) : Bool := 11 ≤ fld o.ox 0 4 || (fld o.ox 0 4 = 10 && fld o.ox 4 2 ≠ 0)

/-- RET of ACONT, M[10] (R202). -/
def acRet (o : FOps) : Bool := ordOf o / 16 = 1

/-- BLK of ACONT, M[9:6] (R202). -/
def acBlk (o : FOps) : Nat := ordOf o % 16

/-- The immediate of BK = 0b10 is negative (R17). -/
def immNeg (o : FOps) : Bool := o.bk = .imm && o.c.getLsbD 7

/-- The immediate of BK = 0b10 lies outside 0 to `m`. -/
def immAbove (o : FOps) (m : Nat) : Bool := o.bk = .imm && m < o.c.toNat

/-- Width in bits of a float format code (R158); `none` for an illegal code. -/
def fltWidth : Nat → Option Nat
  | 0 => some 32 | 1 => some 16 | 2 => some 16 | 3 => some 8 | 4 => some 8 | _ => none

/-- Width in bits of an integer format code (R158); `none` for an illegal code. -/
def intWidth : Nat → Option Nat
  | 0 => some 32 | 1 => some 32 | 2 => some 8 | 3 => some 4 | _ => none

/-- The format and element-selector checks of the four converting instructions (R158). -/
def badCvt (srcW dstW : Nat → Option Nat) (o : FOps) : Option Reason :=
  match srcW (fld o.ox 0 3), dstW (fld o.ox 3 3) with
  | some ws, some wd => badIf (32 / ws ≤ fld o.c 0 3 || 32 / wd ≤ fld o.c 3 3) .range
  | _, _ => some .modifier

/-- D of PMOV (R118). -/
def pmovD : Nat → Use
  | 0 => .sca 1 1 | 1 => .pred | 2 => .vec 1 1 | _ => .pred

/-- A of PMOV (R118). -/
def pmovA : Nat → Use
  | 0 => .pred | 1 => .sca 1 1 | 2 => .pred | _ => .vec 1 1

/-- D of TMOV (R75). -/
def tmovD : Nat → Use
  | 2 => .vec 16 16 | 3 => .raw | _ => .tile

/-- A of TMOV (R75). -/
def tmovA : Nat → Use
  | 1 => .vec 16 16 | 3 => .raw | _ => .tile

/-- The integer format pairs of MMA (R175). -/
def intPair (p : Nat) : Bool := 6 ≤ p && p ≤ 10

/-- Columns of AMOV (R180). -/
def amovN (o : FOps) : Nat := 2 ^ (min (fld o.c 5 3) 5)

/-- Bytes per element of a DRAIN output format (R184). -/
def drainBytes (o : FOps) : Nat :=
  match fld o.ox 2 3 with
  | 0 => 4 | 1 => 2 | 2 => 2 | 3 => 1 | 4 => 1 | 5 => 4 | _ => 1

/-- D of DRAIN by destination (R184). -/
def drainD (o : FOps) : Use :=
  match fld o.ox 0 2 with
  | 0 => .sca 1 1 | 1 => .sca 2 2 | 2 => .vec (8 * drainBytes o) (8 * drainBytes o) | _ => .raw

/-- Words of a task record, OX[1:0] (R276). -/
def recWords (o : FOps) : Nat := 4 * 2 ^ fld o.ox 0 2

/-- The encoding table of the F-form instructions in the common frame.
CINV and CWB with `.all` and OX[4] = 1 break the reserved-bit rule (DESIGN CHOICE, log 74: R66 asks only A, B, BK and C to be 0). -/
def Instr.fRule : Instr → Option (FOps × Rule)
  | .iadd o => some (o, { d := .vec 1 1, dW := true, a := .vec 1 1, b := anyB })
  | .isub o => some (o, { d := .vec 1 1, dW := true, a := .vec 1 1, b := anyB })
  | .imul o => some (o, { d := .vec 1 1, dW := true, a := .vec 1 1, b := anyB })
  | .imulh o => some (o, { d := .vec 1 1, dW := true, a := .vec 1 1, b := anyB, ox := 1 })
  | .imad o => some (o, { d := .vec 1 1, dW := true, a := .vec 1 1, b := regB, c := .src 1 1 })
  | .imadw o => some (o, { d := .vec 2 2, dW := true, a := .vec 1 1, b := regB, c := .src 2 2, ox := 1 })
  | .iaddc o => some (o, { d := .vec 1 1, dW := true, a := .vec 1 1, b := anyB, ox := 7, more := [(predOf o.ox, true), (predOf o.ox, false)] })
  | .isubb o => some (o, { d := .vec 1 1, dW := true, a := .vec 1 1, b := anyB, ox := 7, more := [(predOf o.ox, true), (predOf o.ox, false)] })
  | .iabs o => some (o, { d := .vec 1 1, dW := true, a := .vec 1 1, sat := true })
  | .ineg o => some (o, { d := .vec 1 1, dW := true, a := .vec 1 1, sat := true })
  | .imin o => some (o, { d := .vec 1 1, dW := true, a := .vec 1 1, b := anyB, ox := 1 })
  | .imax o => some (o, { d := .vec 1 1, dW := true, a := .vec 1 1, b := anyB, ox := 1 })
  | .iadds o => some (o, { d := .vec 1 1, dW := true, a := .vec 1 1, b := anyB, ox := 1 })
  | .isubs o => some (o, { d := .vec 1 1, dW := true, a := .vec 1 1, b := anyB, ox := 1 })
  | .idot4 o => some (o, { d := .vec 1 1, dW := true, a := .vec 1 1, b := regB, c := .src 1 1, ox := 3, sat := true })
  | .idot8 o => some (o, { d := .vec 1 1, dW := true, a := .vec 1 1, b := regB, c := .src 1 1, ox := 3, sat := true })
  | .lea o => some (o, { d := .vec 1 1, dW := true, a := .vec 1 1, b := anyB, ox := 0x1F })
  | .mov o => some (o, { d := .vec 1 1, dW := true, b := anyB })
  | .sel o => some (o, { d := .vec 1 1, dW := true, a := .vec 1 1, b := anyB, ox := 0x0F, more := [(predOf o.ox, false)] })
  | .and o => some (o, { d := .vec 1 1, dW := true, a := .vec 1 1, b := anyB })
  | .or o => some (o, { d := .vec 1 1, dW := true, a := .vec 1 1, b := anyB })
  | .xor o => some (o, { d := .vec 1 1, dW := true, a := .vec 1 1, b := anyB })
  | .not o => some (o, { d := .vec 1 1, dW := true, a := .vec 1 1 })
  | .tri o => some (o, { d := .vec 1 1, dW := true, a := .vec 1 1, b := regB, c := .src 1 1, ox := 0xFF })
  | .shl o => some (o, { d := .vec 1 1, dW := true, a := .vec 1 1, b := anyB })
  | .shr o => some (o, { d := .vec 1 1, dW := true, a := .vec 1 1, b := anyB })
  | .sar o => some (o, { d := .vec 1 1, dW := true, a := .vec 1 1, b := anyB })
  | .shf o => some (o, { d := .vec 1 1, dW := true, a := .vec 1 1, b := regB, c := .src 1 1, ox := 1 })
  | .popc o => some (o, { d := .vec 1 1, dW := true, a := .vec 1 1 })
  | .clz o => some (o, { d := .vec 1 1, dW := true, a := .vec 1 1 })
  | .brev o => some (o, { d := .vec 1 1, dW := true, a := .vec 1 1 })
  | .bfe o => some (o, { d := .vec 1 1, dW := true, a := .vec 1 1, b := regB, ox := 1 })
  | .bfi o => some (o, { d := .vec 1 1, dW := true, a := .vec 1 1, b := regB, c := .src 1 1 })
  | .prmb o => some (o, { d := .vec 1 1, dW := true, a := .vec 1 1, b := regB, c := .src 1 1 })
  | .fadd o => some (o, { d := .vec 1 1, dW := true, a := .vec 1 1, b := anyB, rm := true })
  | .fsub o => some (o, { d := .vec 1 1, dW := true, a := .vec 1 1, b := anyB, rm := true })
  | .fmul o => some (o, { d := .vec 1 1, dW := true, a := .vec 1 1, b := anyB, rm := true })
  | .ffma o => some (o, { d := .vec 1 1, dW := true, a := .vec 1 1, b := regB, c := .src 1 1, rm := true })
  | .fmin o => some (o, { d := .vec 1 1, dW := true, a := .vec 1 1, b := anyB })
  | .fmax o => some (o, { d := .vec 1 1, dW := true, a := .vec 1 1, b := anyB })
  | .frcp o => some (o, { d := .vec 1 1, dW := true, a := .vec 1 1, rm := true, ll := true })
  | .frsq o => some (o, { d := .vec 1 1, dW := true, a := .vec 1 1, rm := true, ll := true })
  | .fsqrt o => some (o, { d := .vec 1 1, dW := true, a := .vec 1 1, rm := true, ll := true })
  | .fexp2 o => some (o, { d := .vec 1 1, dW := true, a := .vec 1 1, rm := true, ll := true })
  | .flog2 o => some (o, { d := .vec 1 1, dW := true, a := .vec 1 1, rm := true, ll := true })
  | .ftanh o => some (o, { d := .vec 1 1, dW := true, a := .vec 1 1, rm := true, ll := true })
  | .fsinpi o => some (o, { d := .vec 1 1, dW := true, a := .vec 1 1, rm := true, ll := true })
  | .fcospi o => some (o, { d := .vec 1 1, dW := true, a := .vec 1 1, rm := true, ll := true })
  | .frnd o => some (o, { d := .vec 1 1, dW := true, a := .vec 1 1, rm := true })
  | .fclass o => some (o, { d := .vec 1 1, dW := true, a := .vec 1 1 })
  | .fscale o => some (o, { d := .vec 1 1, dW := true, a := .vec 1 1, b := anyB, rm := true })
  | .hadd2 o => some (o, { d := .vec 1 1, dW := true, a := .vec 1 1, b := anyB, rm := true, ox := 1 })
  | .hmul2 o => some (o, { d := .vec 1 1, dW := true, a := .vec 1 1, b := anyB, rm := true, ox := 1 })
  | .hfma2 o => some (o, { d := .vec 1 1, dW := true, a := .vec 1 1, b := regB, c := .src 1 1, rm := true, ox := 1 })
  | .hmin2 o => some (o, { d := .vec 1 1, dW := true, a := .vec 1 1, b := anyB, ox := 1 })
  | .hmax2 o => some (o, { d := .vec 1 1, dW := true, a := .vec 1 1, b := anyB, ox := 1 })
  | .fdot2 o => some (o, { d := .vec 1 1, dW := true, a := .vec 1 1, b := regB, c := .src 1 1, rm := true, ox := 1 })
  | .cvtff o => some (o, { d := .vec 1 1, dW := true, a := .vec 1 1, dR := true, c := .mask 0x3F, rm := true, sat := true, ox := 0x7F, bad := badCvt fltWidth fltWidth o })
  | .cvtfi o => some (o, { d := .vec 1 1, dW := true, a := .vec 1 1, dR := true, c := .mask 0x3F, rm := true, ox := 0x7F, bad := badCvt fltWidth intWidth o })
  | .cvtif o => some (o, { d := .vec 1 1, dW := true, a := .vec 1 1, dR := true, c := .mask 0x3F, rm := true, sat := true, ox := 0x7F, bad := badCvt intWidth fltWidth o })
  | .cvtii o => some (o, { d := .vec 1 1, dW := true, a := .vec 1 1, dR := true, c := .mask 0x3F, sat := true, ox := 0x3F, bad := badCvt intWidth intWidth o })
  | .pack8 o => some (o, { d := .vec 1 1, dW := true, a := .vec 1 1, dR := true, b := regB, c := .mask 1, rm := true, sat := true, ox := 3, bad := first [badIf (fld o.ox 0 2 = 3) .modifier, badIf (fld o.ox 0 2 = 2 && o.sat) .reserved] })
  | .unpk8 o => some (o, { d := .vec 1 1, dW := true, a := .vec 1 1, c := .mask 3, ox := 3, bad := badIf (fld o.ox 0 2 = 3) .modifier })
  | .packq o => some (o, { d := .vec 4 4, dW := true, a := .vec 16 16, b := anyB, rm := true, sat := true, ox := 1 })
  | .unpkq o => some (o, { d := .vec 4 4, dW := true, a := .vec 1 1, b := anyB, rm := true, sat := true, ox := 1 })
  | .keyf o => some (o, { d := .vec 1 1, dW := true, a := .vec 1 1, ox := 0x0F, bad := badIf (fld o.ox 0 2 = 3 || (o.ox.getLsbD 3 && fld o.ox 0 2 ≠ 0)) .modifier })
  | .qscl o => some (o, { d := .vec 1 1, dW := true, a := .vec 1 1, dR := true, c := .mask 3, ox := 7, bad := badIf (5 ≤ fld o.ox 0 3) .modifier })
  | .icmp o => some (o, { d := .pred, dW := true, a := .vec 1 1, b := anyB, ox := 0x0F, bad := badIf (6 ≤ fld o.ox 0 3) .modifier })
  | .fcmp o => some (o, { d := .pred, dW := true, a := .vec 1 1, b := anyB, ox := 7 })
  | .plop o => some (o, { d := .pred, dW := true, a := .pred, b := [(.vec, .pred)], c := .pred, ox := 0xFF })
  | .vote o => some (o, { d := .sca 1 1, dW := true, a := .pred, ox := 7 })
  | .xch o => some (o, { d := .vec 1 1, dW := true, a := .vec 1 1, b := anyB, ox := 0x1F, bad := badIf (5 ≤ fld o.ox 2 3) .modifier })
  | .gred o => some (o, { d := .sca 1 1, dW := true, a := .vec 1 1, ll := true, rm := true, ox := 0x0F, bad := first [badIf (11 ≤ fld o.ox 0 4) .modifier, badIf (fld o.ox 0 4 ≠ 8 && o.rm ≠ .rne) .reserved] })
  | .pmov o => some (o, { d := pmovD (fld o.ox 0 2), dW := true, a := pmovA (fld o.ox 0 2), ox := 3 })
  | .sadd o => some (o, { d := .sca (wd o) (wd o), dW := true, a := .sca (wd o) (wd o), b := scaD (wd o), guard := false, ox := 1 })
  | .ssub o => some (o, { d := .sca (wd o) (wd o), dW := true, a := .sca (wd o) (wd o), b := scaD (wd o), guard := false, ox := 1 })
  | .smul o => some (o, { d := .sca 1 1, dW := true, a := .sca 1 1, b := scaB, guard := false, ox := 3, bad := badIf (fld o.ox 0 2 = 3) .modifier })
  | .sand o => some (o, { d := .sca 1 1, dW := true, a := .sca 1 1, b := scaB, guard := false })
  | .sor o => some (o, { d := .sca 1 1, dW := true, a := .sca 1 1, b := scaB, guard := false })
  | .sxor o => some (o, { d := .sca 1 1, dW := true, a := .sca 1 1, b := scaB, guard := false })
  | .sshl o => some (o, { d := .sca (wd o) (wd o), dW := true, a := .sca (wd o) (wd o), b := scaD (wd o), guard := false, ox := 1 })
  | .sshr o => some (o, { d := .sca (wd o) (wd o), dW := true, a := .sca (wd o) (wd o), b := scaD (wd o), guard := false, ox := 3 })
  | .smov o => some (o, { d := .sca (wd o) (wd o), dW := true, b := scaD (wd o), guard := false, ox := 1 })
  | .spopc o => some (o, { d := .sca 1 1, dW := true, b := scaB, guard := false })
  | .sffs o => some (o, { d := .sca 1 1, dW := true, b := scaB, guard := false })
  | .smin o => some (o, { d := .sca 1 1, dW := true, a := .sca 1 1, b := scaB, guard := false, ox := 1 })
  | .smax o => some (o, { d := .sca 1 1, dW := true, a := .sca 1 1, b := scaB, guard := false, ox := 1 })
  | .scmp o => some (o, { d := .sca 1 1, dW := true, a := .sca 1 1, b := scaB, guard := false, ox := 0x0F, bad := badIf (6 ≤ fld o.ox 0 3) .modifier })
  | .sld o => some (o, { d := .sca (accWords o) (accWords o), dW := true, a := .sca 2 2, b := idxS, c := .mask 0xFF, ll := true, ox := 0xFF, guard := false, bad := badIf (fld o.ox 5 3 ≠ 4 && fld o.ox 5 3 ≠ 5) .modifier })
  | .sst o => some (o, { d := .sca (accWords o) (accWords o), dR := true, a := .sca 2 2, b := idxS, c := .mask 0xFF, ox := 0xFF, guard := false, bad := badIf (fld o.ox 5 3 ≠ 4 && fld o.ox 5 3 ≠ 5) .modifier })
  | .sread o => some (o, { d := .sca 1 1, dW := true, b := [(.sys, .sys)], guard := false })
  | .swrite o => some (o, { a := .sca 1 1, b := [(.sys, .sys)], guard := false, bad := badIf (o.b ≠ 0x43) .system })
  | .ld o => some (o, { d := .vec (accWords o) (accWords o), dW := true, a := .sca 2 2, b := regB, c := .mask 0xFF, ll := true, ox := 0xFF, bad := badIf (fld o.ox 5 3 = 7) .modifier })
  | .st o => some (o, { d := .vec (accWords o) (accWords o), dR := true, a := .sca 2 2, b := regB, c := .mask 0xFF, ox := 0xFF, bad := badIf (fld o.ox 5 3 = 7) .modifier })
  | .ldp o => some (o, { d := .vec (ptmWords o) (ptmWords o), dW := true, b := anyB, ll := true, ox := 3, bad := badIf (fld o.ox 0 2 = 3) .modifier })
  | .stp o => some (o, { d := .vec (ptmWords o) (ptmWords o), dR := true, b := anyB, ox := 3, bad := badIf (fld o.ox 0 2 = 3) .modifier })
  | .pref o => some (o, { a := .sca 2 2, b := regB, c := .mask 0x3F, ox := 0x11 })
  | .cinv o => some (o, { a := if o.ox.getLsbD 1 then .zero else .sca 2 2, b := if o.ox.getLsbD 1 then [] else regB, c := if o.ox.getLsbD 1 then .none else .mask 0x3F, ox := if o.ox.getLsbD 1 then 0x03 else 0x13, bad := badIf (o.ox.getLsbD 1 && o.ox.getLsbD 0) .modifier })
  | .cwb o => some (o, { a := if o.ox.getLsbD 1 then .zero else .sca 2 2, b := if o.ox.getLsbD 1 then [] else regB, c := if o.ox.getLsbD 1 then .none else .mask 0x3F, ox := if o.ox.getLsbD 1 then 0x03 else 0x13, bad := badIf (o.ox.getLsbD 1 && o.ox.getLsbD 0) .modifier })
  | .lds o => some (o, { d := .vec (accWords o) (accWords o), dW := true, a := .sca 1 1, b := regB, c := .mask 0x3F, ll := true, ox := 0xF0, bad := badIf (fld o.ox 5 3 = 7) .modifier })
  | .sts o => some (o, { d := .vec (accWords o) (accWords o), dR := true, a := .sca 1 1, b := regB, c := .mask 0x3F, ox := 0xF0, bad := badIf (fld o.ox 5 3 = 7) .modifier })
  | .tld o => some (o, { d := .tile, dW := true, a := .sca 1 1, b := if o.ox.getLsbD 0 then [(.sca, .sca 1 1)] else [], ll := true, ox := 1 })
  | .tst o => some (o, { d := .tile, dR := true, a := .sca 1 1, b := if o.ox.getLsbD 0 then [(.sca, .sca 1 1)] else [], ox := 1 })
  | .tmov o => some (o, { d := tmovD (fld o.ox 0 2), dW := true, a := tmovA (fld o.ox 0 2), ll := true, ox := 3, bad := badIf (fld o.ox 0 2 = 3) .modifier })
  | .pdecl o => some (o, { d := .sca 1 1, dW := true, a := .sca 2 2, b := [(.sca, .sca 1 1)], c := if o.ox.getLsbD 0 then .scaOnly 1 1 else .none, ox := 1 })
  | .penter o => some (o, { a := .sca 1 1 })
  | .pwait o => some (o, { a := .sca 1 1 })
  | .pleave o => some (o, { a := .sca 1 1 })
  | .pdrop o => some (o, { a := .sca 1 1 })
  | .pqry o => some (o, { d := .sca 1 1, dW := true, a := .sca 1 1 })
  | .atom o => some (o, { d := .vec (tyWords o) (tyWords o), dW := true, a := .sca 2 2, b := regB, c := .src (tyWords o) (tyWords o), ll := true, ord := true, bad := first [badIf (25 ≤ ordOf o) .modifier, badIf (badKind o) .modifier] })
  | .acas o => some (o, { d := .vec (tyWords o) (tyWords o), dW := true, a := .sca 2 2, b := regB, c := .src (2 * tyWords o) (2 * tyWords o), ll := true, ord := true, bad := first [badIf (25 ≤ ordOf o) .modifier, badIf (fld o.ox 0 4 ≠ 0 || o.ox.getLsbD 4) .modifier] })
  | .red o => some (o, { a := .sca 2 2, b := regB, c := .src (tyWords o) (tyWords o), ord := true, bad := first [badIf (25 ≤ ordOf o) .modifier, badIf (badKind o) .modifier, badIf (ordOf o / 5 ≠ 0 && ordOf o / 5 ≠ 2) .modifier] })
  | .acont o => some (o, { d := if acRet o then .vec (tyWords o) (tyWords o) else .zero, dW := acRet o, a := .sca 2 2, b := regB, c := if fld o.ox 0 4 = 0 || fld o.ox 0 4 = 3 then .src (2 * tyWords o) (2 * tyWords o) else .src (tyWords o) (tyWords o), ll := acRet o, ord := true, more := (List.range 4).map (fun k => (⟨.sca, 4 * acBlk o + k⟩, false)), bad := badIf (4 ≤ fld o.ox 0 4) .modifier })
  | .fence o => some (o, { ord := true, guard := false, bad := first [badIf (fld o.ox 0 6 ≠ 0) .reserved, badIf (ordOf o < 5 || 25 ≤ ordOf o) .modifier] })
  | .waitn o => some (o, { b := [(.sca, .sca 1 1), (.imm, .zero)], guard := false, ox := 7, bad := first [badIf (6 ≤ fld o.ox 0 3) .modifier, badIf (immNeg o) .range] })
  | .mma o => some (o, { d := .acc, dW := true, dR := !o.ox.getLsbD 4, a := .vec 16 16, b := [(.vec, .tile)], ll := true, sat := true, ox := 0x3F, bad := first [badIf (14 ≤ fld o.ox 0 4) .modifier, badIf (o.sat && !intPair (fld o.ox 0 4)) .reserved] })
  | .mmas o => some (o, { d := .acc, dW := true, dR := !o.ox.getLsbD 4, a := .vec 16 16, b := [(.vec, .tile)], c := .vecOnly 2 2, ll := true, ox := 0xFF, bad := badIf (14 ≤ fld o.ox 0 4) .modifier })
  | .aclr o => some (o, { d := .acc, dW := true, ll := true })
  | .amov o => some (o, { d := .vec (amovN o) (amovN o), dW := true, a := .acc, c := .mask 0xFF, ll := true, bad := first [badIf (6 ≤ fld o.c 5 3) .modifier, badIf (fld o.c 0 5 % amovN o ≠ 0) .range] })
  | .aload o => some (o, { d := .acc, dW := true, dR := o.ox.getLsbD 1, a := if o.ox.getLsbD 0 then .sca 1 1 else .sca 2 2, b := [(.sca, .sca 1 1)], ll := true, ox := if o.ox.getLsbD 1 then 7 else 3 })
  | .drain o => some (o, { d := drainD o, dW := fld o.ox 0 2 = 2, dR := fld o.ox 0 2 ≠ 2, a := .acc, b := [(.vec, .raw)], c := .scaOnly 2 2, ll := fld o.ox 0 2 = 2, ox := 0x7F, bad := first [badIf (fld o.ox 0 2 = 3 || fld o.ox 2 3 = 7) .modifier,   badIf (o.ox.getLsbD 6 && (fld o.ox 0 2 = 2 || drainBytes o = 1)) .modifier] })
  | .drepl o => some (o, { b := [(.sca, .sca 1 1), (.imm, .zero)], bad := badIf (immAbove o 3) .range })
  | .atbl o => some (o, { a := .sca 2 2, ox := 1 })
  | .ckick o => some (o, { a := .sca 1 1, ox := 7, bad := badIf (5 ≤ fld o.ox 0 3) .modifier })
  | .gthr o => some (o, { d := .sca 1 1, dR := true, a := .sca 2 2, b := [(.vec, .vec 1 1)], c := .scaOnly 1 1, ox := 0xFF, bad := badIf (5 ≤ fld o.ox 5 3) .modifier })
  | .sctr o => some (o, { d := .sca 1 1, dR := true, a := .sca 2 2, b := [(.vec, .vec 1 1)], c := .scaOnly 1 1, ox := 0xFF, bad := badIf (5 ≤ fld o.ox 5 3) .modifier })
  | .coll o => some (o, { a := .sca 1 1, ox := 7, bad := badIf (5 ≤ fld o.ox 0 3) .modifier })
  | .binit o => some (o, { a := .sca 1 1, b := [(.sca, .sca 1 1), (.imm, .zero)] })
  | .bexp o => some (o, { a := .sca 1 1, b := [(.sca, .sca 1 1), (.imm, .zero)] })
  | .bwait o => some (o, { a := .sca 1 1, b := [(.sca, .sca 1 1), (.imm, .zero)], bad := badIf (immAbove o 1) .range })
  | .cstat o => some (o, { d := .sca 1 1, dW := true, ox := 7, bad := badIf (fld o.ox 0 3 = 7) .modifier })
  | .brx o => some (o, { a := .sca 2 2, b := [(.sca, .sca 1 1)], guard := false })
  | .callx o => some (o, { d := .sca 2 2, dW := true, a := .sca 2 2, b := [(.sca, .sca 1 1)], guard := false })
  | .ret o => some (o, { a := .sca 2 2, guard := false })
  | .exit o => some (o, { guard := false })
  | .nop o => some (o, { guard := false })
  | .regroup o => some (o, { d := .sca 1 1, dW := true, a := .vec 1 (o.c.toNat + 1), aW := true, c := .mask 0xFF, guard := false })
  | .yield o => some (o, { guard := false })
  | .barv o => some (o, { d := if o.ox.getLsbD 4 then .sca 1 1 else .zero, dW := o.ox.getLsbD 4, b := [(.sca, .sca 1 1), (.imm, .zero)], ox := 0x1F, guard := false })
  | .bsyn o => some (o, { b := [(.sca, .sca 1 1), (.imm, .zero)], ox := 0x0F, guard := false })
  | .bphs o => some (o, { b := [(.sca, .sca 1 1), (.imm, .zero)], ox := 0x0F, guard := false, bad := badIf (immAbove o 1) .range })
  | .qpush o => some (o, { a := .sca 1 1, ox := 7, guard := false })
  | .qpop o => some (o, { d := .sca 1 1, dW := true, ox := 7, guard := false })
  | .qalw o => some (o, { b := [(.sca, .sca 1 1), (.imm, .zero)], ox := 7, guard := false, bad := badIf (immNeg o) .range })
  | .qalwInit o => some (o, { a := .sca 1 1, b := [(.sca, .sca 1 1), (.imm, .zero)], ox := 0x0F, guard := false, bad := first [badIf (!o.ox.getLsbD 3) .modifier, badIf (immNeg o) .range] })
  | .qtryPush o => some (o, { d := .sca 1 1, dW := true, a := .sca 1 1, ox := 0x0F, guard := false, bad := badIf (!o.ox.getLsbD 3) .modifier })
  | .qtryPop o => some (o, { d := .sca 2 2, dW := true, ox := 7, guard := false })
  | .gsync o => some (o, { a := .sca 2 2, b := [(.sca, .sca 1 1), (.imm, .zero)], guard := false })
  | .deq o => some (o, { d := .vec 4 (recWords o), dW := true, a := .sca 2 2, aW := true, ox := 3, guard := false })
  | .deqt o => some (o, { d := .vec 4 (recWords o), dW := true, a := .sca 2 2, aW := true, b := [(.sca, .sca 1 1)], ox := 3, guard := false })
  | .rpush o => some (o, { d := .vec 4 (recWords o), dR := true, a := .sca 1 1, ox := 3 })
  | .rpass o => some (o, { d := .vec 4 (recWords o), dR := true, ox := 3 })
  | .rrej o => some (o, { d := .vec 4 (recWords o), dR := true, ox := 3 })
  | .lnch o => some (o, { a := .sca 1 1, c := if o.ox.getLsbD 0 then .scaOnly 2 2 else .none, ox := 1, guard := false })
  | .nodeqQry o => some (o, { d := .sca 1 1, dW := true, a := .sca 1 1, guard := false })
  | .nodeqSeal o => some (o, { a := .sca 1 1, ox := 3, guard := false, bad := badIf (fld o.ox 0 2 ≠ 1) .modifier })
  | .nodeqOpen o => some (o, { a := .sca 1 1, ox := 3, guard := false, bad := badIf (fld o.ox 0 2 ≠ 2) .modifier })
  | .rbind o => some (o, { a := if o.ox.getLsbD 1 then .zero else .sca 1 1, ox := 3, guard := false, bad := badIf (fld o.ox 0 2 = 3) .modifier })
  | .tstamp o => some (o, { d := .sca 2 2, dW := true, guard := false })
  | .cycles o => some (o, { d := .sca 2 2, dW := true, guard := false })
  | .phint o => some (o, { a := if o.ox.getLsbD 0 then .zero else .sca 4 4, ox := 1, guard := false })
  | .phints o => some (o, { a := .sca 2 2, ox := 3, guard := false })
  | .ostage o => some (o, { a := .vec 1 (o.c.toNat + 1), b := [(.imm, .zero)], guard := false, bad := badIf (15 < o.c.toNat) .range })
  | .evrd o => some (o, { d := .sca 2 2, dW := true, b := [(.sca, .sca 1 1), (.imm, .zero)], ox := 1, guard := false, bad := badIf (immAbove o (if o.ox.getLsbD 0 then 31 else 7)) .range })
  | .evcfg o => some (o, { a := .sca 1 1, b := [(.sca, .sca 1 1), (.imm, .zero)], ox := 1, guard := false, bad := badIf (immAbove o (if o.ox.getLsbD 0 then 31 else 7)) .range })
  | .ophint o => some (o, { b := [(.sca, .sca 1 1), (.imm, .zero)], guard := false, bad := badIf (immAbove o 7) .range })
  | _ => none

/-- The check of one operand field against its use (R16). -/
def Use.check (u : Use) (x : BitVec 8) : Option Reason :=
  match u with
  | .zero => badIf (x ≠ 0) .reserved
  | .vec al n => badIf (x.toNat % al ≠ 0 || 256 < x.toNat + n) .range
  | .sca al n => badIf (x.toNat % al ≠ 0 || 64 < x.toNat + n) .range
  | .pred => badIf (8 ≤ x.toNat) .range
  | .tile => badIf (16 ≤ x.toNat) .range
  | .acc => badIf (8 ≤ x.toNat) .range
  | .sys => badIf (!sysKnown x.toNat) .system
  | .raw => none

/-- The check of B by its kind (R17). -/
def Rule.checkB (r : Rule) (o : FOps) : Option Reason :=
  match r.b with
  | [] => first [badIf (o.bk ≠ .vec) .modifier, badIf (o.b ≠ 0) .reserved]
  | l => match l.find? (fun p => p.1 = o.bk) with
    | some p => p.2.check o.b
    | none => some .modifier

/-- The check of C and CK. -/
def Rule.checkC (r : Rule) (o : FOps) : Option Reason :=
  match r.c with
  | .none => first [badIf (o.ck) .reserved, badIf (o.bk ≠ .imm && o.c ≠ 0) .reserved]
  | .src al n => if o.ck then (Use.sca al n).check o.c else (Use.vec al n).check o.c
  | .scaOnly al n => first [badIf (!o.ck) .modifier, (Use.sca al n).check o.c]
  | .vecOnly al n => first [badIf o.ck .modifier, (Use.vec al n).check o.c]
  | .pred => first [badIf o.ck .reserved, Use.pred.check o.c]
  | .mask m => first [badIf o.ck .reserved, badIf (o.c &&& ~~~m ≠ 0) .reserved]

/-- Every check of an F-form word that its bits alone determine, the first failure deciding. -/
def Rule.check (r : Rule) (o : FOps) : Option Reason :=
  first [
    badIf (!r.guard && o.g ≠ .none) .reserved,
    r.d.check o.d, r.a.check o.a, r.checkB o, r.checkC o,
    badIf (!r.ll && o.fs) .flag,
    badIf (!r.ord && !r.rm && o.rm ≠ .rne) .reserved,
    badIf (!r.ord && !r.sat && o.sat) .reserved,
    badIf (!r.ord && o.ox &&& ~~~r.ox ≠ 0) .reserved,
    r.bad]

/-- The checks of the words in the immediate frame (R18, R211, R310). -/
def ImmOps.checkAs (o : ImmOps) (d a : Use) (mods : BitVec 8) (guard : Bool) (bad : Option Reason) : Option Reason :=
  first [badIf (!guard && o.g ≠ .none) .reserved, d.check o.d, a.check o.a,
    badIf (o.mods &&& ~~~mods ≠ 0) .reserved, bad]

/-- The scalar halves of R22. -/
def POp.isSca : POp → Bool
  | .sadd | .ssub | .sand | .sor | .sxor | .smov | .sshl | .sshr => true
  | _ => false

/-- The restricted opcode of a half (R22). -/
def POp.code : POp → Nat
  | .iadd => 0x00 | .isub => 0x01 | .imin => 0x02 | .imax => 0x03 | .and => 0x04 | .or => 0x05 | .xor => 0x06
  | .shl => 0x07 | .shr => 0x08 | .sar => 0x09 | .mov => 0x0A | .imul => 0x0B
  | .fadd => 0x10 | .fsub => 0x11 | .fmul => 0x12 | .fmin => 0x13 | .fmax => 0x14 | .hadd2 => 0x18 | .hmul2 => 0x19
  | .sadd => 0x20 | .ssub => 0x21 | .sand => 0x22 | .sor => 0x23 | .sxor => 0x24 | .smov => 0x25
  | .sshl => 0x26 | .sshr => 0x27 | .lds => 0x30 | .sts => 0x31 | .nop => 0x38

/-- The sub-modifiers that R22 gives an operation. -/
def POp.subOk (p : POp) (sub : BitVec 3) : Bool :=
  match p with
  | .fadd | .fsub | .fmul | .hadd2 | .hmul2 => sub.toNat < 4
  | .lds | .sts => sub.toNat < 3
  | _ => sub = 0

/-- The registers a half writes (R21). -/
def PHalf.writes (h : PHalf) : List Reg :=
  if h.op = .sts || h.op = .nop then []
  else [⟨if h.op.isSca then .sca else .vec, h.f.d.toNat⟩]

/-- The registers a half reads, in the order of R21: D where D is a source, then S where it is a register. -/
def PHalf.reads (h : PHalf) : List Reg :=
  let cls : RegCls := if h.op.isSca then .sca else .vec
  let d : List Reg := if h.op = .mov || h.op = .lds || h.op = .nop then [] else [⟨cls, h.f.d.toNat⟩]
  let s : List Reg := if h.f.imm || h.op = .nop then [] else [⟨cls, h.f.s.toNat⟩]
  d ++ s

/-- The checks of one half (R19, R21, R22). A guard on a scalar half breaks a rule of R21 that 16 R308 puts in no other
class (log 9). -/
def PHalf.check (h : PHalf) : Option Reason :=
  if h.op = .nop then
    first [badIf (h.f.g ≠ none || h.f.d ≠ 0 || h.f.s ≠ 0 || h.f.imm) .reserved, badIf (h.f.sub ≠ 0) .modifier]
  else if h.op.isSca then
    first [badIf (h.f.g ≠ none) .pair, (Use.sca 1 1).check h.f.d,
      if h.f.imm then none else (Use.sca 1 1).check h.f.s, badIf (!h.op.subOk h.f.sub) .modifier]
  else badIf (!h.op.subOk h.f.sub) .modifier

/-- Reads of vector registers in bank `b`, with a register read twice counted twice (R21). -/
def bankReads (rs : List Reg) (b : Nat) : Nat :=
  (rs.filter (fun r => r.cls = .vec && r.idx % 4 = b)).length

/-- The pair rules of R21. -/
def pairBad (x y : PHalf) : Bool :=
  let wx := x.writes
  let wy := y.writes
  let rs := x.reads ++ y.reads
  wx.any (fun a => wy.any (fun b => a = b || (a.cls = .vec && b.cls = .vec && a.idx % 4 = b.idx % 4)))
  || (List.range 4).any (fun b => 2 < bankReads rs b)
  || ((x.op = .lds || x.op = .sts) && (y.op = .lds || y.op = .sts))

/-- A word's encoding error: its reason, and the half for a P-form word (16 R308). -/
structure EncErr where
  reason : Reason
  half : Bool
deriving DecidableEq, Repr

/-- The checks of a P-form word: half X, half Y, then the pair. -/
def pairCheck (x y : PHalf) : Option EncErr :=
  match x.check with
  | some r => some ⟨r, false⟩
  | none => match y.check with
    | some r => some ⟨r, true⟩
    | none => if pairBad x y then some ⟨.pair, false⟩ else none

/-- The checks of a clause header (R23). -/
def Header.check (h : Header) : Option Reason :=
  first [
    badIf (h.sa.any (fun x => 11 < x.toNat) || h.sb.any (fun x => 11 < x.toNat)) .clause,
    badIf (h.sa.isSome && h.sa = h.sb) .clause]

/-- The half X of a word named by its X operation. -/
def Instr.halves : Instr → Option (PHalf × PHalf)
  | .iaddP x y => some (⟨.iadd, x⟩, y)
  | .isubP x y => some (⟨.isub, x⟩, y)
  | .iminP x y => some (⟨.imin, x⟩, y)
  | .imaxP x y => some (⟨.imax, x⟩, y)
  | .andP x y => some (⟨.and, x⟩, y)
  | .orP x y => some (⟨.or, x⟩, y)
  | .xorP x y => some (⟨.xor, x⟩, y)
  | .shlP x y => some (⟨.shl, x⟩, y)
  | .shrP x y => some (⟨.shr, x⟩, y)
  | .sarP x y => some (⟨.sar, x⟩, y)
  | .movP x y => some (⟨.mov, x⟩, y)
  | .imulP x y => some (⟨.imul, x⟩, y)
  | .faddP x y => some (⟨.fadd, x⟩, y)
  | .fsubP x y => some (⟨.fsub, x⟩, y)
  | .fmulP x y => some (⟨.fmul, x⟩, y)
  | .fminP x y => some (⟨.fmin, x⟩, y)
  | .fmaxP x y => some (⟨.fmax, x⟩, y)
  | .hadd2P x y => some (⟨.hadd2, x⟩, y)
  | .hmul2P x y => some (⟨.hmul2, x⟩, y)
  | .saddP x y => some (⟨.sadd, x⟩, y)
  | .ssubP x y => some (⟨.ssub, x⟩, y)
  | .sandP x y => some (⟨.sand, x⟩, y)
  | .sorP x y => some (⟨.sor, x⟩, y)
  | .sxorP x y => some (⟨.sxor, x⟩, y)
  | .smovP x y => some (⟨.smov, x⟩, y)
  | .sshlP x y => some (⟨.sshl, x⟩, y)
  | .sshrP x y => some (⟨.sshr, x⟩, y)
  | .ldsP x y => some (⟨.lds, x⟩, y)
  | .stsP x y => some (⟨.sts, x⟩, y)
  | .nopP x y => some (⟨.nop, x⟩, y)
  | _ => none

/-- Every encoding check that the bits of a word determine (R13): `none` for a well-formed word and for
the events. -/
def Instr.encErr (i : Instr) : Option EncErr :=
  match i.halves with
  | some (x, y) => pairCheck x y
  | none =>
    let r : Option Reason := match i with
      | .bra o => o.checkAs .zero .zero 0 false none
      | .brc o => o.checkAs .zero (.sca 1 1) 7 false (badIf (6 ≤ fld o.mods 0 3) .modifier)
      | .brs o => o.checkAs .raw .raw 0x0F false none
      | .join o => o.checkAs .zero .zero 0 false none
      | .call o => o.checkAs (.sca 2 2) .zero 0 false none
      | .trap o => o.checkAs .zero (if o.mods.getLsbD 0 then .sca 1 1 else .zero) 1 true (badIf (fld o.imm 16 7 ≠ 0) .reserved)
      | .bkpt o => o.checkAs .zero .zero 0 true (badIf (fld o.imm 16 7 ≠ 0) .reserved)
      | .movi o => first [(Use.vec 1 1).check o.d, badIf (o.mods ≠ 0) .reserved]
      | .smovi o => first [badIf (o.g ≠ .none) .reserved, (Use.sca 1 1).check o.d, badIf (o.mods ≠ 0) .reserved]
      | .clauseStart h => h.check
      | .clauseSkip h => h.check
      | i => match i.fRule with
        | some (o, r) => r.check o
        | none => none
    r.map (fun r => ⟨r, false⟩)

end Sys2Proof
end

