-- ==== Sys2Proof/Machine/Bits.lean ====
section
/-! DEFINITION. The bit helpers of the manual's pseudocode (00 R10): fields, sign extension, little-endian
bytes. -/

namespace Sys2Proof

/-- `bits(x, lo + w - 1, lo)` of a number (R10). -/
def nbits (x lo w : Nat) : Nat := (x >>> lo) % 2 ^ w

/-- `sext(x, n)` of the low `n` bits of a number (R10). -/
def sext (x n : Nat) : Int :=
  let y := x % 2 ^ n
  if y < 2 ^ (n - 1) then (y : Int) else (y : Int) - (2 ^ n : Nat)

/-- An integer modulo 2^n. -/
def wrap (x : Int) (n : Nat) : Nat := (x % ((2 ^ n : Nat) : Int)).toNat

/-- An integer as a 32-bit word, modulo 2^32. -/
def word (x : Int) : Word := BitVec.ofNat 32 (wrap x 32)

/-- The 64-bit value of a register pair, low word first (R120). -/
def pair (lo hi : Word) : DWord := hi ++ lo

/-- The low word of a pair. -/
def loWord (x : DWord) : Word := x.extractLsb' 0 32

/-- The high word of a pair. -/
def hiWord (x : DWord) : Word := x.extractLsb' 32 32

/-- `clamp(x, lo, hi)`. -/
def clamp (x lo hi : Int) : Int := if x < lo then lo else if hi < x then hi else x

/-- The `n` little-endian bytes of a number (R6). -/
def toBytes (x : Nat) : Nat → List Byte
  | 0 => []
  | n + 1 => BitVec.ofNat 8 (x % 256) :: toBytes (x / 256) n

/-- The number of a little-endian run of bytes (R6). -/
def ofBytes : List Byte → Nat
  | [] => 0
  | b :: rest => b.toNat + 256 * ofBytes rest

/-- Number of bits of `x` below bit `n` that are set. -/
def popcount (x : Nat) : Nat → Nat
  | 0 => 0
  | n + 1 => popcount x n + (x.testBit n).toNat

/-- Number of set bits of a 32-lane mask. -/
def lanesOf (m : Word) : Nat := popcount m.toNat 32

/-- The lowest set bit below `n`, counting from `k`. -/
def lowestFrom (x : Nat) (k : Nat) : Nat → Option Nat
  | 0 => none
  | n + 1 => if x.testBit k then some k else lowestFrom x (k + 1) n

/-- The lowest set bit of a 32-bit word. -/
def lowest (m : Word) : Option Nat := lowestFrom m.toNat 0 32

/-- The word whose bit L is `f L`. -/
def wordOfBits (f : Nat → Bool) : Nat → Nat
  | 0 => 0
  | n + 1 => wordOfBits f n + (if f n then 2 ^ n else 0)

/-- The lane mask whose bit L is `f L`. -/
def maskOf (f : Nat → Bool) : Word := BitVec.ofNat 32 (wordOfBits f 32)

/-- Bit reversal of a word. -/
def bitRev (x : Word) : Word := BitVec.ofNat 32 (wordOfBits (fun i => x.getLsbD (31 - i)) 32)

/-- Number of bits needed to write `x`: 0 for 0. -/
def bitLen (x : Nat) : Nat := if x = 0 then 0 else Nat.log2 x + 1

/-- Number of leading zero bits of a word, 32 for 0 (R148). -/
def clz (x : Word) : Nat := 32 - bitLen x.toNat

/-- The exclusive or of two Booleans as a Boolean. -/
def bxor (a b : Bool) : Bool := a != b

end Sys2Proof
end

