-- ==== Sys2Proof/Machine/Float.lean ====
section
/-! DEFINITION. The floating-point formats, exact values, rounding, overflow, zero signs and exception
conditions (07 R124 to R133), the SC8 scales and Q4X quads (R134 to R137), and order keys (R139). Every
operation is computed exactly and rounded once. -/

namespace Sys2Proof

/-- A floating-point layout: exponent bits, fraction bits; the bias is 2^(ebits - 1) - 1 (R125). -/
structure Fmt where
  ebits : Nat
  frac : Nat
deriving DecidableEq, Repr

/-- FP32 (R125). -/
def fp32 : Fmt := ⟨8, 23⟩
/-- FP16 (R125). -/
def fp16 : Fmt := ⟨5, 10⟩
/-- BF16 (R125). -/
def bf16 : Fmt := ⟨8, 7⟩
/-- F8H, E4M3 (R125). -/
def f8h : Fmt := ⟨4, 3⟩
/-- F8W, E5M2 (R125). -/
def f8w : Fmt := ⟨5, 2⟩

/-- The exponent bias (R125). -/
def Fmt.bias (f : Fmt) : Int := 2 ^ (f.ebits - 1) - 1
/-- The special exponent code, all ones (R126). -/
def Fmt.emax (f : Fmt) : Nat := 2 ^ f.ebits - 1
/-- The width in bits. -/
def Fmt.width (f : Fmt) : Nat := 1 + f.ebits + f.frac
/-- The word of ±infinity (R126). -/
def Fmt.inf (f : Fmt) (neg : Bool) : Nat := neg.toNat * 2 ^ (f.ebits + f.frac) + f.emax * 2 ^ f.frac
/-- The largest finite value with a sign (R127). -/
def Fmt.maxFinite (f : Fmt) (neg : Bool) : Nat := f.inf neg - 1
/-- The word of ±0. -/
def Fmt.zero (f : Fmt) (neg : Bool) : Nat := neg.toNat * 2 ^ (f.ebits + f.frac)
/-- The canonical NaN (R127). -/
def Fmt.nan (f : Fmt) : Nat := f.inf false + 2 ^ (f.frac - 1)
/-- The exponent of the subnormal grid, 1 - bias - frac (R129). -/
def Fmt.qmin (f : Fmt) : Int := 1 - f.bias - f.frac
/-- The exponent of the grid of the largest finite values. -/
def Fmt.qmax (f : Fmt) : Int := (f.emax : Int) - 1 - f.bias - f.frac

/-- An exact value: NaN, ±infinity, or (-1)^neg × m × 2^e, where m = 0 is a signed zero (R126). `sticky`
says that the magnitude lies strictly between m × 2^e and (m + 1) × 2^e; it is set only on values with
more than 40 significant bits, so that rounding never needs the rest. -/
inductive Val where
  | nan
  | inf (neg : Bool)
  | fin (neg : Bool) (m : Nat) (e : Int) (sticky : Bool)
deriving DecidableEq, Repr

/-- An exact dyadic value. -/
def Val.dy (neg : Bool) (m : Nat) (e : Int) : Val := .fin neg m e false

/-- A signed zero. -/
def Val.zero (neg : Bool) : Val := .fin neg 0 0 false

/-- The value of an integer; 0 is +0. -/
def Val.ofInt (x : Int) : Val := .dy (x < 0) x.natAbs 0

/-- The value of a word of a format (R126). -/
def Fmt.decode (f : Fmt) (x : Nat) : Val :=
  let s := nbits x (f.ebits + f.frac) 1 = 1
  let e := nbits x f.frac f.ebits
  let m := nbits x 0 f.frac
  if e = f.emax then (if m = 0 then .inf s else .nan)
  else if e = 0 then .dy s m f.qmin
  else .dy s (m + 2 ^ f.frac) ((e : Int) - f.bias - f.frac)

/-- The exceptions of R133. -/
structure FFlags where
  inv : Bool := false
  dz : Bool := false
  ov : Bool := false
  uf : Bool := false
  nx : Bool := false
deriving DecidableEq, Repr

/-- The union of two sets of exceptions. -/
def FFlags.or (a b : FFlags) : FFlags := ⟨a.inv || b.inv, a.dz || b.dz, a.ov || b.ov, a.uf || b.uf, a.nx || b.nx⟩

/-- The exceptions in the bit order of R133. -/
def FFlags.bits (f : FFlags) : Nat := f.inv.toNat + 2 * f.dz.toNat + 4 * f.ov.toNat + 8 * f.uf.toNat + 16 * f.nx.toNat

/-- The multiple of 2^q to which m × 2^e (with sticky) rounds, and whether rounding changed the value (R129). -/
def roundGrid (mode : RMode) (neg : Bool) (m : Nat) (e : Int) (sticky : Bool) (q : Int) : Nat × Bool :=
  if q ≤ e then (m <<< (e - q).toNat, sticky)
  else
    let sh := min (q - e).toNat (bitLen m + 2)
    let t := m >>> sh
    let rem := m % 2 ^ sh
    let half := 2 ^ (sh - 1)
    let inexact := rem ≠ 0 || sticky
    let up := match mode with
      | .rne => half < rem || (rem = half && (sticky || t % 2 = 1))
      | .rtz => false
      | .rup => inexact && !neg
      | .rdn => inexact && neg
    (t + up.toNat, inexact)

/-- The overflow results (R130). -/
def Fmt.overflow (f : Fmt) (mode : RMode) (sat neg : Bool) : Nat :=
  if sat then f.maxFinite neg
  else match mode, neg with
    | .rne, _ => f.inf neg
    | .rtz, _ => f.maxFinite neg
    | .rup, false => f.inf false
    | .rup, true => f.maxFinite true
    | .rdn, false => f.maxFinite false
    | .rdn, true => f.inf true

/-- `round(x, fmt, mode)` with SAT (R129, R130), and the overflow, underflow and inexact it raises (R133). -/
def Fmt.round (f : Fmt) (mode : RMode) (sat : Bool) (x : Val) : Nat × FFlags :=
  match x with
  | .nan => (f.nan, {})
  | .inf neg => if sat then (f.maxFinite neg, { nx := true }) else (f.inf neg, {})
  | .fin neg m e sticky =>
    if m = 0 && !sticky then (f.zero neg, {})
    else
      let q := max (e + bitLen m - (f.frac + 1)) f.qmin
      let (y, inexact) := roundGrid mode neg m e sticky q
      if f.qmax < q || (q = f.qmax && 2 ^ (f.frac + 1) ≤ y) then
        (f.overflow mode sat neg, { ov := true, nx := true })
      else if y < 2 ^ f.frac then (f.zero neg + y, { uf := inexact, nx := inexact })
      else
        let (y, q) := if y = 2 ^ (f.frac + 1) then (2 ^ f.frac, q + 1) else (y, q)
        (f.zero neg + (q + f.bias + f.frac).toNat * 2 ^ f.frac + (y - 2 ^ f.frac), { nx := inexact })

/-- The zero that an exact zero sum of unlike terms takes (R131). -/
def sumZero (mode : RMode) : Val := .zero (mode = .rdn)

/-- The signed integer of a dyadic value at exponent `e0`, where e0 is at most its own. -/
def Val.atExp (v : Val) (e0 : Int) : Int :=
  match v with
  | .fin neg m e _ => (if neg then -1 else 1) * ((m <<< (e - e0).toNat : Nat) : Int)
  | _ => 0

/-- The exponent of a dyadic value, or `d`. -/
def Val.exp (v : Val) (d : Int) : Int :=
  match v with
  | .fin _ m e _ => if m = 0 then d else min e d
  | _ => d

/-- Whether a value is a NaN. -/
def Val.isNan : Val → Bool
  | .nan => true
  | _ => false

/-- Whether a value is a zero. -/
def Val.isZero : Val → Bool
  | .fin _ m _ s => m = 0 && !s
  | _ => false

/-- The sign of a value; a NaN has none. -/
def Val.neg : Val → Bool
  | .nan => false
  | .inf n => n
  | .fin n _ _ _ => n

/-- The value with the other sign. -/
def Val.negate : Val → Val
  | .nan => .nan
  | .inf n => .inf (!n)
  | .fin n m e s => .fin (!n) m e s

/-- The exact sum of dyadic terms, with the special values and zero signs of R131 and R176; the Boolean is
infinity - infinity, beside a NaN as well (R157). -/
def sumVals (mode : RMode) (l : List Val) : Val × Bool :=
  let pinf := l.any (fun v => v = .inf false)
  let ninf := l.any (fun v => v = .inf true)
  if l.any Val.isNan then (.nan, pinf && ninf)
  else
    if pinf && ninf then (.nan, true)
    else if pinf then (.inf false, false)
    else if ninf then (.inf true, false)
    else if l.all (fun v => v.isZero && !v.neg) then (.zero false, false)
    else if l.all (fun v => v.isZero && v.neg) then (.zero true, false)
    else
      let e0 := l.foldl (fun d v => v.exp d) 4096
      let s := l.foldl (fun (acc : Int) v => if v.isZero then acc else acc + v.atExp e0) 0
      if s = 0 then (sumZero mode, false) else (.dy (s < 0) s.natAbs e0, false)

/-- The exact product (R131); the Boolean is 0 × infinity. -/
def mulVals (a b : Val) : Val × Bool :=
  match a, b with
  | .nan, _ => (.nan, false)
  | _, .nan => (.nan, false)
  | .inf n, y => if y.isZero then (.nan, true) else (.inf (bxor n y.neg), false)
  | x, .inf n => if x.isZero then (.nan, true) else (.inf (bxor n x.neg), false)
  | .fin n m e _, .fin n' m' e' _ => (.dy (bxor n n') (m * m') (e + e'), false)

/-- FADD in a format (R152). -/
def Fmt.add (f : Fmt) (mode : RMode) (a b : Nat) : Nat × FFlags :=
  let (s, inv) := sumVals mode [f.decode a, f.decode b]
  let (r, fl) := f.round mode false s
  (r, { fl with inv := inv })

/-- FSUB in a format (R152). -/
def Fmt.sub (f : Fmt) (mode : RMode) (a b : Nat) : Nat × FFlags :=
  let (s, inv) := sumVals mode [f.decode a, (f.decode b).negate]
  let (r, fl) := f.round mode false s
  (r, { fl with inv := inv })

/-- FMUL in a format (R152). -/
def Fmt.mul (f : Fmt) (mode : RMode) (a b : Nat) : Nat × FFlags :=
  let (p, inv) := mulVals (f.decode a) (f.decode b)
  let (r, fl) := f.round mode false p
  (r, { fl with inv := inv })

/-- FFMA in a format: the product unrounded, one rounding; 0 × infinity is invalid even with a NaN c (R152). -/
def Fmt.fma (f : Fmt) (mode : RMode) (a b c : Nat) : Nat × FFlags :=
  let (p, inv) := mulVals (f.decode a) (f.decode b)
  let (s, inv') := sumVals mode [p, f.decode c]
  let (r, fl) := f.round mode false s
  (r, { fl with inv := inv || inv' })

/-- Comparison of two values that are not NaN: the order of the numbers, with -0 = +0 (R153, R167). -/
def Val.cmp (a b : Val) : Ordering :=
  match a, b with
  | .inf n, .inf n' => if n = n' then .eq else if n then .lt else .gt
  | .inf n, _ => if n then .lt else .gt
  | _, .inf n => if n then .gt else .lt
  | a, b =>
    let e0 := a.exp (b.exp 4096)
    let x : Int := if a.isZero then 0 else a.atExp e0
    let y : Int := if b.isZero then 0 else b.atExp e0
    compare x y

/-- FMIN and FMAX of R153 in a format: an operand unchanged, -0 below +0, and the number beside a NaN. -/
def Fmt.minmax (f : Fmt) (isMax : Bool) (a b : Nat) : Nat :=
  let x := f.decode a
  let y := f.decode b
  match x, y with
  | .nan, .nan => f.nan
  | .nan, _ => b
  | _, .nan => a
  | _, _ =>
    match x.cmp y with
    | .lt => if isMax then b else a
    | .gt => if isMax then a else b
    | .eq => if x.neg = isMax then b else a

/-- The integer to which a value rounds (R129), and whether rounding changed it. -/
def roundInt (mode : RMode) (neg : Bool) (m : Nat) (e : Int) (sticky : Bool) : Int × Bool :=
  let (y, inexact) := roundGrid mode neg m e sticky 0
  ((if neg then -1 else 1) * (y : Int), inexact)

/-- R132: conversion to an integer format with range lo to hi. -/
def toIntSat (mode : RMode) (lo hi : Int) (v : Val) : Int × FFlags :=
  match v with
  | .nan => (0, { inv := true })
  | .inf neg => (if neg then lo else hi, { inv := true })
  | .fin neg m e s =>
    let (x, inexact) := roundInt mode neg m e s
    if hi < x then (hi, { inv := true })
    else if x < lo then (lo, { inv := true })
    else (x, { nx := inexact })

/-- FRND: an FP32 value rounded to an integral FP32 value, keeping the sign of a zero (R155). -/
def frnd (mode : RMode) (a : Nat) : Nat :=
  match fp32.decode a with
  | .nan => fp32.nan
  | .inf _ => a
  | .fin neg m e s => (fp32.round .rne false (.dy neg (roundGrid mode neg m e s 0).1 0)).1

/-- FCLASS: the one-hot class mask (R155). -/
def fclass (a : Nat) : Nat :=
  match fp32.decode a with
  | .nan => 2 ^ 8
  | .inf n => if n then 1 else 2 ^ 7
  | .fin n m _ _ =>
    if m = 0 then (if n then 2 ^ 3 else 2 ^ 4)
    else if m < 2 ^ 23 then (if n then 2 ^ 2 else 2 ^ 5)
    else (if n then 2 ^ 1 else 2 ^ 6)

/-- FSCALE: a × 2^n rounded (R155). -/
def fscale (mode : RMode) (a : Nat) (n : Int) : Nat × FFlags :=
  match fp32.decode a with
  | .fin neg m e s => fp32.round mode false (.fin neg m (if m = 0 then e else e + n) s)
  | v => fp32.round mode false v

/-- FDOT2: two exact products and an FP32 value, rounded once (R157). -/
def fdot2 (f : Fmt) (mode : RMode) (a0 b0 a1 b1 c : Nat) : Nat × FFlags :=
  let (p, i0) := mulVals (f.decode a0) (f.decode b0)
  let (q, i1) := mulVals (f.decode a1) (f.decode b1)
  let (s, i2) := sumVals mode [p, q, fp32.decode c]
  let (r, fl) := fp32.round mode false s
  (r, { fl with inv := i0 || i1 || i2 })

/-- Quotient of two dyadic values to at least 80 significant bits, with a sticky remainder. -/
def divVals (neg : Bool) (m : Nat) (e : Int) (m' : Nat) (e' : Int) : Val :=
  if m = 0 then .zero neg
  else
    let k := 80 + bitLen m'
    let n := m <<< k
    .fin neg (n / m') (e - e' - k) (n % m' ≠ 0)

/-- The value of an SC8 code (R136). -/
def sc8 (c : Nat) : Val :=
  if c = 0xFF then .nan
  else if nbits c 3 5 = 0 then .dy false (nbits c 0 3) (-17)
  else .dy false (8 + nbits c 0 3) ((nbits c 3 5 : Int) - 18)

/-- A conversion into SC8 (R136): the code and its exceptions. -/
def toSc8 (mode : RMode) (v : Val) : Nat × FFlags :=
  match v with
  | .nan => (0xFF, {})
  | .inf n => if n then (0xFF, {}) else (0xFE, {})
  | .fin neg m e s =>
    if m = 0 && !s then (0x00, {})
    else if neg then (0xFF, {})
    else
      let q : Int := max (e + bitLen m - 4) (-17)
      let (y, inexact) := roundGrid mode false m e s q
      if 13 < q || (q = 13 && 15 ≤ y) then (0xFE, { ov := true, nx := true })
      else if y < 8 then (y, { nx := inexact })
      else
        let (y, q) := if y = 16 then (8, q + 1) else (y, q)
        if q = 13 && 15 ≤ y then (0xFE, { ov := true, nx := true })
        else ((q + 18).toNat * 8 + (y - 8), { nx := inexact })

/-- The lowest slot of a quad that holds 0b1000 (R134). -/
def q4xOutlier (quad : Nat) : Option Nat := (List.range 4).find? (fun s => nbits quad (4 * s) 4 = 8)

/-- `decode_q4x` (R134): the value of element `s` of a quad. -/
def q4x (quad s : Nat) : Val :=
  match q4xOutlier quad with
  | none => .ofInt (sext (nbits quad (4 * s) 4) 4)
  | some o =>
    let lo := (o + 1) % 4
    let hi := (o + 2) % 4
    if s = o then f8h.decode (nbits quad (4 * hi) 4 * 16 + nbits quad (4 * lo) 4)
    else if s = lo || s = hi then .zero false
    else .ofInt (sext (nbits quad (4 * s) 4) 4)

/-- The scaled value of an element (R137). -/
def scaled (x scale : Val) : Val := (mulVals x scale).1

/-- The order key of an FP32 word (R139). -/
def orderKey (nanHi : Bool) (b : Nat) : Nat :=
  match fp32.decode b with
  | .nan => if nanHi then 0xFFFFFFFF else 0
  | _ => if b < 2 ^ 31 then b ^^^ 0x80000000 else b ^^^ 0xFFFFFFFF

/-- The inverse of an order key (R139). -/
def keyInverse (k : Nat) : Nat := if 2 ^ 31 ≤ k then k ^^^ 0x80000000 else k ^^^ 0xFFFFFFFF

/-- A word of format `f` widened exactly to FP32. -/
def Fmt.widen (f : Fmt) (x : Nat) : Nat := (fp32.round .rne false (f.decode x)).1

end Sys2Proof
end

