-- ==== Sys2Proof/WellFormed.lean ====
section
/-! DEFINITION. Well-formed instructions: those the encoding rules admit (01 R13 to R23 and the rule of
each instruction). The events carry no word and are well-formed. -/

namespace Sys2Proof

/-- `i` breaks no encoding rule that its bits alone determine (R13). -/
def Instr.wellFormed (i : Instr) : Bool := i.encErr.isNone

/-- The proposition that `i` is well-formed. -/
abbrev Instr.WF (i : Instr) : Prop := i.wellFormed = true

end Sys2Proof
end

