-- ==== Sys2Proof/Decode.lean ====
section
/-! DEFINITION. Decoding of the 64-bit words (01 R12 to R30), total on any bytes and rejecting with the
reason of 16 R308, and the encoder written from the same field tables. -/

namespace Sys2Proof

/-- The bits [lo + w - 1 : lo] of a word. -/
abbrev bitsAt (x : DWord) (lo w : Nat) : BitVec w := x.extractLsb' lo w

/-- The guard of an F-form word, bits [51:47]; `none` where N or q is not 0 while G = 0 (R14). -/
def guardOf (w : DWord) : Option Guard :=
  if w.getLsbD 51 then some (.on (w.getLsbD 50) (bitsAt w 47 3))
  else if bitsAt w 47 4 = 0 then some .none else Option.none

/-- BK (R15). -/
def bkindOf (x : BitVec 2) : BKind :=
  match x.toNat with
  | 0 => .vec | 1 => .sca | 2 => .imm | _ => .sys

/-- RM (R15). -/
def rmodeOf (x : BitVec 2) : RMode :=
  match x.toNat with
  | 0 => .rne | 1 => .rtz | 2 => .rup | _ => .rdn

/-- The fields of an F-form word in the common frame (R14, R15). -/
def fopsOf (w : DWord) : Option FOps :=
  (guardOf w).map fun g =>
    { g, d := bitsAt w 39 8, a := bitsAt w 31 8, b := bitsAt w 23 8, c := bitsAt w 15 8, bk := bkindOf (bitsAt w 13 2), fs := w.getLsbD 12, ck := w.getLsbD 11, rm := rmodeOf (bitsAt w 9 2), sat := w.getLsbD 8, ox := bitsAt w 0 8 }

/-- The fields of a word in the immediate frame (R18). -/
def immOpsOf (w : DWord) : Option ImmOps :=
  (guardOf w).map fun g => { g, d := bitsAt w 39 8, a := bitsAt w 31 8, mods := bitsAt w 23 8, imm := bitsAt w 0 23 }

/-- The fields of MOVI and SMOVI (R18). -/
def imm32OpsOf (w : DWord) : Option Imm32Ops :=
  (guardOf w).map fun g => { g, d := bitsAt w 39 8, mods := bitsAt w 32 7, imm := bitsAt w 0 32 }

/-- NODEQ by its form, OX[1:0] (R276). Code 3 is illegal, and is read as the form whose check refuses it. -/
def nodeqOf (w : DWord) : Option Instr :=
  (fopsOf w).map fun o =>
    match fld o.ox 0 2 with
    | 0 => .nodeqQry o
    | 1 => .nodeqSeal o
    | _ => .nodeqOpen o

/-- The opcode map (R30): how a word of each assigned opcode is read. -/
def opcodeMap (opc : Nat) : Option (DWord → Option Instr) :=
  match opc with
  | 0x000 => some (fun w => (fopsOf w).map .iadd)
  | 0x001 => some (fun w => (fopsOf w).map .isub)
  | 0x002 => some (fun w => (fopsOf w).map .imul)
  | 0x003 => some (fun w => (fopsOf w).map .imulh)
  | 0x004 => some (fun w => (fopsOf w).map .imad)
  | 0x005 => some (fun w => (fopsOf w).map .imadw)
  | 0x006 => some (fun w => (fopsOf w).map .iaddc)
  | 0x007 => some (fun w => (fopsOf w).map .isubb)
  | 0x008 => some (fun w => (fopsOf w).map .iabs)
  | 0x009 => some (fun w => (fopsOf w).map .ineg)
  | 0x00a => some (fun w => (fopsOf w).map .imin)
  | 0x00b => some (fun w => (fopsOf w).map .imax)
  | 0x00c => some (fun w => (fopsOf w).map .iadds)
  | 0x00d => some (fun w => (fopsOf w).map .isubs)
  | 0x00e => some (fun w => (fopsOf w).map .idot4)
  | 0x00f => some (fun w => (fopsOf w).map .idot8)
  | 0x010 => some (fun w => (fopsOf w).map .lea)
  | 0x011 => some (fun w => (fopsOf w).map .mov)
  | 0x012 => some (fun w => (imm32OpsOf w).map .movi)
  | 0x013 => some (fun w => (fopsOf w).map .sel)
  | 0x040 => some (fun w => (fopsOf w).map .and)
  | 0x041 => some (fun w => (fopsOf w).map .or)
  | 0x042 => some (fun w => (fopsOf w).map .xor)
  | 0x043 => some (fun w => (fopsOf w).map .not)
  | 0x044 => some (fun w => (fopsOf w).map .tri)
  | 0x045 => some (fun w => (fopsOf w).map .shl)
  | 0x046 => some (fun w => (fopsOf w).map .shr)
  | 0x047 => some (fun w => (fopsOf w).map .sar)
  | 0x048 => some (fun w => (fopsOf w).map .shf)
  | 0x049 => some (fun w => (fopsOf w).map .popc)
  | 0x04a => some (fun w => (fopsOf w).map .clz)
  | 0x04b => some (fun w => (fopsOf w).map .brev)
  | 0x04c => some (fun w => (fopsOf w).map .bfe)
  | 0x04d => some (fun w => (fopsOf w).map .bfi)
  | 0x04e => some (fun w => (fopsOf w).map .prmb)
  | 0x080 => some (fun w => (fopsOf w).map .fadd)
  | 0x081 => some (fun w => (fopsOf w).map .fsub)
  | 0x082 => some (fun w => (fopsOf w).map .fmul)
  | 0x083 => some (fun w => (fopsOf w).map .ffma)
  | 0x084 => some (fun w => (fopsOf w).map .fmin)
  | 0x085 => some (fun w => (fopsOf w).map .fmax)
  | 0x086 => some (fun w => (fopsOf w).map .frcp)
  | 0x087 => some (fun w => (fopsOf w).map .frsq)
  | 0x088 => some (fun w => (fopsOf w).map .fsqrt)
  | 0x089 => some (fun w => (fopsOf w).map .fexp2)
  | 0x08a => some (fun w => (fopsOf w).map .flog2)
  | 0x08b => some (fun w => (fopsOf w).map .ftanh)
  | 0x08c => some (fun w => (fopsOf w).map .fsinpi)
  | 0x08d => some (fun w => (fopsOf w).map .fcospi)
  | 0x08e => some (fun w => (fopsOf w).map .frnd)
  | 0x08f => some (fun w => (fopsOf w).map .fclass)
  | 0x090 => some (fun w => (fopsOf w).map .fscale)
  | 0x0c0 => some (fun w => (fopsOf w).map .hadd2)
  | 0x0c1 => some (fun w => (fopsOf w).map .hmul2)
  | 0x0c2 => some (fun w => (fopsOf w).map .hfma2)
  | 0x0c3 => some (fun w => (fopsOf w).map .hmin2)
  | 0x0c4 => some (fun w => (fopsOf w).map .hmax2)
  | 0x0c5 => some (fun w => (fopsOf w).map .fdot2)
  | 0x100 => some (fun w => (fopsOf w).map .cvtff)
  | 0x101 => some (fun w => (fopsOf w).map .cvtfi)
  | 0x102 => some (fun w => (fopsOf w).map .cvtif)
  | 0x103 => some (fun w => (fopsOf w).map .cvtii)
  | 0x104 => some (fun w => (fopsOf w).map .pack8)
  | 0x105 => some (fun w => (fopsOf w).map .unpk8)
  | 0x106 => some (fun w => (fopsOf w).map .packq)
  | 0x107 => some (fun w => (fopsOf w).map .unpkq)
  | 0x108 => some (fun w => (fopsOf w).map .keyf)
  | 0x109 => some (fun w => (fopsOf w).map .qscl)
  | 0x140 => some (fun w => (fopsOf w).map .icmp)
  | 0x141 => some (fun w => (fopsOf w).map .fcmp)
  | 0x142 => some (fun w => (fopsOf w).map .plop)
  | 0x143 => some (fun w => (fopsOf w).map .vote)
  | 0x144 => some (fun w => (fopsOf w).map .xch)
  | 0x145 => some (fun w => (fopsOf w).map .gred)
  | 0x146 => some (fun w => (fopsOf w).map .pmov)
  | 0x180 => some (fun w => (fopsOf w).map .sadd)
  | 0x181 => some (fun w => (fopsOf w).map .ssub)
  | 0x182 => some (fun w => (fopsOf w).map .smul)
  | 0x183 => some (fun w => (fopsOf w).map .sand)
  | 0x184 => some (fun w => (fopsOf w).map .sor)
  | 0x185 => some (fun w => (fopsOf w).map .sxor)
  | 0x186 => some (fun w => (fopsOf w).map .sshl)
  | 0x187 => some (fun w => (fopsOf w).map .sshr)
  | 0x188 => some (fun w => (fopsOf w).map .smov)
  | 0x189 => some (fun w => (imm32OpsOf w).map .smovi)
  | 0x18a => some (fun w => (fopsOf w).map .spopc)
  | 0x18b => some (fun w => (fopsOf w).map .sffs)
  | 0x18c => some (fun w => (fopsOf w).map .smin)
  | 0x18d => some (fun w => (fopsOf w).map .smax)
  | 0x18e => some (fun w => (fopsOf w).map .scmp)
  | 0x18f => some (fun w => (fopsOf w).map .sld)
  | 0x190 => some (fun w => (fopsOf w).map .sst)
  | 0x191 => some (fun w => (fopsOf w).map .sread)
  | 0x192 => some (fun w => (fopsOf w).map .swrite)
  | 0x1c0 => some (fun w => (fopsOf w).map .ld)
  | 0x1c1 => some (fun w => (fopsOf w).map .st)
  | 0x1c2 => some (fun w => (fopsOf w).map .ldp)
  | 0x1c3 => some (fun w => (fopsOf w).map .stp)
  | 0x1c4 => some (fun w => (fopsOf w).map .pref)
  | 0x1c5 => some (fun w => (fopsOf w).map .cinv)
  | 0x1c6 => some (fun w => (fopsOf w).map .cwb)
  | 0x200 => some (fun w => (fopsOf w).map .lds)
  | 0x201 => some (fun w => (fopsOf w).map .sts)
  | 0x202 => some (fun w => (fopsOf w).map .tld)
  | 0x203 => some (fun w => (fopsOf w).map .tst)
  | 0x204 => some (fun w => (fopsOf w).map .tmov)
  | 0x205 => some (fun w => (fopsOf w).map .pdecl)
  | 0x206 => some (fun w => (fopsOf w).map .penter)
  | 0x207 => some (fun w => (fopsOf w).map .pwait)
  | 0x208 => some (fun w => (fopsOf w).map .pleave)
  | 0x209 => some (fun w => (fopsOf w).map .pdrop)
  | 0x20a => some (fun w => (fopsOf w).map .pqry)
  | 0x240 => some (fun w => (fopsOf w).map .atom)
  | 0x241 => some (fun w => (fopsOf w).map .acas)
  | 0x242 => some (fun w => (fopsOf w).map .red)
  | 0x243 => some (fun w => (fopsOf w).map .acont)
  | 0x244 => some (fun w => (fopsOf w).map .fence)
  | 0x245 => some (fun w => (fopsOf w).map .waitn)
  | 0x280 => some (fun w => (fopsOf w).map .mma)
  | 0x281 => some (fun w => (fopsOf w).map .mmas)
  | 0x282 => some (fun w => (fopsOf w).map .aclr)
  | 0x283 => some (fun w => (fopsOf w).map .amov)
  | 0x284 => some (fun w => (fopsOf w).map .aload)
  | 0x285 => some (fun w => (fopsOf w).map .drain)
  | 0x286 => some (fun w => (fopsOf w).map .drepl)
  | 0x287 => some (fun w => (fopsOf w).map .atbl)
  | 0x2c0 => some (fun w => (fopsOf w).map .ckick)
  | 0x2c1 => some (fun w => (fopsOf w).map .gthr)
  | 0x2c2 => some (fun w => (fopsOf w).map .sctr)
  | 0x2c3 => some (fun w => (fopsOf w).map .coll)
  | 0x2c4 => some (fun w => (fopsOf w).map .binit)
  | 0x2c5 => some (fun w => (fopsOf w).map .bexp)
  | 0x2c6 => some (fun w => (fopsOf w).map .bwait)
  | 0x2c7 => some (fun w => (fopsOf w).map .cstat)
  | 0x300 => some (fun w => (immOpsOf w).map .bra)
  | 0x301 => some (fun w => (immOpsOf w).map .brc)
  | 0x302 => some (fun w => (immOpsOf w).map .brs)
  | 0x303 => some (fun w => (immOpsOf w).map .join)
  | 0x304 => some (fun w => (fopsOf w).map .brx)
  | 0x305 => some (fun w => (immOpsOf w).map .call)
  | 0x306 => some (fun w => (fopsOf w).map .callx)
  | 0x307 => some (fun w => (fopsOf w).map .ret)
  | 0x308 => some (fun w => (fopsOf w).map .exit)
  | 0x309 => some (fun w => (fopsOf w).map .nop)
  | 0x30a => some (fun w => (fopsOf w).map .regroup)
  | 0x30b => some (fun w => (fopsOf w).map .yield)
  | 0x340 => some (fun w => (fopsOf w).map .barv)
  | 0x341 => some (fun w => (fopsOf w).map .bsyn)
  | 0x342 => some (fun w => (fopsOf w).map .bphs)
  | 0x343 => some (fun w => (fopsOf w).map .qpush)
  | 0x344 => some (fun w => (fopsOf w).map .qpop)
  | 0x345 => some (fun w => (fopsOf w).map (fun o => if o.ox.getLsbD 3 then .qalwInit o else .qalw o))
  | 0x346 => some (fun w => (fopsOf w).map (fun o => if o.ox.getLsbD 3 then .qtryPush o else .qtryPop o))
  | 0x347 => some (fun w => (fopsOf w).map .gsync)
  | 0x380 => some (fun w => (fopsOf w).map .deq)
  | 0x381 => some (fun w => (fopsOf w).map .deqt)
  | 0x382 => some (fun w => (fopsOf w).map .rpush)
  | 0x383 => some (fun w => (fopsOf w).map .rpass)
  | 0x384 => some (fun w => (fopsOf w).map .rrej)
  | 0x385 => some (fun w => (fopsOf w).map .lnch)
  | 0x386 => some nodeqOf
  | 0x387 => some (fun w => (fopsOf w).map .rbind)
  | 0x3c0 => some (fun w => (fopsOf w).map .tstamp)
  | 0x3c1 => some (fun w => (fopsOf w).map .cycles)
  | 0x3c2 => some (fun w => (fopsOf w).map .phint)
  | 0x3c3 => some (fun w => (fopsOf w).map .phints)
  | 0x3c4 => some (fun w => (fopsOf w).map .ostage)
  | 0x3c5 => some (fun w => (immOpsOf w).map .trap)
  | 0x3c6 => some (fun w => (immOpsOf w).map .bkpt)
  | 0x3c7 => some (fun w => (fopsOf w).map .evrd)
  | 0x3c8 => some (fun w => (fopsOf w).map .evcfg)
  | 0x3c9 => some (fun w => (fopsOf w).map .ophint)
  | _ => none

/-- The restricted opcode map (R22). -/
def popOf (code : Nat) : Option POp :=
  match code with
  | 0 => some .iadd
  | 1 => some .isub
  | 2 => some .imin
  | 3 => some .imax
  | 4 => some .and
  | 5 => some .or
  | 6 => some .xor
  | 7 => some .shl
  | 8 => some .shr
  | 9 => some .sar
  | 10 => some .mov
  | 11 => some .imul
  | 16 => some .fadd
  | 17 => some .fsub
  | 18 => some .fmul
  | 19 => some .fmin
  | 20 => some .fmax
  | 24 => some .hadd2
  | 25 => some .hmul2
  | 32 => some .sadd
  | 33 => some .ssub
  | 34 => some .sand
  | 35 => some .sor
  | 36 => some .sxor
  | 37 => some .smov
  | 38 => some .sshl
  | 39 => some .sshr
  | 48 => some .lds
  | 49 => some .sts
  | 56 => some .nop
  | _ => none

/-- The reading of half `x`, 31 bits under their own numbering (R19): its operation, or the reason. A
non-zero q while G = 0 is a reserved field (R14, R21). -/
def halfOf (x : BitVec 31) : Except Reason PHalf :=
  match popOf (fld x 24 7) with
  | none => .error .opcode
  | some op =>
    if !x.getLsbD 23 && fld x 20 3 ≠ 0 then .error .reserved
    else .ok ⟨op, { g := if x.getLsbD 23 then some (x.extractLsb' 20 3) else none, d := x.extractLsb' 12 8, s := x.extractLsb' 4 8, imm := x.getLsbD 3, sub := x.extractLsb' 0 3 }⟩

/-- The word whose half X is `h` and whose half Y is `y`. -/
def Instr.ofHalves (h y : PHalf) : Instr :=
  match h.op with
  | .iadd => .iaddP h.f y
  | .isub => .isubP h.f y
  | .imin => .iminP h.f y
  | .imax => .imaxP h.f y
  | .and => .andP h.f y
  | .or => .orP h.f y
  | .xor => .xorP h.f y
  | .shl => .shlP h.f y
  | .shr => .shrP h.f y
  | .sar => .sarP h.f y
  | .mov => .movP h.f y
  | .imul => .imulP h.f y
  | .fadd => .faddP h.f y
  | .fsub => .fsubP h.f y
  | .fmul => .fmulP h.f y
  | .fmin => .fminP h.f y
  | .fmax => .fmaxP h.f y
  | .hadd2 => .hadd2P h.f y
  | .hmul2 => .hmul2P h.f y
  | .sadd => .saddP h.f y
  | .ssub => .ssubP h.f y
  | .sand => .sandP h.f y
  | .sor => .sorP h.f y
  | .sxor => .sxorP h.f y
  | .smov => .smovP h.f y
  | .sshl => .sshlP h.f y
  | .sshr => .sshrP h.f y
  | .lds => .ldsP h.f y
  | .sts => .stsP h.f y
  | .nop => .nopP h.f y

/-- The reading of a clause header; the flag numbers are 0 where the valid bit is clear (R23). A reserved bit that is set is
of the class of reserved fields (16 R308, log 9). -/
def headerOf (w : DWord) : Except Reason Header :=
  if bitsAt w 0 35 ≠ 0 then .error .reserved
  else if (!w.getLsbD 49 && bitsAt w 45 4 ≠ 0) || (!w.getLsbD 44 && bitsAt w 40 4 ≠ 0) then .error .clause
  else .ok { wait := bitsAt w 50 12, sa := if w.getLsbD 49 then some (bitsAt w 45 4) else none, sb := if w.getLsbD 44 then some (bitsAt w 40 4) else none, len := bitsAt w 36 4, yld := w.getLsbD 35 }

/-- The fields of a word, before the checks that range over them. -/
def readWord (w : DWord) : Except EncErr Instr :=
  match (bitsAt w 62 2).toNat with
  | 0 => match opcodeMap (fld w 52 10) with
    | none => .error ⟨.opcode, false⟩
    | some f => match f w with
      | none => .error ⟨.reserved, false⟩
      | some i => .ok i
  | 1 => match halfOf (bitsAt w 31 31) with
    | .error r => .error ⟨r, false⟩
    | .ok x => match halfOf (bitsAt w 0 31) with
      | .error r => .error ⟨r, true⟩
      | .ok y => .ok (.ofHalves x y)
  | 2 => match headerOf w with
    | .error r => .error ⟨r, false⟩
    | .ok h => .ok (.clauseStart h)
  | _ => .error ⟨.form, false⟩

/-- The decoding of a word (R13): the instruction, or the reason of its encoding error. A clause header
decodes to the start of its clause. -/
def decodeWord (w : DWord) : Except EncErr Instr :=
  match readWord w with
  | .error e => .error e
  | .ok i =>
    match i.encErr with
    | some e => .error e
    | none => .ok i

/-- Why bytes are no instruction: fewer than eight of them, or an encoding error. -/
inductive DecodeError where
  | short
  | enc (e : EncErr)
deriving DecidableEq, Repr

/-- The little-endian word of bytes, the first lowest (00 R6). -/
def wordOfBytes : List Byte → Nat
  | [] => 0
  | b :: rest => b.toNat + 256 * wordOfBytes rest

/-- The decoding of the first eight bytes, with the bytes that follow. -/
def decode (bs : List Byte) : Except DecodeError (Instr × List Byte) :=
  if bs.length < 8 then .error .short
  else match decodeWord (BitVec.ofNat 64 (wordOfBytes (bs.take 8))) with
    | .error e => .error (.enc e)
    | .ok i => .ok (i, bs.drop 8)

/-- The eight bytes of a word, lowest first (00 R6). -/
def bytesOfWord (w : DWord) : List Byte := (List.range 8).map (fun k => bitsAt w (8 * k) 8)

/-- The instruction that the decoder reads from the word `w`. Every row has 64 bits, so the bits above
`nbits` are 0. -/
def decodeTableWord (_nbits w : Nat) : Option Instr :=
  match decode (bytesOfWord (BitVec.ofNat 64 w)) with
  | .ok (i, _) => some i
  | .error _ => none

/-- The bits of a guard, [51:47] (R14). -/
def Guard.bits : Guard → BitVec 5
  | .none => 0
  | .on neg q => BitVec.ofBool true ++ BitVec.ofBool neg ++ q

/-- The bits of BK (R15). -/
def BKind.bits : BKind → BitVec 2
  | .vec => 0 | .sca => 1 | .imm => 2 | .sys => 3

/-- The bits of RM (R15). -/
def RMode.bits : RMode → BitVec 2
  | .rne => 0 | .rtz => 1 | .rup => 2 | .rdn => 3

/-- The bits below the opcode of a word in the common frame (R14, R15). -/
def FOps.bits (o : FOps) : BitVec 52 :=
  o.g.bits ++ o.d ++ o.a ++ o.b ++ o.c ++ o.bk.bits ++ BitVec.ofBool o.fs ++ BitVec.ofBool o.ck ++ o.rm.bits
    ++ BitVec.ofBool o.sat ++ o.ox

/-- The bits below the opcode of a word in the immediate frame (R18). -/
def ImmOps.bits (o : ImmOps) : BitVec 52 := o.g.bits ++ o.d ++ o.a ++ o.mods ++ o.imm

/-- The bits below the opcode of MOVI and SMOVI (R18). -/
def Imm32Ops.bits (o : Imm32Ops) : BitVec 52 := o.g.bits ++ o.d ++ o.mods ++ o.imm

/-- The bits of a half (R19). -/
def PHalf.bits (h : PHalf) : BitVec 31 :=
  BitVec.ofNat 7 h.op.code ++ BitVec.ofBool h.f.g.isSome ++ h.f.g.getD 0 ++ h.f.d ++ h.f.s ++ BitVec.ofBool h.f.imm ++ h.f.sub

/-- The word of a clause header (R23). -/
def Header.bits (h : Header) : DWord :=
  (2 : BitVec 2) ++ h.wait ++ BitVec.ofBool h.sa.isSome ++ h.sa.getD 0 ++ BitVec.ofBool h.sb.isSome ++ h.sb.getD 0
    ++ h.len ++ BitVec.ofBool h.yld ++ (0 : BitVec 35)

/-- OPC of an F-form instruction (R30). -/
def Instr.opc : Instr → Option (BitVec 10)
  | .iadd _ => some 0x000
  | .isub _ => some 0x001
  | .imul _ => some 0x002
  | .imulh _ => some 0x003
  | .imad _ => some 0x004
  | .imadw _ => some 0x005
  | .iaddc _ => some 0x006
  | .isubb _ => some 0x007
  | .iabs _ => some 0x008
  | .ineg _ => some 0x009
  | .imin _ => some 0x00a
  | .imax _ => some 0x00b
  | .iadds _ => some 0x00c
  | .isubs _ => some 0x00d
  | .idot4 _ => some 0x00e
  | .idot8 _ => some 0x00f
  | .lea _ => some 0x010
  | .mov _ => some 0x011
  | .movi _ => some 0x012
  | .sel _ => some 0x013
  | .and _ => some 0x040
  | .or _ => some 0x041
  | .xor _ => some 0x042
  | .not _ => some 0x043
  | .tri _ => some 0x044
  | .shl _ => some 0x045
  | .shr _ => some 0x046
  | .sar _ => some 0x047
  | .shf _ => some 0x048
  | .popc _ => some 0x049
  | .clz _ => some 0x04a
  | .brev _ => some 0x04b
  | .bfe _ => some 0x04c
  | .bfi _ => some 0x04d
  | .prmb _ => some 0x04e
  | .fadd _ => some 0x080
  | .fsub _ => some 0x081
  | .fmul _ => some 0x082
  | .ffma _ => some 0x083
  | .fmin _ => some 0x084
  | .fmax _ => some 0x085
  | .frcp _ => some 0x086
  | .frsq _ => some 0x087
  | .fsqrt _ => some 0x088
  | .fexp2 _ => some 0x089
  | .flog2 _ => some 0x08a
  | .ftanh _ => some 0x08b
  | .fsinpi _ => some 0x08c
  | .fcospi _ => some 0x08d
  | .frnd _ => some 0x08e
  | .fclass _ => some 0x08f
  | .fscale _ => some 0x090
  | .hadd2 _ => some 0x0c0
  | .hmul2 _ => some 0x0c1
  | .hfma2 _ => some 0x0c2
  | .hmin2 _ => some 0x0c3
  | .hmax2 _ => some 0x0c4
  | .fdot2 _ => some 0x0c5
  | .cvtff _ => some 0x100
  | .cvtfi _ => some 0x101
  | .cvtif _ => some 0x102
  | .cvtii _ => some 0x103
  | .pack8 _ => some 0x104
  | .unpk8 _ => some 0x105
  | .packq _ => some 0x106
  | .unpkq _ => some 0x107
  | .keyf _ => some 0x108
  | .qscl _ => some 0x109
  | .icmp _ => some 0x140
  | .fcmp _ => some 0x141
  | .plop _ => some 0x142
  | .vote _ => some 0x143
  | .xch _ => some 0x144
  | .gred _ => some 0x145
  | .pmov _ => some 0x146
  | .sadd _ => some 0x180
  | .ssub _ => some 0x181
  | .smul _ => some 0x182
  | .sand _ => some 0x183
  | .sor _ => some 0x184
  | .sxor _ => some 0x185
  | .sshl _ => some 0x186
  | .sshr _ => some 0x187
  | .smov _ => some 0x188
  | .smovi _ => some 0x189
  | .spopc _ => some 0x18a
  | .sffs _ => some 0x18b
  | .smin _ => some 0x18c
  | .smax _ => some 0x18d
  | .scmp _ => some 0x18e
  | .sld _ => some 0x18f
  | .sst _ => some 0x190
  | .sread _ => some 0x191
  | .swrite _ => some 0x192
  | .ld _ => some 0x1c0
  | .st _ => some 0x1c1
  | .ldp _ => some 0x1c2
  | .stp _ => some 0x1c3
  | .pref _ => some 0x1c4
  | .cinv _ => some 0x1c5
  | .cwb _ => some 0x1c6
  | .lds _ => some 0x200
  | .sts _ => some 0x201
  | .tld _ => some 0x202
  | .tst _ => some 0x203
  | .tmov _ => some 0x204
  | .pdecl _ => some 0x205
  | .penter _ => some 0x206
  | .pwait _ => some 0x207
  | .pleave _ => some 0x208
  | .pdrop _ => some 0x209
  | .pqry _ => some 0x20a
  | .atom _ => some 0x240
  | .acas _ => some 0x241
  | .red _ => some 0x242
  | .acont _ => some 0x243
  | .fence _ => some 0x244
  | .waitn _ => some 0x245
  | .mma _ => some 0x280
  | .mmas _ => some 0x281
  | .aclr _ => some 0x282
  | .amov _ => some 0x283
  | .aload _ => some 0x284
  | .drain _ => some 0x285
  | .drepl _ => some 0x286
  | .atbl _ => some 0x287
  | .ckick _ => some 0x2c0
  | .gthr _ => some 0x2c1
  | .sctr _ => some 0x2c2
  | .coll _ => some 0x2c3
  | .binit _ => some 0x2c4
  | .bexp _ => some 0x2c5
  | .bwait _ => some 0x2c6
  | .cstat _ => some 0x2c7
  | .bra _ => some 0x300
  | .brc _ => some 0x301
  | .brs _ => some 0x302
  | .join _ => some 0x303
  | .brx _ => some 0x304
  | .call _ => some 0x305
  | .callx _ => some 0x306
  | .ret _ => some 0x307
  | .exit _ => some 0x308
  | .nop _ => some 0x309
  | .regroup _ => some 0x30a
  | .yield _ => some 0x30b
  | .barv _ => some 0x340
  | .bsyn _ => some 0x341
  | .bphs _ => some 0x342
  | .qpush _ => some 0x343
  | .qpop _ => some 0x344
  | .qalw _ => some 0x345
  | .qalwInit _ => some 0x345
  | .qtryPush _ => some 0x346
  | .qtryPop _ => some 0x346
  | .gsync _ => some 0x347
  | .deq _ => some 0x380
  | .deqt _ => some 0x381
  | .rpush _ => some 0x382
  | .rpass _ => some 0x383
  | .rrej _ => some 0x384
  | .lnch _ => some 0x385
  | .nodeqQry _ => some 0x386
  | .nodeqSeal _ => some 0x386
  | .nodeqOpen _ => some 0x386
  | .rbind _ => some 0x387
  | .tstamp _ => some 0x3c0
  | .cycles _ => some 0x3c1
  | .phint _ => some 0x3c2
  | .phints _ => some 0x3c3
  | .ostage _ => some 0x3c4
  | .trap _ => some 0x3c5
  | .bkpt _ => some 0x3c6
  | .evrd _ => some 0x3c7
  | .evcfg _ => some 0x3c8
  | .ophint _ => some 0x3c9
  | _ => none

/-- The operands of an instruction of the immediate frame. -/
def Instr.immOps : Instr → Option ImmOps
  | .bra o => some o
  | .brc o => some o
  | .brs o => some o
  | .join o => some o
  | .call o => some o
  | .trap o => some o
  | .bkpt o => some o
  | _ => none

/-- The operands of MOVI and SMOVI. -/
def Instr.imm32Ops : Instr → Option Imm32Ops
  | .movi o => some o
  | .smovi o => some o
  | _ => none

/-- The bits of an F-form instruction below its opcode. -/
def Instr.fBits (i : Instr) : Option (BitVec 52) :=
  match i.fRule, i.immOps, i.imm32Ops with
  | some (o, _), _, _ => some o.bits
  | none, some o, _ => some o.bits
  | none, none, some o => some o.bits
  | none, none, none => none

/-- The word of an instruction; the events have none. -/
def encode (i : Instr) : Option DWord :=
  match i, i.opc, i.fBits, i.halves with
  | .clauseStart h, _, _, _ => some h.bits
  | .clauseSkip h, _, _, _ => some h.bits
  | _, some opc, some bits, _ => some ((0 : BitVec 2) ++ opc ++ bits)
  | _, _, _, some (x, y) => some ((1 : BitVec 2) ++ x.bits ++ y.bits)
  | _, _, _, none => none

end Sys2Proof
end

