-- ==== Sys2Proof/Config.lean ====
section
/-! DEFINITION. What an implementation fixes and the manual leaves open. None of these has a body: a
claim that holds of the model holds whatever they are. -/

namespace Sys2Proof.Config

/-- The k-th free value of the machine, as a number: an order, a time or a value that the manual leaves
open (log 4). The state's counter `draws` says how many have been taken. -/
opaque free : Nat → Nat

/-- SHAKE256 digests (17 R341, R342); the manual names the function and does not give it (log 3). -/
opaque shake256 : List Byte → List Byte

/-- Whether an ML-DSA-65 signature over a digest holds against the vendor key (17 R341; log 3). -/
opaque verifies : (digest signature : List Byte) → Bool

/-- The ML-DSA-65 signature made with the identity key (17 R342; log 3). -/
opaque signs : List Byte → List Byte

/-- The module's identity public key, derived from the physically unclonable function (17 R341; log 3). -/
opaque identityKey : List Byte

/-- The module's power limit in charge units per 16-cycle window (17 R316, R317; log 35). -/
opaque moduleLimit : Nat

/-- The mesh between the dies (00 R2): the port by which a flit from one die to another leaves, the one by which it
arrives, and those by which it enters the dies on its way (17 R332; log 71). -/
opaque egress : (src dst : Nat) → Nat
opaque ingress : (src dst : Nat) → Nat
opaque between : (src dst : Nat) → List (Nat × Nat)

/-- The nominal voltage response of a cluster is not given: the device time, in nanoseconds, that the
k-th cycle of the module takes (00 R3; log 4). -/
opaque cycleTime : Nat → Nat

end Sys2Proof.Config
end

