-- ==== Sys2Proof/Machine/Table.lean ====
section
/-! DEFINITION. Sparse storage: a list of (key, value) pairs with strictly rising keys. Registers, tiles,
memory and the units of the module are all held in this one form. -/

namespace Sys2Proof.Machine

/-- A store of values by key, the keys strictly rising. -/
abbrev Table (β : Type) := List (Nat × β)

/-- The value at key `k`, or `d` where nothing is listed. -/
def tget {β : Type} (d : β) (k : Nat) : Table β → β
  | [] => d
  | (k', v) :: t => if k = k' then v else tget d k t

/-- The value at key `k`, if one is listed. -/
def tfind {β : Type} (k : Nat) : Table β → Option β
  | [] => none
  | (k', v) :: t => if k = k' then some v else tfind k t

/-- Lists `v` at key `k`. -/
def tput {β : Type} (k : Nat) (v : β) : Table β → Table β
  | [] => [(k, v)]
  | (k', v') :: t => if k = k' then (k, v) :: t else if k < k' then (k, v) :: (k', v') :: t else (k', v') :: tput k v t

/-- Takes key `k` off the list. -/
def tdel {β : Type} (k : Nat) : Table β → Table β
  | [] => []
  | (k', v) :: t => if k = k' then tdel k t else (k', v) :: tdel k t

/-- Writes `v` at key `k` of a store whose unlisted keys read `d`: writing `d` takes the key off the list,
so that equal contents are equal lists. -/
def tset {β : Type} [DecidableEq β] (d : β) (k : Nat) (v : β) (t : Table β) : Table β :=
  if v = d then tdel k t else tput k v t

/-- The canonical form: every key at least `lo`, the keys strictly rising, no value equal to `d`. -/
def tcanon {β : Type} [DecidableEq β] (d : β) : Nat → Table β → Bool
  | _, [] => true
  | lo, (k, v) :: t => decide (lo ≤ k) && decide (v ≠ d) && tcanon d (k + 1) t

/-- Writes a list of (key, value) pairs, the last standing where keys meet. -/
def tsetAll {β : Type} [DecidableEq β] (d : β) (ws : List (Nat × β)) (t : Table β) : Table β :=
  ws.foldl (fun t w => tset d w.1 w.2 t) t

end Sys2Proof.Machine
end

