-- ==== Sys2Proof/Machine/State.lean ====
section
/-! DEFINITION. The state of one module as plain data: every unit the manual names with what it holds, and
the machine after reset. A unit is listed once it differs from its reset value; what an unlisted key reads
as stands beside each unit. Keys: a group 4096 × die + 64 × core + slot, a core 64 × die + core, a cluster
8 × die + cluster, a slice 32 × die + slice. -/

namespace Sys2Proof.Machine

/-- What stops the machine as a whole. -/
inductive Fault where
  /-- Raised by `step`: a failed verification of boot holds the module in reset (17 R341). Safe: the manual
  says that nothing goes on. -/
  | heldInReset
deriving DecidableEq, Repr

/-- What the machine refuses to give a meaning. -/
inductive Refusal where
  /-- Raised by the arm of an instruction that has no meaning yet; no arm is left so. Safe. -/
  | notModelled (mnemonic : String)
deriving DecidableEq, Repr

/-! ### Groups -/

/-- States of a program-counter slot (02 R39). -/
inductive SlotState where
  | free | running | parked
deriving DecidableEq, Repr

/-- The clause a slot is in: its valid flags, the words still to issue, its yield hint (01 R23). -/
structure Clause where
  sa : Option Nat := none
  sb : Option Nat := none
  left : Nat := 0
  yld : Bool := false
deriving DecidableEq, Repr

/-- A program-counter slot (02 R39); `cl = none` when its next word is a header. -/
structure Slot where
  pc : DWord := 0
  st : SlotState := .free
  cl : Option Clause := none
deriving DecidableEq, Repr

/-- A register file class and a word of it: vector `32 r + lane`, scalar, predicate, tile `512 t + w`,
accumulator `1024 a + 32 i + j`, by the class code of R308 and the key. -/
structure RCell where
  cls : Nat
  key : Nat
deriving DecidableEq, Repr

/-- A pending mark (01 R26): the register, the flag, and whether the matrix unit made it. -/
structure Mark where
  cls : Nat
  idx : Nat
  flag : Nat
  mx : Bool
deriving DecidableEq, Repr

/-- An operation counted on a path (05 R88, R89). -/
structure PathOp where
  path : Nat
  op : Nat
  done : Bool
deriving DecidableEq, Repr

/-- The address spaces of the region store buffer (02 R41, 04 R73): global, per-thread, scratchpad. -/
inductive Space where
  | global | perThread | scratch
deriving DecidableEq, Repr

/-- An entry of the region store buffer (02 R41): a sector, its masked bytes by offset, the stores in it,
and what their forms ask of its commit. -/
structure BufEntry where
  space : Space
  sector : Nat
  tenant : Nat
  bytes : Table Byte
  ops : List Nat
  strong : Bool
  hint : Nat
  scope : Nat
deriving DecidableEq, Repr

/-- What a region records of a slot (16 R297). -/
structure SlotRec where
  slot : Slot := {}
  mask : Word := 0
deriving DecidableEq, Repr

/-- The live set of a region in the field order of the save header (02 R45, 16 R300). -/
structure Live where
  v : Word
  s : DWord
  q : Byte
  t : BitVec 16
  a : Byte
deriving DecidableEq, Repr

/-- The region record (16 R297); `live = none` is "all allocated". -/
structure Region where
  start : DWord := 0
  live : Option Live := none
  a : SlotRec := {}
  b : SlotRec := {}
deriving DecidableEq, Repr

/-- What holds a group at a word (16 R308 WAIT, 13 R355). -/
inductive WaitKind where
  | release (hold : Nat)
  | table (op : Nat)
  | bar (b : Nat) (ph : Bool)
  | bphs (b : Nat) (p : Bool)
  | qpush (q order : Nat)
  | qpop (q order : Nat)
  | palette (slot : Nat)
  | pdrop (slot : Nat)
  | object (addr : Nat) (p : Bool)
  | path (p n : Nat)
  | gridOp (op : Nat)
  | grid (addr gen : Nat)
  | regroup (first count : Nat)
  | deq (order : Nat) (deadline : Option Nat)
  | outbox (lanes : List Nat)
  | exit
deriving DecidableEq, Repr

/-- A group held at the word `instr` of slot B or A; `since` is in its context's time (16 R304, R312). -/
structure Wait where
  kind : WaitKind
  slotB : Bool
  instr : Instr
  since : Nat
  /-- The word's address and its clause, to which a fault found after the wait returns the slot. -/
  pc : DWord := 0
  cl : Option Clause := none
  /-- The cycle of its cluster in which the word issued (12 R227, R233). -/
  cycle : Nat := 0
deriving DecidableEq, Repr

/-- A binding (14 R266): none, the batch of the group's grid, or a node; when it was set, whether it has
changed since the last DEQ, and whether the governor may move it. -/
structure Binding where
  node : Option Nat := none
  batch : Bool := false
  time : Nat := 0
  changed : Bool := false
  governed : Bool := false
deriving DecidableEq, Repr

/-- A commute record held by a lane (14 R280): its set, stage and contents, and the cluster cycle count at its
DEQ. -/
structure HeldRec where
  router : Nat
  stage : Nat
  words : List Word
  since : Int
deriving DecidableEq, Repr

/-- A group's stop record as the device keeps it (16 R306). -/
structure Stop where
  cause : Nat := 0
  precise : Bool := false
  slotB : Bool := false
  held : Bool := false
  saved : Bool := false
  fpc : DWord := 0
  detail : BitVec 96 := 0
  drain : Option Nat := none
  /-- The first operation held: its request, or (true) its remote push. -/
  first : Option (Nat × Bool) := none
  /-- The device time at which the group stopped; none if it has stood since the line rose. -/
  time : Option Nat := none
deriving DecidableEq, Repr

/-- A group slot of a core (02 R40, R41). An unlisted group slot holds no group. -/
structure Group where
  team : Nat := 0
  index : Nat := 0
  ctx : Nat := 0
  tenant : Nat := 0
  role : Nat := 0
  /-- Allocated vector registers, tiles and accumulators, and the maps to physical granules (R40). -/
  nv : Nat := 0
  nt : Nat := 0
  na : Nat := 0
  vmap : List Nat := []
  tmap : List Nat := []
  amap : List Nat := []
  /-- Register words that are not zero. -/
  v : Table Word := []
  s : Table Word := []
  q : Table Word := []
  t : Table Word := []
  acc : Table Word := []
  a : Slot := {}
  b : Slot := {}
  /-- Whose turn it is when both slots are eligible: that of the slot whose clause has begun, and after its last word the
  other's (R39). -/
  nextB : Bool := false
  /-- Operations assigned to each completion flag, by flag (01 R26). -/
  flags : Table Nat := []
  marks : List Mark := []
  /-- Operations that have not left their path counter, in issue order (05 R89). -/
  paths : List PathOp := []
  region : Region := {}
  buf : List BufEntry := []
  dsp : DWord := 0
  latch : Option Nat := none
  staged : Option (Nat × Nat) := none
  /-- Per-thread memory: its area, base and words (17 R336), and sy.dstk.words (11 R218). -/
  ptmArea : Option Nat := none
  ptmBase : Nat := 0
  ptmWords : Nat := 0
  dstkWords : Nat := 0
  /-- sy.fpx.en, from the context descriptor at launch (07 R133). -/
  fpx : Nat := 0
  /-- The palette slot the group has entered (04 R79). -/
  pal : Option Nat := none
  /-- Its entry was Ready when its team was pre-empted: it issues once the palette is Entered again (04 R83). -/
  readmit : Bool := false
  /-- The context time at which that palette was Queued (16 R312). -/
  palSince : Option Nat := none
  bind : Binding := {}
  held : Table HeldRec := []
  /-- One more than the widest scope of the completed operations on CP, GT and CL that no acquire has taken yet, and of
  those that a WAITN of the present region has taken: a WAITN that is run again takes them again (05 R91, 16 R302). -/
  engScope : Nat := 0
  engTaken : Nat := 0
  /-- The race detector's release count and marks (13 R255). -/
  rc : Nat := 0
  lr : Table Nat := []
  /-- The model's own: the number that tells it from every other group, kept while it is pre-empted. -/
  serial : Nat := 0
  wait : Option Wait := none
  /-- The slots that a BRX or CALLX holds until its reads return (11 R215). -/
  tables : List Wait := []
  /-- Issue opportunities as a candidate without issuing, the order of the last issue, and the yield
  preference (15 R294, R295; 11 R224). -/
  due : Nat := 0
  last : Nat := 0
  yielded : Bool := false
  stop : Stop := {}
deriving DecidableEq, Repr

/-! ### Teams and grids -/

/-- A palette's state (04 R78). -/
inductive PalState where
  | absent | queued | filling | entered | resident
deriving DecidableEq, Repr

/-- A declared palette (04 R76 to R80); `lines` are its distinct line numbers after the remap filter. -/
structure Palette where
  lines : List Nat
  state : PalState := .absent
  entrants : Nat := 0
  leave : Nat := 0
  /-- The index in its team of the group whose PENTER started its fill (04 R82). -/
  starter : Nat := 0
  /-- It was Entered when its team was pre-empted, and its lines are fetched again (04 R83). -/
  refill : Bool := false
deriving DecidableEq, Repr

/-- An activation-table slot of a team (09 R182). -/
structure ActTable where
  valid : Bool := false
  base : Nat := 0
  lo : Word := 0
  hi : Word := 0
  seg : List (Word × Word) := []
deriving DecidableEq, Repr

/-- A team: resident, waiting for its clocks, or pre-empted (02 R37, R40; 12; 04 R76). -/
structure Team where
  ctx : Nat := 0
  tenant : Nat := 0
  grid : Nat := 0
  core : Nat := 0
  index : Nat := 0
  /-- Group slots by group index; a retired group's place is none. -/
  gids : List (Option Nat) := []
  producers : Nat := 0
  scratchSize : Nat := 0
  scratchMap : List Nat := []
  scratch : Table Byte := []
  bars : Table Nat := []
  /-- By barrier object and phase parity, one more than the widest scope of the operations that counted bytes
  to the phase (05 R91). -/
  barScope : Table Nat := []
  queues : Table Nat := []
  /-- Waiting order of queue operations and DEQs. -/
  order : Nat := 0
  palCap : Nat := 0
  pals : Table Palette := []
  palGen : Table Nat := []
  palQueue : List Nat := []
  palLeave : Nat := 0
  ranges : Table (Nat × Nat) := []
  act : Table ActTable := []
  prio : Nat := 0
  persist : Bool := false
  hint : Nat := 0
  opReq : Nat := 0
  opTime : Nat := 0
  opKept : Option Nat := none
  /-- Held until its target clusters are stable (15 R287). -/
  heldClock : Bool := false
  age : Nat := 0
  resumedAt : Option Nat := none
  /-- Being pre-empted (16 R302), and whether by a priority switch (15 R292). -/
  leaving : Bool := false
  byPriority : Bool := false
  /-- Saved by a pre-emption that is still in progress (16 R314). -/
  passing : Bool := false
  /-- A pre-empted team: where each group was saved, with what the scheduler records of it. -/
  saved : Option (List (Option (Nat × Group))) := none
  savedFirst : Nat := 0
deriving DecidableEq, Repr

/-- A launch record (14 R258). -/
structure Launch where
  code : DWord := 0
  arg : DWord := 0
  gx : Nat := 1
  gy : Nat := 1
  gz : Nat := 1
  grp : Nat := 1
  pgrp : Nat := 0
  vg : Nat := 1
  vgc : Nat := 0
  tp : Nat := 0
  tc : Nat := 0
  ap : Nat := 0
  ac : Nat := 0
  scr : Nat := 0
  pal : Nat := 0
  mask : Word := 0
  ptm : Nat := 0
  dstk : Nat := 0
  prio : Nat := 0
  hint : Nat := 0
  dep : Bool := false
  persist : Bool := false
  depa : DWord := 0
  depv : Nat := 0
deriving DecidableEq, Repr

/-- A grid: a record from its copy to its completion (14 R260, R265; 15 R284; 13 R248). -/
structure Grid where
  ctx : Nat := 0
  die : Nat := 0
  queue : Nat := 0
  launch : Launch := {}
  depOk : Bool := true
  /-- The context time since which the record is ready, and its effective priority as it was last set: at its aging, and
  when its first team started (R284). -/
  ready : Nat := 0
  eff : Nat := 0
  nextTeam : Nat := 0
  retired : Nat := 0
  /-- The context time since which its next team waits for a place (R291). -/
  waitSince : Nat := 0
  spawned : Bool := false
  batch : List (List Word) := []
  batchNode : Nat := 0
  cores : List Nat := []
  complete : Bool := false
  /-- Fired by a LNCH (14 R281). -/
  fired : Bool := false
  /-- The work numbered below this, issued before its last team retired, is waited for (13 R248). -/
  doneAt : Option Nat := none
  /-- Chosen by its task unit (15 R284). -/
  chosen : Bool := false
deriving DecidableEq, Repr

/-! ### Operations in flight -/

/-- Where the results of an operation go, and what computes them when it completes. -/
inductive Dest where
  | none
  | cells (ws : List (RCell × Word))
  | load (d width : Nat) (lanes : List (Nat × Nat))
  /-- Words of per-thread memory: (lane, register, address). -/
  | words (d : Nat) (cells : List (Nat × Nat × Nat))
  | sload (d width va : Nat)
  | atomic (d : Nat) (wide : Bool) (lanes : List Nat)
  | brx (link : Option Nat) (base index : Nat)
deriving DecidableEq, Repr

/-- An operation of an instruction: what is outstanding, the path and flag it counts on, the bytes or
values that have returned. -/
structure Op where
  gid : Nat := 0
  ctx : Nat := 0
  tenant : Nat := 0
  pc : DWord := 0
  slotB : Bool := false
  instr : Instr
  path : Option Nat := none
  flag : Option Nat := none
  dest : Dest := .none
  /-- Requests, sectors or bytes still outstanding. -/
  parts : Nat := 0
  /-- Bytes returned, by virtual address; old values of an atomic, by lane. -/
  got : Table Nat := []
  /-- The group's own bytes that stand over the bytes returned, taken at issue (02 R41, 13 R241). -/
  laid : Table Byte := []
  rc : Nat := 0
  scope : Option Nat := none
  /-- The lanes that access each line, as (line, lane), for the stop record (16 R306). -/
  who : List (Nat × Nat) := []
  /-- Its lowest active lane, whether the race detector was on, and the serial of its group, at its issue (13 R254, R255). -/
  lane : Nat := 0
  race : Bool := false
  serial : Nat := 0
deriving DecidableEq, Repr

/-- Kinds of a line request (03, 04, 05, 10). -/
inductive ReqKind where
  | load | store | writeback | atomic | addOnStore | acont | palette (team slot : Nat) | prefetch | check (inv l2 : Bool) | grid | table | outbox
deriving DecidableEq, Repr

/-- One lane of an atomic request (10 R198): the offset in its line, operand and second operand. -/
structure LaneOp where
  lane : Nat
  off : Nat
  x : Nat
  y : Nat := 0
deriving DecidableEq, Repr

/-- What was found wrong with an access: a cause group and its detail. -/
structure Flt where
  cause : Nat
  detail : BitVec 96
deriving DecidableEq, Repr

/-- Stages of a request. -/
inductive Stage where
  /-- Waits for the release `hold` of its own instruction (13 R355). -/
  | behind (hold : Nat)
  /-- Waits at its core for the requests of `Req.after` (13 R241). -/
  | queued
  | toSlice
  | walk
  | fetch
  | reply
  /-- Held with its fault until the resume (03 R67, R356). -/
  | held (f : Flt)
  /-- An add-on-store row that its slice has applied and whose reply was lost: a DREPL sends it again under its tag
  (09 R191, 10 R208). -/
  | pinned
deriving DecidableEq, Repr

/-- The atomic a request carries (10 R197, R202): 64-bit, type, kind, compare-and-swap, tag. -/
structure AtomKind where
  ty : Nat := 0
  kind : Nat := 0
  cas : Bool := false
  /-- ACONT: node handle, user tag and words, returns. -/
  handle : Word := 0
  tag : Nat := 0
  user : DWord := 0
deriving DecidableEq, Repr

/-- A request for one line, from a core or an engine to the line's home slice (03 R51, R52). -/
structure Req where
  ops : List Nat := []
  gid : Nat := 0
  core : Nat := 0
  ctx : Nat := 0
  tenant : Nat := 0
  kind : ReqKind
  line : Nat := 0
  /-- Homed as local (03 R53), at this slice. -/
  local_ : Bool := false
  slice : Nat := 0
  sectors : Nat := 0
  bytes : Table Byte := []
  lanes : List LaneOp := []
  atom : AtomKind := {}
  stage : Stage := .toSlice
  nl1 : Bool := false
  /-- The cache hint of its access (03 R63). -/
  hint : Nat := 0
  noAlloc : Bool := false
  strong : Bool := false
  scope : Nat := 0
  race : Bool := true
  /-- An access to per-thread memory (04 R70), and the write-back of a released pool line (15 R290). -/
  ptm : Bool := false
  pin : Bool := false
  /-- The drain-buffer entry and row it stores (09 R190). -/
  drain : Option (Nat × Nat) := none
  /-- The sector data and permissions the slice has returned. -/
  data : Table Byte := []
  rd : Bool := false
  wr : Bool := false
  /-- Partition address of its line, where it is known (03 R60). -/
  pa : Nat := 0
  tag : Nat := 0
  /-- Has reached its slice. -/
  seen : Bool := false
  /-- Earlier requests of its core to its line that it follows (02 R41, 13 R241). -/
  after : List Nat := []
  /-- Requests to its line that reached the slice by its port before it (10 R193). -/
  ahead : List Nat := []
  /-- CINV or CWB: its check has passed, and what the L1 wrote back goes before it (03 R66). -/
  passed : Bool := false
deriving DecidableEq, Repr

/-- A release or acquire that holds later accesses of its group (13 R355). -/
structure Hold where
  gid : Nat := 0
  scope : Nat := 0
  /-- Whether its action of R69 is a release, and whether it holds the whole group at its word. -/
  rel : Bool := true
  whole : Bool := false
  /-- Operations it waits for, then the write-backs it has sent. -/
  waits : List Nat := []
  sent : Bool := false
  wbs : List Nat := []
  /-- The release that ends before this one begins (10 R209). -/
  after : Option Nat := none
  /-- Whether it is the order that a JOIN makes (11 R221). -/
  join : Bool := false
deriving DecidableEq, Repr

/-! ### Caches -/

/-- An L1 line (04 R68). -/
structure L1Line where
  rd : Bool := false
  wr : Bool := false
  valid : Nat := 0
  dirty : Table Byte := []
  data : Table Byte := []
  /-- Teams whose palettes hold it; a pool line when any does (04 R76). -/
  pool : List Nat := []
  /-- The context whose access filled or wrote it last, the cache hint of the access that brought it (03 R63), and its
  partition address (03 R60). -/
  ctx : Nat := 0
  hint : Nat := 0
  pa : Nat := 0
deriving DecidableEq, Repr

/-- An L2 line (03 R54): the tag, the bytes of its valid sectors, its dirty bytes by offset, and whether a prefetch filled it and no demand has hit it yet (R55). -/
structure L2Line where
  tenant : Nat := 0
  line : Nat := 0
  rd : Bool := false
  wr : Bool := false
  ex : Bool := false
  machine : Nat := 0
  valid : Nat := 0
  data : Table Byte := []
  dirty : Table Byte := []
  prefetched : Bool := false
  /-- The cache hint of the last access that gave one (03 R63, 05 R95). -/
  hint : Nat := 0
  /-- Partition and partition address of its machine address, whether a 64 KiB leaf with MG maps it (R48), and the
  context that brought it. -/
  part : Nat := 0
  pa : Nat := 0
  mg : Bool := false
  ctx : Nat := 0
deriving DecidableEq, Repr

/-- A finished translation (03 R57): the page bases, its size in bits, the leaves' permissions and LOC. -/
structure Tlb where
  tenant : Nat
  part : Nat
  vpage : Nat
  bits : Nat
  ppage : Nat
  mpage : Nat
  /-- RD, WR, EX (bits 0 to 2) of the two stages' leaves. -/
  perm1 : Nat
  perm2 : Nat
  loc : Bool
  al : Bool
  lvl1 : Nat
  lvl2 : Nat
  pn : Bool
  mg : Bool
deriving DecidableEq, Repr

/-- A replay-filter entry (10 R208). -/
structure Replay where
  port : Nat
  tag : Nat
  op : Nat
  reply : List Nat := []
deriving DecidableEq, Repr

/-- A slice launch-queue entry (10 R205): reserved, or filled with a record for a node. -/
structure SlqEntry where
  owner : Nat
  /-- The port and tag of its ACONT (10 R208). -/
  port : Nat := 0
  tag : Nat := 0
  ctx : Nat
  handle : Word
  record : Option (List Word) := none
deriving DecidableEq, Repr

/-- A prefetch stream (03 R55). -/
structure Stream where
  tenant : Nat
  page : Nat
  last : Nat
  stride : Int := 0
  confirmed : Bool := false
deriving DecidableEq, Repr

/-- An L2 slice. -/
structure Slice where
  lines : Table L2Line := []
  tlb : List Tlb := []
  walks : Table Nat := []
  replay : List Replay := []
  slq : List SlqEntry := []
  /-- ACONTs that found too few entries, in arrival order (10 R205). -/
  waiting : List Nat := []
  sel : Table Nat := []
  /-- issued, useful, late, useless: counter `9 kind + bucket`. -/
  pf : Table Nat := []
  streams : List Stream := []
  /-- Lines whose prefetch is outstanding. -/
  fetching : List (Nat × Nat) := []
deriving DecidableEq, Repr

/-! ### Cores, clusters, dies -/

/-- An event counter (17 R326). -/
structure Counter where
  count : Nat := 0
  en : Bool := false
  src : Nat := 0
  owner : Option Nat := none
deriving DecidableEq, Repr

/-- A copy request as the kick queue holds it (05 R95, R96). -/
structure Copy where
  op : Nat
  gid : Nat
  team : Nat
  ctx : Nat
  tenant : Nat
  scope : Nat
  req : Nat
  saddr : Nat
  daddr : Nat
  spy : Int
  spz : Int
  dpy : Int
  dpz : Int
  x : Nat
  y : Nat
  z : Nat
  bar : Option Nat
  ssp : Bool
  dsp : Bool
  hint : Nat := 0
deriving DecidableEq, Repr

/-- A piece of a copy request at an engine (05 R99, R100): its engine, next byte and end. -/
structure Piece where
  copy : Copy
  engine : Nat
  next : Nat
  stop : Nat
  held : Option Flt := none
deriving DecidableEq, Repr

/-- A gather or scatter (05 R103): its rows as (lane, global, scratchpad), those left, the row faults. -/
structure Gather where
  op : Nat
  gid : Nat
  team : Nat
  ctx : Nat
  tenant : Nat
  scope : Nat
  scatter : Bool
  len : Nat
  rows : List (Nat × Nat × Nat)
  left : List Nat
  faults : List (Nat × Flt) := []
deriving DecidableEq, Repr

/-- A collective request (05 R104). -/
structure Collective where
  op : Nat
  gid : Nat
  team : Nat
  ctx : Nat
  tenant : Nat
  scope : Nat
  req : Nat
  inp : Nat
  out : Nat
  comm : Nat
  count : Nat
  rank : Nat
  root : Nat
  seq : Nat
  opc : Nat
  type : Nat
  kind : Nat
  bar : Option Nat
  held : Option Flt := none
deriving DecidableEq, Repr

/-- What the matrix unit is to do for one instruction (09); A is captured at issue. -/
inductive MxWork where
  | mma (d pair : Nat) (z sat : Bool) (a : List Word) (tile : Nat) (scales : Option (List Word × List Word × Nat))
  | aclr (d : Nat)
  | amov (d a c0 n : Nat)
  | aload (d : Nat) (add int : Bool)
  | drain (acc : Nat) (dest : Nat) (base stride fmt : Nat) (int add : Bool) (cmd : Nat) (scale : Word) (bias : List Word)
  | drepl (entry : Nat) (ctx : Nat)
  | atbl (slot base : Nat)
deriving DecidableEq, Repr

/-- A matrix instruction in the unit's queue, in issue order (09 R170). `rows` are the addresses of
the words that an ALOAD or ATBL reads, in their order, as its operation holds the bytes. -/
structure MxOp where
  op : Nat
  gid : Nat
  team : Nat
  work : MxWork
  sp : Bool := false
  rows : List Nat := []
deriving DecidableEq, Repr

/-- A drain-buffer entry (09 R190); an unlisted entry is Free. -/
structure Drain where
  op : Nat
  gid : Nat
  team : Nat
  ctx : Nat
  tenant : Nat
  pinned : Bool := false
  dest : Nat
  base : Nat
  stride : Nat
  fmt : Nat
  add : Bool
  /-- Rows performed, and the rows that have faulted. -/
  mask : Nat := 0
  faulted : List (Nat × Flt) := []
  rows : List (List Word)
  replayer : Option Nat := none
  pc : DWord
deriving DecidableEq, Repr

/-- A core (02 R37, 04, 06). -/
structure Core where
  l1 : Table L1Line := []
  alias_ : Table Nat := []
  canon : Table Nat := []
  kicks : List Copy := []
  gathers : List Gather := []
  mx : List MxOp := []
  drain : Table Drain := []
  /-- sy.ecc.corr, sy.ecc.scrub, sy.scrub.ctl (06 R112). -/
  corr : Nat := 0
  scrub : Nat := 0
  scrubCtl : Bool := true
  /-- Words with one bit in error, and poisoned words (06 R110, R111). -/
  flips : List FileWord := []
  /-- Words with two bits in error, and whether a second read shows them again (06 R110). -/
  doubles : List (FileWord × Bool) := []
  poison : List FileWord := []
  counters : Table Counter := []
  /-- Physical granules in use: vector, tile, accumulator, scratchpad (02 R40). -/
  vUsed : List Nat := []
  tUsed : List Nat := []
  aUsed : List Nat := []
  sUsed : List Nat := []
  /-- Quadrants held for a second read cycle (15 R293, 06 R108). -/
  secondRead : List Nat := []
deriving DecidableEq, Repr

/-- A combining-buffer entry (10 R200). -/
structure Combine where
  tenant : Nat
  ctx : Nat
  addr : Nat
  kind : Nat
  ty : Nat
  scope : Nat
  value : Nat
  taken : Int
  core : Nat
  slice : Nat
  ops : List (Nat × Nat)
deriving DecidableEq, Repr

/-- A cluster (15 R294, 17 R316 to R320). -/
structure Cluster where
  cycles : Nat := 0
  turn : Nat := 0
  window : List Nat := []
  now : Nat := 0
  /-- What the quadrants have decided in this cycle: group, slot and charge of each word that is to issue (15 R294). -/
  picks : List (Nat × Bool × Nat) := []
  budget : Nat := 0xFFFF
  nextBudget : Option Nat := none
  lostWindows : List Bool := []
  lost : Bool := false
  point : Nat := 4
  /-- The request that the point answers (15 R287). -/
  setPoint : Nat := 4
  relock : Option Nat := none
  relockStart : Nat := 0
  drpThr : Nat := 0x28
  alarms : Nat := 0
  stretched : Nat := 0
  stretch : Nat := 0
  halving : Nat := 0
  /-- A droop alarm of the present cycle. -/
  alarm : Bool := false
  combine : List Combine := []
  /-- The budget that balancing has moved from the cluster, as (receiver, amount), and when it was last set (17 R323). -/
  moved : List (Nat × Nat) := []
  setting : Option Nat := none
  /-- What it has given up for another module's deficit (17 R324). -/
  chase : Nat := 0
  /-- The budget of a cluster that no share rules, before a hot stack capped it (17 R325). -/
  full : Option Nat := none
deriving DecidableEq, Repr

/-- An entry of an error log (16 R313). -/
structure LogEntry where
  seq : Nat := 0
  time : Nat := 0
  info : Nat := 0
  ctx : Nat := 0
  addr : Nat := 0
  read : Bool := false
deriving DecidableEq, Repr

/-- An error log (16 R313). -/
structure ErrLog where
  count : Nat := 0
  trans : Nat := 0
  last : Nat := 0
  ovf : Bool := false
  entries : Table LogEntry := []
deriving DecidableEq, Repr

/-- A firewall of a die-to-die port (17 R332). -/
structure Firewall where
  ctl : Nat := 0
  base : Nat := 0
  limit : Nat := 0
  ten : Table Nat := []
deriving DecidableEq, Repr

/-- An event that waits for a router (14 R272): an entry, an RPASS or an RREJ. -/
inductive RouterEvent where
  | entry (source : Option Nat) (rec : List Word)
  | pass (source : Option Nat) (stage : Nat) (rec words : List Word) (cyc : Nat)
  | rej (source : Option Nat) (stage : Nat) (rec words : List Word) (cyc : Nat)
deriving DecidableEq, Repr

/-- A commute router (14 R269 to R274); an unlisted router is free. -/
structure Router where
  ctx : Nat
  set : Nat
  entry : Nat
  stages : Nat
  lottery : Bool
  depth : Bool
  logw : Nat
  rejv : Bool
  exitN : Word
  reject : Word
  cost : List Nat
  write : List Nat
  seed : Nat
  arr : Table Nat := []
  pass : Table Nat := []
  cyc : Table Nat := []
  p16 : List Nat := []
  c : List Nat := []
  weight : List Nat := []
  decisions : Nat := 0
  lfsr : Nat := 0
  origin : Nat := 0
  events : List RouterEvent := []
  /-- Records whose push was refused: the group by its serial, the target and the record, kept until the resume. -/
  refused : List (Option Nat × Word × List Word) := []
deriving DecidableEq, Repr

/-- A die (03 R48 to R50; 05; 14; 17). -/
structure Die where
  hptCtl : Nat := 0
  hptEpoch : Nat := 0x64
  hptThr : Nat := 0x40
  hptSwaps : Nat := 0
  hptPinskip : Nat := 0
  /-- Counts by (partition, page): LPDDR6 and HBM4E tables (R48), last partner, swaps in progress. -/
  hptSlow : List ((Nat × Nat) × Nat) := []
  hptFast : List ((Nat × Nat) × Nat) := []
  hptLast : Option (Nat × Nat) := none
  /-- The device time at which the epoch began, and the swaps its end has made so far. -/
  hptSince : Nat := 0
  hptMade : Nat := 0
  swaps : List (Nat × Nat × Nat) := []
  /-- Line accesses since the last sample, HBM4E and LPDDR6 (R48). -/
  samplesFast : Nat := 0
  samplesSlow : Nat := 0
  fw : Table Firewall := []
  bwShare : Table Nat := []
  bwScale : Nat := 0x100
  bwTemp : Nat := 0
  bwThr : Nat := 0x2A8
  /-- Above its threshold and not yet restored; since when it has been below it again. -/
  bwHot : Bool := false
  bwSince : Option Nat := none
  log : ErrLog := {}
  /-- Sectors of its memory that an error correction cannot read, by machine address / 32, and whether a second read
  fails too (16 R313). -/
  errors : Table Bool := []
  counters : Table Counter := []
  pieces : Table Piece := []
  colls : List Collective := []
  routers : Table Router := []
  /-- Remote pushes pulled in but not yet accepted, with their acknowledgements. -/
  pulls : List (RemotePush × Bool) := []
  acks : List (Nat × Nat) := []
  tagsSeen : List (Nat × Nat) := []
deriving DecidableEq, Repr

/-! ### Contexts -/

/-- A launch-queue descriptor as loaded (14 R257). -/
structure LaunchQueue where
  base : Nat := 0
  logn : Nat := 0
  en : Bool := false
  head : Nat := 0
deriving DecidableEq, Repr

/-- A node as the task unit holds it (14 R263, R264). -/
structure Node where
  v : Bool := false
  en : Bool := false
  rsz : Nat := 0
  mode : Nat := 0
  sealed : Bool := false
  export_ : Bool := false
  count : Nat := 1
  set : Nat := 0
  ring : Option Nat := none
  timer : Nat := 0
  lrec : Nat := 0
  template : Option Launch := none
  ovfBase : Nat := 0
  ovfCap : Nat := 0
  lo : Nat := 0
  hi : Nat := 0
  bin : List (List Word) := []
  ovf : List (List Word) := []
  /-- The slot of the overflow ring that holds the first of them. -/
  ovfHead : Nat := 0
  due : Bool := false
  started : Option Nat := none
deriving DecidableEq, Repr

/-- A local window (03 R53) as loaded and found valid. -/
structure Window where
  die : Nat
  size : Nat
  base : Nat
deriving DecidableEq, Repr

/-- An engine record waiting to be written, or written, in a halt (16 R306). -/
structure EngRec where
  kind : Nat
  number : Nat
  die : Nat
  cause : Nat
  detail : BitVec 96
  group : Nat
  req : Nat
  prog : Nat
  addr : Nat
  time : Nat
deriving DecidableEq, Repr

/-- A stepped group whose word has issued (16 R311): its slot and the word, the path that SE waits for with the counter's
value before the word; path 6 stands for a launch, 7 for none. -/
structure Stepped where
  gid : Nat
  slotB : Bool
  pc : DWord
  path : Nat
  base : Nat
deriving DecidableEq, Repr

/-- The halt block and what a halt keeps (16 R304, R305). -/
structure HaltBlock where
  halt : Bool := false
  stopped : Bool := false
  eovf : Bool := false
  preempt : Bool := false
  refused : Bool := false
  first : Nat := 0
  nrec : Nat := 0
  stop : Nat := 0
  wdt : Nat := 0x2710
  debugBits : Nat := 0
  cmd : Nat := 0
  recs : List EngRec := []
  /-- A step runs (R311): only the groups of `stepping` may issue, each one word; `stepped` holds those that have. -/
  stepMode : Bool := false
  stepping : List Nat := []
  stepped : List Stepped := []
  /-- Grids numbered from here on were launched during the step. -/
  stepBase : Nat := 0
  /-- The groups that have not stopped yet, each with the cycle of its cluster by which it has; whether engines run on;
  the cluster and its cycle of a first fault found at issue (16 R304, R305). -/
  skid : List (Nat × Nat) := []
  engines : Bool := false
  firstAt : Option (Nat × Nat) := none
deriving DecidableEq, Repr

/-- The race-detector block (13 R254). -/
structure RaceBlock where
  en : Bool := false
  mode : Bool := false
  lo : Nat := 0
  hi : Nat := 0
  shadow : Nat := 0
  log : Nat := 0
  logsz : Nat := 0
  logwr : Nat := 0
  hits : Nat := 0
  /-- The incarnation of the writer of each sector's shadow entry (13 R255). -/
  serials : Table Nat := []
deriving DecidableEq, Repr

/-- A context as loaded from its descriptor (17 R335); an unlisted context is not loaded. -/
structure Context where
  part : Nat := 0
  num : Nat := 0
  tenant : Nat := 0
  level : Nat := 2
  desc : Nat := 0
  fpx : Nat := 0
  pfen : Bool := false
  nxok : Bool := false
  ceiling : Nat := 0
  grant : Nat := 0
  slice : Nat := 0
  s1root : Nat := 0
  save : Nat := 0
  tsave : Nat := 0
  haltb : Nat := 0
  raceb : Nat := 0
  queuesAt : Nat := 0
  nodesAt : Nat := 0
  routersAt : Nat := 0
  outboxAt : Nat := 0
  ncount : Nat := 0
  ptmw : Nat := 0
  ptmb : Nat := 0
  ptmn : Nat := 0
  windows : List Window := []
  hb : HaltBlock := {}
  rd : RaceBlock := {}
  ptmUsed : List Nat := []
  /-- Device time spent halted, the device time of the halt, and the context time the slice began. -/
  haltSum : Nat := 0
  haltAt : Nat := 0
  sliceStart : Nat := 0
  sliceEnded : Bool := false
  queues : Table LaunchQueue := []
  /-- Nodes by `4096 × die + index`. -/
  nodes : Table Node := []
  /-- Outbox slots in use, by `256 × die + slot`: the push operation and handle. -/
  outbox : Table (Nat × Word × Option Nat) := []
  /-- By die, the grid that holds a reservation and the core reserved for it (15 R291). -/
  reserved : Table (Nat × Nat) := []
  /-- By die, the context time of the governor's last evaluation (14 R267). -/
  govAt : Table Nat := []
deriving DecidableEq, Repr

/-! ### The hub -/

/-- A delegation entry (17 R329). -/
structure Delegation where
  gen : Nat := 0
  pgen : Nat := 0
  parent : Nat := 0
  grantee : Nat := 0
  level : Nat := 0
  v : Bool := false
  mask : Nat := 0
deriving DecidableEq, Repr

/-- A partition-table entry (17 R333). -/
structure Partition where
  v : Bool := false
  dies : Nat := 0
  s2root : Nat := 0
deriving DecidableEq, Repr

/-- An interrupt to the application cores (17 R331): the row, the handler level, the vector, and the
context or partition it concerns. -/
structure Interrupt where
  row : Nat
  level : Nat
  vector : Nat
  who : Nat
  /-- The detail of a fault that no context of this module has made (17 R339). -/
  detail : BitVec 96 := 0
deriving DecidableEq, Repr

/-- The episodes of a GSYNC object or of a communicator (17 R323): the last arrival of each cluster in the present one,
since when it runs, and the past ones, newest first: the slack of each cluster and the length. -/
structure Meet where
  last : Table Nat := []
  since : Option Nat := none
  past : List (Table Nat × Nat) := []
  coll : Bool := false
deriving DecidableEq, Repr

/-- An attestation report (17 R342). -/
structure Report where
  measurements : List (List Byte)
  config : List Byte
  nonce : List Byte
  counter : Nat
  signature : List Byte
deriving DecidableEq, Repr

/-- The hub die (17). -/
structure Hub where
  booted : Bool := false
  /-- The stage whose verification failed, if boot stopped. -/
  failed : Option Nat := none
  bootCount : Nat := 0
  measurements : List (List Byte) := []
  reports : List Report := []
  interrupts : List Interrupt := []
  log : ErrLog := {}
  module : Nat := 0
  linkDown : List Nat := []
  /-- The link map, which the signed configuration brings at boot (DESIGN CHOICE, log 82: the manual does not say which port
  reaches which module): the modules that each chip-to-chip port reaches, as (module, port) (R341, R357). -/
  links : List (Nat × Nat) := []
  pwShare : Table Nat := []
  pwLent : Nat := 0
  pwDeficit : Nat := 0
  deficits : Table Nat := []
  meets : Table Meet := []
  /-- Accesses by way of the hub that wait, oldest first: behind one to the same line (10 R193), for a full replay filter
  (10 R208) or for a page swap (03 R49). -/
  waits : List HubAccess := []
  /-- The context that level 1 has assigned to each port function (17 R338). -/
  functions : Table Nat := []
  /-- The model's own: what the last read of an application core or a root port returned. -/
  answer : List Byte := []
  dl : Table Delegation := []
  dlLow : Table Nat := []
  dlBusy : Bool := false
  dlErr : Bool := false
  rt : Table Nat := []
  tcCmd : Nat := 0
  tcArg0 : Nat := 0
  tcArg1 : Nat := 0
  tcBusy : Bool := false
  tcErr : Bool := false
  /-- The arguments of the running command, and the context it reloads. -/
  tcRun0 : Nat := 0
  tcRun1 : Nat := 0
  tcCtx : Nat := 0
  pt : Table Partition := []
  epoch : Nat := 0
deriving DecidableEq, Repr

/-- The group slot that holds the issue opportunity: its group, its slot, and whether the group returns to
a word it was held at. -/
structure Grant where
  gid : Nat
  slotB : Bool
  again : Bool
deriving DecidableEq, Repr

/-- The module. -/
structure State where
  devTime : Nat
  mem : Table Byte
  groups : Table Group
  teams : Table Team
  grids : Table Grid
  contexts : Table Context
  cores : Table Core
  clusters : Table Cluster
  slices : Table Slice
  dies : Table Die
  hub : Hub
  /-- Operations, line requests and releases in flight, by number, and the next number. -/
  ops : Table Op
  reqs : Table Req
  holds : Table Hold
  nextId : Nat
  /-- Words issued so far: the order of R294. -/
  issues : Nat
  /-- The model's own: the issue opportunity granted (log 5), the outside world's events in store, and the
  free values taken (log 4). -/
  grant : Option Grant
  inputs : List Instr
  draws : Nat
deriving DecidableEq, Repr

/-- Memory in its canonical form: addresses strictly rising, no byte equal to the 0 that an unlisted
address reads as. -/
def Memory.wf (m : Table Byte) : Bool := tcanon 0 0 m

/-- The module right after reset (log 2). -/
def State.reset : State :=
  { devTime := 0, mem := [], groups := [], teams := [], grids := [], contexts := [], cores := [], clusters := [], slices := [], dies := [], hub := {}, ops := [], reqs := [], holds := [], nextId := 0, issues := 0, grant := none, inputs := [], draws := 0 }

end Sys2Proof.Machine
end

