-- ==== Sys2Proof/Machine/Ops.lean ====
section
/-! DEFINITION. The named operations over the units and registers of the module, the system registers,
the details of the cause groups, and taking a fault: raising the halt line and filling a stop record
(16 R304 to R308), with the return from a halt beside it. -/

namespace Sys2Proof.Machine

/-! ### Units -/

def State.group (s : State) (gid : Nat) : Group := tget {} gid s.groups
def State.setGroup (s : State) (gid : Nat) (g : Group) : State := { s with groups := tput gid g s.groups }
def State.modGroup (s : State) (gid : Nat) (f : Group → Group) : State := s.setGroup gid (f (s.group gid))
/-- Whether a group slot holds a resident group. -/
def State.resident (s : State) (gid : Nat) : Bool := (tfind gid s.groups).isSome

def State.team (s : State) (t : Nat) : Team := tget {} t s.teams
def State.modTeam (s : State) (t : Nat) (f : Team → Team) : State := { s with teams := tput t (f (s.team t)) s.teams }

def State.grid (s : State) (g : Nat) : Grid := tget {} g s.grids
def State.modGrid (s : State) (g : Nat) (f : Grid → Grid) : State := { s with grids := tput g (f (s.grid g)) s.grids }

def State.context (s : State) (c : Nat) : Context := tget {} c s.contexts
def State.modContext (s : State) (c : Nat) (f : Context → Context) : State := { s with contexts := tput c (f (s.context c)) s.contexts }

def State.core (s : State) (c : Nat) : Core := tget {} c s.cores
def State.modCore (s : State) (c : Nat) (f : Core → Core) : State := { s with cores := tput c (f (s.core c)) s.cores }

def State.cluster (s : State) (c : Nat) : Cluster := tget {} c s.clusters
def State.modCluster (s : State) (c : Nat) (f : Cluster → Cluster) : State := { s with clusters := tput c (f (s.cluster c)) s.clusters }

def State.slice (s : State) (c : Nat) : Slice := tget {} c s.slices
def State.modSlice (s : State) (c : Nat) (f : Slice → Slice) : State := { s with slices := tput c (f (s.slice c)) s.slices }

def State.die (s : State) (d : Nat) : Die := tget {} d s.dies
def State.modDie (s : State) (d : Nat) (f : Die → Die) : State := { s with dies := tput d (f (s.die d)) s.dies }

def State.modHub (s : State) (f : Hub → Hub) : State := { s with hub := f s.hub }

/-- The core, cluster, die, slot in its core and quadrant of a group slot (02 R44). -/
def coreOf (gid : Nat) : Nat := gid / 64
def clusterOfCore (core : Nat) : Nat := core / 8
def dieOfCore (core : Nat) : Nat := core / 64
def dieOf (gid : Nat) : Nat := gid / 4096
def slotOf (gid : Nat) : Nat := gid % 64
def quadOf (gid : Nat) : Nat := slotOf gid / 16

/-- A group slot as the SRC and WRITER words give it (10 R204, 13 R254). -/
def srcWord (gid lane : Nat) : Nat := gid % 4096 + dieOf gid * 4096 + lane * 2 ^ 17

/-- A number below `n` that the manual leaves open (log 4); it is drawn only where there is a choice. -/
def State.choose (s : State) (n : Nat) : Nat × State :=
  if n ≤ 1 then (0, s) else (Config.free s.draws % n, { s with draws := s.draws + 1 })

/-- A free value of `w` bits (log 4). -/
def State.freeBits (s : State) (w : Nat) : Nat × State := (Config.free s.draws % 2 ^ w, { s with draws := s.draws + 1 })

/-- A fresh number for an operation, request or release. -/
def State.fresh (s : State) : Nat × State := (s.nextId, { s with nextId := s.nextId + 1 })

/-- The device time a context has run: it stands still while the context is halted (16 R304). -/
def State.ctxTime (s : State) (c : Nat) : Nat :=
  let x := s.context c
  (if x.hb.halt then x.haltAt else s.devTime) - x.haltSum

/-! ### Registers (02 R40) -/

/-- Words and masks of a group's registers. -/
def Group.rv (g : Group) (r L : Nat) : Word := tget 0 (32 * r + L) g.v
def Group.rs (g : Group) (r : Nat) : Word := tget 0 r g.s
def Group.rq (g : Group) (r : Nat) : Word := tget 0 r g.q
def Group.rt (g : Group) (t w : Nat) : Word := tget 0 (512 * t + w) g.t
def Group.racc (g : Group) (a i j : Nat) : Word := tget 0 (1024 * a + 32 * i + j) g.acc

/-- The 64-bit value of an even scalar pair. -/
def Group.rpair (g : Group) (r : Nat) : DWord := pair (g.rs r) (g.rs (r + 1))

/-- A write of an A-operand register of the latch empties the latch (09 R173). -/
def Group.wv (g : Group) (r L : Nat) (w : Word) : Group :=
  { g with v := tset 0 (32 * r + L) w g.v, latch := match g.latch with | some b => if b ≤ r && r < b + 16 then none else some b | none => none }
def Group.ws (g : Group) (r : Nat) (w : Word) : Group := { g with s := tset 0 r w g.s }
def Group.wq (g : Group) (r : Nat) (w : Word) : Group := { g with q := tset 0 r w g.q }
def Group.wpair (g : Group) (r : Nat) (x : DWord) : Group := (g.ws r (loWord x)).ws (r + 1) (hiWord x)

/-- Writes one register word by class. -/
def Group.wcell (g : Group) (c : RCell) (w : Word) : Group :=
  match c.cls with
  | 0 => g.wv (c.key / 32) (c.key % 32) w
  | 1 => g.ws c.key w
  | 2 => g.wq c.key w
  | 3 => { g with t := tset 0 c.key w g.t }
  | _ => { g with acc := tset 0 c.key w g.acc }

def Group.wcells (g : Group) (ws : List (RCell × Word)) : Group := ws.foldl (fun g w => g.wcell w.1 w.2) g

/-- Writes `f L` into register `r` of the lanes of `m`. -/
def Group.wlanes (g : Group) (r : Nat) (m : Word) (f : Nat → Word) : Group :=
  (List.range 32).foldl (fun g L => if m.getLsbD L then g.wv r L (f L) else g) g

/-- Writes `f L` into bit L of predicate `r` for the lanes of `m`. -/
def Group.wpred (g : Group) (r : Nat) (m : Word) (f : Nat → Bool) : Group :=
  g.wq r ((g.rq r &&& ~~~m) ||| (maskOf f &&& m))

/-- A group's slot, B or A. -/
def Group.slot (g : Group) (b : Bool) : Slot := if b then g.b else g.a
def Group.setSlot (g : Group) (b : Bool) (x : Slot) : Group := if b then { g with b := x } else { g with a := x }
def Group.modSlot (g : Group) (b : Bool) (f : Slot → Slot) : Group := g.setSlot b (f (g.slot b))
/-- The mask of a slot: s0 or s1 (R39). -/
def Group.mask (g : Group) (b : Bool) : Word := g.rs (if b then 1 else 0)
def Group.setMask (g : Group) (b : Bool) (m : Word) : Group := g.ws (if b then 1 else 0) m

/-- A path counter: the operations on the path that have not left it (05 R89). -/
def Group.counter (g : Group) (p : Nat) : Nat := (g.paths.filter (fun x => x.path == p)).length

/-- Operations that have completed leave the path from its head, and no others (R89). -/
def settlePath (p : Nat) : List PathOp → List PathOp
  | [] => []
  | x :: rest => if x.path = p then (if x.done then settlePath p rest else x :: rest) else x :: settlePath p rest

/-- Operation `op` of path `p` has completed (R89). -/
def Group.leave (g : Group) (p op : Nat) : Group :=
  { g with paths := settlePath p (g.paths.map (fun x => if x.path = p ∧ x.op = op then { x with done := true } else x)) }

/-- Operations of a path still outstanding. -/
def Group.pathOps (g : Group) (p : Nat) : List Nat := (g.paths.filter (fun x => x.path == p && !x.done)).map (·.op)

def Group.flagCount (g : Group) (f : Nat) : Nat := tget 0 f g.flags
def Group.flagSet (g : Group) (f : Nat) : Bool := decide (0 < g.flagCount f)
def Group.assignFlag (g : Group) (f : Nat) : Group := { g with flags := tset 0 f (g.flagCount f + 1) g.flags }
def Group.clearFlag (g : Group) (f : Nat) : Group := { g with flags := tset 0 f (g.flagCount f - 1) g.flags }

/-- The mark on a register, if it is pending (01 R26). -/
def Group.pending (g : Group) (cls idx : Nat) : Option Mark := g.marks.find? (fun m => m.cls == cls && m.idx == idx)
def Group.addMark (g : Group) (m : Mark) : Group := { g with marks := m :: g.marks.filter (fun x => !(x.cls == m.cls && x.idx == m.idx)) }
/-- A clause that waits on the flags of `w` clears their marks (R26, R28). -/
def Group.clearMarks (g : Group) (w : BitVec 12) : Group := { g with marks := g.marks.filter (fun m => !w.getLsbD m.flag) }
/-- Whether every flag of a WAIT field is clear (R23). -/
def Group.waitsClear (g : Group) (w : BitVec 12) : Bool := (List.range 12).all (fun f => !w.getLsbD f || !g.flagSet f)

/-- Whether the group may name this register (02 R40). -/
def Group.allocated (g : Group) (r : Reg) : Bool :=
  match r.cls with
  | .vec => decide (r.idx < g.nv)
  | .sca => decide (r.idx < 64)
  | .pred => decide (r.idx < 8)
  | .tile => decide (r.idx < g.nt)
  | .acc => decide (r.idx < g.na)

/-! ### System registers (02 R44, 03 R62, 06 R112, 07 R133, 11 R218) -/

/-- The top of per-thread memory (11 R218). -/
def Group.stackTop (g : Group) : Nat := g.ptmBase + g.ptmWords * 128

/-- The value of `sy.*` register `i` for lane `L` of a group. -/
def State.sysReg (s : State) (gid i L : Nat) : Word :=
  let g := s.group gid
  let t := s.team g.team
  let r := (s.grid t.grid).launch
  let core := s.core (coreOf gid)
  BitVec.ofNat 32 <|
    match i with
    | 0x00 => L
    | 0x01 => g.index
    | 0x02 => t.index
    | 0x03 => t.gids.length
    | 0x04 => r.gx
    | 0x05 => r.gy
    | 0x06 => r.gz
    | 0x07 => t.index % r.gx
    | 0x08 => t.index / r.gx % r.gy
    | 0x09 => t.index / r.gx / r.gy
    | 0x0A => coreOf gid % 64
    | 0x0B => coreOf gid % 64 / 8
    | 0x0C => dieOf gid
    | 0x0D => quadOf gid
    | 0x0E => slotOf gid
    | 0x0F => g.role
    | 0x10 => (s.context g.ctx).num
    | 0x11 => g.tenant
    | 0x12 => g.nv
    | 0x13 => g.nt
    | 0x14 => g.na
    | 0x15 => t.scratchSize
    | 0x16 => t.palCap
    | 0x17 => g.ptmBase % 2 ^ 32
    | 0x18 => g.ptmBase / 2 ^ 32 % 2 ^ 24
    | 0x19 => g.ptmWords
    | 0x41 => core.corr
    | 0x42 => core.scrub
    | 0x43 => core.scrubCtl.toNat
    | 0x44 => g.fpx
    | 0x45 => g.dstkWords
    | 0x46 => (g.stackTop - g.dsp.toNat) / 128
    | _ => 0

/-! ### Fault details (16 R308) -/

/-- Lays fields `(value, lowest bit)` into the 96-bit detail. -/
def detail (fs : List (Nat × Nat)) : BitVec 96 := BitVec.ofNat 96 (fs.foldl (fun a f => a + f.1 * 2 ^ f.2) 0)

def fTranslation (acc level stage kind va : Nat) : Flt := ⟨1, detail [(acc, 63), (level, 61), (stage, 60), (kind, 56), (va % 2 ^ 56, 0)]⟩
def fPermission (info kind missing stage acc va : Nat) : Flt := ⟨2, detail [(info, 64), (kind, 62), (missing, 60), (stage, 59), (acc, 56), (va % 2 ^ 56, 0)]⟩
def fAlign (space lane lg addr : Nat) : Flt := ⟨3, detail [(space, 64), (lane, 59), (lg, 56), (addr % 2 ^ 56, 0)]⟩
def fEncoding (half : Bool) (reason : Nat) (w : DWord) : Flt := ⟨5, detail [(half.toNat, 68), (reason, 64), (w.toNat, 0)]⟩
def fConvergence (opc : Nat) (regroup guarded : Bool) (m : Word) : Flt := ⟨6, detail [(opc, 34), (regroup.toNat, 33), (guarded.toNat, 32), (m.toNat, 0)]⟩
def fRegister (info flag index cls kind : Nat) : Flt := ⟨7, detail [(info, 19), (flag, 15), (index, 7), (cls, 4), (kind, 0)]⟩
def fEngine (atIssue : Bool) (engine req kind : Nat) : Flt := ⟨8, detail [(atIssue.toNat, 40), (engine, 36), (req, 4), (kind, 0)]⟩
def fNode (source : Nat) (atIssue : Bool) (slice die : Nat) (handle : Word) (kind : Nat) : Flt := ⟨9, detail [(source, 47), (atIssue.toNat, 46), (slice, 41), (die, 36), (handle.toNat, 4), (kind, 0)]⟩
def fPalette (handle : Word) (kind : Nat) : Flt := ⟨10, detail [(handle.toNat, 4), (kind, 0)]⟩
def fRight (level right sys opc : Nat) : Flt := ⟨11, detail [(level, 22), (right, 18), (sys, 10), (opc, 0)]⟩
def fSync (addr presented held number kind : Nat) : Flt := ⟨12, detail [(addr % 2 ^ 56, 18), (min presented 31, 13), (min held 31, 8), (number, 4), (kind, 0)]⟩
def fDebug (code kind : Nat) : Flt := ⟨13, detail [(code, 2), (kind, 0)]⟩
def fTrap (value : Word) (code : Nat) : Flt := ⟨14, detail [(value.toNat, 16), (code, 0)]⟩
def fRace (int writer escope ascope : Nat) (write : Bool) (va : Nat) : Flt := ⟨15, detail [(int, 80), (writer, 63), (escope, 60), (ascope, 57), (write.toNat, 56), (va % 2 ^ 56, 0)]⟩
def fLasting (seq : Nat) (mach poison : Bool) (unit addr : Nat) : Flt := ⟨16, detail [(seq % 2 ^ 32, 64), (mach.toNat, 61), (poison.toNat, 60), (unit, 56), (addr % 2 ^ 56, 0)]⟩
def fWatchdog (us addr number wait : Nat) : Flt := ⟨17, detail [(min us (2 ^ 32 - 1), 64), (addr % 2 ^ 56, 8), (number, 4), (wait, 0)]⟩
def fLink (addr reason : Nat) (c2c : Bool) (port : Nat) : Flt := ⟨18, detail [(addr % 2 ^ 56, 10), (reason, 6), (c2c.toNat, 5), (port, 0)]⟩
def fFirewall (reason tenant addr : Nat) (inbound : Bool) (port die : Nat) : Flt := ⟨19, detail [(reason, 80), (tenant, 64), (addr % 2 ^ 56, 8), (inbound.toNat, 7), (port, 5), (die, 0)]⟩

/-- Why a push or collective cannot be sent to a module: no port reaches it, or each that does is down (17 R339, R357). -/
def Hub.noWay (h : Hub) (m addr : Nat) : Option Flt :=
  match (h.links.filter (fun x => x.1 == m)).map (·.2) with
  | [] => some (fLink addr 2 true 0)
  | p :: ps => if (p :: ps).all (fun q => h.linkDown.contains q) then some (fLink addr 1 true p) else none

/-- An unallocated register (02 R40, cause 7 kind 1). -/
def fUnallocated (r : Reg) : Flt := fRegister 0 0 r.idx r.cls.code 1
/-- A scratchpad access beyond the team's size (02 R40). -/
def fScratch (addr : Nat) : Flt := fRegister (addr % 2 ^ 32) 0 0 5 1

/-- A handle of another module, where only a node of this one can be meant (14 R281, log 25). -/
def State.foreign (s : State) (h : Word) : Bool := nbits h.toNat 18 13 ≠ s.hub.module

/-- The checks of a node handle at issue (14 R262). -/
def State.handleBad (s : State) (gid : Nat) (h : Word) : Bool :=
  let c := s.context (s.group gid).ctx
  let die := nbits h.toNat 13 5
  !h.getLsbD 31 || h.getLsbD 12 || 24 ≤ die ||
  (nbits h.toNat 18 13 == s.hub.module && (!(tget {} c.part s.hub.pt).dies.testBit die || c.ncount ≤ nbits h.toNat 0 12))

/-- The invalid-handle fault of an instruction of source `source` (10 R206, 16 R308). -/
def fHandle (source : Nat) (h : Word) : Flt := fNode source true 0 (nbits h.toNat 13 5) h 1

/-! ### The scratchpad (04 R71, 06 R110, R111) -/

/-- The physical word of a scratchpad address: granules of 8 KiB (02 R40). -/
def Team.spWord (t : Team) (a : Nat) : FileWord := ⟨.scratchpad, t.scratchMap.getD (a / 8192) 0 * 2048 + a % 8192 / 4⟩

/-- Whether no word of a core shows an error (06 R110). -/
def Core.sound (k : Core) : Bool := k.flips.isEmpty && k.doubles.isEmpty && k.poison.isEmpty

/-- Words of a core that a program write or the clearing of a granule reaches lose their errors and marks (06 R111). -/
def Core.mend (k : Core) (p : FileWord → Bool) : Core :=
  if k.sound then k else { k with flips := k.flips.filter (fun w => !p w), doubles := k.doubles.filter (fun w => !p w.1), poison := k.poison.filter (fun w => !p w) }

/-- Words of a team's scratchpad that are written, at some bytes, lose their errors and marks (06 R111). -/
def State.mendScratch (s : State) (team : Nat) (as : List Nat) : State :=
  let t := s.team team
  if (s.core t.core).sound then s else s.modCore t.core (fun k => k.mend (fun w => as.any (fun a => t.spWord a == w)))

/-- Writes bytes of a team's scratchpad. -/
def State.writeScratch (s : State) (team : Nat) (bs : List (Nat × Byte)) : State :=
  (s.modTeam team (fun t => { t with scratch := tsetAll 0 bs t.scratch })).mendScratch team (bs.map (·.1))

/-- The fault of a read of words of a core's files, each with the address that the fault names (06 R110): the first that
is poisoned, or that a second read shows with two bits in error again. -/
def State.errorFault (s : State) (core unit : Nat) (ws : List (FileWord × Nat)) : Option Flt :=
  let k := s.core core
  if k.sound then none
  else (ws.find? (fun w => k.poison.contains w.1 || k.doubles.contains (w.1, true))).map (fun w => fLasting ((s.die (dieOfCore core)).log.count + 1) false (k.poison.contains w.1) unit w.2)

/-- The words of scratchpad bytes, with their addresses. -/
def Team.spWords (t : Team) (as : List Nat) : List (FileWord × Nat) := as.map (fun a => (t.spWord a, a))

/-- The bytes that accesses of `n` bytes cover. -/
def spBytes (n : Nat) (as : List Nat) : List Nat := as.flatMap (fun a => (List.range n).map (a + ·))

/-- The fault of a read of scratchpad bytes. -/
def State.spPoison (s : State) (team : Nat) (as : List Nat) : Option Flt := s.errorFault (s.team team).core 1 ((s.team team).spWords as)

/-! ### Interrupts and the error logs (17 R331, 16 R313) -/

/-- A fault or interrupt of a context or partition at level `l` goes to the cell of its row and level; an
invalid cell, or a handler below the origin, sends it to level 0, and causes 16, 18 and 19 always do: the
handler's level and the vector. -/
def State.handlerOf (s : State) (row l : Nat) : Nat × Nat :=
  let cell := nbits (tget 0 row s.hub.rt) (16 * l) 16
  let h := cell % 4
  if cell.testBit 2 && h ≤ l && !(row == 16 || row == 18 || row == 19) then (h, cell / 256) else (0, nbits (tget 0 row s.hub.rt) 8 8)

/-- Interrupts the handler of a row for a context or partition at level `l`. -/
def State.interrupt (s : State) (row l who : Nat) (detail : BitVec 96 := 0) : State :=
  let h := s.handlerOf row l
  s.modHub (fun x => { x with interrupts := x.interrupts ++ [⟨row, h.1, h.2, who, detail⟩] })

/-- One event of an error log: the counters rise together, and the entry takes the log number (R313). -/
def ErrLog.event (l : ErrLog) (lasting : Bool) (time info ctx addr : Nat) : ErrLog :=
  let seq := (l.count + 1) % 2 ^ 64
  let old := tfind (seq % 32) l.entries
  { count := seq, trans := if lasting then l.trans else (l.trans + 1) % 2 ^ 64, last := if lasting then (l.last + 1) % 2 ^ 64 else l.last, ovf := l.ovf || (match old with | some e => !e.read | none => false), entries := tput (seq % 32) ⟨seq, time, info, ctx, addr, false⟩ l.entries }

/-- The INFO word of a log entry (R313). -/
def logInfo (tenant : Nat) (scrub poison lasting : Bool) (unit channel : Nat) : Nat :=
  tenant * 2 ^ 16 + scrub.toNat * 2 ^ 14 + poison.toNat * 2 ^ 13 + lasting.toNat * 2 ^ 12 + unit * 2 ^ 8 + channel

def State.logDie (s : State) (d : Nat) (lasting : Bool) (info ctx addr : Nat) : State :=
  s.modDie d (fun x => { x with log := x.log.event lasting s.devTime info ctx addr })

/-- Whether a lasting error is one of memory, a walker's (unit 6) or a channel's (4, 5): the slice that met it logs it. -/
def Flt.ofMemory (f : Flt) : Bool := let unit := nbits f.detail.toNat 56 4; f.cause == 16 && decide (4 ≤ unit) && decide (unit ≤ 6)

/-- A lasting error of its files that an access of a core found is logged by its cluster (R313). -/
def State.logLasting (s : State) (ctx die tenant core : Nat) (f : Flt) : State :=
  if f.cause = 16 && !f.ofMemory then s.logDie die true (logInfo tenant false (f.detail.getLsbD 60) true (nbits f.detail.toNat 56 4) (40 + clusterOfCore core % 8)) (s.context ctx).num (nbits f.detail.toNat 0 56) else s

/-- What a program read of words leaves behind (06 R110): a single error is corrected, written back and counted, a double
one that the second read does not show is logged as transient. -/
def State.readWords (s : State) (core ctx unit : Nat) (ws : List (FileWord × Nat)) : State :=
  let k := s.core core
  if k.sound then s
  else
    let hit := k.flips.filter (fun w => ws.any (fun x => x.1 == w))
    let gone := k.doubles.filter (fun w => !w.2 && ws.any (fun x => x.1 == w.1))
    let s1 := s.modCore core (fun k => { k with corr := (k.corr + hit.length) % 2 ^ 32, flips := k.flips.filter (fun w => !hit.contains w), doubles := k.doubles.filter (fun w => !gone.contains w) })
    gone.foldl (fun (s : State) w => s.logDie (dieOfCore core) false (logInfo (s.context ctx).tenant false false false unit (40 + clusterOfCore core % 8)) (s.context ctx).num (match ws.find? (fun x => x.1 == w.1) with | some x => x.2 | none => 0)) s1

/-- The same for scratchpad bytes. -/
def State.spRead (s : State) (team : Nat) (as : List Nat) : State := let t := s.team team; if (s.core t.core).sound then s else s.readWords t.core t.ctx 1 (t.spWords as)

/-- A hub error-log entry raises the interrupt of row 35 (R331). -/
def State.logHub (s : State) (lasting : Bool) (info ctx addr : Nat) : State :=
  (s.modHub (fun x => { x with log := x.log.event lasting s.devTime info ctx addr })).interrupt 35 0 ctx

/-! ### Event counters (17 R326) -/

/-- Counters of source `src` owned by `ctx` that are on rise by `n`. -/
def bump (ctx src n : Nat) (t : Table Counter) : Table Counter :=
  t.map (fun c => if c.2.en && c.2.src == src && c.2.owner == some ctx then (c.1, { c.2 with count := (c.2.count + n) % 2 ^ 64 }) else c)
def State.countCore (s : State) (core ctx src n : Nat) : State :=
  match tfind core s.cores with
  | some c => if c.counters = [] then s else s.modCore core (fun c => { c with counters := bump ctx src n c.counters })
  | none => s
def State.countDie (s : State) (d ctx src n : Nat) : State :=
  match tfind d s.dies with
  | some c => if c.counters = [] then s else s.modDie d (fun c => { c with counters := bump ctx src n c.counters })
  | none => s

/-! ### Episodes (17 R323) -/

/-- The keys of a GSYNC object and of a communicator of a context. -/
def gsyncMeet (ctx va : Nat) : Nat := 2 * (ctx * 2 ^ 56 + va)
def collMeet (ctx comm : Nat) : Nat := 2 * (ctx * 2 ^ 56 + comm) + 1

/-- A cluster arrives. -/
def Meet.arrive (m : Meet) (cluster now : Nat) : Meet := { m with last := tput cluster now m.last, since := some (m.since.getD now) }

/-- The episode is complete: the slack of each cluster is the time since its own last arrival, and the next episode runs
from here (log 35). -/
def Meet.complete (m : Meet) (now : Nat) : Meet :=
  { m with last := [], since := some now, past := ((m.last.map (fun x => (x.1, now - x.2)), now - m.since.getD now) :: m.past).take 8 }

def State.modMeet (s : State) (key : Nat) (f : Meet → Meet) : State := s.modHub (fun h => { h with meets := tput key (f (tget { coll := key % 2 == 1 } key h.meets)) h.meets })
def State.meetArrive (s : State) (key cluster : Nat) : State := s.modMeet key (fun m => m.arrive cluster s.devTime)
def State.meetDone (s : State) (key : Nat) : State := s.modMeet key (fun m => m.complete s.devTime)

/-! ### Rights (17 R328 to R330) -/

/-- The rights of a delegation entry if it is effective: every link of its chain to a root is valid and
carries its parent's generation (R329). The chain is followed at most `fuel` steps. -/
def effective (dl : Table Delegation) : Nat → Nat → Option (List Nat)
  | 0, _ => none
  | fuel + 1, i =>
    let e := tget {} i dl
    if !e.v then none
    else if i < 2 then some [i]
    else if e.pgen = (tget {} e.parent dl).gen then (effective dl fuel e.parent).map (fun c => i :: c) else none

/-- The entries of a context's delegation chain, its own first, if the chain is effective. -/
def State.chain (s : State) (entry : Nat) : Option (List Nat) := effective s.hub.dl 256 entry

/-- Whether an effective entry holds a right. -/
def State.holds_ (s : State) (entry right : Nat) : Bool :=
  match s.chain entry with
  | some _ => (tget {} entry s.hub.dl).mask.testBit right
  | none => false

/-- Whether a context holds a right through its grant. -/
def State.ctxRight (s : State) (ctx right : Nat) : Bool := s.holds_ (s.context ctx).grant right

/-! ### Taking a fault (16 R304 to R306) -/

/-- Where a fault was found: the group and slot with the word, if any. -/
structure At where
  gid : Option Nat := none
  slotB : Bool := false
  pc : DWord := 0
  precise : Bool := false
  held : Bool := false
  drain : Option Nat := none
  /-- What is held: a request, or (true) a remote push. -/
  first : Option (Nat × Bool) := none
  /-- The die of the agent that found it, where no group is named. -/
  die : Nat := 0

/-- A palette of a team. -/
def Team.palette (t : Team) (k : Nat) : Palette := tget { lines := [] } k t.pals

/-- The group whose PENTER started the fill of a palette, if it is still there (04 R82). -/
def State.fillOwner (s : State) (team k : Nat) : Option Nat := (s.team team).gids.getD ((s.team team).palette k).starter none

/-- Whether nothing but a halt keeps a group from issuing: it is not blocked, its context runs or steps it, its
cluster's clock runs, its team stays, and its palette is back (03 R83, 16 R302, R311, 17 R319). -/
def State.unheld (s : State) (gid : Nat) : Bool :=
  let g := s.group gid
  let hb := (s.context g.ctx).hb
  g.wait.isNone && (!hb.stepMode || hb.stepping.contains gid || decide (hb.stepBase ≤ (s.team g.team).grid)) && !(s.team g.team).heldClock && !(s.team g.team).leaving && !(g.readmit && (match g.pal with | some k => decide (((s.team g.team).palette k).state ≠ .entered) | none => false))

/-- The cluster of a group and the cycle it is in. -/
def State.cycleOf (s : State) (gid : Nat) : Nat × Nat := (clusterOfCore (coreOf gid), (s.cluster (clusterOfCore (coreOf gid))).cycles)

/-- The groups that a halt line finds going: each stops within 512 cycles of its cluster (R304). -/
def State.going (s : State) (ctx : Nat) : List (Nat × Nat) :=
  (s.groups.filter (fun g => g.2.ctx == ctx && s.unheld g.1)).map (fun g => (g.1, (s.cycleOf g.1).2 + 512))

/-- Whether a group of a halted context has not stopped yet (R304). -/
def State.skids (s : State) (gid : Nat) : Bool :=
  (s.context (s.group gid).ctx).hb.skid.any (fun x => x.1 == gid && decide ((s.cycleOf gid).2 < x.2))

/-- A group of a halted context stops at an instruction boundary (R304); its record gives the time (R306). -/
def State.stopNow (s : State) (ctx gid : Nat) : State :=
  if !(s.context ctx).hb.skid.any (fun x => x.1 == gid) then s
  else
    let s1 := s.modContext ctx (fun c => { c with hb := { c.hb with skid := c.hb.skid.filter (fun x => x.1 ≠ gid) } })
    if s1.resident gid && (s1.group gid).ctx == ctx then s1.modGroup gid (fun g => { g with stop := { g.stop with time := g.stop.time.orElse (fun _ => some s.devTime) } }) else s1

/-- The groups of a cluster whose bound of 512 cycles has come stop (R304). -/
def State.endSkids (s : State) (cl : Nat) : State :=
  let late := s.contexts.flatMap (fun c => (c.2.hb.skid.filter (fun x => clusterOfCore (coreOf x.1) == cl && decide (x.2 ≤ (s.cluster cl).cycles))).map (fun x => (c.1, x.1)))
  late.foldl (fun (s : State) x => s.stopNow x.1 x.2) s

/-- Whether the engines of a context have stopped: within 4 µs of its halt (R304). -/
def State.halted (s : State) (ctx : Nat) : Bool :=
  let c := s.context ctx
  c.hb.halt && !(c.hb.engines && decide (s.devTime < c.haltAt + 4000))

/-- DIE, CORE, SLOT and CAUSE of hb.first (R305). -/
def firstWord (gid : Option Nat) (cause : Nat) (die : Nat := 0) : Nat :=
  (match gid with | some g => dieOf g * 2 ^ 17 + coreOf g % 64 * 2 ^ 11 + slotOf g * 2 ^ 5 | none => die * 2 ^ 17) + cause

/-- The cluster and cycle of a fault found at issue. -/
def State.faultCycle (s : State) (a : At) : Option (Nat × Nat) := if a.precise then a.gid.map s.cycleOf else none

/-- The halt block after a fault: a group with a precise fault has stopped; of the faults at issue in one cycle of a
cluster the one of the lowest core and slot is the first (R304, R305). -/
def HaltBlock.fault (hb : HaltBlock) (f : Flt) (a : At) (at_ : Option (Nat × Nat)) : HaltBlock :=
  { hb with skid := if a.precise then hb.skid.filter (fun x => a.gid ≠ some x.1) else hb.skid, first := if at_.isSome && at_ == hb.firstAt && decide (firstWord a.gid 0 < hb.first / 32 * 32) then firstWord a.gid f.cause else hb.first }

/-- A context after a fault: the first of a halt sets HALT, fills hb.first and pauses its time (R304, R305). -/
def Context.fault (c : Context) (f : Flt) (a : At) (at_ : Option (Nat × Nat)) (going : List (Nat × Nat)) (now : Nat) : Context :=
  if c.hb.halt then { c with hb := c.hb.fault f a at_ }
  else { c with haltAt := now, hb := ({ c.hb with halt := true, stopped := false, eovf := false, first := firstWord a.gid f.cause a.die, firstAt := at_, nrec := 0, recs := [], skid := going, engines := true } : HaltBlock).fault f a none }

/-- Raises the halt line of context `ctx` for a fault (R304). The first fault of a halt fills hb.first
(R305) and pauses the context's time; a group's record keeps its first fault, the first drain-buffer entry that is pinned
and the first operation that is held (R306, 09 R190). -/
def State.raise (s : State) (ctx : Nat) (f : Flt) (a : At) : State :=
  let s1 := s.modContext ctx (fun c => c.fault f a (s.faultCycle a) (s.going ctx) s.devTime)
  match a.gid with
  | none => s1
  | some gid =>
    if !s1.resident gid then s1
    else s1.modGroup gid (fun g =>
      let time := if a.precise then g.stop.time.orElse (fun _ => some s.devTime) else g.stop.time
      if g.stop.cause ≠ 0 then { g with stop := { g.stop with time := time, held := g.stop.held || a.held, drain := g.stop.drain.orElse (fun _ => a.drain), first := match g.stop.first with | some x => some x | none => a.first } }
      else { g with stop := { g.stop with cause := f.cause, precise := a.precise, slotB := a.slotB, held := a.held, fpc := a.pc, detail := f.detail, drain := a.drain, first := a.first, time := time } })

/-- A fault of an engine, the task unit or a slice, with its engine record (R306); records past 1024 set
EOVF and are dropped. -/
def State.raiseEngine (s : State) (ctx : Nat) (f : Flt) (r : EngRec) : State :=
  (s.raise ctx f { die := r.die }).modContext ctx (fun c =>
    { c with hb := if c.hb.recs.length < 1024 then { c.hb with recs := c.hb.recs ++ [r] } else { c.hb with eovf := true } })

/-- Takes a precise fault of the word that holds the issue opportunity: the group stops before the word,
which has no effect (R13, R304). -/
def State.takeTrap (s : State) (gid : Nat) (slotB : Bool) (pc : DWord) (f : Flt) : State :=
  ({ s with grant := none }).raise (s.group gid).ctx f { gid := some gid, slotB := slotB, pc := pc, precise := true }

/-- The records of a pre-empted team's groups end with the halt. -/
def Team.endStops (t : Team) : Team := { t with saved := t.saved.map (fun l => l.map (fun x => x.map (fun y => (y.1, { y.2 with stop := { saved := y.2.stop.saved } })))) }

/-- The return from a halt: HALT clears, the context's time runs on, and the stop records of the halt are
ended (R306, R307). -/
def State.endHalt (s : State) (ctx : Nat) : State :=
  let s1 := s.modContext ctx (fun c => { c with haltSum := c.haltSum + (s.devTime - c.haltAt), hb := { c.hb with halt := false, stopped := false, recs := [], stepMode := false, stepping := [], stepped := [], skid := [], engines := false, firstAt := none } })
  { s1 with groups := s1.groups.map (fun g => if g.2.ctx = ctx then (g.1, { g.2 with stop := { saved := g.2.stop.saved } }) else g), teams := s1.teams.map (fun (t : Nat × Team) => if t.2.ctx = ctx && t.2.saved.isSome then (t.1, t.2.endStops) else t) }

end Sys2Proof.Machine
end

