-- ==== Sys2Proof/Machine/Operands.lean ====
section
/-! DEFINITION. Every operand form: the registers a word names (01 R16, R21), guards and active lanes
(00 R10), the kinds of B and C (01 R17, R15), and the address forms of the memory instructions
(03 R62, R65, 04 R72, 10 R196). -/

namespace Sys2Proof

/-! ### The registers a word names -/

def Use.regs (u : Use) (x : BitVec 8) : List Reg :=
  match u with
  | .vec _ n => (List.range n).map (fun k => ⟨.vec, x.toNat + k⟩)
  | .sca _ n => (List.range n).map (fun k => ⟨.sca, x.toNat + k⟩)
  | .pred => [⟨.pred, x.toNat⟩]
  | .tile => [⟨.tile, x.toNat⟩]
  | .acc => [⟨.acc, x.toNat⟩]
  | .zero | .sys | .raw => []

def Rule.bUse (r : Rule) (o : FOps) : Use := match r.b.find? (fun k => k.1 = o.bk) with | some k => k.2 | none => .zero

def CUse.regs (u : CUse) (o : FOps) : List Reg :=
  match u with
  | .src _ n => if o.ck then (List.range n).map (fun k => ⟨.sca, o.c.toNat + k⟩) else (List.range n).map (fun k => ⟨.vec, o.c.toNat + k⟩)
  | .scaOnly _ n => (List.range n).map (fun k => ⟨.sca, o.c.toNat + k⟩)
  | .vecOnly _ n => (List.range n).map (fun k => ⟨.vec, o.c.toNat + k⟩)
  | .pred => [⟨.pred, o.c.toNat⟩]
  | .none | .mask _ => []

def guardRegs : Guard → List Reg
  | .none => []
  | .on _ q => [⟨.pred, q.toNat⟩]

/-- Registers that an F-form word reads. -/
def Rule.reads (r : Rule) (o : FOps) : List Reg :=
  guardRegs o.g ++ (if r.dR then r.d.regs o.d else []) ++ r.a.regs o.a ++ (r.bUse o).regs o.b ++ r.c.regs o ++ (r.more.filter (fun m => !m.2)).map (·.1)

/-- Registers that an F-form word writes. -/
def Rule.writes (r : Rule) (o : FOps) : List Reg :=
  (if r.dW then r.d.regs o.d else []) ++ (if r.aW then r.a.regs o.a else []) ++ (r.more.filter (·.2)).map (·.1)

/-- Registers that a word reads and writes. -/
def Instr.regs (i : Instr) : List Reg × List Reg :=
  match i.halves with
  | some (x, y) =>
    let gs (h : PHalf) : List Reg := match h.f.g with | some q => [⟨.pred, q.toNat⟩] | none => []
    (gs x ++ gs y ++ x.reads ++ y.reads, x.writes ++ y.writes)
  | none => match i with
    | .brc o => ([⟨.sca, o.a.toNat⟩], [])
    | .brs o => ([⟨.pred, fld o.mods 0 3⟩], [])
    | .call o => ([], [⟨.sca, o.d.toNat⟩, ⟨.sca, o.d.toNat + 1⟩])
    | .trap o => (guardRegs o.g ++ (if o.mods.getLsbD 0 then [⟨.sca, o.a.toNat⟩] else []), [])
    | .bkpt o => (guardRegs o.g, [])
    | .movi o => (guardRegs o.g, [⟨.vec, o.d.toNat⟩])
    | .smovi o => ([], [⟨.sca, o.d.toNat⟩])
    | i => match i.fRule with
      | some (o, r) => (r.reads o, r.writes o)
      | none => ([], [])

/-- A long-latency word (01 R25) and whether it selects flag SB. -/
def Instr.longLat (i : Instr) : Option Bool :=
  match i.halves with
  | some (x, y) => if x.op = .lds ∨ y.op = .lds then some false else none
  | none => match i.fRule with
    | some (o, r) => if r.ll then some o.fs else none
    | none => none

/-- The registers that a long-latency word marks pending (R26); of a P-form word, those of its LDS half. -/
def Instr.marks (i : Instr) : List Reg :=
  match i.halves with
  | some (x, y) => (if x.op = .lds then x.writes else []) ++ (if y.op = .lds then y.writes else [])
  | none => i.regs.2

/-- The words that must end their clause (01 R27). -/
def Instr.isTransfer : Instr → Bool
  | .bra _ | .brc _ | .brs _ | .join _ | .brx _ | .call _ | .callx _ | .ret _ | .exit _ => true
  | _ => false

/-- The matrix group (09 R169). -/
def Instr.isMatrix : Instr → Bool
  | .mma _ | .mmas _ | .aclr _ | .amov _ | .aload _ | .drain _ | .drepl _ | .atbl _ => true
  | _ => false

/-- The opcode of an instruction as a number, 0 for a P-form word or an event. -/
def Instr.opcNum (i : Instr) : Nat := match i.opc with | some b => b.toNat | none => 0

/-- Whether a word forms an active set from the mask of its slot: not a word of the scalar group, nor one that acts for its
group whatever the masks (01 R28; 06 R119; 10 R209; 11 R213). -/
def Instr.readsMask : Instr → Bool
  | .bra _ | .brc _ | .brx _ | .call _ | .callx _ | .ret _ | .nop _ | .yield _ | .fence _ => false
  | i => !(0x180 ≤ i.opcNum && i.opcNum ≤ 0x192)

/-- Whether a fixed-latency word writes its scalar destination only if a lane is active. -/
def Instr.needsLane : Instr → Bool
  | .vote _ | .pmov _ | .cstat _ | .pdecl _ => true
  | _ => false

/-- The encoded word of an instruction, for the cause-5 detail. -/
def Instr.wordOf (i : Instr) : DWord := (encode i).getD 0

/-- The power weight of an instruction (01 R30). -/
def Instr.weight (i : Instr) : Nat :=
  let k := i.opcNum
  match k / 64 with
  | 0 => 2 | 1 => 1
  | 2 => if 0x086 ≤ k && k ≤ 0x08D then 5 else 3
  | 3 => 3 | 4 => 2 | 5 => 1 | 6 => 0 | 7 => 2 | 8 => 2 | 9 => 2 | 10 => 15 | 11 => 1 | _ => 0

/-- The weight of a half: that of its F-form group (R20). -/
def POp.weight : POp → Nat
  | .iadd | .isub | .imin | .imax | .mov | .imul => 2
  | .and | .or | .xor | .shl | .shr | .sar => 1
  | .fadd | .fsub | .fmul | .fmin | .fmax | .hadd2 | .hmul2 => 3
  | .lds | .sts => 2
  | _ => 0

/-- The guard of a word. -/
def Instr.guardOf : Instr → Guard
  | .movi o => o.g
  | .trap o | .bkpt o => o.g
  | i => match i.fRule with | some (o, _) => o.g | none => .none

end Sys2Proof

namespace Sys2Proof.Machine

/-- The path a word counts on (05 R88); a remote RPUSH counts on CL. -/
def pathOf (i : Instr) : Option Nat :=
  match i with
  | .ld _ | .sld _ | .ldp _ | .lds _ | .tld _ => some 0
  | .st _ | .sst _ | .stp _ | .sts _ | .tst _ | .cinv _ | .cwb _ | .atom _ | .acas _ | .red _ | .acont _ => some 1
  | .ckick _ => some 2
  | .mma _ | .mmas _ | .aclr _ | .amov _ | .aload _ | .drain _ | .drepl _ | .atbl _ => some 3
  | .gthr _ | .sctr _ => some 4
  | .coll _ | .rpush _ => some 5
  | i => match i.halves with
    | some (x, y) => if x.op = .lds ∨ y.op = .lds then some 0 else if x.op = .sts ∨ y.op = .sts then some 1 else none
    | none => none

/-! ### The issuing slot -/

/-- What a word finds when it issues: its group and slot as they stand before it. -/
structure Iss where
  gid : Nat
  slotB : Bool
  pc : DWord
  cl : Clause
  g : Group

/-- The lanes a guard selects (01 R14). -/
def Group.guard (g : Group) : Guard → Word
  | .none => BitVec.allOnes 32
  | .on neg q => if neg then ~~~(g.rq q.toNat) else g.rq q.toNat

/-- The active lanes (00 R10). -/
def Iss.active (c : Iss) (gd : Guard) : Word := c.g.mask c.slotB &&& c.g.guard gd

/-- The lowest lane set in the slot's mask, or lane 0 when the mask is zero (01 R17). -/
def Iss.lowLane (c : Iss) : Nat := (lowest (c.g.mask c.slotB)).getD 0

/-- B for lane L (01 R17). -/
def Iss.b (c : Iss) (s : State) (o : FOps) (L : Nat) : Word :=
  match o.bk with
  | .vec => c.g.rv o.b.toNat L
  | .sca => c.g.rs o.b.toNat
  | .imm => o.c.signExtend 32
  | .sys => s.sysReg c.gid o.b.toNat L

/-- B read once for the group (01 R17). -/
def Iss.bs (c : Iss) (s : State) (o : FOps) : Word := c.b s o c.lowLane

/-- C of a three-source word for lane L (01 R15). -/
def Iss.c (c : Iss) (o : FOps) (L : Nat) : Word := if o.ck then c.g.rs o.c.toNat else c.g.rv o.c.toNat L

/-- Word `k` of the data block at C (10 R195). -/
def Iss.ck (c : Iss) (o : FOps) (k L : Nat) : Word := if o.ck then c.g.rs (o.c.toNat + k) else c.g.rv (o.c.toNat + k) L

/-- The active lanes in ascending order. -/
def lanesIn (m : Word) : List Nat := (List.range 32).filter (fun L => m.getLsbD L)

/-! ### Addresses -/

/-- off6 of the C field (03 R62). -/
def off6 (o : FOps) : Int := (o.c.extractLsb' 0 6).toInt

/-- The address of R62 for an index value, an access size and a scale. -/
def va62 (base : DWord) (index : Word) (sc off : Int) : Nat := wrap ((base.toNat : Int) + index.toInt * sc + off) 64

/-- log2 of an access size. -/
def lg2 (size : Nat) : Nat := Nat.log2 size

/-- Checks addresses of lanes at issue (03 R62): non-canonical before alignment, the lowest lane first. -/
def checkVa (acc size : Nat) : List (Nat × Nat) → Option Flt
  | [] => none
  | (L, va) :: rest =>
    if 2 ^ 56 ≤ va then some (fTranslation acc 3 0 3 va)
    else if va % size ≠ 0 then some (fAlign 0 L (lg2 size) va)
    else checkVa acc size rest

/-- Per-lane addresses of LD, ST, PREF, CINV and CWB (R62). -/
def Iss.addrs (c : Iss) (s : State) (o : FOps) (size : Nat) (m : Word) : List (Nat × Nat) :=
  let sc : Int := if o.ox.getLsbD 4 then size else 1
  (lanesIn m).map (fun L => (L, va62 (c.g.rpair o.a.toNat) (c.b s o L) sc (off6 o * size)))

/-- The one address of SLD and SST (06 R122). -/
def Iss.saddr (c : Iss) (s : State) (o : FOps) (size : Nat) : Nat :=
  va62 (c.g.rpair o.a.toNat) (c.bs s o) (if o.ox.getLsbD 4 then size else 1) (off6 o * size)

/-- Per-lane addresses of the atomics (10 R196). -/
def Iss.atomAddrs (c : Iss) (s : State) (o : FOps) (m : Word) : List (Nat × Nat) :=
  let size := 4 * tyWords o
  (lanesIn m).map (fun L => (L, va62 (c.g.rpair o.a.toNat) (c.b s o L) size 0))

/-- Per-lane scratchpad addresses of LDS and STS (04 R72). -/
def Iss.spAddrs (c : Iss) (s : State) (o : FOps) (size : Nat) (m : Word) : List (Nat × Nat) :=
  let sc : Int := if o.ox.getLsbD 4 then size else 1
  (lanesIn m).map (fun L => (L, wrap (((c.g.rs o.a.toNat).toNat : Int) + (c.b s o L).toInt * sc + off6 o * size) 32))

/-- Checks scratchpad addresses at issue (R72): alignment, then the team's size. -/
def checkSp (limit size : Nat) : List (Nat × Nat) → Option Flt
  | [] => none
  | (L, a) :: rest =>
    if a % size ≠ 0 then some (fAlign 1 L (lg2 size) a)
    else if limit < a + size then some (fScratch a)
    else checkSp limit size rest

end Sys2Proof.Machine
end

