-- ==== Sys2Proof/Machine/Flags.lean ====
section
/-! DEFINITION. Conditions, carries and exceptions: what the compare instructions write, the carry and
borrow of IADDC and ISUBB, and the arithmetic exceptions with the detail of cause group 4 (07 R133,
08 R143 to R167, 16 R308). -/

namespace Sys2Proof.Machine

/-- An integer condition code (06 R120, 08 R166): 0 eq, 1 ne, 2 lt, 3 le, 4 gt, 5 ge. -/
def cond (code : Nat) (a b : Int) : Bool :=
  match code with
  | 0 => a = b | 1 => a ≠ b | 2 => a < b | 3 => a ≤ b | 4 => b < a | _ => b ≤ a

/-- A word as an unsigned or a signed number. -/
def asInt (unsigned : Bool) (x : Word) : Int := if unsigned then x.toNat else x.toInt

/-- The sum with carry in and its carry out (08 R145). -/
def addCarry (a b : Word) (c : Bool) : Word × Bool :=
  let t := a.toNat + b.toNat + c.toNat
  (BitVec.ofNat 32 t, decide (2 ^ 32 ≤ t))

/-- The difference with borrow in and its borrow out (08 R145). -/
def subBorrow (a b : Word) (c : Bool) : Word × Bool :=
  let t : Int := (a.toNat : Int) - b.toNat - c.toNat
  (word t, decide (t < 0))

/-- The lowest lane that found an exception, and whether any did. -/
def foundBy (p : FFlags → Bool) : List (Nat × FFlags) → Option Nat
  | [] => none
  | (L, f) :: rest => if p f then some L else foundBy p rest

/-- The cause-4 fault of an instruction if an enabled exception was found in an active lane (07 R133, 08 R143);
the lanes are ascending. -/
def arithFault (opc en : Nat) (fs : List (Nat × FFlags)) : Option Flt :=
  let found := (fs.foldl (fun (a : FFlags) x => a.or x.2) ⟨false, false, false, false, false⟩).bits
  if found &&& en = 0 then none
  else
    let low (p : FFlags → Bool) : Nat := (foundBy p fs).getD 0
    some ⟨4, detail [(opc, 30), (low (·.nx), 25), (low (·.uf), 20), (low (·.ov), 15), (low (·.dz), 10), (low (·.inv), 5), (found, 0)]⟩

end Sys2Proof.Machine
end

