-- ==== Sys2Proof/Machine/Translate.lean ====
section
/-! DEFINITION. Addresses: the machine address map (03 R47), home slices and local windows (R52, R53), the
remap filter (R61), the nested two-stage walk with its checks and permissions (R56 to R59), and the lines
of an L2 slice (R54). -/

namespace Sys2Proof.Machine

/-- Access codes of cause 1 and 2 (16 R308 ACC). -/
inductive Acc where
  | load | store | atomic | fetch | engineRead | engineWrite | paletteFill | saveArea
deriving DecidableEq, Repr

def Acc.code : Acc → Nat
  | .load => 0 | .store => 1 | .atomic => 2 | .fetch => 3 | .engineRead => 4 | .engineWrite => 5 | .paletteFill => 6 | .saveArea => 7

/-- What an access needs of both leaves (R58): RD 1, WR 2, EX 4. -/
structure Need where
  rd : Bool := false
  wr : Bool := false
  ex : Bool := false

/-- Whether memory backs a machine address (R47). -/
def backed (ma : Nat) : Bool :=
  (ma < 0x30000000000 && ma % 0x2000000000 < 0x1800000000) ||
  (0x1000000000000 ≤ ma && ma < 0x1060000000000)

/-- The die and tier (true = LPDDR6) of a backed machine address (R47). -/
def placeOf (ma : Nat) : Nat × Bool :=
  if ma < 0x1000000000000 then (ma / 0x2000000000, false) else ((ma - 0x1000000000000) / 0x4000000000, true)

/-- A byte of machine memory; an address that nothing has written reads 0 (log 1). -/
def State.memByte (s : State) (ma : Nat) : Byte := tget 0 ma s.mem
def State.setMem (s : State) (ma : Nat) (b : Byte) : State := { s with mem := tset 0 ma b s.mem }
/-- Writes bytes at offsets from `base`. -/
def State.setMemAll (s : State) (base : Nat) (bs : Table Byte) : State := { s with mem := tsetAll 0 (bs.map (fun x => (base + x.1, x.2))) s.mem }
/-- `n` bytes of machine memory as a number (00 R6). -/
def State.memNum (s : State) (ma : Nat) : Nat → Nat
  | 0 => 0
  | n + 1 => (s.memByte ma).toNat + 256 * s.memNum (ma + 1) n

/-! ### Partitions and homes -/

/-- The compute dies of a partition, ascending (R52, 17 R333). -/
def State.partDies (s : State) (p : Nat) : List Nat := (List.range 24).filter (fun d => (tget {} p s.hub.pt).dies.testBit d)

/-- The window that decides whether a virtual address is local (R53): the lowest that holds it. -/
def Context.window (c : Context) (dies : List Nat) (va : Nat) : Option Window :=
  c.windows.find? (fun w => dies.contains w.die && w.base ≤ va && va < w.base + w.size * 0x200000)

/-- The hash of a line number (R52). -/
def lineHash (line : Nat) : Nat := nbits line 0 16 ^^^ nbits line 16 16 ^^^ nbits line 32 16 ^^^ nbits line 48 1

/-- The home slice of a line of a context, and whether it is homed as local (R52, R53). -/
def State.home (s : State) (ctx line : Nat) : Bool × Nat :=
  let c := s.context ctx
  let dies := s.partDies c.part
  match c.window dies (line * 128) with
  | some w => (true, 32 * w.die + lineHash line % 32)
  | none =>
    let i := lineHash line % (32 * dies.length)
    (false, 32 * dies.getD (i / 32) 0 + i % 32)

/-- The remap filter of a core (R61): the lowest matching entry replaces the page, once. -/
def Core.remap (c : Core) (tenant va : Nat) : Nat :=
  match (c.alias_.find? (fun e => e.2.testBit 63 && nbits e.2 0 16 == tenant && nbits e.2 16 40 == va / 2 ^ 16)) with
  | some e => nbits (tget 0 e.1 c.canon) 0 40 * 2 ^ 16 + va % 2 ^ 16
  | none => va

/-! ### Table entries (R56) -/

/-- Why a walk stopped: the stage and level where it was found, and the kind (R59). -/
structure WalkErr where
  stage : Nat
  level : Nat
  kind : Nat

def indexAt (stage level va : Nat) : Nat :=
  match level with
  | 0 => if stage = 0 then nbits va 39 17 else nbits va 39 13
  | 1 => nbits va 30 9
  | _ => nbits va 16 14

/-- Bits of the page a page entry maps: 1 GiB, 2 MiB or 64 KiB. -/
def pageBits (level e : Nat) : Nat := if level = 1 then 30 else if nbits e 2 2 = 1 then 21 else 16

/-- The checks of R56 on an entry read at a level of a stage; `none` when it passes. -/
def entryKind (stage level e : Nat) : Option Nat :=
  let page := !e.testBit 1
  let sz := nbits e 2 2
  if !e.testBit 0 then some 1
  else if nbits e 60 4 ≠ 0 || nbits e 52 4 ≠ 0 || nbits e 7 5 ≠ 0 then some 2
  else if (level = 0 && page) || (level = 2 && !page) then some 2
  else if nbits e 58 2 ≠ 0 && !(stage = 1 && page) then some 2
  else if nbits e 56 2 ≠ 0 && !(stage = 0 && page) then some 2
  else if !page && nbits e 4 3 ≠ 0 then some 2
  else if (if page && level = 2 then 2 ≤ sz else sz ≠ 0) then some 2
  else if page && nbits e 0 (pageBits level e) / 2 ^ 12 ≠ 0 then some 2
  else if !page && level = 1 && nbits e 12 5 ≠ 0 then some 2
  else none

/-- A table entry as the walker of a slice reads it: from the walk cache, else from memory (R57). -/
def State.readEntry (s : State) (slice ma : Nat) : Nat :=
  match tfind ma (s.slice slice).walks with
  | some e => e
  | none => s.memNum ma 8

/-- A page found by one stage: output address, size in bits, entry, level. -/
structure PageHit where
  out : Nat
  bits : Nat
  entry : Nat
  level : Nat

/-- One stage-2 walk from `level` at the table `ma` (R57): the page of a partition address, with the table
entries read as (machine address, entry). `named` is the level whose entry names this table. -/
def State.walk2 (s : State) (slice pa ma named : Nat) : (levels : Nat) → Except WalkErr (PageHit × List (Nat × Nat))
  | 0 => .error ⟨1, 2, 1⟩
  | n + 1 =>
    let level := 2 - n
    if !backed ma then .error ⟨1, named, 6⟩
    else
      let at_ := ma + 8 * indexAt 1 level pa
      let e := s.readEntry slice at_
      match entryKind 1 level e with
      | some k => .error ⟨1, level, k⟩
      | none =>
        if e.testBit 1 then
          match s.walk2 slice pa (nbits e 12 40 * 2 ^ 12) level n with
          | .ok (h, rs) => .ok (h, (at_, e) :: rs)
          | .error x => .error x
        else
          let b := pageBits level e
          let out := nbits e 12 40 * 2 ^ 12 / 2 ^ b * 2 ^ b + pa % 2 ^ b
          if backed out then .ok (⟨out, b, e, level⟩, [(at_, e)]) else .error ⟨1, level, 6⟩

/-- The stage-2 translation of a partition address under a partition. -/
def State.stage2 (s : State) (part slice pa : Nat) : Except WalkErr (PageHit × List (Nat × Nat)) :=
  s.walk2 slice pa (tget {} part s.hub.pt).s2root 3 3

/-- The stage-1 walk from the table at partition address `pa` (R57). -/
def State.walk1 (s : State) (part slice va pa : Nat) : (levels : Nat) → Except WalkErr (PageHit × List (Nat × Nat))
  | 0 => .error ⟨0, 2, 1⟩
  | n + 1 =>
    let level := 2 - n
    match s.stage2 part slice pa with
    | .error x => .error x
    | .ok (t, rs) =>
      let at_ := t.out + 8 * indexAt 0 level va
      let e := s.readEntry slice at_
      match entryKind 0 level e with
      | some k => .error ⟨0, level, k⟩
      | none =>
        if e.testBit 1 then
          match s.walk1 part slice va (nbits e 12 40 * 2 ^ 12) n with
          | .ok (h, rs') => .ok (h, rs ++ (at_, e) :: rs')
          | .error x => .error x
        else
          let b := pageBits level e
          .ok (⟨nbits e 12 40 * 2 ^ 12 / 2 ^ b * 2 ^ b + va % 2 ^ b, b, e, level⟩, rs ++ [(at_, e)])

/-- The nested walk of R57: the finished translation, with the table entries it read. A table's base is
translated and the index is added to the result, as R57 writes it. -/
def State.nested (s : State) (ctx slice va : Nat) : Except WalkErr (Tlb × List (Nat × Nat)) :=
  let c := s.context ctx
  match s.walk1 c.part slice va c.s1root 3 with
  | .error x => .error x
  | .ok (p, rs) =>
    match s.stage2 c.part slice p.out with
    | .error x => .error x
    | .ok (m, rs') =>
      let b := min p.bits m.bits
      .ok ({ tenant := c.tenant, part := c.part, vpage := va / 2 ^ b, bits := b, ppage := p.out / 2 ^ b, mpage := m.out / 2 ^ b, perm1 := nbits p.entry 4 3, perm2 := nbits m.entry 4 3, loc := p.entry.testBit 56, al := p.entry.testBit 57, lvl1 := p.level, lvl2 := m.level, pn := m.entry.testBit 59, mg := m.bits = 16 && m.entry.testBit 58 }, rs ++ rs')

/-- The first bit that an access needs and a stage's leaves lack (R58): stage 1 is looked at first (log 9). -/
def missing (n : Need) (t : Tlb) : Option (Nat × Nat) :=
  let lack (p : Nat) : Option Nat := if n.rd && !p.testBit 0 then some 0 else if n.wr && !p.testBit 1 then some 1 else if n.ex && !p.testBit 2 then some 2 else none
  match lack t.perm1 with
  | some b => some (0, b)
  | none => match lack t.perm2 with
    | some b => some (1, b)
    | none => none

/-- Checks a finished translation for an access homed as `local_` (R53, R58, R61). -/
def checkTlb (t : Tlb) (local_ : Bool) (n : Need) (acc : Acc) (va : Nat) : Option Flt :=
  if t.al then some (fTranslation acc.code t.lvl1 0 4 va)
  else if t.loc != local_ then some (fTranslation acc.code t.lvl1 0 5 va)
  else match missing n t with
    | some (stage, bit) => some (fPermission 0 0 bit stage acc.code va)
    | none => none

/-- The checks of a stage-1 leaf, which the walk makes before it translates the page (R57, R58). -/
def checkLeaf (p : PageHit) (local_ : Bool) (n : Need) (acc : Acc) (va : Nat) : Option Flt :=
  checkTlb { tenant := 0, part := 0, vpage := 0, bits := 0, ppage := 0, mpage := 0, perm1 := nbits p.entry 4 3, perm2 := 7, loc := p.entry.testBit 56, al := p.entry.testBit 57, lvl1 := p.level, lvl2 := 0, pn := false, mg := false } local_ n acc va

/-! ### Errors of memory (16 R313) -/

/-- A sector of memory (machine address / 32) in error, and whether a second read fails too. -/
def State.memError (s : State) (sector : Nat) : Option Bool := tfind sector (s.die (placeOf (32 * sector)).1).errors

/-- The die whose log takes an error of a sector: a walker's (unit 6) that of its slice, a channel's that of the memory. -/
def logDieOf (unit slice sector : Nat) : Nat := if unit = 6 then slice / 32 else (placeOf (32 * sector)).1

/-- The unit that reads a sector of memory: a walker, or the channel of its tier (16 R308). -/
def unitOf (walker : Bool) (sector : Nat) : Nat := if walker then 6 else if (placeOf (32 * sector)).2 then 5 else 4

/-- The fault of a read of sectors of memory by a slice, through their channels or by its walker: the first that a second
read does not give. -/
def State.memFault (s : State) (walker : Bool) (slice : Nat) (sectors : List Nat) : Option Flt :=
  if s.dies.all (fun d => d.2.errors.isEmpty) then none
  else (sectors.find? (fun x => s.memError x == some true)).map (fun x =>
    fLasting ((s.die (logDieOf (unitOf walker x) slice x)).log.count + 1) true false (unitOf walker x) (32 * x))

/-- Logs a failed read of a sector of memory; the channel is that of the slice that reads, or one of the four of LPDDR6
(log 72). -/
def State.logMem (s : State) (ctx slice unit sector : Nat) (lasting : Bool) : State :=
  s.logDie (logDieOf unit slice sector) lasting (logInfo (s.context ctx).tenant false false lasting unit (if unit = 5 then 32 + sector % 4 else slice % 32)) (s.context ctx).num (32 * sector)

/-- Logs the lasting error of memory that a fault reports. -/
def State.logRead (s : State) (ctx slice : Nat) (f : Flt) : State :=
  if f.ofMemory then s.logMem ctx slice (nbits f.detail.toNat 56 4) (nbits f.detail.toNat 0 56 / 32) true else s

/-- Errors of sectors that a second read did not show: each is logged as transient. -/
def State.memRetried (s : State) (walker : Bool) (ctx slice : Nat) (sectors : List Nat) : State :=
  if s.dies.all (fun d => d.2.errors.isEmpty) then s
  else sectors.foldl (fun (s : State) x => if s.memError x == some false then
    (s.modDie (placeOf (32 * x)).1 (fun d => { d with errors := tdel x d.errors })).logMem ctx slice (unitOf walker x) x false else s) s

/-! ### Firewalls (17 R332) -/

/-- Why a firewall refuses a packet; the window is checked where the machine address is known. -/
def Firewall.refuses (f : Firewall) (ma : Option Nat) (tenant : Nat) : Option Nat :=
  if !f.ctl.testBit 0 then some 1
  else if f.ctl.testBit 1 && (match ma with | some a => !(decide (f.base ≤ a) && decide (a < f.limit)) | none => false) then some 2
  else if f.ten.any (fun t => t.2.testBit 16) && !f.ten.any (fun t => t.2 == 2 ^ 16 + tenant) then some 3
  else none

/-- The ports that a flit from one die to another passes, as (die, port, inbound); which they are the manual does not give
(log 71). -/
def route (src dst : Nat) : List (Nat × Nat × Bool) :=
  (src, Config.egress src dst % 4, false) :: (Config.between src dst).map (fun p => (p.1, p.2 % 4, true)) ++ [(dst, Config.ingress src dst % 4, true)]

/-- The fault of an access from one die to another: the first port on its way that refuses it. -/
def State.crossing (s : State) (src dst tenant va : Nat) (ma : Option Nat) : Option Flt :=
  if src = dst then none
  else (route src dst).findSome? (fun p => ((tget {} p.2.1 (s.die p.1).fw : Firewall).refuses ma tenant).map (fun r => fFirewall r tenant va p.2.2 p.2.1 p.1))

/-- The cached translation of a virtual address at a slice (R57). -/
def Slice.cached (x : Slice) (tenant va : Nat) : Option Tlb :=
  x.tlb.find? (fun t => t.tenant == tenant && va / 2 ^ t.bits == t.vpage)

/-! ### What a walk reads (R57) -/

/-- The entries that a stage-2 walk reads, in order, up to the one that ends it. -/
def State.reads2 (s : State) (slice pa ma : Nat) : (levels : Nat) → List Nat
  | 0 => []
  | n + 1 =>
    if !backed ma then []
    else
      let at_ := ma + 8 * indexAt 1 (2 - n) pa
      let e := s.readEntry slice at_
      at_ :: (if (entryKind 1 (2 - n) e).isNone && e.testBit 1 then s.reads2 slice pa (nbits e 12 40 * 2 ^ 12) n else [])

/-- Those that a stage-1 walk reads, each behind the walk of its table's address. -/
def State.reads1 (s : State) (part slice va pa : Nat) : (levels : Nat) → List Nat
  | 0 => []
  | n + 1 =>
    s.reads2 slice pa (tget {} part s.hub.pt).s2root 3 ++ (match s.stage2 part slice pa with
      | .error _ => []
      | .ok (t, _) =>
        let at_ := t.out + 8 * indexAt 0 (2 - n) va
        let e := s.readEntry slice at_
        at_ :: (if (entryKind 0 (2 - n) e).isNone && e.testBit 1 then s.reads1 part slice va (nbits e 12 40 * 2 ^ 12) n else []))

/-- The fault that a stage-1 leaf gives before its page is translated, if the walk comes to one (R57, R58). -/
def State.leafFault (s : State) (ctx slice va : Nat) (local_ : Bool) (n : Need) (acc : Acc) : Option Flt :=
  match s.walk1 (s.context ctx).part slice va (s.context ctx).s1root 3 with
  | .ok (p, _) => checkLeaf p local_ n acc va
  | .error _ => none

/-- The entries that the walk of an access reads from memory, in order, whether it ends in a translation or in a fault:
none where the translation is cached, and none that the walk cache holds. -/
def State.walkReads (s : State) (ctx slice va : Nat) (local_ : Bool) (n : Need) (acc : Acc) : List Nat :=
  let c := s.context ctx
  if ((s.slice slice).cached c.tenant va).isSome then []
  else
    let last := match s.walk1 c.part slice va c.s1root 3 with
      | .ok (p, _) => if (s.leafFault ctx slice va local_ n acc).isSome then [] else s.reads2 slice p.out (tget {} c.part s.hub.pt).s2root 3
      | .error _ => []
    ((s.reads1 c.part slice va c.s1root 3 ++ last).filter (fun a => (tfind a (s.slice slice).walks).isNone)).eraseDups

/-- What keeps a read of sectors of memory from a slice: a firewall between the slice and the memory (17 R332), or an error
of the memory that a second read shows again (16 R313). -/
def State.channelFault (s : State) (walker : Bool) (ctx slice va ma : Nat) (sectors : List Nat) : Option Flt :=
  match s.crossing (slice / 32) (placeOf ma).1 (s.context ctx).tenant va (some ma) with
  | some f => some f
  | none => s.memFault walker slice sectors

/-- What keeps a walker from an entry. -/
def State.entryFault (s : State) (ctx slice va a : Nat) : Option Flt := s.channelFault true ctx slice va a [a / 32]

/-- Translates an access at a slice: the translation with the table entries a walk read, or the fault of
R58 and R59, or that of the first read that its walker does not get (16 R313, 17 R332). -/
def State.translate (s : State) (ctx slice va : Nat) (local_ : Bool) (n : Need) (acc : Acc) : Except Flt (Tlb × List (Nat × Nat)) :=
  match (s.slice slice).cached (s.context ctx).tenant va with
  | some t => match checkTlb t local_ n acc va with
    | some f => .error f
    | none => .ok (t, [])
  | none =>
    match (s.walkReads ctx slice va local_ n acc).findSome? (s.entryFault ctx slice va), s.leafFault ctx slice va local_ n acc, s.nested ctx slice va with
    | some f, _, _ | none, some f, _ => .error f
    | none, none, .error x => .error (fTranslation acc.code x.level x.stage x.kind va)
    | none, none, .ok (t, rs) => match checkTlb t local_ n acc va with
      | some f => .error f
      | none => .ok (t, rs)

/-- The machine address of a virtual address under a translation. -/
def Tlb.ma (t : Tlb) (va : Nat) : Nat := t.mpage * 2 ^ t.bits + va % 2 ^ t.bits
/-- The partition address of a virtual address under a translation. -/
def Tlb.pa (t : Tlb) (va : Nat) : Nat := t.ppage * 2 ^ t.bits + va % 2 ^ t.bits

/-- The slice keeps the translation and the entries read (R57): at most 256 and 64
entries; which ones leave is not architectural (log 7). -/
def Slice.remember (x : Slice) (t : Tlb) (rs : List (Nat × Nat)) : Slice :=
  { x with tlb := (t :: x.tlb.filter (fun u => !(u.tenant == t.tenant && u.vpage == t.vpage && u.bits == t.bits))).take 256, walks := (rs.foldl (fun w r => tput r.1 r.2 w) x.walks).take 64 }

/-! ### Lines of a slice (R54) -/

/-- The key of a line of a tenant in a cache. -/
def lineKey (tenant line : Nat) : Nat := tenant * 2 ^ 49 + line

def Slice.line (x : Slice) (tenant line : Nat) : Option L2Line := tfind (lineKey tenant line) x.lines
def Slice.putLine (x : Slice) (l : L2Line) : Slice := { x with lines := tput (lineKey l.tenant l.line) l x.lines }
def Slice.dropLine (x : Slice) (tenant line : Nat) : Slice := { x with lines := tdel (lineKey tenant line) x.lines }

/-- Whether the slice's copy shows byte `o` of the line. -/
def L2Line.has (l : L2Line) (o : Nat) : Bool := l.valid.testBit (o / 32) || (tfind o l.dirty).isSome

/-- Byte `o` of a line as every request at the slice sees it: dirty bytes, valid sectors, then memory. -/
def State.lineByte (s : State) (l : L2Line) (o : Nat) : Byte :=
  match tfind o l.dirty with
  | some b => b
  | none => if l.valid.testBit (o / 32) then tget 0 o l.data else s.memByte (l.machine + o)

/-- The sectors of `m` (bits) as byte offsets. -/
def sectorBytes (m : Nat) : List Nat := (List.range 128).filter (fun o => m.testBit (o / 32))

/-- Merges bytes into a line (R54): they are dirty until written back. -/
def L2Line.merge (l : L2Line) (bs : Table Byte) : L2Line := { l with dirty := bs.foldl (fun d b => tput b.1 b.2 d) l.dirty }

/-- Fetches the sectors of `m` that are not valid (R54). -/
def State.fetchSectors (s : State) (l : L2Line) (m : Nat) : L2Line :=
  let need := (List.range 4).filter (fun i => m.testBit i && !l.valid.testBit i)
  let offs := need.flatMap (fun i => (List.range 32).map (fun o => 32 * i + o))
  { l with valid := l.valid ||| need.foldl (fun a i => a ||| 2 ^ i) 0, data := offs.foldl (fun d o => tput o (s.memByte (l.machine + o)) d) l.data }

/-! ### The tracker's samples (R48) -/

/-- Counts a sample of a page in a tier's table: a page that a full table lacks displaces the lowest count. -/
def bumpPage (k : Nat × Nat) (t : List ((Nat × Nat) × Nat)) : List ((Nat × Nat) × Nat) :=
  if t.any (fun x => x.1 == k) then t.map (fun x => if x.1 = k then (k, x.2 + 1) else x)
  else if t.length < 1024 then t ++ [(k, 1)]
  else
    let low := t.foldl (fun m x => min m x.2) ((t.headD (k, 0)).2)
    let i := t.findIdx (fun x => x.2 == low)
    t.set i (k, 1)

/-- One line access that reaches a channel of a die, of a page that is sampled, if any; every 2^SAMP-th counts it
(log 27). -/
def Die.access (d : Die) (slow : Bool) (page : Option (Nat × Nat)) : Die :=
  if !d.hptCtl.testBit 0 then d
  else
    let n := (if slow then d.samplesSlow else d.samplesFast) + 1
    let hit := decide (2 ^ nbits d.hptCtl 1 4 ≤ n)
    let n := if hit then 0 else n
    let d1 := if slow then { d with samplesSlow := n } else { d with samplesFast := n }
    match (if hit then page else none) with
    | none => d1
    | some k => if slow then { d1 with hptSlow := bumpPage k d1.hptSlow } else { d1 with hptFast := bumpPage k d1.hptFast }

/-- A line access of memory, for the tracker of the die whose channel it reaches. -/
def State.accessAt (s : State) (ma : Nat) (page : Option (Nat × Nat)) : State :=
  let p := placeOf ma
  if (s.die p.1).hptCtl.testBit 0 then s.modDie p.1 (fun d => d.access p.2 page) else s

/-- An access of memory for a line of a slice. -/
def State.accessLine (s : State) (l : L2Line) : State := s.accessAt l.machine (if l.mg then some (l.part, l.pa / 2 ^ 16) else none)

/-- The pages of a partition in which the stage-1 tables of a walk lie, as (machine address of the entry read, page). -/
def State.tablePages (s : State) (part slice va pa : Nat) : (levels : Nat) → List (Nat × Nat)
  | 0 => []
  | n + 1 =>
    match s.stage2 part slice pa with
    | .error _ => []
    | .ok (t, _) =>
      let at_ := t.out + 8 * indexAt 0 (2 - n) va
      let e := s.readEntry slice at_
      (if t.bits = 16 && t.entry.testBit 58 then [(at_, pa / 2 ^ 16)] else []) ++ (if (entryKind 0 (2 - n) e).isNone && e.testBit 1 then s.tablePages part slice va (nbits e 12 40 * 2 ^ 12) n else [])

/-- The accesses of memory that a walk's reads are (R48, R57). -/
def State.walkAccesses (s : State) (ctx slice va : Nat) (as : List Nat) : State :=
  let c := s.context ctx
  let pages := s.tablePages c.part slice va c.s1root 3
  as.foldl (fun (s : State) a => s.accessAt a ((pages.find? (fun x => x.1 == a)).map (fun x => (c.part, x.2)))) s

/-- What the walk of an access leaves behind: errors that a second read did not show, the tracker's samples, and the
translation that it found. -/
def State.walkDone (s : State) (ctx slice va : Nat) (local_ : Bool) (n : Need) (acc : Acc) : State :=
  if ((s.slice slice).cached (s.context ctx).tenant va).isSome then s
  else
    let as := s.walkReads ctx slice va local_ n acc
    let got := as.takeWhile (fun a => (s.entryFault ctx slice va a).isNone)
    let met := got ++ ((as.drop got.length).take 1).filter (fun a => (s.memFault true slice [a / 32]).isSome && (s.crossing (slice / 32) (placeOf a).1 (s.context ctx).tenant va (some a)).isNone)
    let s1 := (s.memRetried true ctx slice (got.map (· / 32))).walkAccesses ctx slice va met
    match s.translate ctx slice va local_ n acc with
    | .ok (t, rs) => s1.modSlice slice (fun x => x.remember t rs)
    | .error _ => s1

/-- Whether a context is resident: it has a team or a grid (log 56). -/
def State.ctxResident (s : State) (ctx : Nat) : Bool := s.teams.any (fun t => t.2.ctx == ctx) || s.grids.any (fun g => g.2.ctx == ctx)

/-- The contexts of a tenant in a partition that are resident (R356). -/
def State.tenantContexts (s : State) (tenant part : Nat) : List Nat := (s.contexts.filter (fun c => c.2.tenant == tenant && c.2.part == part && s.ctxResident c.1)).map (·.1)

/-- The fault of a write-back at a slice halts every resident context of the line's tenant in the partition (R356). -/
def State.raiseWriteback (s : State) (tenant part slice line : Nat) (f : Flt) : State :=
  (s.tenantContexts tenant part).foldl (fun (s : State) c => s.raiseEngine c f { kind := 4, number := slice % 32, die := slice / 32, cause := f.cause, detail := f.detail, group := 0, req := line * 128, prog := 0, addr := nbits f.detail.toNat 0 56, time := s.devTime }) s

/-- The dirty bytes of a line of a slice go to memory; those that a firewall on their way refuses are dropped, which the
contexts of the line's tenant are told (17 R332). -/
def State.writeMem (s : State) (slice : Nat) (l : L2Line) : State :=
  if l.dirty = [] then s
  else match s.crossing (slice / 32) (placeOf l.machine).1 l.tenant (l.line * 128) (some l.machine) with
    | some f => s.raiseWriteback l.tenant l.part slice l.line f
    | none => (s.accessLine l).setMemAll l.machine l.dirty

/-- Writes a line's dirty bytes back to memory; the line stays, clean (R54, R66). -/
def State.cleanLine (s : State) (slice : Nat) (l : L2Line) : State :=
  (s.writeMem slice l).modSlice slice (fun x => x.putLine { l with data := l.dirty.foldl (fun d b => if l.valid.testBit (b.1 / 32) then tput b.1 b.2 d else d) l.data, dirty := [] })

/-- The bucket of a tenant in a slice's prefetch counters (R55): the lowest enabled selector, else 8. -/
def Slice.bucket (x : Slice) (tenant : Nat) : Nat :=
  match (List.range 8).find? (fun i => tget 0 i x.sel == 2 ^ 16 + tenant) with
  | some i => i
  | none => 8

/-- One more prefetch event of kind 0 issued, 1 useful, 2 late, 3 useless (R55). -/
def Slice.countPf (x : Slice) (kind tenant : Nat) : Slice :=
  let k := 9 * kind + x.bucket tenant
  { x with pf := tset 0 k ((tget 0 k x.pf + 1) % 2 ^ 32) x.pf }

/-- Writes a line back if dirty and invalidates it (R49, R60, R66); a prefetched line that no demand has hit
counts as useless (R55). -/
def State.dropLine (s : State) (slice : Nat) (l : L2Line) : State :=
  let s1 := (s.writeMem slice l).modSlice slice (fun x => (if l.prefetched then x.countPf 3 l.tenant else x).dropLine l.tenant l.line)
  if l.prefetched then s1.countDie (slice / 32) l.ctx 0x103 1 else s1

/-- The lines that replacement takes first: those marked evict first, else all but those marked evict last (03 R63). -/
def firstOut {α : Type} (hint : α → Nat) (ls : List α) : List α :=
  match ls.filter (fun x => hint x == 2), ls.filter (fun x => hint x ≠ 3) with
  | x :: xs, _ => x :: xs
  | [], y :: ys => y :: ys
  | [], [] => ls

/-- A line of a slice for an access that has been translated: the line held, with the permissions of the
translation, or a new one with no sector valid. A full slice first loses a line of a free choice among those that its
hints put first (log 7). -/
def State.openLine (s : State) (slice ctx line : Nat) (t : Tlb) : L2Line × State :=
  let p := t.perm1 &&& t.perm2
  let tenant := (s.context ctx).tenant
  let ma := t.ma (line * 128)
  let fresh_ : L2Line := { tenant := tenant, line := line, rd := p.testBit 0, wr := p.testBit 1, ex := p.testBit 2, machine := ma, part := t.part, pa := t.pa (line * 128), mg := t.mg, ctx := ctx }
  match (s.slice slice).line tenant line with
  | some l => ({ fresh_ with valid := l.valid, data := l.data, dirty := l.dirty, prefetched := l.prefetched, hint := l.hint, ctx := l.ctx }, s)
  | none =>
    let x := s.slice slice
    let s1 := if x.lines.length < 24576 then s
      else
        let ls := firstOut (fun (l : Nat × L2Line) => l.2.hint) x.lines
        let r := s.choose ls.length
        match ls[r.1]? with
        | some v => r.2.dropLine slice v.2
        | none => r.2
    (fresh_, s1)

/-- The pages that swaps in progress hold, as (partition, partition page) (R49). -/
def State.swapPages (s : State) : List (Nat × Nat) := s.dies.flatMap (fun d => d.2.swaps.flatMap (fun (w : Nat × Nat × Nat) => [(w.1, w.2.1), (w.1, w.2.2)]))

/-- Whether an access to a virtual address stalls for a swap: its page, or a page that its walk reads (R49). -/
def State.swapStalls (s : State) (ctx va : Nat) : Bool :=
  let ps := s.swapPages
  if ps = [] then false
  else
    let h := s.home ctx (va / 128)
    let ms := ps.filterMap (fun p => match s.stage2 p.1 h.2 (p.2 * 2 ^ 16) with | .ok (x, _) => some (x.out / 2 ^ 16) | .error _ => none)
    (match (s.slice h.2).cached (s.context ctx).tenant va, s.nested ctx h.2 va with
      | some t, _ | none, .ok (t, _) => ps.contains (t.part, t.pa va / 2 ^ 16)
      | none, .error _ => false) || (s.walkReads ctx h.2 va h.1 {} .load).any (fun a => ms.contains (a / 2 ^ 16))

/-- Whether an access of `n` bytes stalls so: it touches a page that does. -/
def State.swapStallsAt (s : State) (ctx va n : Nat) : Bool :=
  s.swapPages ≠ [] && n ≠ 0 && (List.range ((va % 2 ^ 16 + n + 65535) / 2 ^ 16)).any (fun k => s.swapStalls ctx (if k = 0 then va else (va / 2 ^ 16 + k) * 2 ^ 16))

/-- The machine address of a virtual one, where a slice can tell it. -/
def State.machineOf (s : State) (ctx slice va : Nat) : Option Nat :=
  match (s.slice slice).line (s.context ctx).tenant (va / 128), (s.slice slice).cached (s.context ctx).tenant va with
  | some l, _ => some (l.machine + va % 128)
  | none, some t => some (t.ma va)
  | none, none => match s.nested ctx slice va with | .ok (t, _) => some (t.ma va) | .error _ => none

/-- The fault of an access of a context from a die to the home slice of a virtual address. -/
def State.crossTo (s : State) (src ctx va : Nat) : Option Flt :=
  let h := (s.home ctx (va / 128)).2
  if src = h / 32 then none else s.crossing src (h / 32) (s.context ctx).tenant va (s.machineOf ctx h va)

/-! ### Reads and writes at the home slice -/

/-- The line of an address that its home slice holds with the permissions asked (R54). -/
def State.grantedLine (s : State) (ctx va : Nat) (n : Need) : Option L2Line :=
  match (s.slice (s.home ctx (va / 128)).2).line (s.context ctx).tenant (va / 128) with
  | some l => if (!n.rd || l.rd) && (!n.wr || l.wr) && (!n.ex || l.ex) then some l else none
  | none => none

/-- What a slice has of a line once an access to it is translated: the line held, else one with no sector. -/
def State.lineAt (s : State) (ctx va : Nat) (t : Tlb) : L2Line :=
  match (s.slice (s.home ctx (va / 128)).2).line (s.context ctx).tenant (va / 128) with
  | some l => l
  | none => { tenant := (s.context ctx).tenant, line := va / 128, rd := false, wr := false, ex := false, machine := t.ma (va / 128 * 128), part := t.part, pa := t.pa (va / 128 * 128), mg := t.mg, ctx := ctx }

/-- The sectors of memory that a read of `n` bytes of a line from `va` on takes from its channel. -/
def L2Line.lacks (l : L2Line) (va n : Nat) : List Nat :=
  ((List.range 4).filter (fun i => (List.range n).any (fun k => (va + k) % 128 / 32 == i && !l.has ((va + k) % 128)))).map (fun i => l.machine / 32 + i)

/-- `n` bytes of one line as its home slice sees them for an engine, the task unit, the scheduler or a fetch of a die
(05 R97): the line is translated unless the slice holds it with the permission asked. Such a read leaves no line behind. -/
def State.peekLine (s : State) (src : Option Nat) (ctx : Nat) (nd : Need) (acc : Acc) (va n : Nat) : Except Flt (List Byte) :=
  let va := va % 2 ^ 56
  let h := s.home ctx (va / 128)
  let take (l : L2Line) : Except Flt (List Byte) :=
    match s.channelFault false ctx h.2 va l.machine (l.lacks va n) with
    | some f => if l.lacks va n = [] then .ok ((List.range n).map (fun k => s.lineByte l (va % 128 + k))) else .error f
    | none => .ok ((List.range n).map (fun k => s.lineByte l (va % 128 + k)))
  match (match src with | some d => s.crossTo d ctx va | none => none), s.grantedLine ctx va nd with
  | some f, _ => .error f
  | none, some l => take l
  | none, none => match s.translate ctx h.2 va h.1 nd acc with
    | .error f => .error f
    | .ok (t, _) => take (s.lineAt ctx va t)

/-- An access that misses its slice: it is counted with the walk that it starts (17 R326), and leaves what the walk does. -/
def State.missed (s : State) (ctx slice va : Nat) (local_ : Bool) (n : Need) (acc : Acc) : State :=
  let s1 := s.countDie (slice / 32) ctx 0x110 1
  (if ((s.slice slice).cached (s.context ctx).tenant va).isSome then s1 else s1.countDie (slice / 32) ctx 0x111 1).walkDone ctx slice va local_ n acc

/-- What such a read leaves behind, whether it is answered or faults: counts, samples, log entries, a translation. -/
def State.peekedLine (s : State) (src : Option Nat) (ctx : Nat) (nd : Need) (acc : Acc) (va n : Nat) : State :=
  let va := va % 2 ^ 56
  let h := s.home ctx (va / 128)
  let take (s : State) (l : L2Line) : State :=
    if l.lacks va n = [] || (s.crossing (h.2 / 32) (placeOf l.machine).1 (s.context ctx).tenant va (some l.machine)).isSome then s
    else (s.memRetried false ctx h.2 (l.lacks va n)).accessLine l
  match (match src with | some d => s.crossTo d ctx va | none => none), s.grantedLine ctx va nd with
  | some _, _ => s
  | none, some l => take (if l.lacks va n = [] then s else s.countDie (h.2 / 32) ctx 0x110 1) l
  | none, none =>
    let s1 := s.missed ctx h.2 va h.1 nd acc
    match s.translate ctx h.2 va h.1 nd acc with
    | .error _ => s1
    | .ok (t, _) => take s1 (s.lineAt ctx va t)

/-- A run of `n` bytes cut into lines, as (address, bytes). -/
def lineRuns (va n : Nat) : List (Nat × Nat) :=
  if n = 0 then []
  else (List.range ((va % 128 + n + 127) / 128)).map (fun k => let a := if k = 0 then va else (va / 128 + k) * 128; (a, min (va + n) ((va / 128 + k + 1) * 128) - a))

/-- Runs read so, one after another. -/
def State.peekRuns (s : State) (src : Option Nat) (ctx : Nat) (nd : Need) (acc : Acc) : List (Nat × Nat) → Except Flt (List Byte)
  | [] => .ok []
  | r :: rest =>
    match s.peekLine src ctx nd acc r.1 r.2 with
    | .error f => .error f
    | .ok b => match s.peekRuns src ctx nd acc rest with
      | .error f => .error f
      | .ok bs => .ok (b ++ bs)

/-- `n` bytes read so, from the die `src` if one is named: a line on the way of a firewall that refuses it faults
(17 R332). -/
def State.slicePeeks (s : State) (ctx : Nat) (nd : Need) (acc : Acc) (va n : Nat) (src : Option Nat := none) : Except Flt (List Byte) :=
  s.peekRuns src ctx nd acc (lineRuns va n)

/-- What runs that are read leave behind, up to the first that faults. -/
def State.peekedRuns (src : Option Nat) (ctx : Nat) (nd : Need) (acc : Acc) : List (Nat × Nat) → State → State
  | [], s => s
  | r :: rest, s => match s.peekLine src ctx nd acc r.1 r.2 with
    | .error _ => s.peekedLine src ctx nd acc r.1 r.2
    | .ok _ => State.peekedRuns src ctx nd acc rest (s.peekedLine src ctx nd acc r.1 r.2)

/-- The lasting error of memory that such a read meets is logged (16 R313). -/
def State.logPeek (s : State) (ctx : Nat) (nd : Need) (acc : Acc) (va n : Nat) (src : Option Nat := none) : State :=
  match (lineRuns va n).findSome? (fun r => match s.peekLine src ctx nd acc r.1 r.2 with | .error f => some (r, f) | .ok _ => none) with
  | some (r, f) => s.logRead ctx (s.home ctx (r.1 % 2 ^ 56 / 128)).2 f
  | none => s

/-- What such a read leaves behind; its lasting error is logged first, so that the fault names its entry. -/
def State.slicePeeked (s : State) (ctx : Nat) (nd : Need) (acc : Acc) (va n : Nat) (src : Option Nat := none) : State :=
  State.peekedRuns src ctx nd acc (lineRuns va n) (s.logPeek ctx nd acc va n src)

/-- One byte read so. -/
def State.slicePeek (s : State) (ctx va : Nat) (n : Need) (acc : Acc) (src : Option Nat := none) : Except Flt Byte :=
  match s.peekLine src ctx n acc va 1 with
  | .error f => .error f
  | .ok bs => .ok (bs.headD 0)

/-- The bytes of a read, with the state that it leaves. -/
def State.peekRun (s : State) (ctx : Nat) (nd : Need) (acc : Acc) (va n : Nat) (src : Option Nat := none) : Except Flt (List Byte) × State :=
  (s.slicePeeks ctx nd acc va n src, s.slicePeeked ctx nd acc va n src)

/-- Writes bytes of one line at its home slice (R54, 10 R192): a line held with WR takes them; else the
access is translated, WR is checked, and the bytes are merged into a line of the slice. -/
def State.slicePoke (s : State) (ctx line : Nat) (bs : Table Byte) (n : Need) (acc : Acc) (src : Option Nat := none) : Except Flt State :=
  let h := s.home ctx line
  let at_ := line * 128 + (match bs with | [] => 0 | b :: _ => b.1)
  match (match src with | some d => s.crossTo d ctx at_ | none => none), s.grantedLine ctx at_ { n with wr := true } with
  | some f, _ => .error f
  | none, some l => .ok (s.modSlice h.2 (fun x => x.putLine (l.merge bs)))
  | none, none => match s.translate ctx h.2 at_ h.1 n acc with
    | .error f => .error f
    | .ok (t, _) =>
      let r := (s.missed ctx h.2 at_ h.1 n acc).openLine h.2 ctx line t
      .ok (r.2.modSlice h.2 (fun x => x.putLine (r.1.merge bs)))

/-- What a write of a line that faults leaves behind. -/
def State.pokeMet (s : State) (ctx line : Nat) (bs : Table Byte) (n : Need) (acc : Acc) (f : Flt) : State :=
  let h := s.home ctx line
  let at_ := line * 128 + (match bs with | [] => 0 | b :: _ => b.1)
  if f.cause = 19 && (s.walkReads ctx h.2 at_ h.1 n acc).all (fun a => (s.entryFault ctx h.2 at_ a).isNone) then s else (s.logRead ctx h.2 f).missed ctx h.2 at_ h.1 n acc

/-- Marks a line that its home slice holds with the cache hint of an access, if it gives one (03 R63). -/
def State.hintLine (s : State) (ctx line hint : Nat) : State :=
  if hint < 2 then s
  else
    let slice := (s.home ctx line).2
    match (s.slice slice).line (s.context ctx).tenant line with
    | some l => s.modSlice slice (fun x => x.putLine { l with hint := hint })
    | none => s

/-- Splits bytes at virtual addresses into lines, in ascending order. -/
def byLine (bs : List (Nat × Byte)) : Table (Table Byte) :=
  bs.foldl (fun t b => tput (b.1 / 128) (tput (b.1 % 128) b.2 (tget [] (b.1 / 128) t)) t) []

/-- Writes lines one after another. -/
def State.pokeLines (s : State) (src : Option Nat) (ctx : Nat) (nd : Need) (acc : Acc) : Table (Table Byte) → Except Flt State
  | [] => .ok s
  | (l, bs) :: rest => match s.slicePoke ctx l bs nd acc src with
    | .error f => .error f
    | .ok s' => s'.pokeLines src ctx nd acc rest

/-- The first line of a run whose write faults, with its fault. -/
def State.badPoke (s : State) (src : Option Nat) (ctx : Nat) (nd : Need) (acc : Acc) (ls : Table (Table Byte)) : Option ((Nat × Table Byte) × Flt) :=
  ls.findSome? (fun x => match s.slicePoke ctx x.1 x.2 nd acc src with | .error f => some (x, f) | .ok _ => none)

/-- Writes a run of bytes at virtual addresses, line by line; if one of its lines faults, none is written. -/
def State.slicePokes (s : State) (ctx : Nat) (nd : Need) (acc : Acc) (ls : Table (Table Byte)) (src : Option Nat := none) : Except Flt State :=
  match s.badPoke src ctx nd acc ls with
  | some x => .error x.2
  | none => s.pokeLines src ctx nd acc ls

/-- What a run that faults leaves behind: its line's counts and log entries. -/
def State.pokesMet (s : State) (ctx : Nat) (nd : Need) (acc : Acc) (ls : Table (Table Byte)) (src : Option Nat := none) : State :=
  match s.badPoke src ctx nd acc ls with
  | some (x, f) => s.pokeMet ctx x.1 x.2 nd acc f
  | none => s

/-- Bytes of a number laid at a virtual address. -/
def bytesAt (va x n : Nat) : List (Nat × Byte) := (toBytes x n).zipIdx.map (fun b => (va + b.2, b.1))

/-- A read of `n` bytes of a context's memory as a number, for the task unit and the hub (14 R256). -/
def State.readCtx (s : State) (ctx va n : Nat) (acc : Acc := .engineRead) (src : Option Nat := none) : Except Flt Nat :=
  match s.slicePeeks ctx { rd := true } acc va n src with
  | .error f => .error f
  | .ok bs => .ok (ofBytes bs)

/-- The number read, with the state that the read leaves. -/
def State.readRun (s : State) (ctx va n : Nat) (acc : Acc := .engineRead) (src : Option Nat := none) : Except Flt Nat × State :=
  (s.readCtx ctx va n acc src, s.slicePeeked ctx { rd := true } acc va n src)

/-- A write of `n` bytes of a context's memory. -/
def State.writeCtx (s : State) (ctx va x n : Nat) (acc : Acc := .engineWrite) (src : Option Nat := none) : Except Flt State :=
  s.slicePokes ctx { wr := true } acc (byLine (bytesAt va x n)) src

/-- What such a write leaves behind where it faults. -/
def State.writeMet (s : State) (ctx va x n : Nat) (acc : Acc := .engineWrite) (src : Option Nat := none) : State :=
  s.pokesMet ctx { wr := true } acc (byLine (bytesAt va x n)) src

end Sys2Proof.Machine
end

