-- ==== Sys2Proof/Machine/Path.lean ====
section
/-! DEFINITION. The way of an access: the L1 of a core (04 R68 to R70), line requests, operations and their
completion (01 R26, 05 R89), releases and acquires (04 R69, 13 R355), the combining buffer (10 R200), the
race detector (13 R254, R255), and the commit of a region (16 R297). -/

namespace Sys2Proof.Machine

/-! ### The L1 -/

def Core.line (c : Core) (tenant line : Nat) : Option L1Line := tfind (lineKey tenant line) c.l1
def State.setL1 (s : State) (core tenant line : Nat) (l : L1Line) : State := s.modCore core (fun c => { c with l1 := tput (lineKey tenant line) l c.l1 })
def State.delL1 (s : State) (core tenant line : Nat) : State := s.modCore core (fun c => { c with l1 := tdel (lineKey tenant line) c.l1 })

/-- Byte `o` of an L1 line in a valid sector. -/
def L1Line.byte (l : L1Line) (o : Nat) : Byte := match tfind o l.dirty with | some b => b | none => tget 0 o l.data
/-- Lays bytes over others. -/
def overlay (d bs : Table Byte) : Table Byte := bs.foldl (fun d b => tput b.1 b.2 d) d
/-- The line once its dirty bytes have been written back. -/
def L1Line.clean (l : L1Line) : L1Line := { l with data := overlay l.data l.dirty, dirty := [] }
def L1Line.isPool (l : L1Line) : Bool := !l.pool.isEmpty
/-- Merges bytes that the slice has accepted and that fall in valid sectors, without setting their dirty bits (R68); a
byte that was dirty is so no longer, for the slice holds a later value of it (log 65). -/
def L1Line.absorb (l : L1Line) (bs : Table Byte) : L1Line :=
  { l with data := bs.foldl (fun d b => if l.valid.testBit (b.1 / 32) then tput b.1 b.2 d else d) l.data, dirty := l.dirty.filter (fun d => (tfind d.1 bs).isNone) }
/-- A palette line that loses its contents keeps its place in the pool (03 R60, 09 R188). -/
def L1Line.empty (l : L1Line) : L1Line := { l with rd := false, wr := false, valid := 0, dirty := [], data := [] }
/-- Sectors that a set of bytes covers whole. -/
def wholeSectors (bs : Table Byte) : List Nat := (List.range 4).filter (fun i => (List.range 32).all (fun o => (tfind (32 * i + o) bs).isSome))
/-- Sectors that a set of bytes touches. -/
def touchedSectors (bs : Table Byte) : Nat := bs.foldl (fun m b => m ||| 2 ^ (b.1 / 32)) 0
/-- Makes sectors valid with the bytes given. -/
def L1Line.fill (l : L1Line) (secs : List Nat) (bs : Table Byte) : L1Line :=
  secs.foldl (fun l i => { l with valid := l.valid ||| 2 ^ i, data := (List.range 32).foldl (fun d o => tput (32 * i + o) (tget 0 (32 * i + o) bs) d) l.data }) l

/-- The first tag from `n` on that none of `used` is. -/
def freeTag (used : List Nat) (n : Nat) : (fuel : Nat) → Nat
  | 0 => n % 2 ^ 16
  | k + 1 => if used.contains (n % 2 ^ 16) then freeTag used (n + 1) k else n % 2 ^ 16

/-- The tags of requests in flight and of replies not yet acknowledged: none is used again before that (10 R208). -/
def State.usedTags (s : State) : List Nat := s.reqs.map (·.2.tag) ++ s.slices.flatMap (fun x => x.2.replay.map (·.tag) ++ x.2.slq.map (·.tag))

/-- Adds a request to those in flight, homed by its context's windows (03 R52, R53). -/
def State.addReq (s : State) (r : Req) : Nat × State :=
  let h := s.home r.ctx r.line
  let (n, s1) := s.fresh
  (n, { s1 with reqs := tput n { r with local_ := h.1, slice := h.2, tag := freeTag s1.usedTags n s1.usedTags.length } s1.reqs })

/-- On its way between its core and the answer of its slice. -/
def Req.moving (r : Req) : Bool := match r.stage with | .behind _ | .held _ | .queued | .pinned => false | _ => true

/-- The stores of a core to a line that have left for its slice. -/
def State.storesOut (s : State) (core tenant line : Nat) : Table Req :=
  s.reqs.filter (fun q => decide (q.2.kind = .store) && q.2.core == core && q.2.tenant == tenant && q.2.line == line && q.2.moving)

/-- The words of an L1 line that hold bytes at some offsets, with their addresses (06 R110). -/
def l1WordsAt (tenant line : Nat) (offs : List Nat) : List (FileWord × Nat) :=
  ((List.range 32).filter (fun w => offs.any (fun o => o / 4 == w))).map (fun w => (⟨.l1, tenant * 2 ^ 54 + line * 32 + w⟩, line * 128 + 4 * w))

/-- The words that a write-back reads (06 R110): what can be mended is, and the bytes of a word in lasting error are not sent;
the context that wrote them hears of it (16 R313, log 72). -/
def State.readDirty (s : State) (core tenant line : Nat) (l : L1Line) : Table Byte × State :=
  if (s.core core).sound then (l.dirty, s)
  else
    let ws := l1WordsAt tenant line (l.dirty.map (·.1))
    let bad (o : Nat) : Bool := (s.errorFault core 2 (l1WordsAt tenant line [o])).isSome
    let s1 := match s.errorFault core 2 ws with
      | some f => (s.logLasting l.ctx (dieOfCore core) tenant core f).raise l.ctx f { die := dieOfCore core }
      | none => s
    (l.dirty.filter (fun b => !bad b.1), s1.readWords core l.ctx 2 ws)

/-- Sends the dirty bytes of an L1 line to the home slice (R68); the numbers of the requests sent. Bytes that a store of
the core has since replaced at the slice are not sent; bytes that one on its way there may replace follow it (13 R241,
log 65). -/
def State.sendDirty (s : State) (core tenant line : Nat) (l : L1Line) : List Nat × State :=
  let read := s.readDirty core tenant line l
  let s := read.2
  let out := s.storesOut core tenant line
  let bs := read.1.filter (fun b => !out.any (fun q => decide (q.2.stage = .reply) && (tfind b.1 q.2.bytes).isSome))
  if bs = [] then ([], s)
  else
    let ks := (out.filter (fun q => decide (q.2.stage ≠ .reply) && q.2.bytes.any (fun b => (tfind b.1 bs).isSome))).map (·.1)
    let (n, s1) := s.addReq { core := core, ctx := l.ctx, tenant := tenant, kind := .writeback, line := line, bytes := bs, race := false, pa := l.pa, stage := if ks = [] then .toSlice else .queued, after := ks }
    ([n], s1)

/-- A store that its slice performs takes its bytes out of the write-backs that wait for it. -/
def State.replaced (s : State) (n : Nat) (r : Req) : State :=
  { s with reqs := s.reqs.map (fun q => if q.2.kind = .writeback ∧ q.2.after.contains n then (q.1, { q.2 with bytes := q.2.bytes.filter (fun b => (tfind b.1 r.bytes).isNone), after := q.2.after.filter (· ≠ n) }) else q) }

/-- Writes an L1 line back if dirty and invalidates it. -/
def State.evictL1 (s : State) (core tenant line : Nat) (l : L1Line) : State :=
  ((s.sendDirty core tenant line l).2).delL1 core tenant line

/-- A fill already on its way to this line, or the reply to a store that its slice has performed, no longer
allocates the line. -/
def State.dropFills (s : State) (core tenant : Nat) (p : Nat → Bool) : State :=
  { s with reqs := s.reqs.map (fun x => if x.2.core = core ∧ x.2.tenant = tenant ∧ p x.2.line ∧ (x.2.kind = .load ∨ x.2.kind = .table ∨ x.2.kind = .prefetch ∨ (x.2.kind = .store ∧ x.2.stage = .reply)) then (x.1, { x.2 with noAlloc := true }) else x) }

/-- The L1's own part of an atomic or a strong load (10 R194, 13 R239): a line of no palette is written back if
dirty and invalidated. With `pools`, of an add-on-store, a palette line too (09 R188). -/
def State.yieldLine (s : State) (core tenant line : Nat) (pools : Bool := false) : State :=
  match (s.core core).line tenant line with
  | some l =>
    if l.isPool && !pools then s
    else
      let s1 := (s.sendDirty core tenant line l).2
      (if l.isPool then s1.setL1 core tenant line l.empty else s1.delL1 core tenant line).dropFills core tenant (· == line)
  | none => s.dropFills core tenant (· == line)

/-- The addresses that a core's remap filter sends to a line (03 R61). -/
def Core.namesOf (c : Core) (tenant line : Nat) : List Nat :=
  (line * 128 :: c.alias_.map (fun e => nbits e.2 16 40 * 2 ^ 16 + line * 128 % 2 ^ 16)).filter (fun va => c.remap tenant va == line * 128)

/-- Whether a line lies in the per-thread range of a group of the core (R70), one of those that satisfy `p`. -/
def State.isPtm (s : State) (core tenant line : Nat) (p : Group → Bool := fun _ => true) : Bool :=
  let names := (s.core core).namesOf tenant line
  s.groups.any (fun g => coreOf g.1 == core && g.2.tenant == tenant && p g.2 && names.any (fun va => decide (g.2.ptmBase ≤ va) && decide (va < g.2.ptmBase + 128 * g.2.ptmWords)))

/-- L1 lines of a core (R68): what its scratchpad granules leave. -/
def Core.l1Capacity (c : Core) : Nat := 4096 - 64 * c.sUsed.length

/-- Room for one more L1 line: a full L1 loses an ordinary line of a free choice among those marked evict first, else
among all (R63, R68; log 7). -/
def State.roomL1 (s : State) (core : Nat) : State :=
  let c := s.core core
  if c.l1.length < c.l1Capacity then s
  else
    let ls := firstOut (fun (l : Nat × L1Line) => if l.2.hint = 2 then 2 else 0) (c.l1.filter (fun x => !x.2.isPool))
    let (k, s1) := s.choose ls.length
    match ls[k]? with
    | some x => s1.evictL1 core (x.1 / 2 ^ 49) (x.1 % 2 ^ 49) x.2
    | none => s1

/-- The lines of a tenant in a core's L1, as (line, contents). -/
def Core.tenantLines (c : Core) (tenant : Nat) : List (Nat × L1Line) :=
  (c.l1.filter (fun x => x.1 / 2 ^ 49 == tenant)).map (fun x => (x.1 % 2 ^ 49, x.2))

/-- The acquire action at `.die` and wider (R69). -/
def State.acquireL1 (s : State) (core tenant : Nat) : State :=
  (((s.core core).tenantLines tenant).foldl (fun s x => if x.2.isPool || s.isPtm core tenant x.1 then s else s.evictL1 core tenant x.1 x.2) s).dropFills core tenant (fun _ => true)

/-- The write-backs of a core's lines of a tenant that no slice has accepted yet, per-thread lines excepted. -/
def State.writebacks (s : State) (core tenant : Nat) : List Nat :=
  (s.reqs.filter (fun r => decide (r.2.kind = .writeback) && r.2.core == core && r.2.tenant == tenant && !s.isPtm core tenant r.2.line)).map (·.1)

/-- The release action at `.die` and wider (R69): every dirty byte of the tenant is written back, per-thread
lines excepted, and the lines stay, clean. -/
def State.releaseL1 (s : State) (core tenant : Nat) : State :=
  ((s.core core).tenantLines tenant).foldl (fun (s : State) x =>
    if x.2.dirty = [] || s.isPtm core tenant x.1 then s
    else (s.sendDirty core tenant x.1 x.2).2.setL1 core tenant x.1 x.2.clean) s

/-! ### Operations -/

def State.op (s : State) (n : Nat) : Option Op := tfind n s.ops
def State.putOp (s : State) (n : Nat) (o : Op) : State := { s with ops := tput n o s.ops }
def State.putReq (s : State) (n : Nat) (r : Req) : State := { s with reqs := tput n r s.reqs }
def State.delReq (s : State) (n : Nat) : State := { s with reqs := tdel n s.reqs }

/-- An operation is given up, with its requests. -/
def State.dropOp (s : State) (n : Nat) : State := { s with ops := tdel n s.ops, reqs := s.reqs.filter (fun q => !q.2.ops.contains n) }

/-- A release performed by a group at a scope (13 R255): RC rises and marks the scope and every narrower one. -/
def Group.released (g : Group) (scope : Nat) : Group :=
  let rc := (g.rc + 1) % 2 ^ 16
  { g with rc := rc, lr := (List.range (scope + 1)).foldl (fun t i => tset 0 i rc t) g.lr }

/-- An operation that has completed leaves its path (05 R89) and its flag (01 R26). -/
def State.finishOp (s : State) (n : Nat) (o : Op) : State :=
  let s1 := { s with ops := tdel n s.ops }
  if !s1.resident o.gid then s1 else s1.modGroup o.gid (fun g =>
    let g := match o.path with | some p => g.leave p n | none => g
    let g := match o.scope with | some sc => { g with engScope := max g.engScope (sc + 1) } | none => g
    match o.flag with | some f => g.clearFlag f | none => g)

/-- One part of an operation is done; an operation without results to write completes with its last part. -/
def State.partDone (s : State) (n : Nat) : State :=
  match s.op n with
  | none => s
  | some o =>
    let o1 := { o with parts := o.parts - 1 }
    if o1.parts = 0 && o.flag.isNone && (match o.dest with | .none => true | _ => false) then s.finishOp n o1 else s.putOp n o1

/-- Bytes returned to an operation, at virtual addresses. -/
def State.deliver (s : State) (n : Nat) (bs : List (Nat × Byte)) : State :=
  match s.op n with
  | none => s
  | some o => s.putOp n { o with got := bs.foldl (fun t b => tput b.1 b.2.toNat t) o.got }

/-! ### The race detector (13 R254, R255) -/

/-- Whether scope `sc` of a group of context `ctx` covers another group (R238). -/
def covers (s : State) (ctx sc gid other : Nat) : Bool :=
  match sc with
  | 0 => gid == other
  | 1 => coreOf gid == coreOf other
  | 2 => dieOf gid == dieOf other
  | _ => (s.context ctx).part == (s.context (s.group other).ctx).part

/-- The narrowest scope whose instance holds both groups. -/
def narrowest (s : State) (ctx gid other : Nat) : Nat := ((List.range 5).find? (fun sc => covers s ctx sc gid other)).getD 4

/-- Whether the group that issued an operation is still resident. -/
def State.hasIssuer (s : State) (o : Op) : Bool := s.resident o.gid && (s.group o.gid).serial == o.serial

/-- Checks one sector of an access of an operation against its shadow entry; `scope` is 0 for plain, else scope + 1. The
entry that a write leaves is its group's, whichever group has the slot by then. -/
def State.raceSector (s : State) (o : Op) (lane : Nat) (write : Bool) (scope va : Nat) : State :=
  let ctx := o.ctx
  let gid := o.gid
  let d := (s.context ctx).rd
  if va < d.lo || d.hi ≤ va then s
  else
    let sh := d.shadow + (va - d.lo) / 32 * 8
    let die := dieOf gid
    let r := s.readRun ctx sh 8 .engineRead (some die)
    let s := r.2
    match r.1 with
    | .error _ => s
    | .ok e =>
      let w := nbits e 27 17
      let escope := nbits e 60 3
      let int := nbits e 44 16
      let wg := s.group w
      let n := narrowest s ctx gid w
      let lrs := tget 0 n wg.lr
      let diff := (lrs + 2 ^ 16 - int) % 2 ^ 16
      let covered := scope ≠ 0 && escope ≠ 0 && covers s ctx (scope - 1) gid w && covers s ctx (escope - 1) w gid
      let here := s.resident w && tget wg.serial sh d.serials == wg.serial
      let race := e.testBit 63 && w ≠ gid && here && !covered && (diff = 0 || 2 ^ 15 ≤ diff)
      let s1 :=
        if !race then s
        else
          let s0 := s.modContext ctx (fun c => { c with rd := { c.rd with hits := (c.rd.hits + 1) % 2 ^ 64 } })
          if d.mode then
            let at_ := d.log + 32 * (d.logwr % 2 ^ min d.logsz 16)
            let kind := write.toNat + scope * 2 + escope * 16
            let bs := bytesAt at_ va 8 ++ bytesAt (at_ + 8) (srcWord gid lane) 4 ++ bytesAt (at_ + 12) w 4 ++ bytesAt (at_ + 16) int 2 ++ bytesAt (at_ + 18) lrs 2 ++ bytesAt (at_ + 20) kind 4 ++ bytesAt (at_ + 24) o.pc.toNat 8
            match s0.slicePokes ctx { wr := true } .engineWrite (byLine bs) (some die) with
            | .ok s' => s'.modContext ctx (fun c => { c with rd := { c.rd with logwr := (c.rd.logwr + 1) % 2 ^ 32 } })
            | .error _ => s0
          else s0.raise ctx (fRace int w escope scope write va) (if s0.hasIssuer o then { gid := some gid, slotB := o.slotB, pc := o.pc } else { die := die })
      if write then
        match s1.writeCtx ctx sh (2 ^ 63 + scope * 2 ^ 60 + o.rc * 2 ^ 44 + gid * 2 ^ 27) 8 .engineWrite (some die) with
        | .ok s' => s'.modContext ctx (fun c => { c with rd := { c.rd with serials := tput sh o.serial c.rd.serials } })
        | .error _ => s1
      else s1

/-- Checks every sector that an access touches; the address reported is its lowest byte there. -/
def State.raceSectors (s : State) (o : Op) (lane : Nat) (write : Bool) (scope : Nat) (vas : List Nat) : State :=
  let secs := vas.foldl (fun t va => match tfind (va / 32) t with | some a => tput (va / 32) (min a va) t | none => tput (va / 32) va t) ([] : Table Nat)
  secs.foldl (fun s x => s.raceSector o lane write scope x.2) s

/-- The check of an access of an operation as it is performed, if the detector was on when it was issued (R254). -/
def State.raceOp (s : State) (n lane : Nat) (write : Bool) (scope : Nat) (vas : List Nat) : State :=
  match s.op n with
  | some o => if o.race then s.raceSectors o lane write scope vas else s
  | none => s

/-- The check of a request as it is performed, for each of its operations. -/
def State.raceReq (s : State) (r : Req) (write : Bool) (offs : List Nat) : State :=
  if !r.race then s
  else r.ops.foldl (fun (s : State) n => s.raceOp n (match s.op n with | some o => o.lane | none => 0) write r.scope (offs.map (fun x => r.line * 128 + x))) s

/-! ### Sending requests -/

/-- Every operation of a request has one part done. -/
def State.partsDone (s : State) (ops : List Nat) : State := ops.foldl (fun s n => s.partDone n) s

/-- A request has been performed: it leaves, and its operations have one part done. -/
def State.reqDone (s : State) (n : Nat) (r : Req) : State := (s.delReq n).partsDone r.ops

/-- Whether a line lies in the per-thread range of another group of the tenant than `gid` (04 R70). -/
def State.ptmOfOther (s : State) (gid tenant line : Nat) : Bool :=
  s.groups.any (fun g => g.1 ≠ gid && g.2.tenant == tenant && 0 < g.2.ptmWords && ((s.core (coreOf g.1)).namesOf tenant line).any (fun va => decide (g.2.ptmBase ≤ va) && decide (va < g.2.ptmBase + 128 * g.2.ptmWords)))

/-- Bytes of a line handed to one operation: what a load of another group's per-thread range returns is not defined, and each
byte of it is a free value (04 R70, log 79). -/
def State.handOp (s : State) (r : Req) (xs : List (Nat × Byte)) (n : Nat) : State :=
  if (match s.op n with | some o => s.ptmOfOther o.gid r.tenant r.line | none => false) then
    ({ s with draws := s.draws + xs.length } : State).deliver n (xs.zipIdx.map (fun x => (x.1.1, BitVec.ofNat 8 (Config.free (s.draws + x.2)))))
  else s.deliver n xs

/-- Bytes of an L1 line handed to a request's operations. -/
def State.handBytes (s : State) (r : Req) (offs : List Nat) (f : Nat → Byte) : State :=
  r.ops.foldl (fun s n => s.handOp r (offs.map (fun o => (r.line * 128 + o, f o))) n) s

/-- Makes a request in flight a further part of operations. -/
def State.joinReq (s : State) (m : Nat) (ops : List Nat) : State :=
  match tfind m s.reqs with
  | some w => (ops.foldl (fun (s : State) k => match s.op k with | some o => s.putOp k { o with parts := o.parts + 1 } | none => s) s).putReq m { w with ops := ops }
  | none => s

/-! ### The order of a core's requests to a line (02 R41, 13 R241, R242) -/

/-- The core number that stands for no core: a prefetch of a stream comes from a slice. -/
def noCore : Nat := 1536

/-- The sectors of its line that a request touches, as bits. -/
def Req.touch (r : Req) : Nat :=
  match r.kind with
  | .load | .table | .palette _ _ => r.sectors
  | .store | .writeback => touchedSectors r.bytes
  | _ => 0xF

/-- The cores whose request it is: a combined RED is one of every core that contributed to it (10 R200). -/
def State.reqCores (s : State) (r : Req) : List Nat := r.core :: r.ops.filterMap (fun k => (s.op k).map (fun o => coreOf o.gid))

/-- Whether two requests must keep their order: a core made both, and they touch a sector of one line. -/
def State.meets (s : State) (q r : Req) : Bool :=
  q.tenant == r.tenant && q.line == r.line && q.touch &&& r.touch ≠ 0 && (s.reqCores q).any (fun k => (s.reqCores r).contains k)

/-- Whether a request belongs to a group. -/
def State.isOf (s : State) (r : Req) (gid : Nat) : Bool := r.gid == gid || r.ops.any (fun k => match s.op k with | some o => o.gid == gid | none => false)

/-- Whether a request in flight still comes before a later one: one that is held with its fault lets those of other
groups pass (03 R67), a write-back lets none. A write-back follows only a store that has left its core. -/
def State.stands (s : State) (q r : Req) : Bool :=
  match q.stage with
  | .behind _ | .pinned => false
  | .held _ => r.kind ≠ .writeback && (decide (q.kind = .writeback) || s.isOf q r.gid)
  | .queued => r.kind ≠ .writeback
  | _ => true

/-- The requests that one entering its core's way follows. One that enters `again`, after it was held, follows none
that still waits at the core. -/
def State.before (s : State) (n : Nat) (r : Req) (again : Bool) : List Nat :=
  (s.reqs.filter (fun q => q.1 ≠ n && s.meets q.2 r && s.stands q.2 r && !(again && decide (q.2.stage = .queued)))).map (·.1)

/-- Whether what a queued request follows has gone, or no longer stands before it. -/
def State.mayGo (s : State) (r : Req) : Bool :=
  decide (r.stage = .queued) && r.after.all (fun k => match tfind k s.reqs with | some q => !s.stands q r | none => true)

/-- A request leaves its core for its home slice, after the write-backs of its line (10 R194, 13 R239). -/
def State.leave (s : State) (n : Nat) (r : Req) : State :=
  match (s.reqs.filter (fun q => q.1 ≠ n && decide (q.2.kind = .writeback) && s.meets q.2 r)).map (·.1) with
  | [] =>
    let missed : Bool := match r.kind with | .load | .table => true | _ => false
    (if missed then s.countCore r.core r.ctx 3 1 else s).putReq n { r with stage := .toSlice, after := [], ahead := [], seen := false }
  | ws => s.putReq n { r with stage := .queued, after := ws }

/-- What CINV and CWB do in the L1 to a line whose check has passed (03 R66); with `.l2` the request then goes to the
home slice, else it ends, both after the line's write-backs. Palette lines are exempt at both. -/
def State.maintain (s : State) (n : Nat) (r : Req) (inv l2 : Bool) : State :=
  let r1 := { r with passed := true }
  let go (s : State) : State := if l2 || s.reqs.any (fun q => decide (q.2.kind = .writeback) && s.meets q.2 r) then s.leave n r1 else s.reqDone n r1
  match (s.core r.core).line r.tenant r.line with
  | none => go s
  | some l =>
    if l.isPool then s.reqDone n r1
    else
      let s1 := (s.sendDirty r.core r.tenant r.line l).2
      go (if inv then (s1.delL1 r.core r.tenant r.line).dropFills r.core r.tenant (· == r.line) else s1.setL1 r.core r.tenant r.line l.clean)

/-- The group that a request without operations speaks of: of a palette's fill, the one that started it (04 R82). -/
def State.reqOwner (s : State) (r : Req) : Option Nat :=
  match r.kind with
  | .palette t k => s.fillOwner t k
  | _ => some r.gid

/-- The groups of a request's operations, once each, with where their words stand. -/
def State.raiseOps (s : State) (n : Nat) (r : Req) (f : Flt) : State :=
  match r.ops with
  | [] => s.raise r.ctx f { gid := s.reqOwner r, held := true, first := some (n, false), die := r.slice / 32 }
  | ks => ks.foldl (fun (s : State) k => match s.op k with
    | some o => if o.path.isSome || o.flag.isSome || decide (o.dest ≠ .none) then s.raise o.ctx f { gid := some o.gid, slotB := o.slotB, pc := o.pc, held := true, first := some (n, false) } else s.raise o.ctx f { die := r.slice / 32 }
    | none => s) s

/-- The words of sectors of an L1 line, with their addresses. -/
def l1Words (tenant line secs : Nat) : List (FileWord × Nat) := l1WordsAt tenant line (sectorBytes secs)

/-- Bytes written to an L1 line, or sectors filled, lose the errors of their words (06 R111). -/
def State.mendL1 (s : State) (core tenant line : Nat) (offs : List Nat) : State :=
  if (s.core core).sound then s else s.modCore core (fun k => k.mend (fun w => w.file = .l1 ∧ w.index / 32 = tenant * 2 ^ 49 + line ∧ offs.any (fun o => o / 4 == w.index % 32)))

/-- A load finds sectors of its line in the L1: their bytes reach its operations, or an error of them holds it with its
fault (06 R110, log 72). -/
def State.hitL1 (s : State) (n : Nat) (r : Req) (l : L1Line) (have_ : Nat) (go : State → State) : State :=
  let ws := l1Words r.tenant r.line have_
  match s.errorFault r.core 2 ws with
  | some f => ((s.logLasting r.ctx (dieOfCore r.core) r.tenant r.core f).putReq n { r with stage := .held f }).raiseOps n r f
  | none => go ((s.readWords r.core r.ctx 2 ws).handBytes r (sectorBytes have_) l.byte)

/-- Performs the L1's part of a request and, where that does not end it, sends it to its home slice (04 R68, R81,
10 R194, 13 R239). A store that the L1 does not take leaves the L1 as it is until its slice has accepted it (04 R68). -/
def State.send (s : State) (n : Nat) (r : Req) : State :=
  let held := (s.core r.core).line r.tenant r.line
  match r.kind with
  | .load | .table =>
    match held with
    | some l =>
      if r.strong && !l.isPool then (s.yieldLine r.core r.tenant r.line).leave n { r with noAlloc := true }
      else
        let have_ := if l.rd then r.sectors &&& l.valid else 0
        let need := r.sectors ^^^ have_
        s.hitL1 n r l have_ (fun s1 =>
          if need = 0 then (s1.raceReq r false (r.bytes.map (·.1))).reqDone n r
          else s1.leave n { r with sectors := need })
    | none => s.leave n (if r.strong then { r with noAlloc := true } else r)
  | .store =>
    match held with
    | some l =>
      if !r.strong && l.wr && touchedSectors r.bytes &&& l.valid = touchedSectors r.bytes then
        (((s.setL1 r.core r.tenant r.line { l with dirty := overlay l.dirty r.bytes, ctx := r.ctx }).mendL1 r.core r.tenant r.line (r.bytes.map (·.1))).raceReq r true (r.bytes.map (·.1))).reqDone n r
      else s.leave n r
    | none => s.leave n r
  | .atomic => ((s.reqCores r).foldl (fun (s : State) k => s.yieldLine k r.tenant r.line) s).leave n r
  | .acont | .grid => (s.yieldLine r.core r.tenant r.line).leave n r
  | .addOnStore => (s.yieldLine r.core r.tenant r.line true).leave n r
  | .check inv l2 =>
    if r.passed then (if l2 then s.leave n r else s.reqDone n r)
    else match held with
      | some l => if l.rd && l.valid ≠ 0 then (s.putReq n r).maintain n r inv l2 else s.leave n r
      | none => s.leave n r
  | .prefetch =>
    match held with
    | some l =>
      if l.isPool || (!r.nl1 && l.rd && l.valid = 0xF) then s.reqDone n r
      else s.leave n { r with sectors := if r.nl1 || !l.rd then 0xF else 0xF ^^^ l.valid }
    | none => s.leave n r
  | .palette _ _ | .outbox => s.leave n r
  | .writeback => s.putReq n { r with stage := .toSlice, after := [], ahead := [], seen := false }

/-- A request enters its core's way: it waits for the earlier requests that it must follow, or is sent. -/
def State.enter (s : State) (n : Nat) (r : Req) (again : Bool) : State :=
  match (if r.kind = .writeback then [] else s.before n r again) with
  | [] => s.send n r
  | ks => s.putReq n { r with stage := .queued, after := ks }

/-- A queued request whose predecessors have gone is sent. -/
def State.sendQueued (s : State) (n : Nat) : State :=
  match tfind n s.reqs with
  | some r => if s.mayGo r then s.send n r else s
  | none => s

/-- Adds a request of an operation and lets it go its way, or keeps it behind the release it follows. -/
def State.request1 (s : State) (r : Req) (behind : Option Nat) : State :=
  let (n, s1) := s.addReq r
  match tfind n s1.reqs, behind with
  | some q, none => s1.enter n q false
  | some q, some h => s1.putReq n { q with stage := .behind h }
  | none, _ => s1

/-! ### The combining buffer (10 R200) -/

/-- Sends an entry of a cluster's combining buffer as one RED. -/
def State.sendCombined (s : State) (cl : Nat) (e : Combine) : State :=
  let s1 := s.modCluster cl (fun c => { c with combine := c.combine.filter (fun x => x ≠ e) })
  s1.request1 { ops := e.ops.map (·.2), gid := (match e.ops with | x :: _ => x.1 | [] => 0), core := e.core, ctx := e.ctx, tenant := e.tenant, kind := .atomic, line := e.addr / 128, lanes := [⟨0, e.addr % 128, e.value, 0⟩], atom := { ty := e.ty, kind := e.kind }, strong := true, scope := e.scope + 1 } none

/-- Sends the entries of a cluster that satisfy `p`. -/
def State.flushCombine (s : State) (cl : Nat) (p : Combine → Bool) : State :=
  ((s.cluster cl).combine.filter p).foldl (fun s e => s.sendCombined cl e) s

/-- Entries that a group contributed to. -/
def Combine.by (e : Combine) (gid : Nat) : Bool := e.ops.any (fun x => x.1 == gid)

/-- A request of a group; a combining entry for its line to which the group contributed is sent first (R200). -/
def State.request (s : State) (r : Req) (behind : Option Nat) : State :=
  (s.flushCombine (clusterOfCore r.core) (fun e => e.by r.gid && e.tenant == r.tenant && e.addr / 128 == r.line)).request1 r behind

/-! ### Releases and acquires (13 R355) -/

/-- The end of a release: its marks are made, and what waited behind it is sent, as issued after them (13 R255). -/
def State.endRelease (s : State) (n : Nat) (h : Hold) : State :=
  let s1 := { s with holds := tdel n s.holds }
  let s2 := if s1.resident h.gid then s1.modGroup h.gid (fun g => g.released h.scope) else s1
  let rc := (s2.group h.gid).rc
  (s2.reqs.filter (fun r => decide (r.2.stage = .behind n))).foldl (fun (s : State) r =>
    (r.2.ops.foldl (fun (s : State) k => match s.op k with | some o => s.putOp k { o with rc := rc } | none => s) s).enter r.1 r.2 false) s2

/-- Moves one release or acquire on as far as it can go: once what it waits for has completed, its action
of R69 is taken; a release ends when the slices have accepted every write-back in flight. -/
def State.moveHold (s : State) (n : Nat) : State :=
  match tfind n s.holds with
  | none => s
  | some h =>
    let g := s.group h.gid
    if !h.sent then
      if h.waits.any (fun o => (s.op o).isSome) || (match h.after with | some k => (tfind k s.holds).isSome | none => false) then s
      else if h.rel then
        if h.scope < 2 then s.endRelease n h
        else
          let s1 := s.releaseL1 (coreOf h.gid) g.tenant
          let h1 := { h with sent := true, wbs := s1.writebacks (coreOf h.gid) g.tenant }
          if h1.wbs = [] then s1.endRelease n h1 else { s1 with holds := tput n h1 s1.holds }
      else
        let s1 := { s with holds := tdel n s.holds }
        if 2 ≤ h.scope then s1.acquireL1 (coreOf h.gid) g.tenant else s1
    else if h.wbs.any (fun r => (tfind r s.reqs).isSome) then s
    else s.endRelease n h

/-- Moves every release and acquire on. -/
def State.settle (s : State) : State := (s.holds.map (·.1)).foldl (fun s n => s.moveHold n) s

/-- Starts a release at a scope (10 R209, 12 R228): it waits for the group's earlier operations on LD and ST,
whose combining entries are sent. Its number. -/
def State.startRelease (s : State) (gid scope : Nat) (whole : Bool) : Nat × State :=
  let s1 := s.flushCombine (clusterOfCore (coreOf gid)) (fun e => e.by gid)
  let g := s1.group gid
  let (n, s2) := s1.fresh
  (n, { s2 with holds := tput n { gid := gid, scope := scope, rel := true, whole := whole, waits := g.pathOps 0 ++ g.pathOps 1 } s2.holds })

/-- Starts an acquire that waits for the given operations, and for a release. -/
def State.startAcquire (s : State) (gid scope : Nat) (waits : List Nat) (after : Option Nat := none) (join : Bool := false) : State :=
  let (n, s1) := s.fresh
  { s1 with holds := tput n { gid := gid, scope := scope, rel := false, waits := waits, after := after, join := join } s1.holds }

/-- Whether a release or acquire holds back the group's later accesses (R355). -/
def State.holding (s : State) (gid : Nat) : Bool := s.holds.any (fun h => h.2.gid == gid)

/-- Whether a JOIN holds back the group's later accesses (11 R221). -/
def State.joining (s : State) (gid : Nat) : Bool := s.holds.any (fun h => h.2.gid == gid && h.2.join)

/-! ### Regions (16 R297) -/

/-- Performs one entry of the region store buffer at the commit (R297, 04 R68, R73). -/
def State.commitEntry (s : State) (gid : Nat) (retire : Bool) (e : BufEntry) : State :=
  let g := s.group gid
  match e.space with
  | .scratch =>
    (s.writeScratch g.team (e.bytes.map (fun b => (e.sector + b.1, b.2)))).partsDone e.ops
  | .perThread =>
    if retire then s.partsDone e.ops
    else s.request { ops := e.ops, gid := gid, core := coreOf gid, ctx := g.ctx, tenant := e.tenant, kind := .store, line := e.sector / 128, bytes := e.bytes.map (fun b => (e.sector % 128 + b.1, b.2)), race := false, ptm := true } none
  | .global =>
    s.request { ops := e.ops, gid := gid, core := coreOf gid, ctx := g.ctx, tenant := e.tenant, kind := .store, line := e.sector / 128, bytes := e.bytes.map (fun b => (e.sector % 128 + b.1, b.2)), nl1 := e.hint == 1, hint := e.hint, strong := e.strong, scope := e.scope } none

/-- A slot as a region records it: one that a BRX or CALLX holds stands at that word (11 R215, R222). -/
def Group.slotAtWord (g : Group) (b : Bool) : Slot :=
  match g.tables.find? (fun w => w.slotB == b) with
  | some w => { g.slot b with pc := w.pc, cl := w.cl }
  | none => g.slot b

/-- Records a new region (R297, 11 R222). The registers are not kept: a region that is run again sees them as they then
are, and no check of the hardware finds one that is not idempotent (16 R299). -/
def Group.record (g : Group) (start : DWord) (live : Option Live) : Group :=
  { g with engTaken := 0, region := { start := start, live := live, a := ⟨g.slotAtWord false, g.mask false⟩, b := ⟨g.slotAtWord true, g.mask true⟩ } }

/-- Commits the group's region: the buffered stores are performed in buffer order, the staging buffer is
emptied, and the new region is recorded from the word that follows (R297). The slot's PC already names that
word. -/
def State.commitRegion (s : State) (gid : Nat) (slotB : Bool) (retire : Bool := false) : State :=
  let g := s.group gid
  let s1 := s.setGroup gid { g with buf := [], staged := none }
  let s2 := g.buf.foldl (fun s e => s.commitEntry gid retire e) s1
  s2.modGroup gid (fun g => g.record (g.slot slotB).pc none)

/-- The group's buffered bytes of a line, at their addresses (02 R41). -/
def Group.ownBytes (g : Group) (space : Space) (line : Nat) : Table Byte :=
  overlay [] ((g.buf.filter (fun e => decide (e.space = space) && e.sector / 128 == line)).flatMap (fun e => e.bytes.map (fun b => (e.sector + b.1, b.2))))

/-- Merges bytes of a store into the region store buffer, sector by sector (02 R41). A sector keeps the last hint other
than `.nl1` (log 7). -/
def bufferStore (space : Space) (tenant op : Nat) (strong : Bool) (hint scope : Nat) (bs : List (Nat × Byte)) (buf : List BufEntry) : List BufEntry :=
  bs.foldl (fun buf b =>
    let sec := b.1 / 32 * 32
    if buf.any (fun e => decide (e.space = space) && e.sector == sec) then
      buf.map (fun e => if e.space = space ∧ e.sector = sec then { e with bytes := tput (b.1 % 32) b.2 e.bytes, ops := if e.ops.contains op then e.ops else e.ops ++ [op], strong := e.strong || strong, hint := if hint = 1 then e.hint else hint, scope := max e.scope scope } else e)
    else buf ++ [⟨space, sec, tenant, [(b.1 % 32, b.2)], [op], strong, hint, scope⟩]) buf

/-- Sectors of a store that have no entry yet. -/
def newSectors (space : Space) (bs : List (Nat × Byte)) (buf : List BufEntry) : List Nat :=
  (bs.foldl (fun l b => let sec := b.1 / 32 * 32; if l.contains sec then l else l ++ [sec]) []).filter (fun sec => !buf.any (fun e => decide (e.space = space) && e.sector == sec))

/-- The entries that hold a store's bytes: the parts of its operation. -/
def storeParts (op : Nat) (buf : List BufEntry) : Nat := (buf.filter (fun e => e.ops.contains op)).length

end Sys2Proof.Machine
end

