-- ==== Sys2Proof/Machine/Issue.lean ====
section
/-! DEFINITION. How a word issues: the checks every word passes (01 R25 to R27, 02 R40, 09 R169), what the
issue itself does to its slot, marks and charge, and the two forms a meaning takes: one that ends with the
issue, and one that may hold its group at the word (R25, 13 R355). -/

namespace Sys2Proof.Machine

/-- The first register that is not allocated (02 R40). -/
def firstUnallocated (g : Group) (rs : List Reg) : Option Flt := (rs.find? (fun r => !g.allocated r)).map fUnallocated

/-- The first register that is pending (01 R26); an accumulator that an earlier matrix instruction has marked
is open to a matrix instruction. -/
def firstPending (g : Group) (mx : Bool) (rs : List Reg) : Option Flt :=
  match rs.find? (fun r => match g.pending r.cls.code r.idx with | some m => !(mx && m.mx && r.cls = .acc) | none => false) with
  | some r => some (fRegister 0 (match g.pending r.cls.code r.idx with | some m => m.flag | none => 0) r.idx r.cls.code 2)
  | none => none

/-- The word of a protected file that holds part of a register (02 R40, 06 R110). -/
def fileWordsOf (g : Group) (gid : Nat) (r : Reg) : List FileWord :=
  match r.cls with
  | .vec => (List.range 32).map (fun L => ⟨.vector, (g.vmap.getD (r.idx / 8) 0 * 8 + r.idx % 8) * 32 + L⟩)
  | .sca => [⟨.scalar, slotOf gid * 64 + r.idx⟩]
  | .pred => [⟨.predicate, slotOf gid * 8 + r.idx⟩]
  | .tile => (List.range 512).map (fun w => ⟨.tile, g.tmap.getD r.idx 0 * 512 + w⟩)
  | .acc => (List.range 1024).map (fun w => ⟨.accumulator, g.amap.getD r.idx 0 * 1024 + w⟩)

/-- The words of registers, with the addresses that a fault names (16 R308). -/
def Iss.readsOf (c : Iss) (rs : List Reg) : List (FileWord × Nat) :=
  rs.flatMap (fun r => (fileWordsOf c.g c.gid r).map (fun w => (w, (if r.cls = .vec then w.index % 32 else 0) + r.idx * 32 + r.cls.code * 2 ^ 13)))

/-- The registers that a word reads: its sources, and the mask of its slot where it forms an active set. -/
def Iss.sources (c : Iss) (i : Instr) : List Reg := i.regs.1 ++ (if i.readsMask then [⟨.sca, c.slotB.toNat⟩] else [])

/-- The word of a protected file that a cell of a group's registers lies in. -/
def Group.cellWord (g : Group) (gid : Nat) (c : RCell) : FileWord :=
  match c.cls with
  | 0 => ⟨.vector, (g.vmap.getD (c.key / 256) 0 * 8 + c.key / 32 % 8) * 32 + c.key % 32⟩
  | 1 => ⟨.scalar, slotOf gid * 64 + c.key⟩
  | 2 => ⟨.predicate, slotOf gid * 8 + c.key⟩
  | 3 => ⟨.tile, g.tmap.getD (c.key / 512) 0 * 512 + c.key % 512⟩
  | _ => ⟨.accumulator, g.amap.getD (c.key / 1024) 0 * 1024 + c.key % 1024⟩

/-- Cells of a group's registers that are written lose the errors and marks of their words (06 R111). -/
def State.mendCells (s : State) (gid : Nat) (cs : List RCell) : State :=
  if (s.core (coreOf gid)).sound then s
  else let ws := cs.map ((s.group gid).cellWord gid); s.modCore (coreOf gid) (fun k => k.mend (fun w => ws.contains w))

/-- Writes cells of a group's registers. -/
def State.putCells (s : State) (gid : Nat) (ws : List (RCell × Word)) : State := (s.modGroup gid (fun g => g.wcells ws)).mendCells gid (ws.map (·.1))

/-- The fault of a word whose source registers hold a poisoned word or a lasting double error (06 R110, R111). Every lane of a
source counts as read, whatever the masks (DESIGN CHOICE, log 72: the manual does not say). -/
def poisonFault (s : State) (c : Iss) (rs : List Reg) : Option Flt :=
  if (s.core (coreOf c.gid)).sound then none else s.errorFault (coreOf c.gid) 0 (c.readsOf rs)

/-- The words of its destinations that a word writes: of a vector register those of its active lanes, of a scalar register
the one, of another the whole if a lane is active (06 R111). -/
def Iss.writesOf (c : Iss) (i : Instr) (m : Word) (rs : List Reg) : List FileWord :=
  rs.flatMap (fun r =>
    if r.cls = .vec then (fileWordsOf c.g c.gid r).filter (fun w => m.getLsbD (w.index % 32))
    else if m = 0 && (r.cls ≠ .sca || i.needsLane) then [] else fileWordsOf c.g c.gid r)

/-- Source words with an error that can be mended are corrected and counted (06 R110). -/
def State.correct (s : State) (c : Iss) (reads : List Reg) : State :=
  if (s.core (coreOf c.gid)).sound then s else s.readWords (coreOf c.gid) c.g.ctx 0 (c.readsOf reads)
/-- The fault of a word whose B operand names a system register that its group may not read: sy.scrub.ctl is level 0's
(01 R17, 06 R112, R123). -/
def sysRight (s : State) (c : Iss) (i : Instr) : Option Flt :=
  match i.fRule with
  | some (o, r) => match r.bUse o with
    | .sys => if o.b = 0x43 ∧ (s.context c.g.ctx).level ≠ 0 then some (fRight (s.context c.g.ctx).level 0xF 0x43 i.opcNum) else none
    | _ => none
  | none => none

/-- The flag a long-latency word selects, if its clause makes it valid (01 R25). -/
def Iss.flag (c : Iss) (sb : Bool) : Option Nat := if sb then c.cl.sb else c.cl.sa

/-- The checks every word passes at issue, in this order: its place in the clause (R27), its flag (R25), then
`pre` (a right, or convergence), allocation (R40), pending marks (R26). -/
def frontCheck (i : Instr) (c : Iss) (pre : Option Flt) : Option Flt :=
  let rs := i.regs
  if i.isTransfer && c.cl.left ≠ 1 then some (fEncoding false 5 i.wordOf)
  else
    match i.longLat with
    | some sb => if (c.flag sb).isNone then some (fEncoding (match i.halves with | some (x, _) => x.op ≠ .lds | none => false) 6 i.wordOf) else later rs
    | none => later rs
where
  later (rs : List Reg × List Reg) : Option Flt :=
    match pre with
    | some f => some f
    | none => match firstUnallocated c.g (rs.1 ++ rs.2) with
      | some f => some f
      | none => firstPending c.g i.isMatrix (rs.1 ++ rs.2)

/-- The charge of a word (15 R294). -/
def Iss.charge (c : Iss) (i : Instr) : Nat :=
  match i.halves with
  | some (x, y) =>
    let h (p : PHalf) : Nat := p.op.weight * lanesOf (c.active (match p.f.g with | some q => .on false q | none => .none))
    h x + h y
  | none => i.weight * lanesOf (c.active i.guardOf)

/-- The lanes in which a word acts: of a pair those of either half. -/
def Iss.lanes (c : Iss) (i : Instr) : Word :=
  match i.halves with
  | some (x, y) =>
    let h (p : PHalf) : Word := c.active (match p.f.g with | some q => .on false q | none => .none)
    h x ||| h y
  | none => c.active i.guardOf

/-- A word that reads three registers of one bank in the F-form holds its quadrant for a second cycle
(06 R108). The blocks that a matrix instruction reads for its unit are no such reads: the trace of 15 R295 gives MMA one
cycle. -/
def Iss.twoCycles (c : Iss) (i : Instr) : Bool :=
  let plain (r : Reg) : Bool := match c.g.staged with | some (a, n) => !(a ≤ r.idx && r.idx < a + n) | none => true
  i.halves.isNone && !i.isMatrix && (List.range 4).any (fun b => decide (3 ≤ (i.regs.1.filter (fun r => r.cls = .vec && r.idx % 4 = b && plain r)).length))

/-- A word of a group ends the yield preference of the other groups of its quadrant (11 R224). -/
def State.endYields (s : State) (gid : Nat) : State :=
  { s with groups := s.groups.map (fun (x : Nat × Group) => if x.1 ≠ gid ∧ x.1 / 16 = gid / 16 then (x.1, { x.2 with yielded := false }) else x) }

/-- A word of a stepped group has issued (16 R311): what SE waits for is its path counter's value before it. -/
def State.noteStep (s : State) (c : Iss) (i : Instr) : State :=
  let w : Nat × Nat := match i with
    | .lnch _ => (6, s.nextId)
    | i => match pathOf i with | some p => (p, c.g.counter p) | none => (7, 0)
  s.modContext c.g.ctx (fun x => if x.hb.stepping.contains c.gid then { x with hb := { x.hb with stepping := x.hb.stepping.filter (· ≠ c.gid), stepped := x.hb.stepped ++ [⟨c.gid, c.slotB, c.pc, w.1, w.2⟩] } } else x)

/-- The issuing group after the issue of its word (01 R26 to R28, 15 R294): the slot goes on to the next word,
and the marks of a long-latency word are made and its flag is set. `n` is the number of the issue. -/
def Iss.issued (c : Iss) (i : Instr) (n : Nat) : Group :=
  let left := c.cl.left - 1
  let g0 := c.g.setSlot c.slotB { (c.g.slot c.slotB) with pc := c.pc + 8, cl := if left = 0 then none else some { c.cl with left := left } }
  let g1 := { g0 with last := n, due := 0, nextB := c.slotB != decide (left = 0), yielded := g0.yielded || (left = 0 && c.cl.yld) }
  match i.longLat with
  | some sb =>
    let f := (c.flag sb).getD 0
    (i.marks.foldl (fun (g : Group) r => g.addMark ⟨r.cls.code, r.idx, f, i.isMatrix⟩) (g1.assignFlag f))
  | none => g1

/-- The issue of a word (01 R26 to R28, 15 R294): its group goes on, and the cluster is charged. -/
def State.begin (s : State) (c : Iss) (i : Instr) : State :=
  let s1 := (({ s with grant := none, issues := s.issues + 1 } : State).setGroup c.gid (c.issued i (s.issues + 1))).correct c (c.sources i)
  let s2 := s1.endYields c.gid
  let n := c.charge i
  let s3 := if n = 0 then s2 else s2.modCluster (clusterOfCore (coreOf c.gid)) (fun k => { k with now := k.now + n })
  let s4 := if c.twoCycles i then s3.modCore (coreOf c.gid) (fun k => { k with secondRead := quadOf c.gid :: k.secondRead }) else s3
  let s5 := if (s.context c.g.ctx).hb.stepMode then s4.noteStep c i else s4
  s5.countCore (coreOf c.gid) c.g.ctx 1 1

/-- The slot that holds the issue opportunity, at a word of its clause. -/
def State.issuer (s : State) (gr : Grant) : Iss :=
  let g := s.group gr.gid
  let x := g.slot gr.slotB
  ⟨gr.gid, gr.slotB, x.pc, x.cl.getD {}, g⟩

/-- The lines of a group's divergence stack, that of the next entry among them (11 R217). -/
def Group.stackLines (g : Group) (k : Core) : List Nat :=
  (List.range ((g.stackTop - g.dsp.toNat) / 128 + 1)).map (fun (n : Nat) => k.remap g.tenant (g.dsp.toNat + 128 * n - 128))

/-- A lasting error of memory that a read or a write of the divergence stack met is logged by the slice that met it. -/
def State.logStack (s : State) (c : Iss) (f : Flt) : State :=
  if !f.ofMemory then s
  else
    let same {α : Type} (r : Except Flt α) : Bool := match r with | .error e => decide (e.detail = f.detail) | .ok _ => false
    match (c.g.stackLines (s.core (coreOf c.gid))).find? (fun va => same (s.slicePeeks c.g.ctx { rd := true } .load va 128 (some (dieOf c.gid))) || same (s.slicePoke c.g.ctx (va / 128) [(0, 0)] { wr := true } .store (some (dieOf c.gid)))) with
    | some va => s.logRead c.g.ctx (s.home c.g.ctx (va / 128)).2 f
    | none => s

/-- Takes a precise fault of the issuing word; a lasting error is logged as well (16 R313). -/
def State.trapAt (s : State) (c : Iss) (f : Flt) : State :=
  ((s.logLasting c.g.ctx (dieOf c.gid) c.g.tenant (coreOf c.gid) f).logStack c f).takeTrap c.gid c.slotB c.pc f

/-- The words that a word has written by the end of its meaning lose their errors and marks (06 R111); a long-latency word, and
one that holds its group or its slot, writes later. A mask that has changed has been written. -/
def State.written (s : State) (c : Iss) (i : Instr) : State :=
  if (s.core (coreOf c.gid)).sound then s
  else
    let g := s.group c.gid
    let held := i.longLat.isSome || g.wait.isSome || g.tables.any (fun w => w.slotB == c.slotB)
    let masks := ([0, 1].filter (fun r => g.rs r ≠ c.g.rs r)).map (fun r => (⟨.scalar, slotOf c.gid * 64 + r⟩ : FileWord))
    let ws := masks ++ (if held then [] else c.writesOf i (c.lanes i) i.regs.2)
    if ws = [] then s else s.modCore (coreOf c.gid) (fun k => k.mend (fun w => ws.contains w))

/-- A word whose meaning ends with its issue. `pre` is its own check ahead of the register checks; `eff`
gives the state after it, from the state in which it has been issued, or the fault it finds, which leaves
no effect (R13). Without an issue opportunity nothing issues. -/
def issue (i : Instr) (s : State) (pre : Iss → Option Flt) (eff : Iss → State → Except Flt State) : Host.Outcome State Fault Refusal :=
  match s.grant with
  | none => .next s
  | some gr =>
    let c := s.issuer gr
    match frontCheck i c ((sysRight s c i).orElse (fun _ => pre c)) with
    | some f => .next (s.trapAt c f)
    | none => match poisonFault s c (c.sources i) with
      | some f => .next (s.trapAt c f)
      | none => match eff c (s.begin c i) with
        | .error f => .next (s.trapAt c f)
        | .ok s' => .next (s'.written c i)

/-- No check of its own. -/
def free_ (_ : Iss) : Option Flt := none

/-- Holds the group at its word (R25, 12 R228, 13 R355). -/
def State.block (s : State) (c : Iss) (i : Instr) (k : WaitKind) : State :=
  s.modGroup c.gid (fun g => { g with wait := some { kind := k, slotB := c.slotB, instr := i, since := s.ctxTime c.g.ctx, pc := c.pc, cl := some c.cl, cycle := (s.cycleOf c.gid).2 } })

/-- A fault found at a word that holds its group: the slot returns to the word, the rest of its effect so far
stands (12 R227, 14 R278). -/
def State.trapHeld (s : State) (gid : Nat) (w : Wait) (f : Flt) : State :=
  ((s.logLasting (s.group gid).ctx (dieOf gid) (s.group gid).tenant (coreOf gid) f).modGroup gid (fun g => { (g.modSlot w.slotB (fun x => { x with pc := w.pc, cl := w.cl })) with wait := none })).takeTrap gid w.slotB w.pc f

/-- Holds a slot at its word (11 R215). -/
def State.holdSlot (s : State) (c : Iss) (i : Instr) (k : WaitKind) : State :=
  s.modGroup c.gid (fun g => { g with tables := g.tables ++ [{ kind := k, slotB := c.slotB, instr := i, since := s.ctxTime c.g.ctx, pc := c.pc, cl := some c.cl, cycle := (s.cycleOf c.gid).2 }] })

/-- A fault found at a word that holds its slot, of operation `n`: the slot returns to the word. -/
def State.trapSlot (s : State) (gid n : Nat) (w : Wait) (f : Flt) : State :=
  ((s.dropOp n).modGroup gid (fun g => { (g.modSlot w.slotB (fun x => { x with pc := w.pc, cl := w.cl })) with tables := g.tables.filter (fun x => x.slotB ≠ w.slotB) })).takeTrap gid w.slotB w.pc f

/-- A word that may hold its group: `first` as for `issue`; `again` runs when what the group waits for has
come, in the state without the wait. -/
def issue2 (i : Instr) (s : State) (pre : Iss → Option Flt) (first : Iss → State → Except Flt State) (again : Iss → Wait → State → Except Flt State) : Host.Outcome State Fault Refusal :=
  match s.grant with
  | none => .next s
  | some gr =>
    if !gr.again then issue i s pre first
    else
      let g := s.group gr.gid
      match g.wait with
      | none => .next { s with grant := none }
      | some w =>
        let s1 := ({ s with grant := none } : State).setGroup gr.gid { g with wait := none }
        let c : Iss := ⟨gr.gid, w.slotB, w.pc, w.cl.getD {}, { g with wait := none }⟩
        match again c w s1 with
        | .error f => .next (s1.trapHeld gr.gid w f)
        | .ok s' => .next (s'.written c i)

/-- Adds an operation of the issuing word: it counts on `path` when given (05 R89) and carries the flag of a
long-latency word (01 R26). Its number. -/
def State.newOp (s : State) (c : Iss) (i : Instr) (path : Option Nat) (dest : Dest) (parts : Nat) : Nat × State :=
  let (n, s1) := s.fresh
  let flag := match i.longLat with | some sb => c.flag sb | none => none
  let o : Op := { gid := c.gid, ctx := c.g.ctx, tenant := c.g.tenant, pc := c.pc, slotB := c.slotB, instr := i, path := path, flag := flag, dest := dest, parts := parts, rc := c.g.rc, lane := (lowest (c.active i.guardOf)).getD 0, race := (s.context c.g.ctx).rd.en, serial := c.g.serial }
  let s2 := { s1 with ops := tput n o s1.ops }
  (n, match path with | some p => s2.modGroup c.gid (fun g => { g with paths := g.paths ++ [⟨p, n, false⟩] }) | none => s2)

/-- A long-latency word without an active lane: its flag's operation has nothing to write (16 R309). -/
def State.emptyOp (s : State) (c : Iss) (i : Instr) : State := (s.newOp c i none .none 0).2

end Sys2Proof.Machine
end

