-- ==== Sys2Proof/Machine/Forms.lean ====
section
/-! DEFINITION. The forms that the register-to-register instructions share: a value for each active lane,
with or without exceptions (08 R142, R143), a predicate for each active lane, and a scalar (06 R119). -/

namespace Sys2Proof.Machine

/-- A for lane L. -/
def Iss.a (c : Iss) (o : FOps) (L : Nat) : Word := c.g.rv o.a.toNat L

/-- Writes `f` of the operands to v[D] in the active lanes (R142). -/
def lanewise (i : Instr) (o : FOps) (s : State) (f : Iss → State → Nat → Word) : Host.Outcome State Fault Refusal :=
  issue i s free_ (fun c t => .ok (t.modGroup c.gid (fun g => g.wlanes o.d.toNat (c.active o.g) (f c t))))

/-- Writes `f` of A and B. -/
def lanewise2 (i : Instr) (o : FOps) (s : State) (f : Word → Word → Word) : Host.Outcome State Fault Refusal :=
  lanewise i o s (fun c t L => f (c.a o L) (c.b t o L))

/-- Writes `f` of A, B and C. -/
def lanewise3 (i : Instr) (o : FOps) (s : State) (f : Word → Word → Word → Word) : Host.Outcome State Fault Refusal :=
  lanewise i o s (fun c t L => f (c.a o L) (c.b t o L) (c.c o L))

/-- Writes `f` of A. -/
def lanewise1 (i : Instr) (o : FOps) (s : State) (f : Word → Word) : Host.Outcome State Fault Refusal :=
  lanewise i o s (fun c _ L => f (c.a o L))

/-- Writes `n` consecutive registers, register D + r with `f L` at r, in the active lanes; an enabled
exception in an active lane writes nothing and faults (R143). The list holds the `n` words of a lane. -/
def checked (i : Instr) (o : FOps) (s : State) (chk : Bool) (f : Iss → State → Nat → List Nat × FFlags) : Host.Outcome State Fault Refusal :=
  issue i s free_ (fun c t =>
    let m := c.active o.g
    let rs := (lanesIn m).map (fun L => (L, f c t L))
    match arithFault i.opcNum (if chk then c.g.fpx else 0) (rs.map (fun r => (r.1, r.2.2))) with
    | some e => .error e
    | none => .ok (t.modGroup c.gid (fun g => rs.foldl (fun (g : Group) r => r.2.1.zipIdx.foldl (fun (g : Group) w => g.wv (o.d.toNat + w.2) r.1 (BitVec.ofNat 32 w.1)) g) g)))

/-- Writes one register of a rounded result. -/
def checked1 (i : Instr) (o : FOps) (s : State) (f : Iss → State → Nat → Nat × FFlags) : Host.Outcome State Fault Refusal :=
  checked i o s true (fun c t L => ([(f c t L).1], (f c t L).2))

/-- Writes `f L` to q[D] in the active lanes. -/
def predwise (i : Instr) (o : FOps) (s : State) (f : Iss → State → Nat → Bool) : Host.Outcome State Fault Refusal :=
  issue i s free_ (fun c t => .ok (t.modGroup c.gid (fun g => g.wpred o.d.toNat (c.active o.g) (f c t))))

/-- Writes a value computed once for the group to s[D] (06 R119). -/
def scalar (i : Instr) (o : FOps) (s : State) (f : Iss → State → Word) : Host.Outcome State Fault Refusal :=
  issue i s free_ (fun c t => .ok (t.modGroup c.gid (fun g => g.ws o.d.toNat (f c t))))

/-- B of a floating-point operand in format `f` for lane L, in element position `h` of a word (08 R141): an
immediate is converted exactly. -/
def Iss.fb (c : Iss) (t : State) (o : FOps) (f : Fmt) (h L : Nat) : Nat :=
  match o.bk with
  | .imm => (f.round .rne false (.ofInt o.c.toInt)).1
  | _ => nbits (c.b t o L).toNat (f.width * h) f.width

/-- The register words of a loaded value by its width code (03 R63, R64). -/
def loadWords (width x : Nat) : List Word :=
  match width with
  | 0 => [BitVec.ofNat 32 (x % 2 ^ 8)]
  | 1 => [word (sext x 8)]
  | 2 => [BitVec.ofNat 32 (x % 2 ^ 16)]
  | 3 => [word (sext x 16)]
  | 5 => (List.range 2).map (fun k => BitVec.ofNat 32 (nbits x (32 * k) 32))
  | 6 => (List.range 4).map (fun k => BitVec.ofNat 32 (nbits x (32 * k) 32))
  | _ => [BitVec.ofNat 32 x]

/-- Bytes of a width code (R63). -/
def widthBytes : Nat → Nat
  | 0 => 1 | 1 => 1 | 2 => 2 | 3 => 2 | 5 => 8 | 6 => 16 | _ => 4

/-- Replaces the field of `w` bits at bit `lo` of a word. -/
def setField (x : Word) (lo w v : Nat) : Word :=
  BitVec.ofNat 32 (x.toNat - nbits x.toNat lo w * 2 ^ lo + v % 2 ^ w * 2 ^ lo)

end Sys2Proof.Machine
end

