-- ==== Sys2Proof/Machine/GlobalMem.lean ====
section
/-! DEFINITION. The global-memory group (03 R62 to R66) and the scalar accesses (06 R122): loads start an
operation of line requests, stores enter the region store buffer, and the ordered forms release and
acquire (13 R239, R355). -/

namespace Sys2Proof.Machine

/-- The ordering of a load or store, OX[3:0] (R63): kind (0 plain, 1 `.rlx`, 2 `.acq` or `.rel`, 3 `.sc`) and
scope. -/
def ordKind (o : FOps) : Nat := if fld o.ox 0 4 = 0 then 0 else (fld o.ox 0 4 - 1) / 5 + 1
def ordScope (o : FOps) : Nat := (fld o.ox 0 4 - 1) % 5
/-- The scope as the race detector and the requests carry it: 0 plain, else code + 1. -/
def raceScope (o : FOps) : Nat := if ordKind o = 0 then 0 else ordScope o + 1
/-- Whether an access is performed at its home slice (13 R239). -/
def isStrong (o : FOps) : Bool := decide (ordKind o ≠ 0 ∧ 2 ≤ ordScope o)
/-- The cache hint: 0 `.cd`, 1 `.nl1`, 2 `.ev`, 3 `.kp` (R63). -/
def hintOf (o : FOps) : Nat := fld o.c 6 2

/-- Applies the remap filter of the core to the addresses of lanes (R61). -/
def Iss.remapAll (c : Iss) (s : State) (l : List (Nat × Nat)) : List (Nat × Nat) :=
  l.map (fun x => (x.1, (s.core (coreOf c.gid)).remap c.g.tenant x.2))

/-- The bytes that accesses of `size` bytes touch, by line. -/
def touchedLines (size : Nat) (l : List (Nat × Nat)) : Table (Table Byte) :=
  byLine (l.flatMap (fun x => (List.range size).map (fun k => (x.2 + k, 0))))

/-- The lanes that access each line. -/
def lineLanes (size : Nat) (l : List (Nat × Nat)) : List (Nat × Nat) :=
  l.flatMap (fun x => if x.2 / 128 = (x.2 + (size - 1)) / 128 then [(x.2 / 128, x.1)] else [(x.2 / 128, x.1), ((x.2 + (size - 1)) / 128, x.1)])

/-- One request per line (02 R51). -/
def State.requestLines (s : State) (r : Req) (behind : Option Nat) (lines : Table (Table Byte)) : State :=
  lines.foldl (fun s l => s.request { r with line := l.1, sectors := touchedSectors l.2, bytes := l.2 } behind) s

/-- A later access to the line of a combining-buffer entry by a group that contributed to it sends the entry
(10 R200). -/
def State.flushLines (s : State) (gid : Nat) (lines : List Nat) : State :=
  s.flushCombine (clusterOfCore (coreOf gid)) (fun e => e.by gid && lines.contains (e.addr / 128))

/-- Starts a load of `size` bytes in each lane (R64): its requests, behind the release of an `.sc` form, and the
acquire of an acquiring form. -/
def State.startLoad (s : State) (c : Iss) (i : Instr) (o : FOps) (hint : Nat) (ptm : Bool) (space : Space) (kind scope : Nat) (size : Nat) (dest : Dest) (lanes : List (Nat × Nat)) : State :=
  let s0 := if kind = 3 then s.commitRegion c.gid c.slotB else s
  match lanes with
  | [] => s0.emptyOp c i
  | l0 :: _ =>
    let lines := touchedLines size lanes
    let s1 := s0.flushLines c.gid (lines.map (·.1))
    let h := if kind = 3 then (let x := s1.startRelease c.gid scope false; (some x.1, x.2)) else (none, s1)
    let ownB := lines.foldl (fun t l => overlay t ((s1.group c.gid).ownBytes space l.1)) ([] : Table Byte)
    let n := h.2.newOp c i (some 0) dest lines.length
    let s2 := match n.2.op n.1 with | some x => n.2.putOp n.1 { x with laid := ownB, who := lineLanes size lanes, lane := l0.1 } | none => n.2
    let s3 := if 2 ≤ kind then s2.startAcquire c.gid scope [n.1] else s2
    let r : Req := { ops := [n.1], gid := c.gid, core := coreOf c.gid, ctx := c.g.ctx, tenant := c.g.tenant, kind := .load, line := 0, nl1 := hint == 1, hint := hint, strong := isStrong o && !ptm, scope := if ptm then 0 else raceScope o, race := !ptm, ptm := ptm }
    (s3.requestLines r h.1 lines).settle

/-- Puts the bytes of a store into the region store buffer, which commits the region first when it is full
(02 R41). A TST, or an STP of four words, that has more than 64 sectors of its own is buffered whole (DESIGN CHOICE,
log 39: the manual does not say what becomes of it). -/
def State.putStore (s : State) (c : Iss) (i : Instr) (space : Space) (strong : Bool) (hint scope : Nat) (bs : List (Nat × Byte)) (who : List (Nat × Nat) := []) : State :=
  let g := s.group c.gid
  let s1 := if 64 < g.buf.length + (newSectors space bs g.buf).length then s.commitRegion c.gid c.slotB else s
  let n := s1.newOp c i (some 1) .none 0
  let buf := bufferStore space c.g.tenant n.1 strong hint scope bs (n.2.group c.gid).buf
  let s2 := match n.2.op n.1 with | some x => n.2.putOp n.1 { x with parts := storeParts n.1 buf, who := who, lane := (who.headD (0, 0)).2 } | none => n.2
  s2.modGroup c.gid (fun g => { g with buf := buf })

/-- A store of the bytes of each lane, the highest active lane winning (R64). A release form commits the
region and follows its release (13 R355). -/
def State.startStore (s : State) (c : Iss) (i : Instr) (o : FOps) (kind scope : Nat) (bs : List (Nat × Byte)) (lane : Nat) (who : List (Nat × Nat)) : State :=
  let s0 := if 2 ≤ kind then s.commitRegion c.gid c.slotB else s
  if bs = [] then s0
  else
    let lines := byLine bs
    let s1 := s0.flushLines c.gid (lines.map (·.1))
    if kind < 2 then s1.putStore c i .global (isStrong o) (hintOf o) (raceScope o) bs who
    else
      let h := s1.startRelease c.gid scope false
      let n := h.2.newOp c i (some 1) .none lines.length
      let n := (n.1, match n.2.op n.1 with | some x => n.2.putOp n.1 { x with who := who, lane := lane } | none => n.2)
      let s2 := if kind = 3 then n.2.startAcquire c.gid scope [n.1] else n.2
      let r : Req := { ops := [n.1], gid := c.gid, core := coreOf c.gid, ctx := c.g.ctx, tenant := c.g.tenant, kind := .store, line := 0, nl1 := hintOf o == 1, hint := hintOf o, strong := isStrong o, scope := raceScope o }
      (s2.requestLines r (some h.1) lines).settle

/-- The bytes that the lanes of a store write, in lane order: `n` registers from D. -/
def storeBytes (size : Nat) (word : Nat → Nat → Word) (lanes : List (Nat × Nat)) : List (Nat × Byte) :=
  lanes.flatMap (fun x => bytesAt x.2 ((List.range ((size + 3) / 4)).foldl (fun a k => a + (word k x.1).toNat * 2 ^ (32 * k)) 0) size)

/-- LD (R64). -/
def execLd (o : FOps) (s : State) : Host.Outcome State Fault Refusal :=
  issue (.ld o) s free_ (fun c t =>
    let l := c.addrs t o (accBytes o) (c.active o.g)
    match checkVa 0 (accBytes o) l with
    | some f => .error f
    | none =>
      let l := c.remapAll t l
      .ok (t.startLoad c (.ld o) o (hintOf o) false .global (ordKind o) (ordScope o) (accBytes o) (.load o.d.toNat (fld o.ox 5 3) l) l))

/-- ST (R64). -/
def execSt (o : FOps) (s : State) : Host.Outcome State Fault Refusal :=
  issue (.st o) s free_ (fun c t =>
    let l := c.addrs t o (accBytes o) (c.active o.g)
    match checkVa 1 (accBytes o) l with
    | some f => .error f
    | none => .ok (t.startStore c (.st o) o (ordKind o) (ordScope o) (storeBytes (accBytes o) (fun k L => c.g.rv (o.d.toNat + k) L) (c.remapAll t l)) ((lowest (c.active o.g)).getD 0) (lineLanes (accBytes o) (c.remapAll t l))))

/-- SLD (06 R122): a load of one lane whose result is scalar. -/
def execSld (o : FOps) (s : State) : Host.Outcome State Fault Refusal :=
  issue (.sld o) s free_ (fun c t =>
    let l := [(0, c.saddr t o (accBytes o))]
    match checkVa 0 (accBytes o) l with
    | some f => .error f
    | none =>
      let l := c.remapAll t l
      .ok (t.startLoad c (.sld o) o (hintOf o) false .global (ordKind o) (ordScope o) (accBytes o) (.sload o.d.toNat (fld o.ox 5 3) (match l with | x :: _ => x.2 | [] => 0)) l))

/-- SST (06 R122). -/
def execSst (o : FOps) (s : State) : Host.Outcome State Fault Refusal :=
  issue (.sst o) s free_ (fun c t =>
    let l := [(0, c.saddr t o (accBytes o))]
    match checkVa 1 (accBytes o) l with
    | some f => .error f
    | none => .ok (t.startStore c (.sst o) o (ordKind o) (ordScope o) (storeBytes (accBytes o) (fun k _ => c.g.rs (o.d.toNat + k)) (c.remapAll t l)) 0 (lineLanes (accBytes o) (c.remapAll t l))))

/-- The address of word `w + k` of lane L's per-thread memory, as an integer (R65). -/
def ptmAddr (g : Group) (w k : Int) (L : Nat) : Int := (g.ptmBase : Int) + (w + k) * 128 + L * 4

/-- The per-thread words of the active lanes, or the lowest lane's bound fault (R65). -/
def Iss.ptmAddrs (c : Iss) (s : State) (o : FOps) (acc : Nat) : Except Flt (List (Nat × Nat)) :=
  (lanesIn (c.active o.g)).foldr (fun L rest =>
    let w := (c.b s o L).toInt
    match (List.range (ptmWords o)).find? (fun (k : Nat) => decide (w + (k : Int) < 0) || decide ((c.g.ptmWords : Int) ≤ w + (k : Int))) with
    | some k => .error (fTranslation acc 3 0 7 (wrap (ptmAddr c.g w k L) 56))
    | none => match rest with
      | .error f => .error f
      | .ok l => .ok ((L, (ptmAddr c.g w 0 L).toNat) :: l)) (.ok [])

/-- The words of lanes in per-thread memory, each after the remap filter (R61, R65): lane, register, address. -/
def Iss.ptmWordsOf (c : Iss) (s : State) (n : Nat) (l : List (Nat × Nat)) : List (Nat × Nat × Nat) :=
  l.flatMap (fun x => (List.range n).map (fun k => (x.1, k, (s.core (coreOf c.gid)).remap c.g.tenant (x.2 + 128 * k))))

/-- LDP (R65). -/
def execLdp (o : FOps) (s : State) : Host.Outcome State Fault Refusal :=
  issue (.ldp o) s free_ (fun c t =>
    match c.ptmAddrs t o 0 with
    | .error f => .error f
    | .ok l =>
      let words := c.ptmWordsOf t (ptmWords o) l
      .ok (t.startLoad c (.ldp o) o 0 true .perThread 0 0 4 (.words o.d.toNat words) (words.map (fun x => (x.1, x.2.2)))))

/-- STP (R65). -/
def execStp (o : FOps) (s : State) : Host.Outcome State Fault Refusal :=
  issue (.stp o) s free_ (fun c t =>
    match c.ptmAddrs t o 1 with
    | .error f => .error f
    | .ok [] => .ok t
    | .ok l =>
      let words := c.ptmWordsOf t (ptmWords o) l
      .ok ((t.flushLines c.gid (words.map (fun x => x.2.2 / 128))).putStore c (.stp o) .perThread false 0 0 (words.flatMap (fun x => bytesAt x.2.2 (c.g.rv (o.d.toNat + x.2.1) x.1).toNat 4)) (words.map (fun x => (x.2.2 / 128, x.1)))))

/-- The addresses of PREF, CINV and CWB (R66): an access size of 1 and an index scale of 1. -/
def Iss.byteAddrs (c : Iss) (s : State) (o : FOps) (m : Word) : List (Nat × Nat) :=
  (lanesIn m).map (fun L => (L, va62 (c.g.rpair o.a.toNat) (c.b s o L) 1 (off6 o)))

/-- PREF (R66): a fill of each line that has a canonical address; it counts on no path. -/
def execPref (o : FOps) (s : State) : Host.Outcome State Fault Refusal :=
  issue (.pref o) s free_ (fun c t =>
    let l := c.remapAll t ((c.byteAddrs t o (c.active o.g)).filter (fun x => x.2 < 2 ^ 56))
    .ok ((touchedLines 1 l).foldl (fun (s : State) x => s.request { gid := c.gid, core := coreOf c.gid, ctx := c.g.ctx, tenant := c.g.tenant, kind := .prefetch, line := x.1, sectors := 0xF, nl1 := o.ox.getLsbD 0, race := false } none) t))

/-- The maintenance of every line of the tenant in the core's L1, `.all` (R66): its write-backs are the parts
of the operation. -/
def State.maintainAll (s : State) (c : Iss) (i : Instr) (inv : Bool) : State :=
  let core := coreOf c.gid
  let n := s.newOp c i (some 1) .none 1
  let s1 := ((n.2.core core).tenantLines c.g.tenant).foldl (fun (s : State) x =>
    if x.2.isPool then s
    else
      let w := s.sendDirty core c.g.tenant x.1 x.2
      let s0 := w.1.foldl (fun (s : State) m => s.joinReq m [n.1]) w.2
      if inv then s0.delL1 core c.g.tenant x.1 else s0.setL1 core c.g.tenant x.1 x.2.clean) n.2
  (if inv then s1.dropFills core c.g.tenant (fun _ => true) else s1).partDone n.1

/-- CINV and CWB (R66): each line is checked as a load of one byte and then maintained. -/
def maintainWord (i : Instr) (o : FOps) (s : State) (inv : Bool) : Host.Outcome State Fault Refusal :=
  issue i s free_ (fun c t =>
    let m := c.active o.g
    if m = 0 then .ok t
    else if o.ox.getLsbD 1 then .ok (t.maintainAll c i inv)
    else
      let l := c.byteAddrs t o m
      match checkVa 0 1 l with
      | some f => .error f
      | none =>
        let lines := touchedLines 1 (c.remapAll t l)
        let n := t.newOp c i (some 1) .none lines.length
        let n := (n.1, match n.2.op n.1 with | some x => n.2.putOp n.1 { x with who := lineLanes 1 (c.remapAll t l) } | none => n.2)
        .ok (n.2.requestLines { ops := [n.1], gid := c.gid, core := coreOf c.gid, ctx := c.g.ctx, tenant := c.g.tenant, kind := .check inv (o.ox.getLsbD 0), line := 0, race := false } none lines))

/-- CINV (R66). -/
def execCinv (o : FOps) (s : State) : Host.Outcome State Fault Refusal := maintainWord (.cinv o) o s true

/-- CWB (R66). -/
def execCwb (o : FOps) (s : State) : Host.Outcome State Fault Refusal := maintainWord (.cwb o) o s false

end Sys2Proof.Machine
end

