-- ==== Sys2Proof/Machine/Atomic.lean ====
section
/-! DEFINITION. The atomic group (10 R195 to R210): ATOM, ACAS, RED with the combining buffer, ACONT, FENCE
and WAITN. Each distinct address is one request, its lanes ascending (R198). -/

namespace Sys2Proof.Machine

/-- ORD of the frame of R195: kind 0 `.rlx` to 4 `.sc`, and scope. -/
def atomKind (o : FOps) : Nat := ordOf o / 5
def atomScope (o : FOps) : Nat := ordOf o % 5
/-- TY, OX[5:4], and the width of the type in bits. -/
def atomTy (o : FOps) : Nat := fld o.ox 4 2
def tyBits (ty : Nat) : Nat := if 2 ≤ ty then 64 else 32

/-- A value of a type as the comparison of R197 reads it. -/
def tyInt (ty x : Nat) : Int := if ty % 2 = 1 then sext x (tyBits ty) else (x : Int)

/-- The new value of R197, modulo the width. -/
def atomNew (ty kind m b : Nat) : Nat :=
  let w := tyBits ty
  match kind with
  | 0 => (m + b) % 2 ^ w
  | 1 => wrap ((m : Int) - b) w
  | 2 => m &&& b
  | 3 => m ||| b
  | 4 => m ^^^ b
  | 5 => if tyInt ty m ≤ tyInt ty b then m else b
  | 6 => if tyInt ty b ≤ tyInt ty m then m else b
  | 7 => b
  | 8 => if b ≤ m then 0 else m + 1
  | 9 => if m = 0 || b < m then b else m - 1
  | _ => (fp32.add .rne m b).1

/-- The value of `n` registers of the data block from word `k` for lane L (R195). -/
def Iss.block (c : Iss) (o : FOps) (k n L : Nat) : Nat :=
  if n = 2 then (pair (c.ck o k L) (c.ck o (k + 1) L)).toNat else (c.ck o k L).toNat

/-- The lanes of an atomic, grouped by address: (address, its lanes ascending). -/
def byAddress (l : List (Nat × Nat)) : List (Nat × List Nat) :=
  (l.foldl (fun (a : List Nat) x => if a.contains x.2 then a else a ++ [x.2]) []).map (fun a => (a, (l.filter (fun x => x.2 == a)).map (·.1)))

/-- Sends the requests of an atomic, one for each address (R198), behind the release of a releasing form; an
acquiring form holds later accesses until the values have returned (R199). With no active lane there is no access, and no
release or acquire is taken (DESIGN CHOICE, log 39: R203 gives the release action before the lanes, and R201 and R309 say only
that no access is made). -/
def State.startAtomic (s : State) (c : Iss) (i : Instr) (kind scope : Nat) (dest : Dest) (r : Req) (x y : Nat → Nat) (lanes : List (Nat × Nat)) : State :=
  match lanes with
  | [] => if i.longLat.isSome then s.emptyOp c i else s
  | _ =>
    let as := byAddress lanes
    let s1 := s.flushLines c.gid (as.map (fun a => a.1 / 128))
    let h := if 2 ≤ kind then (let z := s1.startRelease c.gid scope false; (some z.1, z.2)) else (none, s1)
    let n := h.2.newOp c i (some 1) dest as.length
    let s2 := if kind = 1 ∨ 3 ≤ kind then n.2.startAcquire c.gid scope [n.1] else n.2
    (as.foldl (fun (s : State) a => s.request { r with ops := [n.1], gid := c.gid, core := coreOf c.gid, ctx := c.g.ctx, tenant := c.g.tenant, line := a.1 / 128, lanes := a.2.map (fun L => ⟨L, a.1 % 128, x L, y L⟩), strong := true, scope := scope + 1 } h.1) s2).settle

/-- The front of an atomic (R196, R201): the region commits, then the addresses are formed and checked. -/
def atomFront (c : Iss) (t : State) (o : FOps) (go : State → List (Nat × Nat) → State) : Except Flt State :=
  let l := c.atomAddrs t o (c.active o.g)
  match checkVa 2 (4 * tyWords o) l with
  | some f => .error f
  | none => .ok (go (t.commitRegion c.gid c.slotB) (c.remapAll t l))

/-- ATOM (R198). -/
def execAtom (o : FOps) (s : State) : Host.Outcome State Fault Refusal :=
  issue (.atom o) s free_ (fun c t => atomFront c t o (fun u l =>
    u.startAtomic c (.atom o) (atomKind o) (atomScope o) (.atomic o.d.toNat (tyWords o == 2) (l.map (·.1))) { kind := .atomic, line := 0, atom := { ty := atomTy o, kind := fld o.ox 0 4 } } (c.block o 0 (tyWords o)) (fun _ => 0) l))

/-- ACAS (R198). -/
def execAcas (o : FOps) (s : State) : Host.Outcome State Fault Refusal :=
  issue (.acas o) s free_ (fun c t => atomFront c t o (fun u l =>
    u.startAtomic c (.acas o) (atomKind o) (atomScope o) (.atomic o.d.toNat (tyWords o == 2) (l.map (·.1))) { kind := .atomic, line := 0, atom := { ty := atomTy o, cas := true } } (c.block o 0 (tyWords o)) (c.block o (tyWords o) (tyWords o)) l))

/-- Whether a RED may use the combining buffer (R200). -/
def combines (o : FOps) : Bool := atomKind o = 0 && [0, 2, 3, 4, 5, 6].contains (fld o.ox 0 4)

/-- The combined operand of lanes that name one address (R200). -/
def combineAll (ty kind : Nat) : List Nat → Nat
  | [] => 0
  | x :: xs => xs.foldl (atomNew ty kind) x

/-- Merges one address of a RED into the combining buffer of the cluster, takes an entry, or sends it (R200). It
leaves its core now: the L1 acts on its line (R194). -/
def State.combineRed (s0 : State) (c : Iss) (op ty kind scope : Nat) (addr : Nat) (xs : List (Nat × Nat)) : State :=
  let cl := clusterOfCore (coreOf c.gid)
  let s := s0.yieldLine (coreOf c.gid) c.g.tenant (addr / 128)
  let k := s.cluster cl
  let x := combineAll ty kind (xs.map (·.2))
  let same (e : Combine) : Bool := e.tenant == c.g.tenant && e.ctx == c.g.ctx && e.addr == addr && e.kind == kind && e.ty == ty && e.scope == scope
  if k.combine.any same then
    s.modCluster cl (fun k => { k with combine := k.combine.map (fun e => if same e then { e with value := atomNew ty kind e.value x, ops := e.ops ++ [(c.gid, op)] } else e) })
  else if k.combine.length < 16 then
    s.modCluster cl (fun k => { k with combine := k.combine ++ [{ tenant := c.g.tenant, ctx := c.g.ctx, addr := addr, kind := kind, ty := ty, scope := scope, value := x, taken := k.cycles, core := coreOf c.gid, slice := 0, ops := [(c.gid, op)] }] })
  else
    s.request { ops := [op], gid := c.gid, core := coreOf c.gid, ctx := c.g.ctx, tenant := c.g.tenant, kind := .atomic, line := addr / 128, lanes := xs.map (fun y => ⟨y.1, addr % 128, y.2, 0⟩), atom := { ty := ty, kind := kind }, strong := true, scope := scope + 1 } none

/-- RED (R198, R200). A combining entry of another kind for the line, to which the group contributed, is sent
first. -/
def execRed (o : FOps) (s : State) : Host.Outcome State Fault Refusal :=
  issue (.red o) s free_ (fun c t => atomFront c t o (fun u l =>
    let ty := atomTy o
    let kind := fld o.ox 0 4
    if l = [] then u
    else if !combines o then
      u.startAtomic c (.red o) (atomKind o) (atomScope o) .none { kind := .atomic, line := 0, atom := { ty := ty, kind := kind } } (c.block o 0 (tyWords o)) (fun _ => 0) l
    else
      let as := byAddress l
      let u1 := u.flushCombine (clusterOfCore (coreOf c.gid)) (fun e => e.by c.gid && as.any (fun a => a.1 / 128 == e.addr / 128 && !(a.1 == e.addr && e.kind == kind && e.ty == ty && e.scope == atomScope o)))
      let n := u1.newOp c (.red o) (some 1) .none as.length
      let n := (n.1, match n.2.op n.1 with | some x => n.2.putOp n.1 { x with who := l.map (fun y => (y.2 / 128, y.1)) } | none => n.2)
      as.foldl (fun (s : State) a => s.combineRed c n.1 ty kind (atomScope o) a.1 (a.2.map (fun L => (L, c.block o 0 (tyWords o) L)))) n.2))

/-- ACONT (R202, R203): the handle is checked at issue, the region commits, and its requests follow the release
at `.dev`. -/
def execAcont (o : FOps) (s : State) : Host.Outcome State Fault Refusal :=
  let h (c : Iss) : Word := c.g.rs (4 * acBlk o)
  issue (.acont o) s (fun c => if s.handleBad c.gid (h c) then some (fHandle 0 (h c)) else none) (fun c t => atomFront c t o (fun u l =>
    let two := fld o.ox 0 4 = 0 ∨ fld o.ox 0 4 = 3
    let dest : Dest := if acRet o then .atomic o.d.toNat (tyWords o == 2) (l.map (·.1)) else .none
    u.startAtomic c (.acont o) 2 3 dest { kind := .acont, line := 0, atom := { ty := atomTy o, kind := fld o.ox 0 4, handle := h c, tag := nbits (c.g.rs (4 * acBlk o + 1)).toNat 0 16, user := c.g.rpair (4 * acBlk o + 2) } } (c.block o 0 (tyWords o)) (fun L => if two then c.block o (tyWords o) (tyWords o) L else 0) l))

/-- FENCE (R209): the combining entries of the group are sent (R200); an acquire follows the release of its FENCE. -/
def execFence (o : FOps) (s : State) : Host.Outcome State Fault Refusal :=
  issue (.fence o) s free_ (fun c t =>
    let k := atomKind o
    let h := if 2 ≤ k then (let x := (t.commitRegion c.gid c.slotB).startRelease c.gid (atomScope o) false; (some x.1, x.2))
      else (none, t.flushCombine (clusterOfCore (coreOf c.gid)) (fun e => e.by c.gid))
    let g := h.2.group c.gid
    let loads := g.pathOps 0 ++ (g.pathOps 1).filter (fun n => match h.2.op n with | some x => decide (x.dest ≠ .none) | none => false)
    .ok (if k = 1 ∨ 3 ≤ k then h.2.startAcquire c.gid (atomScope o) loads h.1 else h.2).settle)

/-- The acquire of a WAITN or BWAIT that returns, at the scopes of the completed engine operations (05 R91);
`sc` is one more than the widest scope. -/
def State.engineAcquire (s : State) (gid sc : Nat) : State :=
  if 3 ≤ sc then s.acquireL1 (coreOf gid) (s.group gid).tenant else s

/-- A WAITN that returns (05 R90, R91). It commits no region on CP, GT and CL, so that a rollback can run it again. -/
def State.waitnReturns (s : State) (gid : Nat) : State :=
  (s.engineAcquire gid (s.group gid).engScope).modGroup gid (fun g => { g with engScope := 0, engTaken := max g.engTaken g.engScope })

/-- WAITN (05 R90, R210): the count is read at issue; on ST it first commits the region and sends the combining
entries (R200). -/
def execWaitn (o : FOps) (s : State) : Host.Outcome State Fault Refusal :=
  issue2 (.waitn o) s free_
    (fun c t =>
      let p := fld o.ox 0 3
      let n := (c.bs t o).toNat
      let s1 := if p = 1 then ((t.commitRegion c.gid c.slotB).flushCombine (clusterOfCore (coreOf c.gid)) (fun e => e.by c.gid)) else t
      .ok (if (s1.group c.gid).counter p ≤ n then s1.waitnReturns c.gid else s1.block c (.waitn o) (.path p n)))
    (fun c _ t => .ok (t.waitnReturns c.gid))

end Sys2Proof.Machine
end

