-- ==== Sys2Proof/Machine/Clock.lean ====
section
/-! DEFINITION. The operating point of a cluster (15 R287, 17 R318, R319): what its teams request, and the
relock that follows a change. -/

namespace Sys2Proof.Machine

/-- Whether a team is resident: it has a group in a slot, or is held for its clocks (R287). -/
def Team.isResident (t : Team) : Bool := t.saved.isNone && t.gids.any (·.isSome)

/-- What a team requests of a cluster: of its own the request that OPHINT has set, else its launch hint; of the others of
its die its launch hint, when it is the first team of its record (R287, R322). -/
def Team.requestOf (t : Team) (cl : Nat) : Nat :=
  if !t.isResident then 0
  else if clusterOfCore t.core = cl then (if t.opReq = 0 then t.hint else t.opReq)
  else if t.index = 0 && cl / 8 == dieOfCore t.core then t.hint else 0

/-- The highest request of a cluster, if there is one. -/
def State.requested (s : State) (cl : Nat) : Option Nat :=
  let m := (s.teams.map (fun t => t.2.requestOf cl)).foldl max 0
  if m = 0 then none else some m

/-- The nominal clock of a point in kHz (R318). -/
def pointClock : Nat → Nat
  | 0 => 450000 | 1 => 600000 | 2 => 750000 | 3 => 900000 | 4 => 1050000 | 5 => 1150000 | 6 => 1250000 | _ => 1350000

/-- The point of a cluster of which nothing is requested: nominal while a team is resident, the floor when it is idle
(R318, log 21). -/
def State.restPoint (s : State) (cl : Nat) : Nat := if s.teams.any (fun t => t.2.isResident && clusterOfCore t.2.core == cl) then 4 else 0

/-- The point a cluster should run at: the highest request, of a boost as far as the arbiter grants it, which is free
(log 21); what has been granted is not taken back while it is requested. -/
def State.grantedPoint (s : State) (cl : Nat) : Nat × State :=
  match s.requested cl with
  | none => (s.restPoint cl, s)
  | some p =>
    let least := max 4 (min (s.cluster cl).point p)
    if p ≤ 4 then (p, s) else let x := s.choose (p + 1 - least); (least + x.1, x.2)

/-- Starts a relock where the requests of a cluster differ from its point (R287, R319). -/
def State.retarget (s : State) (cl : Nat) : State :=
  let c := s.cluster cl
  let want := (s.requested cl).getD (s.restPoint cl)
  if c.relock.isSome || want = c.setPoint then s
  else
    let p := s.grantedPoint cl
    let s1 := p.2.modCluster cl (fun c => { c with setPoint := want })
    if p.1 = c.point then s1 else s1.modCluster cl (fun c => { c with relock := some p.1, relockStart := s.devTime })

/-- Retargets every cluster of a die. -/
def State.retargetDie (s : State) (die : Nat) : State := (List.range 8).foldl (fun s k => s.retarget (8 * die + k)) s

/-- Whether every target cluster of a team is stable (R287). -/
def State.clocksStable (s : State) (t : Team) : Bool := (List.range 8).all (fun k => (s.cluster (8 * dieOfCore t.core + k)).relock.isNone)

/-- The count and timers of a cluster after a stop of `ns` (R319): combining ages and due counts advance by the
stop's length at the nominal clock of the point. -/
def State.advanceTimers (s : State) (cl ns : Nat) : State :=
  let n := ns * pointClock (s.cluster cl).point / 1000000
  let s1 := s.modCluster cl (fun c => { c with combine := c.combine.map (fun e => { e with taken := e.taken - n }) })
  { s1 with groups := s1.groups.map (fun (x : Nat × Group) => if clusterOfCore (coreOf x.1) = cl ∧ 0 < x.2.due then (x.1, { x.2 with due := x.2.due + n }) else x) }

/-- The longest stop of a relock, in nanoseconds (00 R2). -/
def relockLimit : Nat := 2000

/-- RELOCK_COMPLETE (R319): the cluster runs at its point, and teams held for it are released once every target
cluster is stable (R287). -/
def execRelockComplete (cluster : Nat) (s : State) : Host.Outcome State Fault Refusal :=
  match (s.cluster cluster).relock with
  | none => .next s
  | some p =>
    let ns := s.devTime - (s.cluster cluster).relockStart
    let s1 := (s.modCluster cluster (fun c => { c with relock := none, point := p })).advanceTimers cluster ns
    let s2 := s1.retarget cluster
    .next { s2 with teams := s2.teams.map (fun (t : Nat × Team) => if t.2.heldClock && dieOfCore t.2.core == cluster / 8 && s2.clocksStable t.2 then (t.1, { t.2 with heldClock := false }) else t) }

end Sys2Proof.Machine
end

