-- ==== Sys2Proof/Machine/Logic.lean ====
section
/-! DEFINITION. The logic and bit group (08 R148 to R151). -/

namespace Sys2Proof.Machine

/-- AND (R148). -/
def execAnd (o : FOps) (s : State) : Host.Outcome State Fault Refusal := lanewise2 (.and o) o s (· &&& ·)

/-- OR (R148). -/
def execOr (o : FOps) (s : State) : Host.Outcome State Fault Refusal := lanewise2 (.or o) o s (· ||| ·)

/-- XOR (R148). -/
def execXor (o : FOps) (s : State) : Host.Outcome State Fault Refusal := lanewise2 (.xor o) o s (· ^^^ ·)

/-- NOT (R148). -/
def execNot (o : FOps) (s : State) : Host.Outcome State Fault Refusal := lanewise1 (.not o) o s (fun a => ~~~a)

/-- The bit that a truth table gives for three bits (R148, R168). -/
def tableBit (T : BitVec 8) (x y z : Bool) : Bool := T.getLsbD (4 * x.toNat + 2 * y.toNat + z.toNat)

/-- TRI (R148). -/
def execTri (o : FOps) (s : State) : Host.Outcome State Fault Refusal :=
  lanewise3 (.tri o) o s (fun a b c => maskOf (fun k => tableBit o.ox (a.getLsbD k) (b.getLsbD k) (c.getLsbD k)))

/-- SHL (R148). -/
def execShl (o : FOps) (s : State) : Host.Outcome State Fault Refusal := lanewise2 (.shl o) o s (fun a b => a <<< (b.toNat % 32))

/-- SHR (R148). -/
def execShr (o : FOps) (s : State) : Host.Outcome State Fault Refusal := lanewise2 (.shr o) o s (fun a b => a >>> (b.toNat % 32))

/-- SAR (R148). -/
def execSar (o : FOps) (s : State) : Host.Outcome State Fault Refusal := lanewise2 (.sar o) o s (fun a b => a.sshiftRight (b.toNat % 32))

/-- The funnel shift of a : c (R151). -/
def funnel (left : Bool) (a b c : Word) : Word :=
  let n := b.toNat % 32
  BitVec.ofNat 32 ((pair c a).toNat >>> (if left then 32 - n else n))

/-- SHF (R151). -/
def execShf (o : FOps) (s : State) : Host.Outcome State Fault Refusal := lanewise3 (.shf o) o s (funnel (o.ox.getLsbD 0))

/-- POPC (R148). -/
def execPopc (o : FOps) (s : State) : Host.Outcome State Fault Refusal := lanewise1 (.popc o) o s (fun a => BitVec.ofNat 32 (lanesOf a))

/-- CLZ (R148). -/
def execClz (o : FOps) (s : State) : Host.Outcome State Fault Refusal := lanewise1 (.clz o) o s (fun a => BitVec.ofNat 32 (clz a))

/-- BREV (R148). -/
def execBrev (o : FOps) (s : State) : Host.Outcome State Fault Refusal := lanewise1 (.brev o) o s bitRev

/-- The position and length of a field descriptor (R149). -/
def fieldOf (b : Word) : Nat × Nat := (nbits b.toNat 0 5, min (nbits b.toNat 8 6) (32 - nbits b.toNat 0 5))

/-- Field extract (R149). -/
def extractField (signed : Bool) (a b : Word) : Word :=
  let (pos, len) := fieldOf b
  if len = 0 then 0
  else
    let f := nbits a.toNat pos len
    if signed then word (sext f len) else BitVec.ofNat 32 f

/-- BFE (R149). -/
def execBfe (o : FOps) (s : State) : Host.Outcome State Fault Refusal := lanewise2 (.bfe o) o s (extractField (o.ox.getLsbD 0))

/-- BFI (R149). -/
def execBfi (o : FOps) (s : State) : Host.Outcome State Fault Refusal :=
  lanewise3 (.bfi o) o s (fun a b c => setField c (fieldOf b).1 (fieldOf b).2 a.toNat)

/-- Byte permute of the bytes of a and c (R150). -/
def permute (a b c : Word) : Word :=
  BitVec.ofNat 32 ((List.range 4).foldl (fun acc k =>
    let n := nbits b.toNat (4 * k) 4
    acc + (if 8 ≤ n then 0 else nbits (pair a c).toNat (8 * n) 8) * 2 ^ (8 * k)) 0)

/-- PRMB (R150). -/
def execPrmb (o : FOps) (s : State) : Host.Outcome State Fault Refusal := lanewise3 (.prmb o) o s permute

end Sys2Proof.Machine
end

