-- ==== Sys2Proof/Machine/Compare.lean ====
section
/-! DEFINITION. Comparisons and predicate logic (08 R166 to R168), and lane exchange and group reductions
(06 R115 to R118). -/

namespace Sys2Proof.Machine

/-- ICMP (R166). -/
def execIcmp (o : FOps) (s : State) : Host.Outcome State Fault Refusal :=
  predwise (.icmp o) o s (fun c t L => cond (fld o.ox 0 3) (asInt (o.ox.getLsbD 3) (c.a o L)) (asInt (o.ox.getLsbD 3) (c.b t o L)))

/-- An FP32 condition (R167). -/
def fcond (code a b : Nat) : Bool :=
  let x := fp32.decode a
  let y := fp32.decode b
  if x.isNan || y.isNan then code = 1 || code = 6
  else match code with
    | 0 => x.cmp y = .eq | 1 => x.cmp y ≠ .eq | 2 => x.cmp y = .lt | 3 => x.cmp y ≠ .gt | 4 => x.cmp y = .gt | 5 => x.cmp y ≠ .lt | 6 => false | _ => true

/-- FCMP (R167). -/
def execFcmp (o : FOps) (s : State) : Host.Outcome State Fault Refusal :=
  predwise (.fcmp o) o s (fun c t L => fcond (fld o.ox 0 3) (c.a o L).toNat (c.fb t o fp32 0 L))

/-- PLOP (R168). -/
def execPlop (o : FOps) (s : State) : Host.Outcome State Fault Refusal :=
  predwise (.plop o) o s (fun c _ L => tableBit o.ox ((c.g.rq o.a.toNat).getLsbD L) ((c.g.rq o.b.toNat).getLsbD L) ((c.g.rq o.c.toNat).getLsbD L))

/-- The value of VOTE over the active lanes (R117). -/
def vote (code : Nat) (m x : Word) : Word :=
  match code with
  | 0 => m &&& x
  | 1 => if m &&& x ≠ 0 then 1 else 0
  | 2 => if m &&& x = m then 1 else 0
  | _ => if m &&& x = m ∨ m &&& x = 0 then 1 else 0

/-- VOTE (R117). -/
def execVote (o : FOps) (s : State) : Host.Outcome State Fault Refusal :=
  issue (.vote o) s free_ (fun c t =>
    let m := c.active o.g
    let q := c.g.rq o.a.toNat
    .ok (if m = 0 then t else t.modGroup c.gid (fun g => g.ws o.d.toNat (vote (fld o.ox 0 2) m (if o.ox.getLsbD 2 then ~~~q else q)))))

/-- The lane that XCH reads for lane L (R115). -/
def exchangeLane (mode seg b L : Nat) : Nat :=
  let base := L - L % seg
  let i := L % seg
  match mode with
  | 0 => base + b % seg
  | 1 => if b ≤ i then L - b else L
  | 2 => if i + b < seg then L + b else L
  | _ => base + (i ^^^ (b % seg))

/-- XCH (R115). -/
def execXch (o : FOps) (s : State) : Host.Outcome State Fault Refusal :=
  lanewise (.xch o) o s (fun c t L => c.g.rv o.a.toNat (exchangeLane (fld o.ox 0 2) (32 / 2 ^ fld o.ox 2 3) (nbits (c.b t o L).toNat 0 5) L))

/-- The operation of GRED (R116). -/
def gredOp (code : Nat) (mode : RMode) (a b : Word) : Word :=
  match code with
  | 0 => a + b
  | 1 => minOf false a b | 2 => maxOf false a b | 3 => minOf true a b | 4 => maxOf true a b
  | 5 => a &&& b | 6 => a ||| b | 7 => a ^^^ b
  | 8 => BitVec.ofNat 32 (fp32.add mode a.toNat b.toNat).1
  | 9 => BitVec.ofNat 32 (fp32.minmax false a.toNat b.toNat)
  | _ => BitVec.ofNat 32 (fp32.minmax true a.toNat b.toNat)
where
  minOf (u : Bool) (a b : Word) : Word := if asInt u a ≤ asInt u b then a else b
  maxOf (u : Bool) (a b : Word) : Word := if asInt u b ≤ asInt u a then a else b

/-- One level of the tree of GRED. -/
def gredLevel (f : Word → Word → Word) : List (Option Word) → List (Option Word)
  | a :: b :: rest => (match a, b with
    | some x, some y => some (f x y)
    | some x, none => some x
    | none, y => y) :: gredLevel f rest
  | l => l

/-- The tree of GRED: `n` levels over 2^n places. -/
def gredTree (f : Word → Word → Word) : Nat → List (Option Word) → Option Word
  | 0, l => l.headD none
  | n + 1, l => gredTree f n (gredLevel f l)

/-- The result of GRED: a NaN that a floating-point reduction carries through is the canonical one (07 R127). -/
def gredWord (code : Nat) (x : Word) : Word := if 8 ≤ code && (fp32.decode x.toNat).isNan then BitVec.ofNat 32 fp32.nan else x

/-- GRED (R116). -/
def execGred (o : FOps) (s : State) : Host.Outcome State Fault Refusal :=
  issue (.gred o) s free_ (fun c t =>
    let m := c.active o.g
    let vals := (List.range 32).map (fun L => if m.getLsbD L then some (c.a o L) else none)
    .ok (t.newOp c (.gred o) none (.cells (match gredTree (gredOp (fld o.ox 0 4) o.rm) 5 vals with | some x => [(⟨1, o.d.toNat⟩, gredWord (fld o.ox 0 4) x)] | none => [])) 0).2)

/-- PMOV (R118). -/
def execPmov (o : FOps) (s : State) : Host.Outcome State Fault Refusal :=
  issue (.pmov o) s free_ (fun c t =>
    let m := c.active o.g
    .ok (t.modGroup c.gid (fun g => match fld o.ox 0 2 with
      | 0 => if m = 0 then g else g.ws o.d.toNat (c.g.rq o.a.toNat)
      | 1 => g.wpred o.d.toNat m (fun L => (c.g.rs o.a.toNat).getLsbD L)
      | 2 => g.wlanes o.d.toNat m (fun L => if (c.g.rq o.a.toNat).getLsbD L then 0xFFFFFFFF else 0)
      | _ => g.wpred o.d.toNat m (fun L => c.a o L ≠ 0))))

end Sys2Proof.Machine
end

