-- ==== Sys2Proof/Machine/NearMem.lean ====
section
/-! DEFINITION. The scratchpad accesses LDS and STS (04 R71 to R73) and the tile moves TLD, TST and TMOV
(R74, R75). A scratchpad load reads the scratchpad at its issue (log 20). -/

namespace Sys2Proof.Machine

/-- Passes of a scratchpad access beyond the first (R71): the largest number of distinct words in one bank. -/
def extraPasses (size : Nat) (l : List (Nat × Nat)) : Nat :=
  let ws := l.foldl (fun (a : List Nat) x => (List.range ((size + 3) / 4)).foldl (fun (a : List Nat) k => let w := x.2 / 4 + k; if a.contains w then a else w :: a) a) []
  ((List.range 32).foldl (fun m b => max m (ws.filter (fun w => w % 32 == b)).length) 0) - 1

/-- Counts them (17 R326, source 0x020). -/
def State.countPasses (s : State) (c : Iss) (size : Nat) (l : List (Nat × Nat)) : State :=
  s.countCore (coreOf c.gid) c.g.ctx 0x020 (extraPasses size l)

/-- The value of `n` bytes of the team's scratchpad as the group sees them: its buffered bytes over the
contents (R73). -/
def State.scratchNum (s : State) (c : Iss) (a n : Nat) : Nat :=
  let t := s.team c.g.team
  let ownB := (List.range (n / 128 + 2)).foldl (fun d k => overlay d (c.g.ownBytes .scratch (a / 128 + k))) ([] : Table Byte)
  ofBytes ((List.range n).map (fun k => match tfind (a + k) ownB with | some b => b | none => tget 0 (a + k) t.scratch))

/-- A scratchpad load of the lanes given (R73). -/
def State.scratchLoad (s : State) (c : Iss) (i : Instr) (d width : Nat) (lanes : List (Nat × Nat)) : State :=
  let cells := lanes.flatMap (fun x => (loadWords width (s.scratchNum c x.2 (widthBytes width))).zipIdx.map (fun w => ((⟨0, 32 * (d + w.2) + x.1⟩ : RCell), w.1)))
  (((s.newOp c i (if lanes = [] then none else some 0) (.cells cells) 0).2).countPasses c (widthBytes width) lanes).spRead c.g.team (lanes.flatMap (fun x => (List.range (widthBytes width)).map (x.2 + ·)))

/-- A scratchpad store of the lanes given (R73). -/
def State.scratchStore (s : State) (c : Iss) (i : Instr) (size : Nat) (word : Nat → Nat → Word) (lanes : List (Nat × Nat)) : State :=
  if lanes = [] then s
  else (s.putStore c i .scratch false 0 0 (storeBytes size word lanes)).countPasses c size lanes

/-- LDS (R73). -/
def execLds (o : FOps) (s : State) : Host.Outcome State Fault Refusal :=
  issue (.lds o) s free_ (fun c t =>
    let l := c.spAddrs t o (accBytes o) (c.active o.g)
    match checkSp (t.team c.g.team).scratchSize (accBytes o) l with
    | some f => .error f
    | none => match t.spPoison c.g.team (spBytes (accBytes o) (l.map (·.2))) with
    | some f => .error f
    | none => .ok (t.scratchLoad c (.lds o) o.d.toNat (fld o.ox 5 3) l))

/-- STS (R73). -/
def execSts (o : FOps) (s : State) : Host.Outcome State Fault Refusal :=
  issue (.sts o) s free_ (fun c t =>
    let l := c.spAddrs t o (accBytes o) (c.active o.g)
    match checkSp (t.team c.g.team).scratchSize (accBytes o) l with
    | some f => .error f
    | none => .ok (t.scratchStore c (.sts o) (accBytes o) (fun k L => c.g.rv (o.d.toNat + k) L) l))

/-- A stride below 64 is a decode error (R74): raised whatever the guard (01 R13, 16 R309). -/
def tileStrideBad (col : Bool) (stride : Nat) : Bool := col && decide (stride < 64)

/-- The scratchpad addresses of a tile's 32 columns, with the checks of R74. -/
def tileColumns (limit : Nat) (i : Instr) (col : Bool) (base stride : Nat) : Except Flt (List Nat) :=
  if base % 16 ≠ 0 then .error (fAlign 1 0 4 base)
  else if col && stride % 16 ≠ 0 then .error (fAlign 1 0 4 (base + stride))
  else if col && stride < 64 then .error (fEncoding false 3 i.wordOf)
  else
    let cols := (List.range 32).map (fun j => base + j * (if col then stride else 64))
    match cols.find? (fun a => limit < a + 64) with
    | some a => .error (fScratch a)
    | none => .ok cols

/-- TLD (R74). -/
def execTld (o : FOps) (s : State) : Host.Outcome State Fault Refusal :=
  issue (.tld o) s free_ (fun c t =>
    if c.active o.g = 0 then (if tileStrideBad (o.ox.getLsbD 0) (c.g.rs o.b.toNat).toNat then .error (fEncoding false 3 (Instr.tld o).wordOf) else .ok (t.emptyOp c (.tld o)))
    else match tileColumns (t.team c.g.team).scratchSize (.tld o) (o.ox.getLsbD 0) (c.g.rs o.a.toNat).toNat (c.g.rs o.b.toNat).toNat with
      | .error f => .error f
      | .ok cols => match t.spPoison c.g.team (spBytes 64 cols) with
      | some f => .error f
      | none => .ok ((t.spRead c.g.team (spBytes 64 cols)).newOp c (.tld o) (some 0) (.cells (cols.zipIdx.flatMap (fun a => (List.range 16).map (fun k => ((⟨3, 512 * o.d.toNat + 16 * a.2 + k⟩ : RCell), BitVec.ofNat 32 (t.scratchNum c (a.1 + 4 * k) 4)))))) 0).2)

/-- TST (R74). -/
def execTst (o : FOps) (s : State) : Host.Outcome State Fault Refusal :=
  issue (.tst o) s free_ (fun c t =>
    if c.active o.g = 0 then (if tileStrideBad (o.ox.getLsbD 0) (c.g.rs o.b.toNat).toNat then .error (fEncoding false 3 (Instr.tst o).wordOf) else .ok t)
    else match tileColumns (t.team c.g.team).scratchSize (.tst o) (o.ox.getLsbD 0) (c.g.rs o.a.toNat).toNat (c.g.rs o.b.toNat).toNat with
      | .error f => .error f
      | .ok cols => .ok (t.putStore c (.tst o) .scratch false 0 0 (cols.zipIdx.flatMap (fun a => (List.range 16).flatMap (fun k => bytesAt (a.1 + 4 * k) (c.g.rt o.d.toNat (16 * a.2 + k)).toNat 4)))))

/-- TMOV (R75): its sources are read at issue. -/
def execTmov (o : FOps) (s : State) : Host.Outcome State Fault Refusal :=
  issue (.tmov o) s free_ (fun c t =>
    let m := c.active o.g
    let cells : List (RCell × Word) := match fld o.ox 0 2 with
      | 0 => if m = 0 then [] else (List.range 512).map (fun w => (⟨3, 512 * o.d.toNat + w⟩, c.g.rt o.a.toNat w))
      | 1 => (lanesIn m).flatMap (fun j => (List.range 16).map (fun k => (⟨3, 512 * o.d.toNat + 16 * j + k⟩, c.g.rv (o.a.toNat + k) j)))
      | _ => (lanesIn m).flatMap (fun j => (List.range 16).map (fun k => (⟨0, 32 * (o.d.toNat + k) + j⟩, c.g.rt o.a.toNat (16 * j + k))))
    .ok (t.newOp c (.tmov o) none (.cells cells) 0).2)

end Sys2Proof.Machine
end

