-- ==== Sys2Proof/Machine/Palette.lean ====
section
/-! DEFINITION. Palettes (04 R76 to R86): declaration, admission with its closure, the fill, release of pool
lines, and the palette instructions. -/

namespace Sys2Proof.Machine

/-- States in which a palette holds its lines (R76). -/
def PalState.holds : PalState → Bool
  | .filling | .entered | .resident => true
  | _ => false

/-- The code of a state in PQRY (R78). -/
def PalState.code : PalState → Nat
  | .absent => 1 | .queued => 2 | .filling => 3 | .entered => 4 | .resident => 5

/-- The union of lists of lines. -/
def unionLines (ls : List (List Nat)) : List Nat := ls.foldl (fun a l => a ++ l.filter (fun x => !a.contains x)) []

/-- Distinct lines held by the team's palettes (R76). -/
def Team.heldLines (t : Team) : List Nat := unionLines ((t.pals.filter (fun p => p.2.state.holds)).map (fun p => p.2.lines))
def Team.usage (t : Team) : Nat := t.heldLines.length

def Team.modPal (t : Team) (k : Nat) (f : Palette → Palette) : Team := { t with pals := tput k (f (t.palette k)) t.pals }

/-- Lines of a palette that no holding palette of the team holds (R80). -/
def Team.missingLines (t : Team) (k : Nat) : List Nat := (t.palette k).lines.filter (fun l => !t.heldLines.contains l)

/-- Whether a line is removable for the admission of palette `k` (R80). -/
def Team.removable (t : Team) (k line : Nat) : Bool :=
  !(t.palette k).lines.contains line && t.pals.all (fun p => !(p.2.state = .filling ∨ p.2.state = .entered) || !p.2.lines.contains line)

/-- The closure of a set of Resident palettes (R80); eight rounds suffice for eight slots. -/
def Team.closure (t : Team) (k : Nat) : (fuel : Nat) → List Nat → List Nat
  | 0, E => E
  | n + 1, E =>
    let rem := (unionLines (E.map (fun x => (t.palette x).lines))).filter (t.removable k)
    let add := (t.pals.filter (fun p => decide (p.2.state = .resident) && !E.contains p.1 && p.2.lines.any (fun l => rem.contains l))).map (·.1)
    if add = [] then E else t.closure k n (E ++ add)

/-- The Resident palettes in ascending leave number. -/
def Team.candidates (t : Team) : List Nat :=
  let rs := (t.pals.filter (fun p => decide (p.2.state = .resident))).map (fun p => (p.2.leave, p.1))
  (rs.foldl (fun (a : List (Nat × Nat)) x => a.takeWhile (fun y => y.1 ≤ x.1) ++ x :: a.dropWhile (fun y => y.1 ≤ x.1)) []).map (·.2)

/-- try(P) (R80): the palettes to evict and the lines to release, if the palette then fits. -/
def Team.tryAdmit (t : Team) (k : Nat) : Option (List Nat × List Nat) :=
  let cand := t.candidates
  (List.range (cand.length + 1)).findSome? (fun n =>
    let E := t.closure k 8 (cand.take n)
    let rem := (unionLines (E.map (fun x => (t.palette x).lines))).filter (t.removable k)
    if (t.missingLines k).length + t.usage ≤ t.palCap + rem.length then some (E, rem) else none)

/-- Releases a pool line of a team (R80, R83): its dirty bytes are written back, and the last holder's release
invalidates it. With `pin`, the write-back keeps its place in the pool until it is accepted (15 R290). -/
def State.releaseLine (s : State) (team line : Nat) (pin : Bool) : State :=
  let t := s.team team
  match (s.core t.core).line t.tenant line with
  | none => s
  | some l =>
    let pool := l.pool.filter (· ≠ team)
    if !l.pool.contains team then s
    else
      let w := s.sendDirty t.core t.tenant line l
      let s1 := if pin then w.1.foldl (fun (s : State) m => match tfind m s.reqs with | some r => s.putReq m { r with pin := true } | none => s) w.2 else w.2
      if pool = [] then (s1.delL1 t.core t.tenant line).dropFills t.core t.tenant (· == line) else s1.setL1 t.core t.tenant line { l.clean with pool := pool }

def State.releaseLines (s : State) (team : Nat) (ls : List Nat) (pin : Bool) : State := ls.foldl (fun s l => s.releaseLine team l pin) s

/-- Starts the fill of a line of a palette: an ordinary line of the tenant is adopted, and the sectors that are
not valid, or all when the tag lacks RD, are fetched (R80; that a line without RD is adopted and fetched is a DESIGN CHOICE,
log 79: step 1 does not speak of one). -/
def State.fillLine (s : State) (team slot line : Nat) : State :=
  let t := s.team team
  let l := ((s.core t.core).line t.tenant line).getD { ctx := t.ctx }
  let s0 := if ((s.core t.core).line t.tenant line).isNone then s.roomL1 t.core else s
  let s1 := s0.setL1 t.core t.tenant line { l with pool := team :: l.pool.filter (· ≠ team) }
  let need := if l.rd then 0xF ^^^ l.valid else 0xF
  if need = 0 then s1
  else s1.request { gid := (s.fillOwner team slot).getD 0, core := t.core, ctx := t.ctx, tenant := t.tenant, kind := .palette team slot, line := line, sectors := need, race := false } none

/-- Whether every line of a palette is valid in all four sectors (R80). -/
def State.palFilled (s : State) (team slot : Nat) : Bool :=
  let t := s.team team
  (t.palette slot).lines.all (fun line => match (s.core t.core).line t.tenant line with | some l => l.rd && l.valid = 0xF | none => false)

/-- The lines of a team's Filling palettes that are not whole and that no fill is fetching, as (slot, line): an
invalidation has removed them since (03 R60). -/
def State.unfilled (s : State) (team : Nat) : List (Nat × Nat) :=
  let t := s.team team
  (t.pals.filter (fun p => decide (p.2.state = .filling))).flatMap (fun p => (p.2.lines.filter (fun line =>
    !(match (s.core t.core).line t.tenant line with | some l => l.rd && l.valid = 0xF | none => false) && !s.reqs.any (fun r => (match r.2.kind with | .palette _ _ => true | _ => false) && r.2.core == t.core && r.2.tenant == t.tenant && r.2.line == line))).map (fun line => (p.1, line)))

/-- Whether an ordinary access has made the last such line of a Filling palette whole (R80). -/
def State.fillsDone (s : State) (team : Nat) : Bool := (s.team team).pals.any (fun p => decide (p.2.state = .filling) && s.palFilled team p.1)

/-- Such lines are fetched again (R80). -/
def State.refillLines (s : State) (team : Nat) : State := (s.unfilled team).foldl (fun (s : State) x => s.fillLine team x.1 x.2) s

/-- A fill completes (R78): Entered with entrants, else Resident with the team's next leave number. One that fetches
again what its team had entered before a pre-emption is not counted (17 R326, 18 R343). -/
def State.completeFill (s : State) (team slot : Nat) : State :=
  let t0 := s.team team
  let again := (t0.palette slot).refill
  let t := t0.modPal slot (fun p => { p with refill := false })
  let t1 := if 0 < (t.palette slot).entrants then t.modPal slot (fun p => { p with state := .entered })
    else { t.modPal slot (fun p => { p with state := .resident, leave := t.palLeave }) with palLeave := (t.palLeave + 1) % 2 ^ 32 }
  let s1 := s.modTeam team (fun _ => t1)
  if again then s1 else s1.countCore t.core t.ctx 0x010 1

/-- Admits a palette that fits (R80): evictions, releases, and the start of its fill, for the group of index `starter`. -/
def State.admitGroup (s : State) (team slot starter : Nat) (E rem : List Nat) : State :=
  let t := s.team team
  let miss := t.missingLines slot
  let t1 := E.foldl (fun (t : Team) x => t.modPal x (fun p => { p with state := .absent })) t
  let t2 := t1.modPal slot (fun p => { p with state := .filling, starter := starter })
  let s1 := ((s.modTeam team (fun _ => t2)).releaseLines team rem false).countCore t.core t.ctx 0x012 E.length
  miss.foldl (fun s l => s.fillLine team slot l) s1

/-- Completes what fills are complete and tries the head of the queue, again while either has changed anything
(R80); each round completes a fill or empties a place of the queue. While its context is halted a Queued palette stays
queued (16 R304). -/
def State.palMove (s : State) (team : Nat) : (fuel : Nat) → State
  | 0 => s
  | n + 1 =>
    let t := s.team team
    match t.pals.find? (fun p => decide (p.2.state = .filling) && s.palFilled team p.1) with
    | some p => (s.completeFill team p.1).palMove team n
    | none => match t.palQueue with
      | [] => s
      | k :: rest => match (if (s.context t.ctx).hb.halt then none else t.tryAdmit k) with
        | none => s
        | some (E, rem) => ((s.modTeam team (fun t => { t with palQueue := rest })).admitGroup team k (t.palette k).starter E rem).palMove team n

/-- A handle word is valid (R77). -/
def Team.handle (t : Team) (h : Word) : Option Nat :=
  let k := nbits h.toNat 0 3
  if h.getLsbD 7 && nbits h.toNat 3 4 = 0 && nbits h.toNat 8 8 = 0 && (tfind k t.pals).isSome && nbits h.toNat 16 16 = tget 0 k t.palGen then some k else none

/-- The handle check of every palette instruction but PDECL (R85). -/
def palCheck (s : State) (o : FOps) (c : Iss) : Option Flt :=
  match (s.team c.g.team).handle (c.g.rs o.a.toNat) with
  | some _ => none
  | none => some (fPalette (c.g.rs o.a.toNat) 1)

/-- The lines of a declaration, or none where the shape is invalid (R76). -/
def paletteShape (twoD : Bool) (base : Nat) (shape stride : Word) : Option (List Nat) :=
  let lpr := nbits shape.toNat 0 16
  let rows := if twoD then nbits shape.toNat 16 16 else 1
  let st := if twoD then stride.toNat else 128 * lpr
  let last := base + (rows - 1) * st + 128 * lpr - 1
  if (!twoD && nbits shape.toNat 16 16 ≠ 0) || lpr = 0 || rows = 0 || 2048 < rows * lpr || base % 128 ≠ 0 || st % 128 ≠ 0 || st < 128 * lpr || 2 ^ 56 ≤ last then none
  else some ((List.range rows).flatMap (fun r => (List.range lpr).map (fun k => base + r * st + 128 * k)))

/-- PDECL (R77, R85). -/
def execPdecl (o : FOps) (s : State) : Host.Outcome State Fault Refusal :=
  issue (.pdecl o) s free_ (fun c t =>
    let s1 := t.commitRegion c.gid c.slotB
    if c.active o.g = 0 then .ok s1
    else
      let team := s1.team c.g.team
      let answer (w : Nat) (s : State) : State := s.modGroup c.gid (fun g => g.ws o.d.toNat (BitVec.ofNat 32 w))
      match paletteShape (o.ox.getLsbD 0) (c.g.rpair o.a.toNat).toNat (c.g.rs o.b.toNat) (c.g.rs o.c.toNat) with
      | none => .ok (answer (3 * 2 ^ 8) s1)
      | some vas => match (List.range 8).find? (fun k => (tfind k team.pals).isNone) with
        | none => .ok (answer (1 * 2 ^ 8) s1)
        | some k =>
          let lines := unionLines [vas.map (fun va => (s1.core (coreOf c.gid)).remap c.g.tenant va / 128)]
          let lines := unionLines (lines.map (fun l => [l]))
          if team.palCap < lines.length then .ok (answer (2 * 2 ^ 8) s1)
          else .ok (answer (tget 0 k team.palGen * 2 ^ 16 + 2 ^ 7 + k) (s1.modTeam c.g.team (fun t => { t with pals := tput k { lines := lines } t.pals }))))

/-- PENTER (R80, R85). -/
def execPenter (o : FOps) (s : State) : Host.Outcome State Fault Refusal :=
  issue (.penter o) s (palCheck s o) (fun c t =>
    let h := c.g.rs o.a.toNat
    if c.active o.g = 0 then .ok (t.commitRegion c.gid c.slotB)
    else if c.g.pal.isSome then .error (fPalette h 2)
    else
      let s0 := t.commitRegion c.gid c.slotB
      let id := c.g.team
      let k := nbits h.toNat 0 3
      let s1 := (s0.modTeam id (fun t => t.modPal k (fun p => { p with entrants := p.entrants + 1 }))).modGroup c.gid (fun g => { g with pal := some k, readmit := false })
      let team := s1.team id
      let enter (s : State) (st : PalState) : State := s.modTeam id (fun t => t.modPal k (fun p => { p with state := st }))
      .ok (match (team.palette k).state with
        | .entered | .resident => enter s1 .entered
        | .filling => s1
        | .queued => s1.modGroup c.gid (fun g => { g with palSince := some (s1.ctxTime c.g.ctx) })
        | .absent =>
          if team.missingLines k = [] then enter s1 .entered
          else match (if team.palQueue = [] then team.tryAdmit k else none) with
            | some (E, rem) => (s1.admitGroup id k c.g.index E rem).palMove id 32
            | none => (s1.modTeam id (fun t => { t.modPal k (fun p => { p with state := .queued, starter := c.g.index }) with palQueue := t.palQueue ++ [k] })).modGroup c.gid (fun g => { g with palSince := some (s1.ctxTime c.g.ctx) })))

/-- PWAIT (R85): it blocks until the group's entry is Ready. -/
def execPwait (o : FOps) (s : State) : Host.Outcome State Fault Refusal :=
  issue2 (.pwait o) s (palCheck s o)
    (fun c t =>
      let k := nbits (c.g.rs o.a.toNat).toNat 0 3
      if c.active o.g = 0 then .ok (t.commitRegion c.gid c.slotB)
      else if c.g.pal ≠ some k then .error (fPalette (c.g.rs o.a.toNat) 3)
      else
        let s1 := t.commitRegion c.gid c.slotB
        .ok (if ((s1.team c.g.team).palette k).state = .entered then s1 else s1.block c (.pwait o) (.palette k)))
    (fun _ _ t => .ok t)

/-- PLEAVE (R78, R85). -/
def execPleave (o : FOps) (s : State) : Host.Outcome State Fault Refusal :=
  issue (.pleave o) s (palCheck s o) (fun c t =>
    let k := nbits (c.g.rs o.a.toNat).toNat 0 3
    if c.active o.g = 0 then .ok (t.commitRegion c.gid c.slotB)
    else if c.g.pal ≠ some k then .error (fPalette (c.g.rs o.a.toNat) 3)
    else
      let s1 := (t.commitRegion c.gid c.slotB).modGroup c.gid (fun g => { g with pal := none, readmit := false, palSince := none })
      .ok ((s1.modTeam c.g.team (fun t =>
        let n := (t.palette k).entrants - 1
        let t1 := t.modPal k (fun p => { p with entrants := n })
        if n ≠ 0 then t1
        else match (t.palette k).state with
          | .queued => { t1.modPal k (fun p => { p with state := .absent }) with palQueue := t1.palQueue.filter (· ≠ k) }
          | .entered => { t1.modPal k (fun p => { p with state := .resident, leave := t1.palLeave }) with palLeave := (t1.palLeave + 1) % 2 ^ 32 }
          | _ => t1)).palMove c.g.team 32))

/-- What PDROP does to a palette with no entrants that is not Filling (R85). -/
def State.dropPalette (s : State) (team k : Nat) : State :=
  let t := s.team team
  let p := t.palette k
  let others := unionLines ((t.pals.filter (fun x => x.1 ≠ k && x.2.state.holds)).map (fun x => x.2.lines))
  let s1 := if p.state.holds then s.releaseLines team (p.lines.filter (fun l => !others.contains l)) true else s
  (s1.modTeam team (fun t => { t with pals := tdel k t.pals, palGen := tset 0 k ((tget 0 k t.palGen + 1) % 2 ^ 16) t.palGen })).palMove team 32

/-- PDROP (R85): a Filling palette holds the group until its fill completes; the failure that finds entrants has
committed the region and does nothing else. A palette that another PDROP has freed meanwhile is not there to drop
(log 68). -/
def execPdrop (o : FOps) (s : State) : Host.Outcome State Fault Refusal :=
  issue2 (.pdrop o) s (palCheck s o)
    (fun c t =>
      let h := c.g.rs o.a.toNat
      let k := nbits h.toNat 0 3
      let s1 := t.commitRegion c.gid c.slotB
      let p := (s1.team c.g.team).palette k
      .ok (if c.active o.g = 0 then s1
        else if 0 < p.entrants then s1.trapHeld c.gid { kind := .pdrop k, slotB := c.slotB, instr := .pdrop o, since := 0, pc := c.pc, cl := some c.cl } (fPalette h 4)
        else if p.state = .filling then s1.block c (.pdrop o) (.pdrop k)
        else s1.dropPalette c.g.team k))
    (fun c _ t =>
      let h := c.g.rs o.a.toNat
      let k := nbits h.toNat 0 3
      if ((t.team c.g.team).handle h).isNone then .ok t
      else if 0 < ((t.team c.g.team).palette k).entrants then .error (fPalette h 4) else .ok (t.dropPalette c.g.team k))

/-- PQRY (R85): entrants, missing and free lines in their fields. -/
def execPqry (o : FOps) (s : State) : Host.Outcome State Fault Refusal :=
  issue (.pqry o) s (palCheck s o) (fun c t =>
    if c.active o.g = 0 then .ok t
    else
      let team := t.team c.g.team
      let k := nbits (c.g.rs o.a.toNat).toNat 0 3
      let p := team.palette k
      let miss := if p.state.holds then 0 else (team.missingLines k).length
      .ok (t.modGroup c.gid (fun g => g.ws o.d.toNat (BitVec.ofNat 32 (p.state.code + p.entrants % 32 * 2 ^ 3 + miss % 2 ^ 12 * 2 ^ 8 + (team.palCap - team.usage) % 2 ^ 12 * 2 ^ 20)))))

end Sys2Proof.Machine
end

