-- ==== Sys2Proof/Machine/Retire.lean ====
section
/-! DEFINITION. What leaves the machine with a group and with a team: the retirement of R42, the release of a
team's resources (02 R42, 05 R101), and the freeing of a per-thread area (17 R336). -/

namespace Sys2Proof.Machine

/-- Every line of a group's per-thread range leaves its L1 without write-back, fills of them on their way bring
nothing, and its stores to them are dropped (R42, 04 R70). -/
def State.dropPtm (s : State) (gid : Nat) : State :=
  let g := s.group gid
  let core := coreOf gid
  let lines := (List.range g.ptmWords).map (fun w => (s.core core).remap g.tenant (g.ptmBase + 128 * w) / 128)
  let s1 := lines.foldl (fun (s : State) l => match (s.core core).line g.tenant l with
    | some x => if x.isPool then s.setL1 core g.tenant l x.empty else s.delL1 core g.tenant l
    | none => s) (s.dropFills core g.tenant (fun l => lines.contains l))
  (s1.reqs.filter (fun r => r.2.ptm && r.2.gid == gid)).foldl (fun (s : State) r => s.reqDone r.1 r.2) s1

/-- The granules of a group return to its core's pool (R40, R42). -/
def State.freeGranules (s : State) (gid : Nat) : State :=
  let g := s.group gid
  s.modCore (coreOf gid) (fun k => { k with vUsed := k.vUsed.filter (fun x => !g.vmap.contains x), tUsed := k.tUsed.filter (fun x => !g.tmap.contains x), aUsed := k.aUsed.filter (fun x => !g.amap.contains x) })

/-- Operations that outlive their group count on nothing of it (R42). -/
def State.unlinkOps (s : State) (gid : Nat) : State :=
  { s with ops := s.ops.map (fun (o : Nat × Op) => if o.2.gid = gid then (o.1, { o.2 with path := none, flag := none, scope := none, dest := .none }) else o) }

/-- Work that still names a team's scratchpad (05 R101). -/
def State.namesTeam (s : State) (t : Nat) : Bool :=
  let core := (s.team t).core
  let k := s.core core
  let d := s.die (dieOfCore core)
  k.kicks.any (fun c => c.team == t) || k.gathers.any (fun c => c.team == t) || k.mx.any (fun c => c.team == t) || k.drain.any (fun c => c.2.team == t) || d.pieces.any (fun c => c.2.copy.team == t) || d.colls.any (fun c => c.team == t)

/-- A team without groups leaves, and its scratchpad granules are released, once no work names it (R42, 05 R101). -/
def State.reapTeam (s : State) (t : Nat) : State :=
  match tfind t s.teams with
  | none => s
  | some m =>
    if m.saved.isSome || m.gids.any (·.isSome) || s.namesTeam t then s
    else ({ s with teams := tdel t s.teams } : State).modCore m.core (fun k => { k with sUsed := k.sUsed.filter (fun x => !m.scratchMap.contains x) })

/-- Releases the pool lines that the palettes of a team hold (04 R80). -/
def State.releasePool (s : State) (t : Nat) : State := s.releaseLines t (s.team t).heldLines true

/-- The last group of a team has retired: palettes, barriers and queues are released, its requests of the clock
are withdrawn, and its grid counts it (R42, 15 R287, R289). -/
def State.retireTeam (s : State) (t : Nat) : State :=
  let m := s.team t
  let s1 := (s.releasePool t).modTeam t (fun m => { m with pals := [], palQueue := [], palCap := 0, bars := [], queues := [], heldClock := false })
  let s2 := s1.modGrid m.grid (fun g => { g with retired := g.retired + 1 })
  (s2.retargetDie (dieOfCore m.core)).reapTeam t

/-- A group retires (R42). Its outstanding register writes are complete. A palette that it entered and did not leave
counts it as entrant until the team retires (DESIGN CHOICE, log 76: R79 does not say). -/
def State.retireGroup (s : State) (gid : Nat) (slotB : Bool) : State :=
  let g := s.group gid
  let s1 := (((s.commitRegion gid slotB true).dropPtm gid).freeGranules gid).unlinkOps gid
  let s2 := s1.modContext g.ctx (fun c => { c with ptmUsed := c.ptmUsed.filter (fun a => some a ≠ g.ptmArea) })
  let s3 := ({ s2 with groups := tdel gid s2.groups, holds := s2.holds.filter (fun h => h.2.gid ≠ gid) } : State).modTeam g.team (fun t => { t with gids := t.gids.map (fun x => if x = some gid then none else x) })
  if (s3.team g.team).gids.any (·.isSome) then s3 else s3.retireTeam g.team

/-- Register writes of a group and what it has given its matrix unit, but for drains, still outstanding (09 R170), and releases or acquires in progress (R42); what a JOIN orders
holds nothing back here. -/
def State.unfinished (s : State) (gid : Nat) : Bool :=
  s.ops.any (fun o => o.2.gid == gid && (o.2.flag.isSome || o.2.path == some 3 && ((s.core (coreOf gid)).mx.any (fun x => x.op == o.1) || (s.core (coreOf gid)).drain.any (fun d => d.2.replayer == some o.1)))) || s.holds.any (fun h => h.2.gid == gid && (h.2.rel || decide (2 ≤ h.2.scope)))

end Sys2Proof.Machine
end

