-- ==== Sys2Proof/Machine/Control.lean ====
section
/-! DEFINITION. The control group (11): branches, calls and target tables, splitting and joining slots with the
divergence stack in per-thread memory, EXIT, REGROUP, NOP and YIELD. -/

namespace Sys2Proof.Machine

/-! ### Transfers (R213) -/

/-- A word address at a signed word offset from the issuing word. -/
def Iss.offset (c : Iss) (k : Int) : DWord := BitVec.ofNat 64 (wrap ((c.pc.toNat : Int) + 8 * k) 64)
def State.goto (s : State) (gid : Nat) (slotB : Bool) (pc : DWord) : State := s.modGroup gid (fun g => g.modSlot slotB (fun x => { x with pc := pc, cl := none }))

/-- The check of a return address or table entry (R212). -/
def targetBad (pc : DWord) : Option Flt := if pc.toNat % 8 ≠ 0 then some (fAlign 0 0 3 pc.toNat) else none

/-- BRA (R213). -/
def execBra (o : ImmOps) (s : State) : Host.Outcome State Fault Refusal :=
  issue (.bra o) s free_ (fun c t => .ok (t.goto c.gid c.slotB (c.offset o.imm.toInt)))

/-- BRC (R213). -/
def execBrc (o : ImmOps) (s : State) : Host.Outcome State Fault Refusal :=
  issue (.brc o) s free_ (fun c t => .ok (if cond (fld o.mods 0 3) (c.g.rs o.a.toNat).toInt 0 then t.goto c.gid c.slotB (c.offset o.imm.toInt) else t))

/-- CALL (R213). -/
def execCall (o : ImmOps) (s : State) : Host.Outcome State Fault Refusal :=
  issue (.call o) s free_ (fun c t => .ok ((t.modGroup c.gid (fun g => g.wpair o.d.toNat (c.pc + 8))).goto c.gid c.slotB (c.offset o.imm.toInt)))

/-- RET (R213). -/
def execRet (o : FOps) (s : State) : Host.Outcome State Fault Refusal :=
  issue (.ret o) s free_ (fun c t =>
    let pc := c.g.rpair o.a.toNat
    match targetBad pc with
    | some f => .error f
    | none => .ok (t.goto c.gid c.slotB pc))

/-- Whether either stage's leaf of the page of a table grants WR (R215): the page of its base (DESIGN CHOICE, log 79: R215
speaks of the table page and not of a table that spans several). -/
def State.tableWritable (s : State) (ctx va : Nat) : Bool :=
  let h := s.home ctx (va / 128)
  match (s.slice h.2).cached (s.context ctx).tenant va with
  | some t => t.perm1.testBit 1 || t.perm2.testBit 1
  | none => match s.nested ctx h.2 va with
    | .ok (t, _) => t.perm1.testBit 1 || t.perm2.testBit 1
    | .error _ => false

/-- Starts the reads of BRX and CALLX (R215): COUNT with the reserved bytes, and the entry; the slot holds (log 45). -/
def State.readTable (s : State) (c : Iss) (i : Instr) (o : FOps) (link : Option Nat) : Except Flt State :=
  let base := (c.g.rpair o.a.toNat).toNat
  let at_ := base + 16 + 8 * (c.bs s o).toNat
  if base % 16 ≠ 0 then .error (fAlign 0 0 4 base)
  else if 2 ^ 56 ≤ base then .error (fTranslation 3 3 0 3 base)
  else if 2 ^ 56 < at_ + 8 then .error (fTranslation 3 3 0 3 at_)
  else
    let k := s.core (coreOf c.gid)
    let b := k.remap c.g.tenant base
    let a := k.remap c.g.tenant at_
    let lines := byLine (((List.range 16).map (fun j => (b + j, 0))) ++ ((List.range 8).map (fun j => (a + j, 0))))
    let n := s.newOp c i none (.brx link b a) lines.length
    .ok ((n.2.requestLines { ops := [n.1], gid := c.gid, core := coreOf c.gid, ctx := c.g.ctx, tenant := c.g.tenant, kind := .table, line := 0 } none lines).holdSlot c i (.table n.1))

/-- A number of `n` bytes that an operation's requests returned. -/
def Op.returned (o : Op) (va n : Nat) : Nat := ofBytes ((List.range n).map (fun k => BitVec.ofNat 8 (tget 0 (va + k) o.got)))

/-- The transfer of BRX and CALLX once the reads have returned, with their checks (R215): `b` and `a` are the addresses
of the table and of the entry after the remap filter. -/
def State.jumpTable (s : State) (c : Iss) (o : FOps) (link : Option Nat) (x : Op) (b a : Nat) : Except Flt State :=
  let base := (c.g.rpair o.a.toNat).toNat
  let idx := c.bs s o
  let pc := BitVec.ofNat 64 (x.returned a 8)
  if s.tableWritable c.g.ctx b then .error (fPermission 0 1 0 0 3 base)
  else if x.returned (b + 4) 12 ≠ 0 || x.returned b 4 ≤ idx.toNat then .error (fPermission idx.toNat 2 0 0 3 base)
  else match targetBad pc with
    | some f => .error f
    | none => .ok ((match link with | some d => s.modGroup c.gid (fun g => g.wpair d (c.pc + 8)) | none => s).goto c.gid c.slotB pc)

/-- BRX and CALLX (R215): the word starts its reads and holds its slot; the slot returns to it once they are there. -/
def tableJump (i : Instr) (o : FOps) (link : Option Nat) (s : State) : Host.Outcome State Fault Refusal :=
  match s.grant with
  | none => .next s
  | some gr =>
    if !gr.again then issue i s free_ (fun c t => t.readTable c i o link)
    else
      let g := s.group gr.gid
      let g1 := { g with tables := g.tables.filter (fun x => x.slotB ≠ gr.slotB) }
      let s1 := ({ s with grant := none } : State).setGroup gr.gid g1
      match g.tables.find? (fun x => x.slotB == gr.slotB) with
      | none => .next { s with grant := none }
      | some w => match w.kind with
        | .table n => match s.op n with
          | none => .next s1
          | some x => match x.dest with
            | .brx _ b a => match ({ s1 with ops := tdel n s1.ops } : State).jumpTable ⟨gr.gid, w.slotB, w.pc, w.cl.getD {}, g1⟩ o link x b a with
              | .error f => .next (s1.trapSlot gr.gid n w f)
              | .ok t => .next (t.written ⟨gr.gid, w.slotB, w.pc, w.cl.getD {}, g1⟩ i)
            | _ => .next s1
        | _ => .next s1

/-- BRX (R215). -/
def execBrx (o : FOps) (s : State) : Host.Outcome State Fault Refusal := tableJump (.brx o) o none s

/-- CALLX (R215). -/
def execCallx (o : FOps) (s : State) : Host.Outcome State Fault Refusal := tableJump (.callx o) o (some o.d.toNat) s

/-! ### The divergence stack (R217, R218) -/

/-- An entry of the stack: kind 0 path, 1 lanes, 2 done. -/
structure SEntry where
  pc : DWord
  mask : Word
  kind : Nat
  owner : Bool
  join : DWord

def SEntry.live (e : SEntry) : Bool := e.kind == 0 || e.kind == 1

/-- The 128 bytes of an entry (R217). -/
def SEntry.bytes (e : SEntry) : List Byte :=
  toBytes e.pc.toNat 8 ++ toBytes e.mask.toNat 4 ++ toBytes (e.kind + 4 * e.owner.toNat) 4 ++ toBytes e.join.toNat 8 ++ List.replicate 104 0

/-- The entry that 128 bytes hold, or that they are corrupt. -/
def readEntryBytes (bs : List Byte) : Except Flt SEntry :=
  let f (k n : Nat) : Nat := ofBytes ((bs.drop k).take n)
  let ctl := f 12 4
  if ctl % 4 = 3 || 8 ≤ ctl || (bs.drop 24).any (· ≠ 0) then .error (fRegister 0 0 0 0 5)
  else .ok ⟨BitVec.ofNat 64 (f 0 8), BitVec.ofNat 32 (f 8 4), ctl % 4, ctl.testBit 2, BitVec.ofNat 64 (f 16 8)⟩

/-- Bytes of a group's stores to a line that are on their way to its slice, by offset: those that the commit of a
word of this group of instructions has just sent, for the word waits until no earlier request is on its way (R217). -/
def State.sentBytes (s : State) (gid tenant line : Nat) : Table Byte :=
  overlay [] ((s.reqs.filter (fun r => decide (r.2.kind = .store) && r.2.gid == gid && r.2.line == line && r.2.tenant == tenant)).flatMap (fun r => r.2.bytes))

/-- A byte of the group's per-thread memory as the group sees it: on its way to the slice, in the L1, where its word may
be in error (06 R110), or at the home slice. -/
def State.stackByte (s : State) (gid va : Nat) : Except Flt Byte :=
  let g := s.group gid
  match tfind (va % 128) (s.sentBytes gid g.tenant (va / 128)) with
  | some b => .ok b
  | none =>
    match (s.core (coreOf gid)).line g.tenant (va / 128) with
    | some l =>
      if l.rd && l.valid.testBit (va % 128 / 32) then
        match s.errorFault (coreOf gid) 2 (l1Words g.tenant (va / 128) (2 ^ (va % 128 / 32))) with
        | some f => .error f
        | none => .ok (l.byte (va % 128))
      else s.slicePeek g.ctx va { rd := true } .load (some (dieOf gid))
    | none => s.slicePeek g.ctx va { rd := true } .load (some (dieOf gid))

/-- Bytes read so. -/
def State.stackBytes (s : State) (gid : Nat) : (va n : Nat) → Except Flt (List Byte)
  | _, 0 => .ok []
  | va, n + 1 => match s.stackByte gid va with
    | .error f => .error f
    | .ok b => match s.stackBytes gid (va + 1) n with
      | .error f => .error f
      | .ok bs => .ok (b :: bs)

/-- The stack entry at an address. -/
def State.stackRead (s : State) (gid a : Nat) : Except Flt SEntry :=
  match s.stackBytes gid ((s.core (coreOf gid)).remap (s.group gid).tenant a) 128 with
  | .error f => .error f
  | .ok bs => readEntryBytes bs

/-- What reading the entries at some addresses leaves behind: corrected words of the L1 (06 R110), and what their reads at
the slices leave. -/
def State.stackTook (s : State) (gid : Nat) (as : List Nat) : State :=
  as.foldl (fun (s : State) a =>
    let g := s.group gid
    let va := (s.core (coreOf gid)).remap g.tenant a
    let have_ := match (s.core (coreOf gid)).line g.tenant (va / 128) with | some l => if l.rd then l.valid else 0 | none => 0
    let s1 := s.readWords (coreOf gid) g.ctx 2 (l1Words g.tenant (va / 128) have_)
    if have_ = 0xF then s1 else s1.slicePeeked g.ctx { rd := true } .load va 128 (some (dieOf gid))) s

/-- Writes a stack entry: into its L1 line where that takes a store (04 R68), else at the home slice, where it stands
over the line's dirty bytes. Stores of the group on their way to the line are older and give way. -/
def State.stackWrite (s : State) (gid a : Nat) (e : SEntry) : Except Flt State :=
  let g := s.group gid
  let line := (s.core (coreOf gid)).remap g.tenant a / 128
  let bs : Table Byte := e.bytes.zipIdx.map (fun b => (b.2, b.1))
  let s1 : State := { s with reqs := s.reqs.map (fun (r : Nat × Req) => if r.2.kind = .store ∧ r.2.gid = gid ∧ r.2.line = line ∧ r.2.tenant = g.tenant then (r.1, { r.2 with bytes := r.2.bytes.map (fun x => (x.1, tget 0 x.1 bs)) }) else r) }
  match (s1.core (coreOf gid)).line g.tenant line with
  | some l =>
    if l.wr && l.valid = 0xF then .ok ((s1.setL1 (coreOf gid) g.tenant line { l with dirty := bs, ctx := g.ctx }).mendL1 (coreOf gid) g.tenant line (List.range 128))
    else match s1.slicePoke g.ctx line bs { wr := true } .store (some (dieOf gid)) with
      | .error f => .error f
      | .ok s2 => .ok ((s2.setL1 (coreOf gid) g.tenant line { l.absorb bs with dirty := [] }).mendL1 (coreOf gid) g.tenant line (List.range 128))
  | none => s1.slicePoke g.ctx line bs { wr := true } .store (some (dieOf gid))

/-- The entries from address `a` up, `n` of them. -/
def State.stackFrom (s : State) (gid : Nat) : (a n : Nat) → Except Flt (List (Nat × SEntry))
  | _, 0 => .ok []
  | a, n + 1 => match s.stackRead gid a with
    | .error f => .error f
    | .ok e => match s.stackFrom gid (a + 128) n with
      | .error f => .error f
      | .ok es => .ok ((a, e) :: es)

/-- Entries on a group's stack, done ones included. -/
def Group.depth (g : Group) : Nat := (g.stackTop - g.dsp.toNat) / 128

/-- Every entry of the stack, the nearest to DSP first. -/
def State.stack (s : State) (gid : Nat) : Except Flt (List (Nat × SEntry)) := s.stackFrom gid (s.group gid).dsp.toNat (s.group gid).depth

/-- The nearest entry that satisfies `p`; the entries beyond it are not read. -/
def State.stackNearest (s : State) (gid : Nat) (p : SEntry → Bool) : (a n : Nat) → Except Flt (Option (Nat × SEntry))
  | _, 0 => .ok none
  | a, n + 1 => match s.stackRead gid a with
    | .error f => .error f
    | .ok e => if p e then .ok (some (a, e)) else s.stackNearest gid p (a + 128) n

/-- The addresses of the entries that the search for the nearest that satisfies `p` reads. -/
def State.sought (s : State) (gid : Nat) (p : SEntry → Bool) : (a n : Nat) → List Nat
  | _, 0 => []
  | a, n + 1 => a :: (match s.stackRead gid a with | .error _ => [] | .ok e => if p e then [] else s.sought gid p (a + 128) n)

/-- Those of every entry. -/
def Group.stackAddrs (g : Group) : List Nat := (List.range g.depth).map (fun k => g.dsp.toNat + 128 * k)

/-- Raises DSP past done entries (R218). -/
def State.trimStack (s : State) (gid : Nat) : (n : Nat) → Except Flt State
  | 0 => .ok s
  | n + 1 =>
    let g := s.group gid
    if g.depth = 0 then .ok s
    else match s.stackRead gid g.dsp.toNat with
      | .error f => .error f
      | .ok e => if e.live then .ok s else (s.modGroup gid (fun g => { g with dsp := g.dsp + 128 })).trimStack gid n

/-- Gives the live entries of one owner to the other slot. -/
def State.reown (s : State) (gid : Nat) (who : SEntry → Bool) (to_ : Bool) : List (Nat × SEntry) → Except Flt State
  | [] => .ok s
  | (a, e) :: rest =>
    if e.live && who e && e.owner ≠ to_ then
      match s.stackWrite gid a { e with owner := to_ } with
      | .error f => .error f
      | .ok s1 => s1.reown gid who to_ rest
    else s.reown gid who to_ rest

/-- Records the region that opens at the word after `pc`, with the slots as the word has left them (R222, 16 R297). -/
def State.recordAfter (s : State) (gid : Nat) (pc : DWord) : State := s.modGroup gid (fun g => g.record (pc + 8) none)

/-- BRS (R216). After a split the slots alternate clause by clause, slot A first (02 R39). -/
def execBrs (o : ImmOps) (s : State) : Host.Outcome State Fault Refusal :=
  issue (.brs o) s free_ (fun c t =>
    let x := c.slotB
    let y := c.g.slot (!x)
    let q := c.g.rq (fld o.mods 0 3)
    let m := c.g.mask x
    let taken := m &&& (if o.mods.getLsbD 3 then ~~~q else q)
    let fall := m &&& ~~~taken
    let target := c.offset o.imm.toInt
    let J := c.offset (o.d ++ o.a : BitVec 16).toInt
    if taken = 0 then .ok t
    else if fall = 0 then .ok (t.goto c.gid x target)
    else if y.st = .free then
      let s1 := (t.commitRegion c.gid x).modGroup c.gid (fun g => { (((g.setMask (!x) taken).setSlot (!x) { pc := target, st := .running }).setMask x fall) with nextB := false })
      .ok (s1.recordAfter c.gid c.pc)
    else if c.g.dstkWords ≤ c.g.depth then .error (fRegister 0 0 0 0 4)
    else
      let a := c.g.dsp.toNat - 128
      match (t.commitRegion c.gid x).stackWrite c.gid a ⟨target, taken, 0, x, J⟩ with
      | .error f => .error f
      | .ok s1 => .ok ((s1.modGroup c.gid (fun g => { (g.setMask x fall) with dsp := BitVec.ofNat 64 a })).recordAfter c.gid c.pc))

/-- What of a group's matrix operations accesses memory (13 R237): ALOAD, ATBL and the stores of a DRAIN. -/
def Op.accesses (o : Op) : Bool := match o.instr with | .aload _ | .atbl _ => true | .drain _ => decide (o.flag = none) | _ => false

/-- The accesses of a group that are not yet performed: on LD and ST, of its matrix unit, and the reads of a BRX or CALLX that
holds a slot (11 R215, R221). -/
def State.accessOps (s : State) (gid : Nat) : List Nat :=
  let g := s.group gid
  g.pathOps 0 ++ g.pathOps 1 ++ (g.pathOps 3).filter (fun n => match s.op n with | some o => o.accesses | none => false) ++ g.tables.filterMap (fun w => match w.kind with | .table n => some n | _ => none)

/-- A JOIN that commits orders the group's accesses (R221): later ones wait for the earlier ones. -/
def State.reconverge (s : State) (gid : Nat) : State := (s.startAcquire gid 0 (s.accessOps gid) none true).settle

/-- The exchange with a path entry or the merge of a lanes entry (R219). -/
def State.joinEntry (s : State) (c : Iss) (J : DWord) (a : Nat) (e : SEntry) : Except Flt State :=
  let x := c.slotB
  let m := c.g.mask x
  let s0 := (s.commitRegion c.gid x).reconverge c.gid
  if e.kind = 0 then
    match s0.stackWrite c.gid a { e with kind := 1, mask := m, pc := 0 } with
    | .error f => .error f
    | .ok s1 => .ok (((s1.goto c.gid x e.pc).modGroup c.gid (fun g => g.setMask x e.mask)).recordAfter c.gid c.pc)
  else
    match s0.stackWrite c.gid a { e with kind := 2, pc := 0 } with
    | .error f => .error f
    | .ok s1 => match s1.trimStack c.gid c.g.depth with
      | .error f => .error f
      | .ok s2 => .ok (((s2.goto c.gid x J).modGroup c.gid (fun g => g.setMask x (m ||| e.mask))).recordAfter c.gid c.pc)

/-- The merge of the two slots at J: the survivor is slot A (R219); its entries beyond the nearest are read now. -/
def State.joinSlots (s : State) (c : Iss) (J : DWord) : Except Flt State :=
  let s1 := ((s.commitRegion c.gid c.slotB).reconverge c.gid).modGroup c.gid (fun g => { ((g.setMask false (g.mask false ||| g.mask true)).setMask true 0) with a := { pc := J, st := .running }, b := {}, nextB := false })
  match s1.stack c.gid with
  | .error f => .error f
  | .ok es => match s1.reown c.gid (fun e => e.owner) false es with
    | .error f => .error f
    | .ok s2 => .ok (s2.recordAfter c.gid c.pc)

/-- JOIN (R219). -/
def execJoin (o : ImmOps) (s : State) : Host.Outcome State Fault Refusal :=
  issue (.join o) s free_ (fun c t =>
    let J := c.offset o.imm.toInt
    let y := c.g.slot (!c.slotB)
    let mine (e : SEntry) : Bool := e.live && e.owner == c.slotB
    let read := t.sought c.gid mine c.g.dsp.toNat c.g.depth
    match t.stackNearest c.gid mine c.g.dsp.toNat c.g.depth with
    | .error f => .error f
    | .ok r =>
      let t := t.stackTook c.gid read
      match (match r with | some x => if x.2.join = J then some x else none | none => none) with
      | some x => t.joinEntry c J x.1 x.2
      | none =>
        if y.st = .parked && y.pc = J then (t.stackTook c.gid (c.g.stackAddrs.drop read.length)).joinSlots c J
        else if y.st = .running then .ok ((t.goto c.gid c.slotB J).modGroup c.gid (fun g => g.modSlot c.slotB (fun x => { x with st := .parked })))
        else .ok (t.goto c.gid c.slotB J))

/-- The slot X of an EXIT becomes Free and its entries go to Y (R220). -/
def State.freeSlot (s : State) (c : Iss) : Except Flt State :=
  let x := c.slotB
  let s1 := (s.commitRegion c.gid x).modGroup c.gid (fun g => (g.setMask x 0).setSlot x {})
  match s1.stack c.gid with
  | .error f => .error f
  | .ok es => match s1.reown c.gid (fun e => e.owner == x) (!x) es with
    | .error f => .error f
    | .ok s2 => .ok (s2.modGroup c.gid (fun g => g.modSlot (!x) (fun y => if y.st = .parked then { y with st := .running } else y)))

/-- Slot A takes the nearest live entry of a group whose slots are both Free (R220). -/
def State.takeEntry (s : State) (c : Iss) : Except Flt State :=
  match s.stack c.gid with
  | .error f => .error f
  | .ok es => match es.find? (fun x => x.2.live) with
    | none => .ok s
    | some (a, e) => match s.stackWrite c.gid a { e with kind := 2, pc := 0 } with
      | .error f => .error f
      | .ok s1 => match s1.reown c.gid (fun _ => true) false (es.filter (fun x => x.1 ≠ a)) with
        | .error f => .error f
        | .ok s2 => match s2.trimStack c.gid c.g.depth with
          | .error f => .error f
          | .ok s3 => .ok (s3.modGroup c.gid (fun g => { ((g.setMask false e.mask).setMask true 0) with a := { pc := if e.kind = 0 then e.pc else e.join, st := .running }, nextB := false }))

/-- What EXIT does when it may: the group does not retire with register writes outstanding (R42). The stack is read as
the commit of the region leaves it. -/
def State.exitSlot (s : State) (c : Iss) (i : Instr) : Except Flt State :=
  match (s.commitRegion c.gid c.slotB).stack c.gid with
  | .error f => .error f
  | .ok es =>
    if (c.g.slot (!c.slotB)).st = .free && !es.any (fun x => x.2.live) then
      let s := s.stackTook c.gid c.g.stackAddrs
      if s.unfinished c.gid then .ok (s.block c i .exit) else .ok (s.retireGroup c.gid c.slotB)
    else match s.freeSlot c with
      | .error f => .error f
      | .ok s1 => match (if (c.g.slot (!c.slotB)).st = .free then s1.takeEntry c else .ok s1) with
        | .error f => .error f
        | .ok s2 => .ok ((s2.recordAfter c.gid c.pc).stackTook c.gid c.g.stackAddrs)

/-- EXIT (R220); a lane that holds a record forbids it (14 R280). -/
def execExit (o : FOps) (s : State) : Host.Outcome State Fault Refusal :=
  issue2 (.exit o) s (fun c => if c.g.held = [] then none else some (fRegister 0 0 0 0 6))
    (fun c t => t.exitSlot c (.exit o)) (fun c _ t => t.exitSlot c (.exit o))

/-- NOP (R224). -/
def execNop (o : FOps) (s : State) : Host.Outcome State Fault Refusal := issue (.nop o) s free_ (fun _ t => .ok t)

/-- YIELD (R224): the preference begins when its clause has ended. -/
def execYield (o : FOps) (s : State) : Host.Outcome State Fault Refusal :=
  issue (.yield o) s free_ (fun c t => .ok (t.modGroup c.gid (fun g => match (g.slot c.slotB).cl with
    | some k => g.modSlot c.slotB (fun x => { x with cl := some { k with yld := true } })
    | none => { g with yielded := true })))

/-! ### REGROUP (R223) -/

/-- The participants' group slots in ascending group index: resident groups of the team with the role. -/
def State.participants (s : State) (team role : Nat) : List Nat := ((s.team team).gids.filterMap id).filter (fun x => (s.group x).role == role)

/-- Whether a group has nothing outstanding that REGROUP waits for. -/
def Group.quiet (g : Group) : Bool := g.flags = [] && g.counter 0 == 0 && g.counter 4 == 0

/-- The group's REGROUP: its first register, count and destination. -/
def regroupOf (i : Instr) : Option (Nat × Nat × Nat) :=
  match i with
  | .regroup o => some (o.a.toNat, o.c.toNat + 1, o.d.toNat)
  | _ => none

/-- The live lanes of the participants, in order (R223). -/
def liveLanes (gs : List Group) : List (Nat × Nat) := gs.zipIdx.flatMap (fun x => (lanesIn (x.1.mask false)).map (fun L => (x.2, L)))

/-- A participant after the move: lane k of it takes the 32 p + k-th live lane. -/
def regroupOne (gs : List Group) (live : List (Nat × Nat)) (a n d p : Nat) (g : Group) : Group :=
  let mine := (live.drop (32 * p)).take 32
  let m : Word := BitVec.ofNat 32 (2 ^ mine.length - 1)
  let src (k : Nat) : Group × Nat := match mine[k]? with | some x => (gs.getD x.1 {}, x.2) | none => ({}, 0)
  let g1 := (List.range n).foldl (fun (g : Group) r => g.wlanes (a + r) m (fun k => (src k).1.rv (a + r) (src k).2)) g
  let g2 := (List.range 8).foldl (fun (g : Group) q => g.wpred q m (fun k => ((src k).1.rq q).getLsbD (src k).2)) g1
  (g2.setMask false m).ws d (BitVec.ofNat 32 mine.length)

/-- The exchange among the participants, each with its own destination of the count. Each opens its region with the
mask that the exchange leaves (R222, 13 R245). -/
def State.regroupAll (s : State) (ps : List (Nat × Nat)) (a n : Nat) : State :=
  let gs := ps.map (fun p => s.group p.1)
  let live := liveLanes gs
  let cells (p : (Nat × Nat) × Nat) : List RCell :=
    let got := ((live.drop (32 * p.2)).take 32).length
    [⟨1, 0⟩, ⟨1, p.1.2⟩] ++ (if got = 0 then [] else (List.range 8).map (fun q => ⟨2, q⟩)) ++ (List.range n).flatMap (fun r => (List.range got).map (fun L => ⟨0, 32 * (a + r) + L⟩))
  ps.zipIdx.foldl (fun (s : State) p => (s.modGroup p.1.1 (fun g => let g1 := { regroupOne gs live a n p.1.2 p.2 g with wait := none }; g1.record g1.a.pc none)).mendCells p.1.1 (cells p)) s

/-- REGROUP (R223): the last arrival's return moves every participant on. An entry that cannot be read, or is corrupt, is
met as a live one is, under cause group 6 (DESIGN CHOICE, log 77: R217 names the JOIN or EXIT that reads it and no
REGROUP). -/
def execRegroup (o : FOps) (s : State) : Host.Outcome State Fault Refusal :=
  issue2 (.regroup o) s (fun c =>
      let entries := match s.stackNearest c.gid (fun e => e.live) c.g.dsp.toNat c.g.depth with | .ok none => false | _ => true
      if c.slotB || c.g.b.st ≠ .free || entries then some (fConvergence (Instr.regroup o).opcNum true false (c.g.mask c.slotB)) else none)
    (fun c t => .ok (((t.stackTook c.gid c.g.stackAddrs).commitRegion c.gid c.slotB).block c (.regroup o) (.regroup o.a.toNat (o.c.toNat + 1))))
    (fun c w t =>
      let ps := t.participants c.g.team c.g.role
      let all := ps.map (fun p => (p, match (if p = c.gid then some w else (t.group p).wait) with | some x => regroupOf x.instr | none => none))
      if all.all (fun x => match x.2 with | some (a, n, _) => a == o.a.toNat && n == o.c.toNat + 1 | none => false) then
        .ok (t.regroupAll (all.map (fun x => (x.1, match x.2 with | some (_, _, d) => d | none => 0))) o.a.toNat (o.c.toNat + 1))
      else
        .ok (ps.foldl (fun (s : State) p => match (if p = c.gid then some w else (s.group p).wait) with
          | some x => s.trapHeld p x (fSync 0 0 0 0 8)
          | none => s) t))

end Sys2Proof.Machine
end

