-- ==== Sys2Proof/Machine/Packed.lean ====
section
/-! DEFINITION. The packed 16-bit group (08 R156, R157). -/

namespace Sys2Proof.Machine

/-- The element format of the packed group (R156). -/
def halfFmt (o : FOps) : Fmt := if o.ox.getLsbD 0 then bf16 else fp16

/-- Two halves as a word. -/
def joinHalves (lo hi : Nat × FFlags) : Nat × FFlags := (lo.1 + 2 ^ 16 * hi.1, lo.2.or hi.2)

/-- A function of the halves of A and B. -/
def packed2 (i : Instr) (o : FOps) (s : State) (f : Nat → Nat → Nat × FFlags) : Host.Outcome State Fault Refusal :=
  checked1 i o s (fun c t L =>
    let h (k : Nat) : Nat × FFlags := f (nbits (c.a o L).toNat (16 * k) 16) (c.fb t o (halfFmt o) k L)
    joinHalves (h 0) (h 1))

/-- HADD2 (R156). -/
def execHadd2 (o : FOps) (s : State) : Host.Outcome State Fault Refusal := packed2 (.hadd2 o) o s ((halfFmt o).add o.rm)

/-- HMUL2 (R156). -/
def execHmul2 (o : FOps) (s : State) : Host.Outcome State Fault Refusal := packed2 (.hmul2 o) o s ((halfFmt o).mul o.rm)

/-- HFMA2 (R156). -/
def execHfma2 (o : FOps) (s : State) : Host.Outcome State Fault Refusal :=
  checked1 (.hfma2 o) o s (fun c t L =>
    let h (k : Nat) : Nat × FFlags := (halfFmt o).fma o.rm (nbits (c.a o L).toNat (16 * k) 16) (nbits (c.b t o L).toNat (16 * k) 16) (nbits (c.c o L).toNat (16 * k) 16)
    joinHalves (h 0) (h 1))

/-- HMIN2 (R156). -/
def execHmin2 (o : FOps) (s : State) : Host.Outcome State Fault Refusal := packed2 (.hmin2 o) o s (fun a b => ((halfFmt o).minmax false a b, {}))

/-- HMAX2 (R156). -/
def execHmax2 (o : FOps) (s : State) : Host.Outcome State Fault Refusal := packed2 (.hmax2 o) o s (fun a b => ((halfFmt o).minmax true a b, {}))

/-- FDOT2 (R157). -/
def execFdot2 (o : FOps) (s : State) : Host.Outcome State Fault Refusal :=
  checked1 (.fdot2 o) o s (fun c t L =>
    let x (k : Nat) : Nat := nbits (c.a o L).toNat (16 * k) 16
    let y (k : Nat) : Nat := nbits (c.b t o L).toNat (16 * k) 16
    fdot2 (halfFmt o) o.rm (x 0) (y 0) (x 1) (y 1) (c.c o L).toNat)

end Sys2Proof.Machine
end

