-- ==== Sys2Proof/Machine/Convert.lean ====
section
/-! DEFINITION. The conversion group (08 R158 to R165). -/

namespace Sys2Proof.Machine

/-- The float format of a code (R158). -/
def fltFmt : Nat → Fmt
  | 0 => fp32 | 1 => fp16 | 2 => bf16 | 3 => f8h | _ => f8w

/-- The value of an element by its integer format code (R158). -/
def intVal (code x : Nat) : Int :=
  match code with
  | 0 => sext x 32 | 1 => (x % 2 ^ 32 : Nat) | 2 => sext x 8 | _ => sext x 4

/-- The range of an integer format code (R128). -/
def intRange : Nat → Int × Int
  | 0 => (-2 ^ 31, 2 ^ 31 - 1) | 1 => (0, 2 ^ 32 - 1) | 2 => (-128, 127) | _ => (-8, 7)

/-- The check of `.nx`: the context must hold the exception override (R160). -/
def nxCheck (i : Instr) (o : FOps) (s : State) (c : Iss) : Option Flt :=
  let x := s.context c.g.ctx
  if o.ox.getLsbD 6 && !x.nxok then some (fRight x.level 8 0 i.opcNum) else none

/-- A conversion of element si of A into element di of D, `ws` and `wd` bits wide, merged into the old D; with
`.nx` no exception is checked (R158 to R160). -/
def convert (i : Instr) (o : FOps) (s : State) (ws wd : Nat) (f : Nat → Nat × FFlags) : Host.Outcome State Fault Refusal :=
  let si := fld o.c 0 3
  let di := fld o.c 3 3
  issue i s (nxCheck i o s) (fun c t =>
    let rs := (lanesIn (c.active o.g)).map (fun L => (L, f (nbits (c.a o L).toNat (ws * si) ws)))
    match arithFault i.opcNum (if o.ox.getLsbD 6 then 0 else c.g.fpx) (rs.map (fun r => (r.1, r.2.2))) with
    | some e => .error e
    | none => .ok (t.modGroup c.gid (fun g => rs.foldl (fun (g : Group) r => g.wv o.d.toNat r.1 (setField (c.g.rv o.d.toNat r.1) (wd * di) wd r.2.1)) g)))

/-- CVTFF (R159). -/
def execCvtff (o : FOps) (s : State) : Host.Outcome State Fault Refusal :=
  let src := fltFmt (fld o.ox 0 3)
  let dst := fltFmt (fld o.ox 3 3)
  convert (.cvtff o) o s src.width dst.width (fun x => dst.round o.rm o.sat (src.decode x))

/-- CVTFI (R159, R132). -/
def execCvtfi (o : FOps) (s : State) : Host.Outcome State Fault Refusal :=
  let src := fltFmt (fld o.ox 0 3)
  let r := intRange (fld o.ox 3 3)
  let w := (intWidth (fld o.ox 3 3)).getD 32
  convert (.cvtfi o) o s src.width w (fun x => (wrap (toIntSat o.rm r.1 r.2 (src.decode x)).1 w, (toIntSat o.rm r.1 r.2 (src.decode x)).2))

/-- CVTIF (R159). -/
def execCvtif (o : FOps) (s : State) : Host.Outcome State Fault Refusal :=
  let dst := fltFmt (fld o.ox 3 3)
  convert (.cvtif o) o s ((intWidth (fld o.ox 0 3)).getD 32) dst.width (fun x => dst.round o.rm o.sat (.ofInt (intVal (fld o.ox 0 3) x)))

/-- CVTII (R159). -/
def execCvtii (o : FOps) (s : State) : Host.Outcome State Fault Refusal :=
  let r := intRange (fld o.ox 3 3)
  let w := (intWidth (fld o.ox 3 3)).getD 32
  lanewise (.cvtii o) o s (fun c _ L =>
    let ws := (intWidth (fld o.ox 0 3)).getD 32
    let x := intVal (fld o.ox 0 3) (nbits (c.a o L).toNat (ws * fld o.c 0 3) ws)
    setField (c.g.rv o.d.toNat L) (w * fld o.c 3 3) w (wrap (if o.sat then clamp x r.1 r.2 else x) w))

/-- A value of PACK8 (R161). -/
def toByte (fmt : Nat) (mode : RMode) (sat : Bool) (x : Nat) : Nat × FFlags :=
  match fmt with
  | 0 => f8h.round mode sat (fp32.decode x)
  | 1 => f8w.round mode sat (fp32.decode x)
  | _ => (wrap (toIntSat mode (-128) 127 (fp32.decode x)).1 8, (toIntSat mode (-128) 127 (fp32.decode x)).2)

/-- PACK8 (R161). -/
def execPack8 (o : FOps) (s : State) : Host.Outcome State Fault Refusal :=
  checked1 (.pack8 o) o s (fun c t L =>
    let h := 16 * fld o.c 0 1
    let x := toByte (fld o.ox 0 2) o.rm o.sat (c.a o L).toNat
    let y := toByte (fld o.ox 0 2) o.rm o.sat (c.b t o L).toNat
    ((setField (c.g.rv o.d.toNat L) h 16 (x.1 + 256 * y.1)).toNat, x.2.or y.2))

/-- UNPK8 (R161). -/
def execUnpk8 (o : FOps) (s : State) : Host.Outcome State Fault Refusal :=
  lanewise1 (.unpk8 o) o s (fun a =>
    let x := nbits a.toNat (8 * fld o.c 0 2) 8
    BitVec.ofNat 32 (match fld o.ox 0 2 with
      | 0 => f8h.widen x
      | 1 => f8w.widen x
      | _ => (fp32.round .rne false (.ofInt (sext x 8))).1))

/-! ### Q4X (R162, R163) -/

/-- The exact quotient of an element by a finite non-zero scale. -/
def quotient (x s : Val) : Val :=
  match x, s with
  | .fin n m e _, .fin _ m' e' _ => if m = 0 then .zero n else divVals n m e m' e'
  | v, _ => v

/-- Whether |a| is larger than |b|, NaN counting largest (R162). -/
def larger (a b : Val) : Bool :=
  match a, b with
  | _, .nan => false
  | .nan, _ => true
  | _, .inf _ => false
  | .inf _, _ => true
  | .fin _ m e s, .fin _ m' e' s' =>
    let q := min e e'
    let x := 2 * (m <<< (e - q).toNat) + s.toNat
    let y := 2 * (m' <<< (e' - q).toNat) + s'.toNat
    decide (y < x)

/-- The rounded slot of a scaled element and whether it is a candidate for the outlier. -/
def slotOfVal (mode : RMode) (y : Val) : Nat × Bool :=
  match y with
  | .fin n m e s =>
    let r := (roundInt mode n m e s).1
    (wrap (clamp r (-7) 7) 4, decide (7 < r.natAbs))
  | .inf n => (if n then 9 else 7, true)
  | .nan => (0, true)

/-- One quad of PACKQ: its 16 bits and whether its outlier code overflowed. -/
def packQuad (mode : RMode) (sat : Bool) (ys : List Val) : Nat × Bool :=
  let sl := ys.map (slotOfVal mode)
  let y (t : Nat) : Val := ys.getD t .nan
  let cands := (List.range 4).filter (fun t => (sl.getD t (0, false)).2)
  let bare := sl.zipIdx.foldl (fun a x => a + x.1.1 * 2 ^ (4 * x.2)) 0
  match cands with
  | [] => (bare, false)
  | c0 :: cs =>
    let o := cs.foldl (fun b t => if larger (y t) (y b) then t else b) c0
    let r := f8h.round mode sat (y o)
    let code := if o = 3 && r.1 % 16 = 8 then r.1 - 1 else r.1
    let put (q t v : Nat) : Nat := q - nbits q (4 * t) 4 * 2 ^ (4 * t) + v * 2 ^ (4 * t)
    (put (put (put bare o 8) ((o + 1) % 4) (code % 16)) ((o + 2) % 4) (code / 16), r.2.ov)

/-- Whether two values differ; NaN equals NaN. -/
def differs (a b : Val) : Bool :=
  match a, b with
  | .nan, .nan => false
  | .nan, _ => true
  | _, .nan => true
  | a, b => a.cmp b ≠ .eq

/-- PACKQ of the 32 elements of a lane (R162): four words and the exceptions. -/
def packq (f : Fmt) (mode : RMode) (sat : Bool) (scale : Nat) (xs : List Nat) : List Nat × FFlags :=
  let sc := sc8 scale
  let bad := sc.isNan || sc.isZero
  let vs := xs.map f.decode
  let quads := (List.range 8).map (fun n =>
    if bad then (0x07C8, false) else packQuad mode sat ((List.range 4).map (fun t => quotient (vs.getD (4 * n + t) .nan) sc)))
  let q (n : Nat) : Nat := (quads.getD n (0, false)).1
  let nx := (List.range 32).any (fun k => differs (scaled (q4x (q (k / 4)) (k % 4)) sc) (vs.getD k .nan))
  ((List.range 4).map (fun r => q (2 * r) + 2 ^ 16 * q (2 * r + 1)), { inv := bad, ov := quads.any (·.2), nx := nx })

/-- PACKQ (R162). -/
def execPackq (o : FOps) (s : State) : Host.Outcome State Fault Refusal :=
  checked (.packq o) o s true (fun c t L =>
    packq (halfFmt o) o.rm o.sat (nbits (c.b t o L).toNat 0 8) ((List.range 32).map (fun k => nbits (c.g.rv (o.a.toNat + k / 2) L).toNat (16 * (k % 2)) 16)))

/-- UNPKQ of the two quads of a word (R163): four words and the exceptions. -/
def unpkq (f : Fmt) (mode : RMode) (sat : Bool) (scale w : Nat) : List Nat × FFlags :=
  let es := (List.range 8).map (fun k => f.round mode sat (scaled (q4x (nbits w (16 * (k / 4)) 16) (k % 4)) (sc8 scale)))
  let e (k : Nat) : Nat := (es.getD k (0, {})).1
  ((List.range 4).map (fun r => e (2 * r) + 2 ^ 16 * e (2 * r + 1)), es.foldl (fun a x => a.or x.2) {})

/-- UNPKQ (R163). -/
def execUnpkq (o : FOps) (s : State) : Host.Outcome State Fault Refusal :=
  checked (.unpkq o) o s true (fun c t L => unpkq (halfFmt o) o.rm o.sat (nbits (c.b t o L).toNat 0 8) (c.a o L).toNat)

/-- KEYF (R164). -/
def execKeyf (o : FOps) (s : State) : Host.Outcome State Fault Refusal :=
  lanewise1 (.keyf o) o s (fun a =>
    BitVec.ofNat 32 (if o.ox.getLsbD 3 then keyInverse a.toNat
      else orderKey (o.ox.getLsbD 2) (match fld o.ox 0 2 with
        | 0 => a.toNat
        | 1 => fp16.widen (nbits a.toNat 0 16)
        | _ => fp16.widen (nbits a.toNat 16 16))))

/-- The target of QSCL (R165). -/
def qsclTarget : Nat → Nat
  | 0 => 7 | 1 => 7 | 2 => 127 | 3 => 240 | _ => 57344

/-- The scale code of QSCL and its exceptions (R165). -/
def qscl (target : Nat) (a : Nat) : Nat × FFlags :=
  match fp32.decode a with
  | .fin _ m e _ => if m = 0 then (0x78, {}) else toSc8 .rup (divVals false m e target 0)
  | _ => (0xFF, { inv := true })

/-- QSCL (R165). -/
def execQscl (o : FOps) (s : State) : Host.Outcome State Fault Refusal :=
  checked1 (.qscl o) o s (fun c _ L =>
    let r := qscl (qsclTarget (fld o.ox 0 3)) (c.a o L).toNat
    ((setField (c.g.rv o.d.toNat L) (8 * fld o.c 0 2) 8 r.1).toNat, r.2))

end Sys2Proof.Machine
end

