-- ==== Sys2Proof/Machine/Matrix.lean ====
section
/-! DEFINITION. The matrix unit (09): the values of MMA, MMAS, DRAIN and the add-on-store, the activation
tables, and the issue of the matrix group. What the unit does with an instruction it has taken stands in
MatrixEvents. -/

namespace Sys2Proof.Machine

/-! ### Values -/

/-- Element formats of the pairs of R175. -/
inductive ElemFmt where
  | flt (f : Fmt) | int (signed : Bool) (w : Nat) | q4
deriving DecidableEq, Repr

/-- The formats of A and B by pair code (R175). -/
def pairFmts : Nat → ElemFmt × ElemFmt
  | 0 => (.flt bf16, .flt bf16)
  | 1 => (.flt fp16, .flt fp16)
  | 2 => (.flt f8h, .flt f8h)
  | 3 => (.flt f8h, .flt f8w)
  | 4 => (.flt f8w, .flt f8h)
  | 5 => (.flt f8w, .flt f8w)
  | 6 => (.int true 8, .int true 8)
  | 7 => (.int false 8, .int true 8)
  | 8 => (.int true 8, .int false 8)
  | 9 => (.int false 8, .int false 8)
  | 10 => (.int true 4, .int true 4)
  | 11 => (.q4, .q4)
  | 12 => (.q4, .int true 4)
  | _ => (.int true 4, .q4)

/-- Bits of an element. -/
def ElemFmt.width : ElemFmt → Nat
  | .flt f => f.width
  | .int _ w => w
  | .q4 => 4

/-- The value of element `k` of a row held as 16 words (R171, R134). -/
def ElemFmt.value (f : ElemFmt) (row : List Word) (k : Nat) : Val :=
  let w := f.width
  let e := 32 / w
  let x := (row.getD (k / e) 0).toNat
  match f with
  | .flt g => g.decode (nbits x (w * (k % e)) w)
  | .int s n => .ofInt (if s then sext (nbits x (n * (k % e)) n) n else (nbits x (n * (k % e)) n : Int))
  | .q4 => q4x (nbits x (16 * (k % 8 / 4)) 16) (k % 4)

/-- K and the block length kb of a pair (R175). -/
def pairK (p : Nat) : Nat := if p < 2 then 32 else if p < 10 then 64 else 128
def pairBlock (p : Nat) : Nat := pairK p / 4

/-- The scale of block `k div 32` in a scale word (R138). -/
def scaleAt (w : Word) (bytesel k : Nat) : Val := sc8 (nbits w.toNat (8 * ((bytesel + k / 32) % 4)) 8)

/-- The word of a float operation for one output element (R176): `p k` is the exact product at k. -/
def floatDot (p : Nat → Val) (K kb : Nat) (start : Word) : Word :=
  BitVec.ofNat 32 ((List.range (K / kb)).foldl (fun acc n =>
    let S := (sumVals .rne ((List.range kb).map (fun k => p (n * kb + k)))).1
    (fp32.round .rne false (sumVals .rne [fp32.decode acc, S]).1).1) start.toNat)

end Sys2Proof.Machine

namespace Sys2Proof

/-- The integer value of an element. -/
def Val.toInteger : Val → Int
  | .fin n m _ _ => if n then -(m : Int) else m
  | _ => 0

end Sys2Proof

namespace Sys2Proof.Machine

/-- The word of an integer operation (R177). -/
def integerDot (a b : Nat → Int) (K : Nat) (sat : Bool) (start : Int) : Word :=
  let t := (List.range K).foldl (fun (s : Int) k => s + a k * b k) start
  if sat then word (clamp t (-2 ^ 31) (2 ^ 31 - 1)) else word t

/-- Row i of A and column j of B as 16 words each. -/
def rowOfA (a : List Word) (i : Nat) : List Word := (List.range 16).map (fun k => a.getD (32 * k + i) 0)
def Group.colOfB (g : Group) (tile j : Nat) : List Word := (List.range 16).map (fun k => g.rt tile (16 * j + k))

/-- The words that MMA or MMAS writes (R176, R177): A as captured at issue, B as the tile stands. -/
def Group.mma (g : Group) (d pair_ : Nat) (z sat : Bool) (a : List Word) (tile : Nat) (scales : Option (List Word × List Word × Nat)) : List (RCell × Word) :=
  let fs := pairFmts pair_
  let K := pairK pair_
  let cols := (List.range 32).map (fun j => let c := g.colOfB tile j; (List.range K).map (fun k => fs.2.value c k))
  (List.range 32).flatMap (fun i =>
    let r := rowOfA a i
    let row := (List.range K).map (fun k => fs.1.value r k)
    (List.range 32).map (fun j =>
      let col := cols.getD j []
      let prods := (row.zip col).zipIdx
      let old := g.racc d i j
      let w : Word := match scales with
        | none =>
          if 6 ≤ pair_ && pair_ ≤ 10 then integerDot (fun k => (row.getD k .nan).toInteger) (fun k => (col.getD k .nan).toInteger) K sat (if z then 0 else old.toInt)
          else
            let ps := prods.map (fun x => (mulVals x.1.1 x.1.2).1)
            floatDot (fun k => ps.getD k .nan) K (pairBlock pair_) (if z then 0 else old)
        | some (sa, sb, sel) =>
          let ps := prods.map (fun x => scaled (scaled (mulVals x.1.1 x.1.2).1 (scaleAt (sa.getD i 0) sel x.2)) (scaleAt (sb.getD j 0) sel x.2))
          floatDot (fun k => ps.getD k .nan) K (pairBlock pair_) (if z then 0 else old)
      (⟨4, 1024 * d + 32 * i + j⟩, w)))

/-- The sum of two words by the arithmetic of ALOAD `.add` (R181). -/
def accAdd (int : Bool) (x y : Word) : Word := if int then x + y else BitVec.ofNat 32 (fp32.add .rne x.toNat y.toNat).1

/-- The activation of a value through a table slot (R183). Of zeros of opposite sign the comparison keeps x (DESIGN CHOICE,
log 79: R183 does not say which zero max and min give). -/
def ActTable.act (t : ActTable) (x : Val) : Val :=
  if !t.valid || x.isNan then .nan
  else
    let lo := fp32.decode t.lo.toNat
    let hi := fp32.decode t.hi.toNat
    let y := if x.cmp lo = .lt then lo else x
    let xc := if y.cmp hi = .gt then hi else y
    let num := (sumVals .rne [xc, lo.negate]).1
    let den := (sumVals .rne [hi, lo.negate]).1
    let e0 := num.exp (den.exp 4096)
    let s := min ((num.atExp e0).toNat * 64 / (den.atExp e0).toNat) 63
    let seg := t.seg.getD s (0, 0)
    let m := (fp32.round .rne false (mulVals (fp32.decode seg.1.toNat) xc).1).1
    fp32.decode (fp32.round .rne false (sumVals .rne [fp32.decode m, fp32.decode seg.2.toNat]).1).1

/-- Output formats of DRAIN (R184): the float format, or none for an integer; and its width in bits. -/
def drainFmt : Nat → Option Fmt
  | 0 => some fp32 | 1 => some bf16 | 2 => some fp16 | 3 => some f8h | 4 => some f8w | _ => none
def drainWidth : Nat → Nat
  | 0 => 32 | 1 => 16 | 2 => 16 | 3 => 8 | 4 => 8 | 5 => 32 | _ => 8

/-- One element through the stages of R186. -/
def drainElem (int : Bool) (fmt cmd : Nat) (bias scale w : Word) (t : ActTable) : Nat :=
  let x0 := if int then Val.ofInt w.toInt else fp32.decode w.toNat
  let x1 := if cmd.testBit 0 then fp32.decode (fp32.round .rne false (sumVals .rne [x0, fp32.decode bias.toNat]).1).1 else x0
  let x2 := if cmd.testBit 1 then t.act x1 else x1
  let y := if cmd.testBit 2 then (mulVals x2 (fp32.decode scale.toNat)).1 else x2
  match drainFmt fmt with
  | some f => (f.round .rne (cmd.testBit 2) y).1
  | none => if fmt = 5 then wrap (toIntSat .rne (-2 ^ 31) (2 ^ 31 - 1) y).1 32 else wrap (toIntSat .rne (-128) 127 y).1 8

/-- Row i of a drain, packed by R124 into words (R187). -/
def Group.drainRow (g : Group) (acc : Nat) (int : Bool) (fmt cmd : Nat) (scale : Word) (bias : List Word) (t : ActTable) (i : Nat) : List Word :=
  let w := drainWidth fmt
  let e := 32 / w
  (List.range (32 / e)).map (fun k => BitVec.ofNat 32 ((List.range e).foldl (fun x p =>
    let j := k * e + p
    x + drainElem int fmt cmd (bias.getD j 0) scale (g.racc acc i j) t * 2 ^ (w * p)) 0))

/-- One element of an add-on-store (R189). -/
def addOnStore (fmt old new : Nat) : Nat :=
  match drainFmt fmt with
  | some f => (f.add .rne old new).1
  | none => (old + new) % 2 ^ 32

/-! ### Issue (R169) -/

/-- The convergence check (R169). -/
def converged (i : Instr) (c : Iss) : Option Flt :=
  let m := c.g.mask c.slotB
  if i.guardOf ≠ .none || m ≠ 0xFFFFFFFF then some (fConvergence i.opcNum false (decide (i.guardOf ≠ .none)) m) else none

/-- Queues an instruction for the unit of the core (R170). -/
def State.queueMx (s : State) (c : Iss) (op : Nat) (work : MxWork) (sp : Bool := false) (rows : List Nat := []) : State :=
  s.modCore (coreOf c.gid) (fun k => { k with mx := k.mx ++ [{ op := op, gid := c.gid, team := c.g.team, work := work, sp := sp, rows := rows }] })

/-- Issues an instruction of the unit that reads nothing else: an operation on MX with one part, its work. -/
def mxIssue (i : Instr) (s : State) (work : Iss → State → MxWork) : Host.Outcome State Fault Refusal :=
  issue i s (converged i) (fun c t =>
    let n := t.newOp c i (some 3) .none 1
    .ok (n.2.queueMx c n.1 (work c t)))

/-- The A operand of MMA as 512 words, word 32 k + i from lane i of register k (R171, R172). -/
def Iss.aBlock (c : Iss) (o : FOps) : List Word := (List.range 512).map (fun n => c.g.rv (o.a.toNat + n / 32) (n % 32))

/-- MMA and MMAS: A and the scales are read at issue, and the latch names A (R172, R173). -/
def mmaIssue (i : Instr) (o : FOps) (s : State) (sat : Bool) (scales : Iss → Option (List Word × List Word × Nat)) : Host.Outcome State Fault Refusal :=
  issue i s (converged i) (fun c t =>
    let n := t.newOp c i (some 3) .none 1
    .ok ((n.2.queueMx c n.1 (.mma o.d.toNat (fld o.ox 0 4) (o.ox.getLsbD 4) sat (c.aBlock o) o.b.toNat (scales c))).modGroup c.gid (fun g => { g with latch := some o.a.toNat })))

/-- MMA (R174, R176, R177). -/
def execMma (o : FOps) (s : State) : Host.Outcome State Fault Refusal := mmaIssue (.mma o) o s o.sat (fun _ => none)

/-- MMAS (R174, R176). -/
def execMmas (o : FOps) (s : State) : Host.Outcome State Fault Refusal :=
  mmaIssue (.mmas o) o s false (fun c => some ((List.range 32).map (fun i => c.g.rv o.c.toNat i), (List.range 32).map (fun i => c.g.rv (o.c.toNat + 1) i), fld o.ox 6 2))

/-- ACLR (R179). -/
def execAclr (o : FOps) (s : State) : Host.Outcome State Fault Refusal := mxIssue (.aclr o) s (fun _ _ => .aclr o.d.toNat)

/-- AMOV (R180). -/
def execAmov (o : FOps) (s : State) : Host.Outcome State Fault Refusal := mxIssue (.amov o) s (fun _ _ => .amov o.d.toNat o.a.toNat (fld o.c 0 5) (amovN o))

/-- The addresses of `n` words from each row's start. -/
def wordAddrs (n : Nat) (rows : List Nat) : List Nat := rows.flatMap (fun a => (List.range n).map (fun j => a + 4 * j))

/-- Word addresses after the remap filter, each for itself: what lies beyond a 64 KiB boundary is remapped by its own
page (03 R61). -/
def Iss.remapWords (c : Iss) (s : State) (as : List Nat) : List Nat := as.map (fun a => (s.core (coreOf c.gid)).remap c.g.tenant a)

/-- Rows of an ALOAD from `base` with a signed pitch. -/
def aloadRow (base : Int) (stride : Int) (i : Nat) : Int := base + stride * i

/-- The checks of ALOAD (R181), and the row addresses. -/
def aloadRows (limit : Nat) (sp : Bool) (base : Nat) (stride : Int) : Except Flt (List Nat) :=
  if base % 16 ≠ 0 then .error (fAlign sp.toNat 0 4 base)
  else if stride % 16 ≠ 0 then .error (fAlign sp.toNat 0 4 (wrap (base + stride) 56))
  else
    let rows := (List.range 32).map (fun i => aloadRow base stride i)
    if sp then
      match rows.find? (fun a => decide (a < 0) || decide ((limit : Int) < a + 128)) with
      | some a => .error (fScratch (wrap a 32))
      | none => .ok (rows.map Int.toNat)
    else
      let as := rows.map (fun a => wrap a 64)
      match as.find? (fun a => decide (2 ^ 56 ≤ a) || decide (2 ^ 56 < a + 128)) with
      | some a => .error (fTranslation 0 3 0 3 a)
      | none => .ok as

/-- ALOAD (R181): the reads start at issue; the unit applies the rows once they have returned. -/
def execAload (o : FOps) (s : State) : Host.Outcome State Fault Refusal :=
  issue (.aload o) s (converged (.aload o)) (fun c t =>
    let sp := o.ox.getLsbD 0
    let base := if sp then (c.g.rs o.a.toNat).toNat else (c.g.rpair o.a.toNat).toNat
    match aloadRows (t.team c.g.team).scratchSize sp base (c.g.rs o.b.toNat).toInt with
    | .error f => .error f
    | .ok rows =>
      let work : MxWork := .aload o.d.toNat (o.ox.getLsbD 1) (o.ox.getLsbD 2)
      if sp then
        match t.spPoison c.g.team (spBytes 128 rows) with
        | some f => .error f
        | none =>
        let n := (t.spRead c.g.team (spBytes 128 rows)).newOp c (.aload o) (some 3) .none 1
        let got := rows.zipIdx.flatMap (fun r => (List.range 128).map (fun k => (128 * r.2 + k, (t.scratchNum c (r.1 + k) 1))))
        let s1 := match n.2.op n.1 with | some x => n.2.putOp n.1 { x with got := got } | none => n.2
        .ok (s1.queueMx c n.1 work true (wordAddrs 32 ((List.range 32).map (fun i => 128 * i))))
      else
        let as := c.remapWords t (wordAddrs 32 rows)
        let lines := touchedLines 4 (as.map (fun a => (0, a)))
        let s0 := t.flushLines c.gid (lines.map (·.1))
        let ownB := lines.foldl (fun d l => overlay d (c.g.ownBytes .global l.1)) ([] : Table Byte)
        let n := s0.newOp c (.aload o) (some 3) .none (lines.length + 1)
        let s1 := match n.2.op n.1 with | some x => n.2.putOp n.1 { x with laid := ownB } | none => n.2
        .ok ((s1.queueMx c n.1 work false as).requestLines { ops := [n.1], gid := c.gid, core := coreOf c.gid, ctx := c.g.ctx, tenant := c.g.tenant, kind := .load, line := 0 } none lines))

/-- ATBL (R182): its 528 bytes are read like a load. -/
def execAtbl (o : FOps) (s : State) : Host.Outcome State Fault Refusal :=
  issue (.atbl o) s (converged (.atbl o)) (fun c t =>
    let base := (c.g.rpair o.a.toNat).toNat
    if 2 ^ 56 < base + 528 then .error (fTranslation 0 3 0 3 base)
    else if base % 16 ≠ 0 then .error (fAlign 0 0 4 base)
    else
      let as := c.remapWords t (wordAddrs 132 [base])
      let lines := touchedLines 4 (as.map (fun a => (0, a)))
      let s0 := t.flushLines c.gid (lines.map (·.1))
      let ownB := lines.foldl (fun d l => overlay d (c.g.ownBytes .global l.1)) ([] : Table Byte)
      let n := s0.newOp c (.atbl o) (some 3) .none (lines.length + 1)
      let s1 := match n.2.op n.1 with | some x => n.2.putOp n.1 { x with laid := ownB } | none => n.2
      .ok ((s1.queueMx c n.1 (.atbl (fld o.ox 0 1) base) false as).requestLines { ops := [n.1], gid := c.gid, core := coreOf c.gid, ctx := c.g.ctx, tenant := c.g.tenant, kind := .load, line := 0 } none lines))

/-- The checks of DRAIN at issue (R185), in the order in which R185 lists them. -/
def drainCheck (c : Iss) (t : State) (o : FOps) (cmd base : Nat) : Option Flt :=
  let dest := fld o.ox 0 2
  let stride := nbits cmd 16 16
  let row := 32 * drainBytes o
  let space := if dest = 0 then 1 else 0
  let bias : Reg := ⟨.vec, o.b.toNat⟩
  if nbits cmd 5 11 ≠ 0 || cmd.testBit 3 || (dest = 2 && stride ≠ 0) then some (fEncoding false 2 (Instr.drain o).wordOf)
  else if dest ≠ 2 && stride % 16 ≠ 0 then some (fAlign space 0 4 (base + stride))
  else if dest ≠ 2 && base % 16 ≠ 0 then some (fAlign space 0 4 base)
  else if o.ox.getLsbD 6 && base % row ≠ 0 then some (fAlign space 0 (Nat.log2 row) base)
  else if o.ox.getLsbD 6 && stride % row ≠ 0 then some (fAlign space 0 (Nat.log2 row) (base + stride))
  else
    let rows := (List.range 32).map (fun i => base + i * stride)
    let limit := (t.team c.g.team).scratchSize
    match (if dest = 0 then rows.find? (fun a => decide (limit < a + row)) else none) with
    | some a => some (fScratch a)
    | none => match (if dest = 1 then rows.find? (fun a => decide (2 ^ 56 < a + row)) else none) with
      | some a => some (fTranslation (if o.ox.getLsbD 6 then 2 else 1) 3 0 3 a)
      | none =>
        if !cmd.testBit 0 then none
        else if !c.g.allocated bias then some (fUnallocated bias)
        else firstPending c.g false [bias]

/-- DRAIN (R184 to R188): it commits the region; the command, scale and bias are read at issue. -/
def execDrain (o : FOps) (s : State) : Host.Outcome State Fault Refusal :=
  issue (.drain o) s (converged (.drain o)) (fun c t =>
    let dest := fld o.ox 0 2
    let cmd := (c.g.rs o.c.toNat).toNat
    let base := match dest with | 0 => (c.g.rs o.d.toNat).toNat | 1 => (c.g.rpair o.d.toNat).toNat | _ => o.d.toNat
    match drainCheck c t o cmd base with
    | some f => .error f
    | none =>
      let n := (t.commitRegion c.gid c.slotB).newOp c (.drain o) (some 3) .none 1
      let bias := if cmd.testBit 0 then (List.range 32).map (fun j => c.g.rv o.b.toNat j) else []
      .ok (n.2.queueMx c n.1 (.drain o.a.toNat dest base (nbits cmd 16 16) (fld o.ox 2 3) (o.ox.getLsbD 5) (o.ox.getLsbD 6) cmd (c.g.rs (o.c.toNat + 1)) bias)))

/-- DREPL (R191): privileged by DRP. -/
def execDrepl (o : FOps) (s : State) : Host.Outcome State Fault Refusal :=
  issue (.drepl o) s (fun c => match converged (.drepl o) c with
    | some f => some f
    | none => if s.ctxRight c.g.ctx 7 then none else some (fRight (s.context c.g.ctx).level 7 0 (Instr.drepl o).opcNum))
    (fun c t =>
      let n := t.newOp c (.drepl o) (some 3) .none 1
      .ok (n.2.queueMx c n.1 (.drepl (c.bs t o).toNat c.g.ctx)))

end Sys2Proof.Machine
end

