-- ==== Sys2Proof/Machine/Nodes.lean ====
section
/-! DEFINITION. The task unit's nodes (14 R262 to R266): bins, acceptance, batches, the service of blocked
DEQs, and the drover of a commute set (R271 to R274). -/

namespace Sys2Proof.Machine

/-! ### Nodes and bins -/

/-- A node's key: 4096 × die + index. -/
def nodeKey (h : Word) : Nat := 4096 * nbits h.toNat 13 5 + nbits h.toNat 0 12
/-- The handle word of a node of this module (R262). -/
def State.nodeHandle (s : State) (key : Nat) : Word := BitVec.ofNat 32 (2 ^ 31 + s.hub.module % 2 ^ 13 * 2 ^ 18 + key / 4096 * 2 ^ 13 + key % 4096)

def State.node (s : State) (ctx key : Nat) : Node := tget {} key (s.context ctx).nodes
def State.modNode (s : State) (ctx key : Nat) (f : Node → Node) : State := s.modContext ctx (fun c => { c with nodes := tput key (f (tget {} key c.nodes)) c.nodes })

def Node.depth (n : Node) : Nat := n.bin.length + n.ovf.length
/-- Words of a node's records (R263). -/
def Node.words (n : Node) : Nat := 4 * 2 ^ n.rsz
/-- A record padded or cut to the node's size (R264). -/
def Node.fit (n : Node) (rec : List Word) : List Word := (rec ++ List.replicate 32 0).take n.words
/-- Adds a record at the end of the bin; the timer starts when the bin was empty (R264). -/
def Node.add (n : Node) (now : Nat) (rec : List Word) : Node :=
  let n1 := if n.depth = 0 then { n with started := some now } else n
  if n.ovf = [] ∧ n.bin.length < 256 then { n1 with bin := n1.bin ++ [n.fit rec] } else { n1 with ovf := n1.ovf ++ [n.fit rec] }
/-- Takes the `k` oldest records, and moves records from the overflow ring back on die; a bin that this empties is no
longer due (R264). -/
def Node.take (n : Node) (k : Nat) : List (List Word) × Node :=
  let all := n.bin ++ n.ovf
  let rest := all.drop k
  let n1 : Node := { n with bin := rest.take 256, ovf := rest.drop 256, ovfHead := (n.ovfHead + (n.ovf.length - (rest.length - 256))) % max 1 n.ovfCap }
  (all.take k, if rest = [] && all ≠ [] then { n1 with due := false, started := none } else n1)

/-- Places of a node that slice launch queues have reserved (10 R205, R206). -/
def State.reserved (s : State) (ctx key : Nat) : Nat :=
  s.slices.foldl (fun n x => n + (x.2.slq.filter (fun e => e.ctx == ctx && nodeKey e.handle == key)).length) 0

/-- The router that a set index names, where one is loaded: its die, number and state (R270). -/
def State.routerOf (s : State) (ctx set : Nat) : Option (Nat × Nat × Router) :=
  s.dies.findSome? (fun d => (d.2.routers.find? (fun r => r.2.ctx == ctx && r.2.set == set)).map (fun r => (d.1, r.1, r.2)))

/-- Entry records that wait for a router: what its entry node's bin holds (14 R264, R271). -/
def Router.entries (r : Router) : Nat := (r.events.filter (fun e => match e with | .entry _ _ => true | _ => false)).length

/-- The records of a node's bin; those of an entry node wait among its router's events. -/
def State.nodeDepth (s : State) (ctx key : Nat) : Nat :=
  let x := s.node ctx key
  if x.mode = 2 then (match s.routerOf ctx x.set with | some r => r.2.2.entries | none => 0) else x.depth

/-- The router and stage of a commute stage node. -/
def State.stageOf (s : State) (ctx key : Nat) : Option (Router × Nat) :=
  ((s.die (key / 4096)).routers.find? (fun r => r.2.ctx == ctx && decide (r.2.entry < key % 4096) && decide (key % 4096 ≤ r.2.entry + r.2.stages))).map (fun r => (r.2, key % 4096 - r.2.entry - 1))

/-- The kind of refusal of `n` records at a node (R264), if it refuses them. -/
def State.refuses (s : State) (ctx key n : Nat) : Option Nat :=
  let x := s.node ctx key
  if !x.v || (x.mode == 2 && (s.routerOf ctx x.set).isNone) then some 2
  else if !x.en then some 3
  else if 256 + x.ovfCap < s.nodeDepth ctx key + s.reserved ctx key + n then some 4
  else none

/-- A fault that the task unit of a die finds (16 R306). -/
def State.taskFault (s : State) (ctx die : Nat) (f : Flt) (req : Nat) : State :=
  s.raiseEngine ctx f { kind := 3, number := 0, die := die, cause := f.cause, detail := f.detail, group := 0, req := req, prog := 0, addr := nbits f.detail.toNat 0 56, time := s.devTime }

/-! ### The overflow ring (R264) -/

/-- The slot `i` places on from the first of the overflow ring. -/
def Node.ringSlot (n : Node) (i : Nat) : Nat := n.ovfBase + (n.ovfHead + i) % max 1 n.ovfCap * (4 * n.words)

/-- Writes a record into slot `i` of the ring. -/
def State.putRing (s : State) (ctx key i : Nat) (rec : List Word) : State :=
  let n := s.node ctx key
  let bs := byLine ((n.fit rec).zipIdx.flatMap (fun w => bytesAt (n.ringSlot i + 4 * w.2) w.1.toNat 4))
  match s.slicePokes ctx { wr := true } .engineWrite bs (some (key / 4096)) with
  | .ok s2 => s2
  | .error f => (s.pokesMet ctx { wr := true } .engineWrite bs (some (key / 4096))).taskFault ctx (key / 4096) f (n.ringSlot i)

/-- Reads the record in slot `i` of the ring; one that cannot be read is left as it was (log 50). -/
def State.getRing (s : State) (ctx key i : Nat) : Option (List Word) × State :=
  let n := s.node ctx key
  let s1 := State.peekedRuns (some (key / 4096)) ctx { rd := true } .engineRead (lineRuns (n.ringSlot i) (4 * n.words)) s
  match s.slicePeeks ctx { rd := true } .engineRead (n.ringSlot i) (4 * n.words) (some (key / 4096)) with
  | .ok bs => (some ((List.range n.words).map (fun w => BitVec.ofNat 32 (ofBytes ((bs.drop (4 * w)).take 4)))), s1)
  | .error f => (none, (s.logPeek ctx { rd := true } .engineRead (n.ringSlot i) (4 * n.words) (some (key / 4096))).taskFault ctx (key / 4096) f (n.ringSlot i))

/-- The records that leave the ring once `k` records leave the bin, as the ring holds them. -/
def State.fromRing (s : State) (ctx key k : Nat) : State :=
  let n := s.node ctx key
  if n.ovf = [] then s
  else (List.range (min n.ovf.length (k + 256 - n.bin.length))).foldl (fun (s : State) i =>
    let r := s.getRing ctx key i
    match r.1 with
    | some w => r.2.modNode ctx key (fun n => { n with ovf := n.ovf.set i w })
    | none => r.2) s

/-! ### Batches (R265) -/

/-- Launches the template of a spawn node with a batch; a LNCH that fired it may replace its ARG (R281). -/
def State.spawn (s : State) (ctx key : Nat) (recs : List (List Word)) (fired : Bool) (arg : Option DWord) : State :=
  match (s.node ctx key).template with
  | none => s
  | some l =>
    let f := s.fresh
    let l1 := match arg with | some a => { l with arg := a } | none => l
    let g : Grid := { ctx := ctx, die := key / 4096, queue := 16, launch := { l1 with dep := false }, ready := s.ctxTime ctx, eff := l.prio, waitSince := s.ctxTime ctx, spawned := true, fired := fired, batch := recs, batchNode := key }
    { f.2 with grids := tput f.1 g f.2.grids }

/-- Forms a batch of the oldest records; the timer restarts when records are left (R264). -/
def State.batch (s : State) (ctx key : Nat) (fired : Bool) (arg : Option DWord) : State :=
  let s := s.fromRing ctx key (min (s.node ctx key).depth (s.node ctx key).count)
  let n := s.node ctx key
  let r := n.take (min n.depth n.count)
  let n1 := if r.2.depth = 0 then r.2 else { r.2 with started := some (s.ctxTime ctx), due := false }
  (s.modNode ctx key (fun _ => n1)).spawn ctx key r.1 fired arg

/-- Forms batches while the bin holds COUNT records (R265). -/
def State.batches (s : State) (ctx key : Nat) : (fuel : Nat) → State
  | 0 => s
  | k + 1 =>
    let n := s.node ctx key
    if n.count ≤ n.depth ∨ (n.due = true ∧ 0 < n.depth) then (s.batch ctx key false none).batches ctx key k else s

/-! ### DEQ (R277) -/

/-- The fields of a DEQ or DEQT: words of the record, D, and A. -/
def deqOps (i : Instr) : Option (Nat × Nat × Nat) :=
  match i with
  | .deq o => some (4 * 2 ^ fld o.ox 0 2, o.d.toNat, o.a.toNat)
  | .deqt o => some (4 * 2 ^ fld o.ox 0 2, o.d.toNat, o.a.toNat)
  | _ => none

/-- The lanes of a slot that hold no record. -/
def Group.freeLanes (g : Group) (slotB : Bool) : List Nat := (List.range 32).filter (fun L => (g.mask slotB).getLsbD L && (tfind L g.held).isNone)

/-- Gives records to a DEQ of group `gid`: registers, holdings, status, and the acquire at `.dev`; `bits` holds
END, TIMEOUT, the batch bit and the node index. -/
def State.give (s : State) (gid : Nat) (slotB : Bool) (i : Instr) (recs : List (List Word)) (bits : Nat) : State :=
  match deqOps i with
  | none => s
  | some (n, d, a) =>
    let g := s.group gid
    let lanes := (g.freeLanes slotB).zip recs
    let stage := match g.bind.node with | some key => s.stageOf g.ctx key | none => none
    let now := (s.cluster (clusterOfCore (coreOf gid))).cycles
    let g1 := lanes.foldl (fun (g : Group) (x : Nat × List Word) => (List.range n).foldl (fun (g : Group) w => g.wv (d + w) x.1 (x.2.getD w 0)) g) g
    let g2 := match stage with
      | some (r, st) => { g1 with held := lanes.foldl (fun (h : Table HeldRec) (x : Nat × List Word) => tput x.1 ⟨r.set, st, x.2, now⟩ h) g1.held }
      | none => g1
    let ballot := maskOf (fun L => lanes.any (fun x => x.1 == L))
    let status := lanes.length % 256 + bits + g.bind.changed.toNat * 2 ^ 10
    let g3 := ((g2.ws a ballot).ws (a + 1) (BitVec.ofNat 32 status))
    let cells : List RCell := [⟨1, a⟩, ⟨1, a + 1⟩] ++ lanes.flatMap (fun x => (List.range n).map (fun w => ⟨0, 32 * (d + w) + x.1⟩))
    ((s.setGroup gid { g3 with wait := none, bind := { g3.bind with changed := false } }).mendCells gid cells).acquireL1 (coreOf gid) g.tenant

/-- The loop of R277 for a node binding: what a DEQ with `m` free lanes does now, if it does not block. -/
inductive DeqNow where
  | blocks
  | ends
  | takes (k : Nat)

def Node.deqNow (n : Node) (m : Nat) : DeqNow :=
  if n.depth = 0 ∧ n.sealed = true then .ends
  else if m = 0 ∨ min n.count m ≤ n.depth ∨ (1 ≤ n.depth ∧ (n.due = true ∨ n.sealed = true)) then .takes (min n.depth m)
  else .blocks

/-- Serves a DEQ from a node, or gives nothing where it blocks. -/
def State.deqServe (s : State) (gid key : Nat) (slotB : Bool) (i : Instr) : Option State :=
  let g := s.group gid
  let n := s.node g.ctx key
  let idx := key % 4096 * 2 ^ 12
  match n.deqNow (g.freeLanes slotB).length with
  | .blocks => none
  | .ends => some (s.give gid slotB i [] (2 ^ 8 + idx))
  | .takes k =>
    let s := s.fromRing g.ctx key k
    let r := (s.node g.ctx key).take k
    some ((s.modNode g.ctx key (fun _ => r.2)).give gid slotB i r.1 idx)

/-- The DEQs blocked on a node, as (order, group, wait), the longest blocked first. -/
def State.deqWaiters (s : State) (ctx key : Nat) : List (Nat × Nat × Wait) :=
  let ws := s.groups.filterMap (fun g => match g.2.wait with
    | some w => (match w.kind with | .deq n _ => if g.2.ctx = ctx ∧ g.2.bind.node = some key then some (n, g.1, w) else none | _ => none)
    | none => none)
  ws.foldl (fun (a : List (Nat × Nat × Wait)) x => a.takeWhile (fun y => y.1 < x.1) ++ x :: a.dropWhile (fun y => y.1 < x.1)) []

/-- Serves the blocked DEQs of a node in the order in which they blocked (R277, log 24), while the context is not
halted (16 R304). -/
def State.serveNode (s : State) (ctx key : Nat) : (fuel : Nat) → State
  | 0 => s
  | k + 1 =>
    if (s.context ctx).hb.halt then s
    else match s.deqWaiters ctx key with
      | [] => s
      | (_, gid, w) :: _ => match s.deqServe gid key w.slotB w.instr with
        | none => s
        | some s1 => s1.serveNode ctx key k

/-- What follows a change of a bin: batches of a spawn node, DEQs of another. -/
def State.settleNode (s : State) (ctx key : Nat) : State :=
  if (s.node ctx key).mode = 0 then s.batches ctx key ((s.node ctx key).depth + 1) else s.serveNode ctx key 4096

/-- Puts a record into a bin; one that finds the bin full on die is written to its slot of the overflow ring (R264). -/
def State.storeRecord (s : State) (ctx key : Nat) (rec : List Word) : State :=
  let s1 := s.modNode ctx key (fun n => n.add (s.ctxTime ctx) rec)
  let n := s1.node ctx key
  if n.ovf = [] then s1 else s1.putRing ctx key (n.ovf.length - 1) rec

/-- Adds an entry event to the router of an entry node; past 256 its record lies in the overflow ring (R264). -/
def State.addEntry (s : State) (ctx key : Nat) (source : Option Nat) (rec : List Word) : State :=
  let n := s.node ctx key
  match s.routerOf ctx n.set with
  | some (die, r, x) =>
    let s1 := s.modDie die (fun d => { d with routers := d.routers.map (fun y => if y.1 = r then (r, { y.2 with events := y.2.events ++ [.entry source (n.fit rec)] }) else y) })
    if x.entries < 256 then s1 else s1.putRing ctx key (x.entries - 256) rec
  | none => s

/-- Gives the `k`-th entry among events the record `w`. -/
def setEntry (w : List Word) : Nat → List RouterEvent → List RouterEvent
  | _, [] => []
  | 0, .entry source _ :: rest => .entry source w :: rest
  | k + 1, .entry source rec :: rest => .entry source rec :: setEntry w k rest
  | k, e :: rest => e :: setEntry w k rest

/-- The record that moves on die as an entry leaves its router's queue, as the ring holds it: the router, and the state. -/
def State.entryFromRing (s : State) (die : Nat) (r : Router) : Router × State :=
  if r.entries < 256 then (r, s)
  else
    let key := 4096 * die + r.entry
    let g := s.getRing r.ctx key 0
    (match g.1 with | some w => { r with events := setEntry w 255 r.events } | none => r, g.2.modNode r.ctx key (fun n => { n with ovfHead := (n.ovfHead + 1) % max 1 n.ovfCap }))

/-- Accepts records, all in one step, at a node that does not refuse them: into its bin, or as entry events of its
router (R264, R271, R278). `source` is the serial of the group that pushed them, if it is known. -/
def State.acceptAll (s : State) (ctx key : Nat) (source : Option Nat) (recs : List (List Word)) : State :=
  if (s.node ctx key).mode = 2 then recs.foldl (fun (s : State) rec => s.addEntry ctx key source rec) s
  else (recs.foldl (fun (s : State) rec => s.storeRecord ctx key rec) s).settleNode ctx key

/-- Accepts one record. -/
def State.accept (s : State) (ctx key : Nat) (source : Option Nat) (rec : List Word) : State := s.acceptAll ctx key source [rec]

/-! ### The drover (R271 to R274) -/

/-- The manifest of an entering record (R271). -/
def manifest (origin : Nat) : Word := BitVec.ofNat 32 (origin % 2 ^ 16 * 2 ^ 16 + 0xF000)

/-- One step of the LFSR (R274). -/
def lfsrStep (x : Nat) : Nat := x * 2 % 2 ^ 16 + (bxor (bxor (x.testBit 15) (x.testBit 13)) (bxor (x.testBit 12) (x.testBit 10))).toNat
def lfsrRun : Nat → Nat → Nat
  | 0, x => x
  | n + 1, x => lfsrRun n (lfsrStep x)

/-- The weight of a stage (R273). -/
def stageWeight (p16 c dep : Nat) : Nat := (65536 - p16) * 65536 / c * 16 / (16 + min dep 65535)

/-- A router that restarts from its descriptor (R270, R273). -/
def Router.restart (r : Router) : Router :=
  let c := (List.range r.stages).map (fun s => if r.cost.getD s 0 = 0 then 1 else r.cost.getD s 0)
  { r with arr := [], pass := [], cyc := [], p16 := List.replicate r.stages 32768, c := c, weight := c.map (fun x => stageWeight 32768 x 0), decisions := 0, lfsr := if r.seed = 0 then 0xACE1 else r.seed }

/-- Closes a window (R273); `dep` gives the depth of a stage's node. -/
def Router.close (r : Router) (dep : Nat → Nat) : Router :=
  let upd (s : Nat) : Option (Nat × Nat × Nat) :=
    let a := tget 0 s r.arr
    if a = 0 then none
    else
      let p := 65536 * tget 0 s r.pass / a
      let c := if r.cost.getD s 0 ≠ 0 then r.cost.getD s 0 else max 1 (tget 0 s r.cyc / a)
      some (p, c, stageWeight p c (if r.depth then dep s else 0))
  let pick (old : List Nat) (f : Nat × Nat × Nat → Nat) : List Nat := (List.range r.stages).map (fun s => match upd s with | some x => f x | none => old.getD s 0)
  { r with p16 := pick r.p16 (·.1), c := pick r.c (·.2.1), weight := pick r.weight (·.2.2), arr := [], pass := [], cyc := [] }

/-- The choice among remaining stages (R274), with the router after it. -/
def Router.choose (r : Router) (stages : List Nat) : Nat × Router :=
  let w (s : Nat) : Nat := r.weight.getD s 0
  if r.lottery then
    let L := lfsrRun 16 r.lfsr
    let total := stages.foldl (fun t s => t + w s) 0
    let u := L * total / 65536
    let sums := stages.zipIdx.map (fun x => (x.1, (stages.take (x.2 + 1)).foldl (fun t s => t + w s) 0))
    let pick := match sums.find? (fun x => decide (u < x.2)) with | some x => x.1 | none => stages.headD 0
    (if total = 0 then stages.headD 0 else pick, { r with lfsr := L })
  else (stages.foldl (fun best s => if w best < w s then s else best) (stages.headD 0), r)

/-- The resident group of a context that a serial names. -/
def State.bySerial (s : State) (ctx serial : Nat) : Option Nat := (s.groups.find? (fun g => g.2.ctx == ctx && g.2.serial == serial)).map (·.1)

/-- The pre-empted group of a context that a serial names, as (team, slot that it had); of a slot that another group of the
context has taken, none. -/
def State.savedBySerial (s : State) (ctx serial : Nat) : Option (Nat × Nat) :=
  s.teams.findSome? (fun t => if t.2.ctx ≠ ctx then none else match t.2.saved with
    | some l => ((l.filterMap id).find? (fun x => x.2.serial == serial && !(s.resident x.1 && (s.group x.1).ctx == ctx))).map (fun x => (t.1, x.1))
    | none => none)

/-- A fault that is held in the stop record of a pre-empted group (R272). -/
def State.raiseSaved (s : State) (ctx team gid : Nat) (f : Flt) : State :=
  (s.raise ctx f { die := dieOf gid }).modTeam team (fun t => { t with saved := t.saved.map (fun l => l.map (fun x => x.map (fun y => if y.1 = gid && y.2.stop.cause = 0 then (y.1, { y.2 with stop := { y.2.stop with cause := f.cause, held := true, detail := f.detail } }) else y))) })

/-- A push made by a router: a refusal is held against the group whose event caused it, a pre-empted one too; one that has
retired leaves it to the context (R272, log 67). -/
def State.routerPush (s : State) (die idx ctx : Nat) (source : Option Nat) (target : Word) (rec : List Word) : State :=
  let key := nodeKey target
  let kind := if !target.getLsbD 31 || nbits target.toNat 18 13 ≠ s.hub.module || (s.context ctx).ncount ≤ key % 4096 then some 1 else s.refuses ctx key 1
  match kind with
  | none => s.accept ctx key source rec
  | some k =>
    let s1 := s.modDie die (fun d => { d with routers := d.routers.map (fun x => if x.1 = idx then (idx, { x.2 with refused := x.2.refused ++ [(source, target, rec)] }) else x) })
    let f := fNode 4 false 0 (key / 4096) target k
    match source.bind (s1.bySerial ctx) with
    | some g => s1.raise ctx f { gid := some g, held := true }
    | none => match source.bind (s1.savedBySerial ctx) with
    | some x => s1.raiseSaved ctx x.1 x.2 f
    | none => s1.raiseEngine ctx f { kind := 3, number := 0, die := die, cause := 9, detail := f.detail, group := 0, req := target.toNat, prog := 0, addr := 0, time := s.devTime }

/-- route(rec) of R272. -/
def State.route (s : State) (die idx : Nat) (r : Router) (source : Option Nat) (rec : List Word) : State :=
  let m := (rec.headD 0).toNat
  let put (s : State) (r : Router) : State := s.modDie die (fun d => { d with routers := d.routers.map (fun x => if x.1 = idx then (idx, r) else x) })
  let setFlight (f : Nat) : List Word := setField (rec.headD 0) 12 4 f :: rec.drop 1
  let left := (List.range r.stages).filter (fun st => !m.testBit st)
  let s0 := put s r
  if m.testBit 8 then (if r.rejv then s0.routerPush die idx r.ctx source r.reject (setFlight 0xF) else s0)
  else if left = [] then s0.routerPush die idx r.ctx source r.exitN (setFlight 0xF)
  else
    let x := r.choose left
    let s1 := (put s0 { x.2 with decisions := x.2.decisions + 1 }).countDie die r.ctx 0x140 1
    let s2 := s1.routerPush die idx r.ctx source (s.nodeHandle (4096 * die + r.entry + 1 + x.1)) (setFlight x.1)
    match tfind idx (s2.die die).routers with
    | some r2 => if r2.decisions % 2 ^ r2.logw = 0 then put s2 (r2.close (fun st => (s2.node r.ctx (4096 * die + r.entry + 1 + st)).depth)) else s2
    | none => s2

/-- The record after a stage's report: the stage's declared words, but for the router's own word 1 (R271), then the
manifest's marks (R272). -/
def stageReport (r : Router) (st : Nat) (pass : Bool) (rec words : List Word) : List Word :=
  let w0 := (if (r.write.getD st 0).testBit 0 then words.headD 0 else rec.headD 0).toNat
  let m := if pass then
      let p := (nbits w0 9 3 + 1) % 8
      (w0 ||| 2 ^ st) - nbits w0 9 3 * 2 ^ 9 + p * 2 ^ 9
    else w0 ||| 2 ^ 8
  BitVec.ofNat 32 m :: rec.zipIdx.tail.map (fun x => if 2 ≤ x.2 && (r.write.getD st 0).testBit x.2 then words.getD x.2 x.1 else x.1)

/-- The router with a stage's report counted (R272). -/
def Router.count (r : Router) (st cyc : Nat) (pass : Bool) : Router :=
  { r with arr := tput st (tget 0 st r.arr + 1) r.arr, pass := if pass then tput st (tget 0 st r.pass + 1) r.pass else r.pass, cyc := tput st (tget 0 st r.cyc + cyc) r.cyc }

end Sys2Proof.Machine
end

