-- ==== Sys2Proof/Machine/SliceEvents.lean ====
section
/-! DEFINITION. A home slice (03 R48, R54 to R59, R67; 10 R192, R193, R198, R203, R208; 12 R236): what it does
with a line request, the walk, the fill, and the faults it finds. An event names its request. -/

namespace Sys2Proof.Machine

def State.req (s : State) (n : Nat) : Option Req := tfind n s.reqs

/-! ### The prefetcher (R55) -/

/-- A demand request: one that a program's access made. Requests of engines and instruction fetches are none, and
are neither tracked nor counted as useful (DESIGN CHOICE, log 28: R55 does not say which requests are demand requests). -/
def Req.demand (r : Req) : Bool :=
  match r.kind with
  | .load | .store | .atomic | .addOnStore | .acont | .palette _ _ | .table | .grid => true
  | .writeback | .prefetch | .check _ _ | .outbox => false

/-- A stream after a demand request to `line`. A confirmed stream loses its confirmation by another stride
(DESIGN CHOICE, log 28: R55 says only when a stream becomes confirmed). -/
def Stream.follow (x : Stream) (line : Nat) : Stream :=
  let d : Int := (line : Int) - x.last
  { x with last := line, stride := d, confirmed := decide (d = x.stride) && decide (x.last ≠ line) }

/-- The lines that a confirmed stream prefetches: up to four ahead, in its page (R55). -/
def Stream.ahead (x : Stream) : List Nat :=
  if !x.confirmed then []
  else
    let ls := (List.range 4).map (fun (k : Nat) => (x.last : Int) + x.stride * ((k : Int) + 1))
    (ls.filter (fun l => decide (0 ≤ l) && decide (l.toNat / 512 = x.page))).map Int.toNat

/-- Sends a prefetch of a stream to its line's home slice; one that a firewall on its way refuses is dropped (R55). -/
def State.sendPrefetch (s : State) (slice ctx tenant line : Nat) : State :=
  let h := s.home ctx line
  if (s.crossTo (slice / 32) ctx (line * 128)).isSome then s
  else
  let s1 := (s.modSlice slice (fun x => x.countPf 0 tenant)).countDie (slice / 32) ctx 0x100 1
  let s2 := s1.modSlice h.2 (fun x => { x with fetching := x.fetching ++ [(tenant, line)] })
  (s2.addReq { core := noCore, ctx := ctx, tenant := tenant, kind := .prefetch, line := line, sectors := 0xF, nl1 := true, race := false }).2

/-- The slice sees a demand request (R55): a late prefetch is counted, and its stream goes on. A seventeenth
stream takes the place of a free choice (log 28). -/
def State.track (s : State) (r : Req) : State :=
  let s1 := if (s.slice r.slice).fetching.contains (r.tenant, r.line) then (s.modSlice r.slice (fun x => x.countPf 2 r.tenant)).countDie (r.slice / 32) r.ctx 0x102 1 else s
  if !(s.context r.ctx).pfen then s1
  else
    let x := s1.slice r.slice
    let page := r.line / 512
    match x.streams.find? (fun t => t.tenant == r.tenant && t.page == page) with
    | some t =>
      let t1 := t.follow r.line
      let s2 := s1.modSlice r.slice (fun x => { x with streams := x.streams.map (fun u => if u = t then t1 else u) })
      t1.ahead.foldl (fun (s : State) l => s.sendPrefetch r.slice r.ctx r.tenant l) s2
    | none =>
      let k := if x.streams.length < 16 then (x.streams.length, s1) else s1.choose 16
      k.2.modSlice r.slice (fun x => { x with streams := x.streams.take k.1 ++ { tenant := r.tenant, page := page, last := r.line } :: x.streams.drop (k.1 + 1) })

/-- The port by which a request reaches its slice (10 R193): its cluster's, or the die-to-die ports', merged; one of a
slice's own prefetcher comes by none. Engines, task units and the hub act at a slice in the step that makes their
access: what they ask never waits there. -/
def Req.port (r : Req) : Nat := if r.core = noCore then 12 else if dieOfCore r.core = r.slice / 32 then clusterOfCore r.core % 8 else 10

/-- The requests of its port to its line that have reached the slice before it and are still there. -/
def State.portAhead (s : State) (n : Nat) (r : Req) : List Nat :=
  if r.port = 12 then [] else (s.reqs.filter (fun q => q.1 ≠ n && q.2.seen && q.2.moving && q.2.slice == r.slice && q.2.port == r.port && q.2.tenant == r.tenant && q.2.line == r.line)).map (·.1)

/-- A request reaches its slice for the first time. -/
def State.arrive (s : State) (n : Nat) (r : Req) : Req × State :=
  if r.seen then (r, s)
  else
    let r1 := { r with seen := true, ahead := s.portAhead n r }
    (r1, if r.demand then (s.putReq n r1).track r1 else s.putReq n r1)

/-- Whether a request that reached the slice earlier by the same port is still to be applied: one that has been
applied, or is held with its fault, lets later ones pass (R193). -/
def State.inPort (s : State) (r : Req) : Bool :=
  r.ahead.any (fun k => match tfind k s.reqs with | some q => q.moving && decide (q.stage ≠ .reply) | none => false)

/-- A prefetch that ends, filled or dropped. -/
def State.endPrefetch (s : State) (n : Nat) (r : Req) : State :=
  ((s.delReq n).modSlice r.slice (fun x => { x with fetching := x.fetching.erase (r.tenant, r.line) })).partsDone r.ops

/-- The first demand hit of a line that a prefetch filled counts as useful (R55). -/
def State.useful (s : State) (r : Req) (l : L2Line) : State :=
  if l.prefetched && r.demand then ((s.modSlice r.slice (fun x => (x.countPf 1 r.tenant).putLine { l with prefetched := false })).countDie (r.slice / 32) r.ctx 0x101 1) else s

/-! ### Faults (R67, R82, R356) -/

/-- A row of a drain-buffer entry that faults pins it (09 R190). -/
def State.pinRow (s : State) (core entry row : Nat) (d : Drain) (f : Flt) (die : Nat) : State :=
  let s1 := s.modCore core (fun k => { k with drain := tput entry { d with pinned := true, faulted := (row, f) :: d.faulted.filter (fun x => x.1 ≠ row) } k.drain })
  if s1.resident d.gid && (s1.group d.gid).team == d.team then s1.raise d.ctx f { gid := some d.gid, slotB := (match s1.op d.op with | some o => o.slotB | none => false), pc := d.pc, drain := some entry } else s1.raise d.ctx f { die := die }

/-- Whether every row of an entry below the `n`-th has been performed or has faulted. -/
def Drain.doneBelow (d : Drain) (n : Nat) : Bool := (List.range n).all (fun i => d.mask.testBit i || d.faulted.any (fun x => x.1 == i))

/-- The DREPL of an entry is complete once each row that it replays is performed or has faulted again (09 R170). -/
def State.endReplay (s : State) (core entry : Nat) (d : Drain) : State :=
  match d.replayer with
  | some k => if d.doneBelow 32 then (s.modCore core (fun c => { c with drain := match tfind entry c.drain with | some e => tput entry { e with replayer := none } c.drain | none => c.drain })).partDone k else s
  | none => s

/-- The reply that the replay filter of its slice holds for a request (10 R208). -/
def State.replayOf (s : State) (r : Req) : Option Replay := (s.slice r.slice).replay.find? (fun e => e.port == r.port && e.tag == r.tag)

/-- So does a row of which a slice finds the fault. The request ends; one that has been applied stays, with its tag, for the
DREPL to send it again (10 R208). -/
def State.pinDrain (s : State) (n : Nat) (r : Req) (f : Flt) (entry row : Nat) : State :=
  match tfind entry (s.core r.core).drain with
  | none => s.reqDone n r
  | some d =>
    let s1 := s.pinRow r.core entry row d f (r.slice / 32)
    let s2 := if r.kind = .addOnStore && (s.replayOf r).isSome then (s1.partsDone r.ops).putReq n { r with ops := [], stage := .pinned } else s1.reqDone n r
    s2.endReplay r.core entry { d with faulted := (row, f) :: d.faulted }

/-- A fault that a slice finds for request `n`. -/
def State.sliceFault (s : State) (n : Nat) (r : Req) (f : Flt) : State :=
  let hold (s : State) : State := s.putReq n { r with stage := .held f }
  match r.drain with
  | some (e, row) => s.pinDrain n r f e row
  | none => match r.kind with
    | .prefetch => s.endPrefetch n r
    | .writeback => (hold s).raiseWriteback r.tenant (s.context r.ctx).part r.slice r.line f
    | .table => match r.ops with
      | [] => s.delReq n
      | k :: _ =>
        let s1 := s.dropOp k
        match s.op k with
        | some o => match (s1.group o.gid).tables.find? (fun w => w.kind == .table k) with
          | some w => s1.trapSlot o.gid k w f
          | none => s1
        | none => s1
    | _ => (hold s).raiseOps n r f

/-- The fault of a request that crosses to the die of its home slice (17 R332). -/
def State.reqCrossing (s : State) (r : Req) : Option Flt :=
  if r.core = noCore || dieOfCore r.core = r.slice / 32 then none else s.crossing (dieOfCore r.core) (r.slice / 32) r.tenant (r.line * 128) (s.machineOf r.ctx r.slice (r.line * 128))

/-- A request that its slice may serve now, and the state once it has reached the slice: no swap holds it (03 R49), no
firewall on its way has dropped it (17 R332), and none is before it (R193). -/
def State.reach (s : State) (n : Nat) : Option Req × State :=
  match s.req n with
  | none => (none, s)
  | some r =>
    if r.stage ≠ .toSlice || s.swapStalls r.ctx (r.line * 128) then (none, s)
    else match (if r.seen then none else s.reqCrossing r) with
      | some f => (none, s.sliceFault n r f)
      | none =>
        let a := s.arrive n r
        (if a.2.inPort a.1 then none else some a.1, a.2)

/-! ### Translation at the slice (R54, R57, R58) -/

/-- What an access needs of both leaves, and its access code (R58, 16 R308). -/
def Req.needs (r : Req) : Need × Acc :=
  match r.kind with
  | .load | .prefetch | .check _ _ => ({ rd := true }, .load)
  | .table => ({ rd := true }, .fetch)
  | .palette _ _ => ({ rd := true }, .paletteFill)
  | .store | .writeback => ({ wr := true }, .store)
  | .outbox => ({ wr := true }, .store)
  | .addOnStore => ({ wr := true }, .store)
  | .atomic | .acont | .grid => ({ rd := true, wr := true }, .atomic)

/-- The address that a fault of a request names: its lowest byte. -/
def Req.va (r : Req) : Nat :=
  r.line * 128 + (match r.bytes, r.lanes with | b :: _, _ => b.1 | [], l :: _ => (if r.kind = .load then 0 else l.off) | [], [] => 0)

/-- The sectors that a request needs valid at the slice. -/
def Req.wants (r : Req) : Nat :=
  match r.kind with
  | .load | .table | .palette _ _ | .prefetch => r.sectors
  | .atomic | .acont | .grid => r.lanes.foldl (fun m l => m ||| 2 ^ (l.off / 32)) 0
  | .addOnStore => touchedSectors r.bytes
  | _ => 0

/-- Sends a request to a walker; an L2 miss and a walk that no other walk of the page has begun are counted
(R57, 17 R326). -/
def State.toWalk (s : State) (n : Nat) (r : Req) : State :=
  let va := r.line * 128
  let s1 := s.countDie (r.slice / 32) r.ctx 0x110 1
  let merged := s.reqs.any (fun q => q.1 ≠ n && q.2.slice == r.slice && q.2.tenant == r.tenant && q.2.line / 512 == r.line / 512 && decide (q.2.stage = .walk))
  let s2 := if merged || ((s.slice r.slice).cached r.tenant va).isSome then s1 else s1.countDie (r.slice / 32) r.ctx 0x111 1
  s2.putReq n { r with stage := .walk }

/-- WALK_COMPLETE (R57 to R59): the translation is kept and the access goes on, or its fault is taken. -/
def execWalkComplete (n : Nat) (s : State) : Host.Outcome State Fault Refusal :=
  match s.req n with
  | none => .next s
  | some r =>
    if r.stage ≠ .walk || s.swapStalls r.ctx r.va then .next s
    else
      let x := r.needs
      match s.translate r.ctx r.slice r.va r.local_ x.1 x.2 with
      | .error f => .next (((s.logRead r.ctx r.slice f).walkDone r.ctx r.slice r.va r.local_ x.1 x.2).sliceFault n r f)
      | .ok (t, _) =>
        let s1 := s.walkDone r.ctx r.slice r.va r.local_ x.1 x.2
        match r.kind with
        | .check inv l2 => .next (s1.maintain n r inv l2).settle
        | _ =>
          let o := s1.openLine r.slice r.ctx r.line t
          let s2 := o.2.modSlice r.slice (fun y => y.putLine o.1)
          .next (s2.putReq n { r with stage := if r.wants &&& o.1.valid = r.wants then .toSlice else .fetch })

/-- The sectors of memory that a fill of a line reads. -/
def L2Line.missing (l : L2Line) (wants : Nat) : List Nat := ((List.range 4).filter (fun i => wants.testBit i && !l.valid.testBit i)).map (fun i => l.machine / 32 + i)

/-- What keeps a fill of a line from its slice: a firewall between the slice and the memory (17 R332), or an error of the
memory that a second read shows again (16 R313); with the state once that is logged. -/
def State.fillFault (s : State) (r : Req) (l : L2Line) : Option (Flt × State) :=
  (s.channelFault false r.ctx r.slice (r.line * 128) l.machine (l.missing r.wants)).map (fun f => (f, s.logRead r.ctx r.slice f))

/-- MEMORY_FILL_RETURN (R54): the sectors that the request needs arrive at the slice. -/
def execMemoryFillReturn (n : Nat) (s : State) : Host.Outcome State Fault Refusal :=
  match s.req n with
  | none => .next s
  | some r =>
    if r.stage ≠ .fetch || s.swapStalls r.ctx r.va then .next s
    else match (s.slice r.slice).line r.tenant r.line with
      | none => .next (s.putReq n { r with stage := .toSlice })
      | some l => match s.fillFault r l with
        | some x => .next (x.2.sliceFault n r x.1)
        | none =>
        let l1 := s.fetchSectors l r.wants
        let stream := r.kind = .prefetch && r.core = noCore
        let s1 := ((s.memRetried false r.ctx r.slice (l.missing r.wants)).accessLine l).modSlice r.slice (fun y => y.putLine { l1 with prefetched := if stream && l.valid = 0 && l.dirty = [] then true else l.prefetched })
        .next (if stream then s1.endPrefetch n r else s1.putReq n { r with stage := .toSlice })

/-! ### Loads, stores, write-backs (R54, R356) -/

/-- The line of a request at its slice, where it grants what the request needs. -/
def State.hitLine (s : State) (r : Req) : Option L2Line :=
  match (s.slice r.slice).line r.tenant r.line with
  | none => none
  | some l => if (!r.needs.1.rd || l.rd) && (!r.needs.1.wr || l.wr) && r.wants &&& l.valid = r.wants then some l else none

/-- SLICE_LOAD (R54): a load, a table read, a fill, a prefetch, or the check of CINV and CWB (R66). -/
def execSliceLoad (n : Nat) (s : State) : Host.Outcome State Fault Refusal :=
  let a := s.reach n
  match a.1 with
  | none => .next a.2
  | some r =>
    match r.kind with
    | .load | .table | .palette _ _ | .prefetch => match a.2.hitLine r with
      | none => .next (a.2.toWalk n r)
      | some l =>
        let s1 := a.2.useful r l
        if r.kind = .prefetch && r.nl1 then .next (s1.endPrefetch n r)
        else
          let r1 := { r with data := (sectorBytes r.sectors).map (fun o => (o, a.2.lineByte l o)), rd := l.rd, wr := l.wr, pa := l.pa, stage := .reply }
          .next (((s1.hintLine r.ctx r.line r.hint).raceReq r false (r.bytes.map (·.1))).putReq n r1)
    | .check inv l2 => match (a.2.slice r.slice).line r.tenant r.line with
      | some l =>
        if r.passed then .next ((if inv then a.2.dropLine r.slice l else a.2.cleanLine r.slice l).reqDone n r).settle
        else if l.rd then .next (a.2.maintain n r inv l2).settle else .next (a.2.toWalk n r)
      | none => .next (if r.passed then (a.2.reqDone n r).settle else a.2.toWalk n r)
    | _ => .next s

/-- SLICE_STORE (R54): a store, or the write of an outbox slot (14 R268), whose tail is then sent. -/
def execSliceStore (n : Nat) (s : State) : Host.Outcome State Fault Refusal :=
  let a := s.reach n
  match a.1 with
  | none => .next a.2
  | some r =>
    let store : Bool := match r.kind with | .store | .outbox => true | _ => false
    if !store then .next s
    else match a.2.hitLine r with
      | none => .next (a.2.toWalk n r)
      | some l =>
        let s1 := (((a.2.useful r l).modSlice r.slice (fun y => y.putLine { l.merge r.bytes with prefetched := false })).raceReq r true (r.bytes.map (·.1)))
        if r.kind = .outbox then
          let s2 := s1.modContext r.ctx (fun c => { c with outbox := c.outbox.map (fun (x : Nat × Nat × Word × Option Nat) => if r.ops.contains x.2.1 && x.2.2.2.isNone then (x.1, x.2.1, x.2.2.1, some 0) else x) })
          .next (s2.reqDone n r)
        else .next (((s1.replaced n r).hintLine r.ctx r.line r.hint).putReq n { r with rd := l.rd, wr := l.wr, pa := l.pa, stage := .reply })

/-- SLICE_WRITEBACK (R54, R356): to a line that the slice holds, without a walk; else translated as a store. -/
def execSliceWriteback (n : Nat) (s : State) : Host.Outcome State Fault Refusal :=
  let a := s.reach n
  match a.1 with
  | none => .next a.2
  | some r =>
    if r.kind ≠ .writeback then .next s
    else match (a.2.slice r.slice).line r.tenant r.line with
      | none => .next (a.2.toWalk n r)
      | some l => .next ((a.2.modSlice r.slice (fun y => y.putLine (l.merge r.bytes))).reqDone n r).settle

/-! ### Atomics (10 R192, R198, R208) -/

/-- `n` bytes of a line from offset `o`, as a number. -/
def State.lineNum (s : State) (l : L2Line) (o n : Nat) : Nat := ofBytes ((List.range n).map (fun k => s.lineByte l (o + k)))

/-- Puts the line after an update and the filter's entry, and the request waits for its acknowledgement. -/
def State.applied (s : State) (n : Nat) (r : Req) (l : L2Line) (bs : Table Byte) (reply : List Nat) : State :=
  ((s.useful r l).modSlice r.slice (fun y => { y.putLine { l.merge bs with prefetched := false } with replay := y.replay ++ [{ port := r.port, tag := r.tag, op := n, reply := reply }] })).putReq n { r with stage := .reply }

/-- A request of the kinds of R208 at its slice: a duplicate has its reply already, a full filter makes it wait,
a line that is not held translated sends it to a walker; else `f` applies it. -/
def State.onceOnly (s : State) (n : Nat) (kind : ReqKind → Bool) (f : Req → L2Line → State → State) : State :=
  let a := s.reach n
  match a.1 with
  | none => a.2
  | some r =>
    if !kind r.kind then s
    else if (a.2.replayOf r).isSome then a.2.putReq n { r with stage := .reply }
    else if 64 ≤ (a.2.slice r.slice).replay.length then a.2
    else match a.2.hitLine r with
      | none => a.2.toWalk n r
      | some l => f r l a.2

/-- The lanes of an atomic applied in turn (R198): the old values, and the last value. -/
def atomRun (k : AtomKind) : List LaneOp → Nat → List Nat × Nat
  | [], m => ([], m)
  | x :: rest, m =>
    let m1 := if k.cas then (if m = x.x then x.y else m) else atomNew k.ty k.kind m x.x
    let r := atomRun k rest m1
    (m :: r.1, r.2)

/-- The arrival of GSYNC at its object (12 R236): the fault, or the words after it and the old generation. -/
def gridArrive (va arr exp gen res n : Nat) : Except Flt (Nat × Nat × Nat) :=
  if res ≠ 0 || (0 < exp && exp ≤ arr) then .error (fSync va n arr 0 0xA)
  else if exp ≠ 0 && exp ≠ n then .error (fSync va n exp 0 1)
  else if arr + 1 = n then .ok (0, 0, (gen + 1) % 2 ^ 32)
  else .ok (arr + 1, n, gen)

/-- SLICE_ATOMIC (R198, 12 R236). -/
def execSliceAtomic (n : Nat) (s : State) : Host.Outcome State Fault Refusal :=
  .next (s.onceOnly n (fun k => decide (k = .atomic ∨ k = .grid)) (fun r l t =>
    match r.lanes with
    | [] => t
    | x :: _ =>
      if r.kind = .grid then
        let w (k : Nat) : Nat := t.lineNum l (x.off + 4 * k) 4
        match gridArrive (r.line * 128 + x.off) (w 0) (w 1) (w 2) (w 3) x.x with
        | .error f => t.sliceFault n r f
        | .ok (arr, exp, gen) =>
          let bs := (toBytes arr 4 ++ toBytes exp 4 ++ toBytes gen 4).zipIdx.map (fun (b : Byte × Nat) => (x.off + b.2, b.1))
          let key := gsyncMeet r.ctx (r.line * 128 + x.off)
          let t1 := ((t.applied n r l bs [w 2]).raceReq r true (List.range 12 |>.map (x.off + ·))).meetArrive key (clusterOfCore r.core)
          if arr = 0 then t1.meetDone key else t1
      else
        let size := tyBits r.atom.ty / 8
        let y := atomRun r.atom r.lanes (t.lineNum l x.off size)
        let bs := (toBytes y.2 size).zipIdx.map (fun (b : Byte × Nat) => (x.off + b.2, b.1))
        (t.applied n r l bs y.1).raceReq r true (List.range size |>.map (x.off + ·))))

/-- The add-on-store of one line (09 R189): element by element in the DRAIN's output format. -/
def addLine (fmt : Nat) (old : Nat → Byte) (bs : Table Byte) : Table Byte :=
  let w := drainWidth fmt / 8
  bs.map (fun b =>
    let o := b.1 / w * w
    let num (f : Nat → Byte) : Nat := ofBytes ((List.range w).map (fun k => f (o + k)))
    let v := addOnStore fmt (num old) (num (fun k => tget 0 k bs))
    (b.1, (toBytes v w).getD (b.1 - o) 0))

/-- SLICE_ADD_ON_STORE (09 R189): the request's type holds the format of its DRAIN. -/
def execSliceAddOnStore (n : Nat) (s : State) : Host.Outcome State Fault Refusal :=
  .next (s.onceOnly n (fun k => decide (k = .addOnStore)) (fun r l t =>
    (t.applied n r l (addLine r.atom.ty (fun o => t.lineByte l o) r.bytes) []).raceReq r true (r.bytes.map (·.1))))

/-! ### Continuation atomics (10 R203 to R206) -/

/-- A lane of an ACONT: the new value and whether it succeeds (R203). -/
def acontNew (ty kind m x y : Nat) : Nat × Bool :=
  match kind with
  | 0 => if m = x then (y, true) else (m, false)
  | 1 => let v := atomNew ty 6 m x; (v, v ≠ m)
  | 2 => let v := atomNew ty 5 m x; (v, v ≠ m)
  | _ => let v := atomNew ty 0 m x; (v, decide (tyInt ty m < tyInt ty y) && decide (tyInt ty y ≤ tyInt ty v))

/-- The lanes of an ACONT in turn: (lane, old value, success), and the last value. -/
def acontRun (ty kind : Nat) : List LaneOp → Nat → List (LaneOp × Nat × Bool) × Nat
  | [], m => ([], m)
  | x :: rest, m =>
    let a := acontNew ty kind m x.x x.y
    let r := acontRun ty kind rest a.1
    ((x, m, a.2) :: r.1, r.2)

/-- A continuation record (R204). -/
def acontRecord (r : Req) (x : LaneOp) (old : Nat) : List Word :=
  let two (v : Nat) : List Word := [BitVec.ofNat 32 v, BitVec.ofNat 32 (v / 2 ^ 32)]
  two old ++ two (if r.atom.kind = 0 then x.y else x.x) ++ [loWord r.atom.user, hiWord r.atom.user, BitVec.ofNat 32 (srcWord r.gid x.lane), BitVec.ofNat 32 (r.atom.kind + (if 2 ≤ r.atom.ty then 4 else 0) + r.atom.tag * 2 ^ 16)]

/-- The node check at the slice (R206) for `n` records, in the order of the kinds' codes (log 9). A node of
another module cannot be found bound (log 25). -/
def State.acontCheck (s : State) (r : Req) (n : Nat) : Option Nat :=
  let key := nodeKey r.atom.handle
  if s.hub.module % 2 ^ 13 ≠ nbits r.atom.handle.toNat 18 13 then some 2
  else match s.refuses r.ctx key n with
    | some k => some k
    | none => if (s.node r.ctx key).rsz = 0 then some 5 else none

/-- Whether an ACONT has its launch-queue entries: none waits that arrived before it, and enough are free (R205). -/
def State.slqFree (s : State) (n : Nat) (r : Req) : Bool :=
  let x := s.slice r.slice
  let before := x.waiting.takeWhile (· ≠ n)
  !before.any (fun k => match tfind k s.reqs with | some q => q.moving | none => false) && decide (x.slq.length + r.lanes.length ≤ 32)

/-- SLICE_ACONT (R203): it waits, unperformed, for entries of the slice launch queue, in arrival order (R205). -/
def execSliceAcont (n : Nat) (s : State) : Host.Outcome State Fault Refusal :=
  .next (s.onceOnly n (fun k => decide (k = .acont)) (fun r l t =>
    match r.lanes with
    | [] => t
    | x :: _ =>
      if !t.slqFree n r then t.modSlice r.slice (fun q => if q.waiting.contains n then q else { q with waiting := q.waiting ++ [n] })
      else
        let t := t.modSlice r.slice (fun q => { q with waiting := q.waiting.filter (fun k => k ≠ n && (tfind k t.reqs).isSome) })
        match t.acontCheck r r.lanes.length with
        | some k => t.sliceFault n r (fNode 0 false (r.slice % 32) (r.slice / 32) r.atom.handle k)
        | none =>
          let size := tyBits r.atom.ty / 8
          let y := acontRun r.atom.ty r.atom.kind r.lanes (t.lineNum l x.off size)
          let bs := (toBytes y.2 size).zipIdx.map (fun (b : Byte × Nat) => (x.off + b.2, b.1))
          let es : List SlqEntry := (y.1.filter (·.2.2)).map (fun z => { owner := n, port := r.port, tag := r.tag, ctx := r.ctx, handle := r.atom.handle, record := some (acontRecord r z.1 z.2.1) })
          ((t.applied n r l bs (y.1.map (·.2.1))).modSlice r.slice (fun q => { q with slq := q.slq ++ es })).raceReq r true (List.range size |>.map (x.off + ·))))

/-- SLQ_ENTRY_PLACE (R205, R207): the first entry whose context is not halted goes into its node's bin. -/
def execSlqEntryPlace (slice : Nat) (s : State) : Host.Outcome State Fault Refusal :=
  let q := (s.slice slice).slq
  match q.find? (fun e => e.record.isSome && !(s.context e.ctx).hb.halt) with
  | none => .next s
  | some e =>
    let s1 := s.modSlice slice (fun x => { x with slq := x.slq.erase e })
    .next (s1.accept e.ctx (nodeKey e.handle) none (e.record.getD []))

/-- REPLAY_FILTER_ACK (R208): the source has its reply; the old values reach its operation, the request is done,
and the entry is free. GSYNC goes on to wait for the next generation (12 R236). -/
def execReplayFilterAck (slice port tag : Nat) (s : State) : Host.Outcome State Fault Refusal :=
  match (s.slice slice).replay.find? (fun e => e.port == port && e.tag == tag) with
  | none => .next s
  | some e =>
    let s1 := s.modSlice slice (fun x => { x with replay := x.replay.erase e })
    match s.req e.op with
    | none => .next s1
    | some r =>
      if r.stage ≠ .reply then .next s
      else if r.kind = .grid then
        match r.ops, r.lanes with
        | k :: _, x :: _ => match s1.op k with
          | some o => .next (((s1.delReq e.op).finishOp k o).modGroup o.gid (fun g => match g.wait with
            | some w => if w.kind = .gridOp k then { g with wait := some { w with kind := .grid (r.line * 128 + x.off) (e.reply.headD 0) } } else g
            | none => g))
          | none => .next (s1.delReq e.op)
        | _, _ => .next (s1.delReq e.op)
      else
        let vals := (r.lanes.map (·.lane)).zip e.reply
        let s2 := r.ops.foldl (fun (s : State) k => match s.op k with
          | some o => s.putOp k { o with got := vals.foldl (fun (t : Table Nat) (v : Nat × Nat) => tput v.1 v.2 t) o.got }
          | none => s) s1
        .next (s2.reqDone e.op r).settle

/-- COMBINE_TIMEOUT (R200): 64 cycles after it was taken, an entry is sent. -/
def execCombineTimeout (cluster entry : Nat) (s : State) : Host.Outcome State Fault Refusal :=
  match (s.cluster cluster).combine[entry]? with
  | none => .next s
  | some e => .next (if e.taken + 64 ≤ (s.cluster cluster).cycles then s.sendCombined cluster e else s)

/-- REPLY_TIMEOUT (16 R308, R208): a request to another die is sent again, its duplicate finding the stored
reply, or cause group 18 is raised and the request is
held; which port it left by is free (log 29). -/
def execReplyTimeout (op : Nat) (again : Bool) (s : State) : Host.Outcome State Fault Refusal :=
  match s.req op with
  | none => .next s
  | some r =>
    if dieOfCore r.core = r.slice / 32 || !r.moving || r.core = noCore then .next s
    else if again then
      .next (match r.stage, r.kind with
        | .reply, .atomic | .reply, .acont | .reply, .addOnStore | .reply, .grid | .reply, .load | .reply, .table => s.putReq op { r with stage := .toSlice }
        | _, _ => s)
    else let p := s.choose 4; .next (p.2.sliceFault op r (fLink r.va 3 false p.1))

end Sys2Proof.Machine
end

