-- ==== Sys2Proof/Machine/CoreEvents.lean ====
section
/-! DEFINITION. What comes back to a core (04 R68, R80; 01 R26): fills, accepted stores, palette lines, the
results of long-latency operations, and the scrubber (06 R111). -/

namespace Sys2Proof.Machine

/-! ### Fills and accepted stores (04 R68) -/

/-- Puts returned sectors into the L1, but for those valid there already: a line is allocated unless the load forbids
it. -/
def State.fillL1 (s : State) (r : Req) : State :=
  let secs := (List.range 4).filter (fun i => r.sectors.testBit i)
  match (s.core r.core).line r.tenant r.line with
  | some l =>
    if r.noAlloc || r.nl1 then s
    else
      let new := secs.filter (fun i => !l.valid.testBit i)
      (s.setL1 r.core r.tenant r.line { l.fill new r.data with rd := r.rd, wr := r.wr, pa := r.pa, hint := if r.hint < 2 then l.hint else r.hint }).mendL1 r.core r.tenant r.line (new.flatMap (fun i => (List.range 32).map (32 * i + ·)))
  | none =>
    if r.noAlloc || r.nl1 then s
    else ((s.roomL1 r.core).setL1 r.core r.tenant r.line ({ rd := r.rd, wr := r.wr, ctx := r.ctx, hint := r.hint, pa := r.pa : L1Line }.fill secs r.data)).mendL1 r.core r.tenant r.line (List.range 128)

/-- Byte `o` that a fill gives its operations: the core's own dirty bytes stand over what returned (13 R241). -/
def State.filledByte (s : State) (r : Req) (o : Nat) : Byte :=
  match ((s.core r.core).line r.tenant r.line).bind (fun l => tfind o l.dirty) with
  | some b => b
  | none => tget 0 o r.data

/-- L1_FILL_RETURN (R68): the bytes reach the L1 and the request's operations. -/
def execL1FillReturn (n : Nat) (s : State) : Host.Outcome State Fault Refusal :=
  match s.req n with
  | none => .next s
  | some r =>
    let load : Bool := match r.kind with | .load | .table | .prefetch => true | _ => false
    if r.stage ≠ .reply || !load then .next s
    else .next (((s.fillL1 r).handBytes r (r.data.map (·.1)) (s.filledByte r)).reqDone n r).settle

/-- STORE_ACCEPTED (R68): the L1 merges the bytes into a line it holds, or allocates the line with the sectors
that the store wrote whole. An acquire or an invalidation after the store was performed has made its bytes old: the L1
takes none of them (04 R69, 13 R243). -/
def execStoreAccepted (n : Nat) (s : State) : Host.Outcome State Fault Refusal :=
  match s.req n with
  | none => .next s
  | some r =>
    if r.stage ≠ .reply || r.kind ≠ .store then .next s
    else
      let whole := wholeSectors r.bytes
      let s1 := match (s.core r.core).line r.tenant r.line with
        | some l =>
          let l1 := l.absorb r.bytes
          s.setL1 r.core r.tenant r.line (l1.fill (whole.filter (fun i => !l1.valid.testBit i)) r.bytes)
        | none =>
          if r.nl1 then s
          else (s.roomL1 r.core).setL1 r.core r.tenant r.line ({ rd := r.rd, wr := r.wr, ctx := r.ctx, hint := r.hint, pa := r.pa : L1Line }.fill whole r.bytes)
      .next ((if r.noAlloc then s else s1.mendL1 r.core r.tenant r.line (r.bytes.map (·.1))).reqDone n r).settle

/-- PALETTE_LINE_FILLED (R80): the line's sectors become valid with the permissions returned; a fill that is
complete ends, and the queue is tried. -/
def execPaletteLineFilled (n : Nat) (s : State) : Host.Outcome State Fault Refusal :=
  match s.req n with
  | none => .next s
  | some r => match r.stage, r.kind with
    | .reply, .palette team _ =>
      let s1 := match (s.core r.core).line r.tenant r.line with
        | some l =>
          let new := (List.range 4).filter (fun i => r.sectors.testBit i && !l.valid.testBit i)
          (s.setL1 r.core r.tenant r.line { l.fill new r.data with rd := r.rd, wr := r.wr, pa := r.pa }).mendL1 r.core r.tenant r.line (new.flatMap (fun i => (List.range 32).map (32 * i + ·)))
        | none => s
      .next ((s1.delReq n).palMove team 32)
    | _, _ => .next s

/-! ### Results (01 R26, 03 R64) -/

/-- Byte `va` of a load: the group's own bytes over what returned. -/
def Op.byte (o : Op) (va : Nat) : Nat := match tfind va o.laid with | some b => b.toNat | none => tget 0 va o.got
/-- `n` bytes from `va`. -/
def Op.num (o : Op) (va : Nat) : Nat → Nat
  | 0 => 0
  | n + 1 => o.byte va + 256 * o.num (va + 1) n

/-- The words that a load of a width gives for the bytes at `va` (R64). -/
def Op.words (o : Op) (width va : Nat) : List Word := loadWords width (o.num va (widthBytes width))

/-- The register words that an operation writes when it completes. -/
def Op.results (o : Op) : List (RCell × Word) :=
  match o.dest with
  | .cells ws => ws
  | .load d width lanes => lanes.flatMap (fun x => (o.words width x.2).zipIdx.map (fun (w : Word × Nat) => (⟨0, 32 * (d + w.2) + x.1⟩, w.1)))
  | .words d ws => ws.map (fun x => (⟨0, 32 * (d + x.2.1) + x.1⟩, BitVec.ofNat 32 (o.num x.2.2 4)))
  | .sload d width va => (o.words width va).zipIdx.map (fun (w : Word × Nat) => (⟨1, d + w.2⟩, w.1))
  | .atomic d wide lanes => lanes.flatMap (fun L =>
    let v := tget 0 L o.got
    (⟨0, 32 * d + L⟩, BitVec.ofNat 32 v) :: (if wide then [(⟨0, 32 * (d + 1) + L⟩, BitVec.ofNat 32 (v / 2 ^ 32))] else []))
  | .none | .brx _ _ _ => []

/-- LONG_LATENCY_COMPLETE (R26, 05 R89): an operation outside the matrix unit whose parts have all returned
writes its results; its flag and its path count it no longer. -/
def execLongLatencyComplete (op : Nat) (s : State) : Host.Outcome State Fault Refusal :=
  match s.op op with
  | none => .next s
  | some o =>
    if o.parts ≠ 0 || o.flag.isNone || o.path = some 3 then .next s
    else .next ((s.putCells o.gid o.results).finishOp op o).settle

/-! ### The scrubber (06 R111) -/

/-- The register that holds a physical word of a core, if a resident group has it: class, index, word of it. -/
def State.ownerOf (s : State) (core : Nat) (w : FileWord) : Nat :=
  let gs := s.groups.filter (fun g => coreOf g.1 == core)
  let find (map : Group → List Nat) (gran : Nat) : Nat := match gs.find? (fun g => (map g.2).contains gran) with | some g => g.2.tenant | none => 0
  match w.file with
  | .vector => find (·.vmap) (w.index / 256)
  | .tile => find (·.tmap) (w.index / 512)
  | .accumulator => find (·.amap) (w.index / 1024)
  | .scalar => (s.group (64 * core + w.index / 64)).tenant
  | .predicate => (s.group (64 * core + w.index / 8)).tenant
  | .scratchpad => match s.teams.find? (fun t => t.2.core == core && t.2.scratchMap.contains (w.index / 2048)) with | some t => t.2.tenant | none => 0
  | .l1 => w.index / 2 ^ 54
  | .memory => 0

/-- The class code and the index field of a physical word in a cause-16 ADDR. -/
def wordAddr (w : FileWord) : Nat :=
  match w.file with
  | .vector => w.index % 32 + w.index / 32 % 256 * 32
  | .scalar => w.index % 64 * 32 + 2 ^ 13
  | .predicate => w.index % 8 * 32 + 2 * 2 ^ 13
  | .tile => w.index / 512 % 256 * 32 + 3 * 2 ^ 13
  | .accumulator => w.index / 1024 % 256 * 32 + 4 * 2 ^ 13
  | .scratchpad | .l1 => 4 * w.index
  | .memory => 32 * w.index

/-- The unit code of a file (16 R308). -/
def wordUnit (w : FileWord) : Nat := match w.file with | .scratchpad => 1 | .l1 => 2 | _ => 0

/-- An error comes to be in a word of a core, or in a sector of a memory, which the scrubber does not reach before the next
read (06 R110, 16 R313; log 72). -/
def State.strike (s : State) (core : Nat) (w : FileWord) : WordError → State
  | .none => s
  | e => if w.file = .memory then (if e = .single then s else s.modDie (placeOf (32 * w.index)).1 (fun d => { d with errors := tput w.index (e == .doubleLasting) d.errors }))
    else if (s.core core).poison.contains w then s
    else s.modCore core (fun k => if e = .single then { k with flips := k.flips.filter (· ≠ w) ++ [w] } else { k with flips := k.flips.filter (· ≠ w) ++ (if e = .doubleSingle then [w] else []), doubles := k.doubles.filter (fun x => x.1 ≠ w) ++ [(w, e == .doubleLasting)] })

/-- What the scrubber finds in a word: an error that stands there already, or the one that the event brings. -/
def Core.shows (k : Core) (w : FileWord) (e : WordError) : WordError :=
  match k.doubles.find? (fun x => x.1 == w) with
  | some x => if x.2 then .doubleLasting else if k.flips.contains w then .doubleSingle else .doubleTransient
  | none => if k.flips.contains w then .single else e

/-- SCRUB_PASS (R111): one word as the scrubber finds it; without `reads` the error comes to be and the scrubber is not
there. -/
def execScrubPass (core : Nat) (at_ : FileWord) (found : Finding) (s : State) : Host.Outcome State Fault Refusal :=
  let k := s.core core
  let rest (k : Core) : Core := k.mend (· = at_)
  if !found.reads then .next (s.strike core at_ found.error)
  else if !k.scrubCtl || k.poison.contains at_ || at_.file = .memory then .next s
  else
    let info (lasting : Bool) : Nat := logInfo (s.ownerOf core at_) true lasting lasting (wordUnit at_) (40 + clusterOfCore core % 8)
    match k.shows at_ found.error with
    | .none => .next s
    | .single => .next (s.modCore core (fun k => { rest k with scrub := (k.scrub + 1) % 2 ^ 32 }))
    | .doubleSingle => .next ((s.modCore core (fun k => { rest k with scrub := (k.scrub + 1) % 2 ^ 32 })).logDie (dieOfCore core) false (info false) 0 (wordAddr at_))
    | .doubleTransient => .next ((s.modCore core rest).logDie (dieOfCore core) false (info false) 0 (wordAddr at_))
    | .doubleLasting => .next ((s.modCore core (fun k => { rest k with poison := k.poison ++ [at_] })).logDie (dieOfCore core) true (info true) 0 (wordAddr at_))

end Sys2Proof.Machine
end

