-- ==== Sys2Proof/Machine/Engines.lean ====
section
/-! DEFINITION. Barrier objects (05 R92 to R94), copy requests (R95 to R99), gather and scatter (R102, R103),
collectives (R104) and CSTAT (R107), as far as the issuing word goes. -/

namespace Sys2Proof.Machine

/-! ### Barrier objects -/

/-- A number of `n` bytes of a team's scratchpad. -/
def Team.num (t : Team) (a n : Nat) : Nat := ofBytes ((List.range n).map (fun k => tget 0 (a + k) t.scratch))
def Team.setBytes (t : Team) (bs : List (Nat × Byte)) : Team := { t with scratch := tsetAll 0 bs t.scratch }
/-- REM and PH of the object at `a` (R92). -/
def Team.rem (t : Team) (a : Nat) : Int := sext (t.num a 4) 32
def Team.phase (t : Team) (a : Nat) : Bool := (t.num (a + 4) 1).testBit 0

/-- The scopes of the bytes counted to a phase of an object (R91): one more than the widest. -/
def phaseKey (a : Nat) (p : Bool) : Nat := 2 * a + p.toNat

/-- REM becomes `x`; at 0 the phase is complete and PH flips, and the phase that begins has counted nothing
(R93). -/
def Team.setRem (t : Team) (a : Nat) (x : Int) : Team :=
  let t1 := t.setBytes (bytesAt a (wrap x 32) 4)
  if wrap x 32 ≠ 0 then t1
  else
    let b := t.num (a + 4) 1
    let t2 := t1.setBytes (bytesAt (a + 4) (b ^^^ 1) 1)
    { t2 with barScope := tset 0 (phaseKey a (!b.testBit 0)) 0 t2.barScope }

/-- `n` bytes of a request at scope `sc` arrive at the object (R93). -/
def Team.arrive (t : Team) (a n sc : Nat) : Team :=
  let k := phaseKey a (t.phase a)
  ({ t with barScope := tset 0 k (max (tget 0 k t.barScope) (sc + 1)) t.barScope } : Team).setRem a (t.rem a - n)

/-- A BWAIT that returns is an acquire for what counted bytes to the phase (R91). -/
def State.bwaitReturns (s : State) (gid a : Nat) (p : Bool) : State :=
  s.engineAcquire gid (tget 0 (phaseKey a p) (s.team (s.group gid).team).barScope)

/-- The groups of a team that wait on an object whose phase is over return (R94). -/
def State.wakeObject (s : State) (team a : Nat) : State :=
  ((s.team team).gids.filterMap id).foldl (fun (s : State) x => match (s.group x).wait with
    | some w => match w.kind with
      | .object a' p => if a' = a ∧ (s.team team).phase a ≠ p then (s.bwaitReturns x a p).modGroup x (fun g => { g with wait := none }) else s
      | _ => s
    | none => s) s

/-- The words of an object are read and REM is written, PH with it where the phase ends (06 R110, R111). -/
def State.touchObject (s : State) (team a : Nat) (ends : Bool) : State :=
  (s.spRead team (spBytes 8 [a])).mendScratch team (a :: if ends then [a + 4] else [])

/-- `n` bytes arrive, and those who waited for the phase go on. -/
def State.arriveAt (s : State) (team a n sc : Nat) : State :=
  let s1 := s.touchObject team a (wrap ((s.team team).rem a - n) 32 = 0)
  (s1.modTeam team (fun t => t.arrive a n sc)).wakeObject team a

/-- The lasting error of an object that an instruction reads (06 R110). -/
def objectSound (s : State) (c : Iss) (a : Nat) (go : State → Except Flt State) : Except Flt State :=
  match s.spPoison c.g.team (spBytes 8 [a]) with
  | some f => .error f
  | none => go (s.spRead c.g.team (spBytes 8 [a]))

/-- The checks of R94 at issue. -/
def objectCheck (s : State) (o : FOps) (c : Iss) : Option Flt :=
  let a := (c.g.rs o.a.toNat).toNat
  if a % 8 ≠ 0 then some (fAlign 1 0 3 a)
  else if (s.team c.g.team).scratchSize < a + 8 then some (fScratch a)
  else none

/-- BINIT (R93, R94). -/
def execBinit (o : FOps) (s : State) : Host.Outcome State Fault Refusal :=
  issue (.binit o) s free_ (fun c t =>
    match objectCheck t o c with
    | some f => .error f
    | none =>
      let s1 := t.commitRegion c.gid c.slotB
      let a := (c.g.rs o.a.toNat).toNat
      .ok (if c.active o.g = 0 then s1 else (s1.mendScratch c.g.team (spBytes 8 [a])).modTeam c.g.team (fun m => { m.setBytes (bytesAt a (c.bs t o).toNat 8) with barScope := tset 0 (phaseKey a false) 0 (tset 0 (phaseKey a true) 0 m.barScope) })))

/-- BEXP (R93, R94): an overflow changes nothing. Its cause-12 detail has the counts 0 (DESIGN CHOICE, log 75: no rule
fills them). -/
def execBexp (o : FOps) (s : State) : Host.Outcome State Fault Refusal :=
  issue (.bexp o) s free_ (fun c t =>
    match objectCheck t o c with
    | some f => .error f
    | none =>
      let s1 := t.commitRegion c.gid c.slotB
      let a := (c.g.rs o.a.toNat).toNat
      let x := (s1.team c.g.team).rem a + (c.bs t o).toInt
      if c.active o.g = 0 then .ok s1
      else objectSound s1 c a (fun s1 =>
        if 2 ^ 31 ≤ x then .error (fSync a 0 0 0 4)
        else .ok (((s1.touchObject c.g.team a (wrap x 32 = 0)).modTeam c.g.team (fun m => m.setRem a x)).wakeObject c.g.team a)))

/-- BWAIT (R94). -/
def execBwait (o : FOps) (s : State) : Host.Outcome State Fault Refusal :=
  issue2 (.bwait o) s free_
    (fun c t =>
      match objectCheck t o c with
      | some f => .error f
      | none =>
        let s1 := t.commitRegion c.gid c.slotB
        let a := (c.g.rs o.a.toNat).toNat
        let p := (c.bs t o).getLsbD 0
        if c.active o.g = 0 then .ok s1
        else objectSound s1 c a (fun s1 => .ok (if (s1.team c.g.team).phase a ≠ p then s1.bwaitReturns c.gid a p
          else s1.block c (.bwait o) (.object a p))))
    (fun c w t => .ok (match w.kind with | .object a p => t.bwaitReturns c.gid a p | _ => t))

/-! ### Kicks -/

/-- Commits the region, performs the release of the word's own scope and holds the group until it is complete
(R91, 13 R355). -/
def State.releaseAt (s : State) (c : Iss) (i : Instr) (scope : Nat) : State :=
  let s1 := s.commitRegion c.gid c.slotB
  let h := s1.startRelease c.gid scope true
  (h.2.block c i (.release h.1)).settle

/-- The alignment and range of a 64-byte request (R96). -/
def requestCheck (s : State) (o : FOps) (c : Iss) : Option Flt :=
  let a := (c.g.rs o.a.toNat).toNat
  if a % 64 ≠ 0 then some (fAlign 1 0 6 a)
  else if (s.team c.g.team).scratchSize < a + 64 then some (fScratch a)
  else none

/-- A request is read from the scratchpad, or met with a lasting error (06 R110). -/
def requestRead (s : State) (c : Iss) (a : Nat) (go : State → Except Flt State) : Except Flt State :=
  match s.spPoison c.g.team (spBytes 64 [a]) with
  | some f => .error f
  | none => go (s.spRead c.g.team (spBytes 64 [a]))

/-- Whether a global range of exact addresses is canonical. -/
def canonical (lo hi : Int) : Bool := decide (0 ≤ lo) && decide (hi < 2 ^ 56)

/-- A copy request as its 64 bytes give it (R95); the operation number is filled in at the kick. -/
def readCopy (t : Team) (a : Nat) (c : Iss) (scope : Nat) : Copy :=
  let f (k n : Nat) : Nat := t.num (a + k) n
  let ctl := f 0x30 4
  { op := 0, gid := c.gid, team := c.g.team, ctx := c.g.ctx, tenant := c.g.tenant, scope := scope, req := a, saddr := f 0 8, daddr := f 8 8, spy := sext (f 0x10 4) 32, spz := sext (f 0x14 4) 32, dpy := sext (f 0x18 4) 32, dpz := sext (f 0x1C 4) 32, x := f 0x20 4, y := f 0x24 2, z := f 0x26 2, bar := if ctl.testBit 4 then some (f 0x2C 4) else none, ssp := ctl.testBit 2, dsp := ctl.testBit 3, hint := ctl / 64 % 4 }

/-- The extreme addresses of one side over the corners of the shape (R98). -/
def corners (base : Nat) (py pz : Int) (x y z : Nat) : Int × Int :=
  let ey := py * ((y : Int) - 1)
  let ez := pz * ((z : Int) - 1)
  ((base : Int) + min 0 ey + min 0 ez, (base : Int) + max 0 ey + max 0 ez + x - 1)

/-- Validation of R98, in the order of its table (log 9). -/
def copyBad (t : Team) (a : Nat) (c : Copy) : Option Nat :=
  let ctl := t.num (a + 0x30) 4
  let dim := ctl % 4
  let n := c.x * c.y * c.z
  let s := corners c.saddr c.spy c.spz c.x c.y c.z
  let d := corners c.daddr c.dpy c.dpz c.x c.y c.z
  let count := t.num (a + 0x28) 4
  let limit : Int := t.scratchSize
  if nbits ctl 8 24 ≠ 0 || ctl.testBit 5 || t.num (a + 0x34) 12 ≠ 0 then some 1
  else if dim = 3 || c.x = 0 || 2 ^ 24 < c.x || c.y = 0 || c.z = 0 || (dim = 0 && (c.y ≠ 1 || c.z ≠ 1 || c.spy ≠ 0 || c.spz ≠ 0 || c.dpy ≠ 0 || c.dpz ≠ 0)) || (dim = 1 && (c.z ≠ 1 || c.spz ≠ 0 || c.dpz ≠ 0)) then some 2
  else if count ≠ n || 2 ^ 31 ≤ n then some 3
  else if (c.ssp && (decide (s.1 < 0) || decide (limit ≤ s.2))) || (c.dsp && (decide (d.1 < 0) || decide (limit ≤ d.2))) then some 4
  else if (match c.bar with | some b => decide (b % 8 ≠ 0) || decide (t.scratchSize < b + 8) | none => false) then some 5
  else if (!c.ssp && !canonical s.1 s.2) || (!c.dsp && !canonical d.1 d.2) then some 6
  else none

/-- CKICK (R96). -/
def execCkick (o : FOps) (s : State) : Host.Outcome State Fault Refusal :=
  issue2 (.ckick o) s free_
    (fun c t => match requestCheck t o c with
      | some f => .error f
      | none => .ok (t.releaseAt c (.ckick o) (fld o.ox 0 3)))
    (fun c w t =>
      let a := (c.g.rs o.a.toNat).toNat
      let m := t.team c.g.team
      if c.active o.g = 0 then .ok t
      else if 16 ≤ (t.core (coreOf c.gid)).kicks.length then .ok (t.block c (.ckick o) w.kind)
      else requestRead t c a (fun t =>
        let r := readCopy m a c (fld o.ox 0 3)
        match copyBad m a r with
        | some k => .error (fEngine true 0 a k)
        | none =>
          let n := t.newOp c (.ckick o) (some 2) .none (r.x * r.y * r.z)
          let s1 := match n.2.op n.1 with | some x => n.2.putOp n.1 { x with scope := some r.scope } | none => n.2
          .ok (s1.modCore (coreOf c.gid) (fun k => { k with kicks := k.kicks ++ [{ r with op := n.1 }] }))))

/-- The rows of a gather or scatter as (lane, global, scratchpad), or its first fault (R103). -/
def gatherRows (c : Iss) (o : FOps) (scatter : Bool) (limit len pitch : Nat) : Except Flt (List (Nat × Nat × Nat)) :=
  (lanesIn (c.active o.g)).foldr (fun L rest =>
    let g := ((c.g.rpair o.a.toNat).toNat + (c.g.rv o.b.toNat L).toNat * 2 ^ fld o.ox 0 5) % 2 ^ 64
    let p := (c.g.rs o.d.toNat).toNat + L * pitch
    if g % 4 ≠ 0 then .error (fAlign 0 L 2 g)
    else if p % 4 ≠ 0 then .error (fAlign 1 L 2 p)
    else if 2 ^ 56 ≤ g then .error (fTranslation (if scatter then 5 else 4) 3 0 3 g)
    else if limit < p + len then .error (fScratch p)
    else match rest with
      | .error f => .error f
      | .ok l => .ok ((L, g, p) :: l)) (.ok [])

/-- GTHR and SCTR (R102, R103). The indices cannot change while the group is held at the word. A descriptor fault
has REQ 0 in its cause-8 detail (DESIGN CHOICE, log 75: a gather has no request address). -/
def gatherWord (i : Instr) (o : FOps) (s : State) (scatter : Bool) : Host.Outcome State Fault Refusal :=
  let desc (c : Iss) : Nat := (c.g.rs o.c.toNat).toNat
  issue2 i s free_
    (fun c t =>
      let len := nbits (desc c) 0 16
      let pitch := nbits (desc c) 16 16
      if len = 0 || 4096 < len || len % 4 ≠ 0 || pitch % 4 ≠ 0 then .error (fEngine true 1 0 7)
      else match gatherRows c o scatter (t.team c.g.team).scratchSize len pitch with
        | .error f => .error f
        | .ok _ => .ok (t.releaseAt c i (fld o.ox 5 3)))
    (fun c w t =>
      match gatherRows c o scatter (t.team c.g.team).scratchSize (nbits (desc c) 0 16) (nbits (desc c) 16 16) with
      | .error f => .error f
      | .ok [] => .ok t
      | .ok rows =>
        if 8 ≤ (t.core (coreOf c.gid)).gathers.length then .ok (t.block c i w.kind)
        else
          let n := t.newOp c i (some 4) .none rows.length
          let s1 := match n.2.op n.1 with | some x => n.2.putOp n.1 { x with scope := some (fld o.ox 5 3) } | none => n.2
          .ok (s1.modCore (coreOf c.gid) (fun k => { k with gathers := k.gathers ++ [{ op := n.1, gid := c.gid, team := c.g.team, ctx := c.g.ctx, tenant := c.g.tenant, scope := fld o.ox 5 3, scatter := scatter, len := nbits (desc c) 0 16, rows := rows, left := rows.map (·.1) }] })))

/-- GTHR (R103). -/
def execGthr (o : FOps) (s : State) : Host.Outcome State Fault Refusal := gatherWord (.gthr o) o s false

/-- SCTR (R103). -/
def execSctr (o : FOps) (s : State) : Host.Outcome State Fault Refusal := gatherWord (.sctr o) o s true

/-- Bytes of an element of a collective (R106). -/
def elemSize (type : Nat) : Nat := if type = 1 then 2 else 4

/-- A collective request as its 64 bytes give it (R104). -/
def readColl (t : Team) (a : Nat) (c : Iss) (scope : Nat) : Collective :=
  let f (k n : Nat) : Nat := t.num (a + k) n
  { op := 0, gid := c.gid, team := c.g.team, ctx := c.g.ctx, tenant := c.g.tenant, scope := scope, req := a, inp := f 0 8, out := f 8 8, comm := f 0x10 8, count := f 0x18 4, rank := f 0x1C 4, root := f 0x20 4, seq := f 0x24 4, opc := f 0x28 1, type := f 0x29 1, kind := f 0x2A 1, bar := if (f 0x2B 1).testBit 0 then some (f 0x2C 4) else none }

/-- What COLL finds wrong at issue, kind 0x8 (R104); what depends on NRANK is the engine's. -/
def collBad (t : Team) (a : Nat) (c : Collective) : Bool :=
  let n := c.count * elemSize c.type
  decide (2 ≤ t.num (a + 0x2B) 1) || decide (t.num (a + 0x30) 16 ≠ 0) || decide (c.count = 0) || decide (2 ^ 24 < c.count) || decide (3 ≤ c.opc) || decide (3 ≤ c.type) || decide (4 ≤ c.kind) ||
  (decide (2 ≤ c.kind) && decide (c.opc ≠ 0)) || ((c.kind == 0 || c.kind == 3) && decide (c.root ≠ 0)) || decide (2 ^ 56 < c.inp + n) || decide (2 ^ 56 < c.out + n) ||
  (match c.bar with | some b => decide (b % 8 ≠ 0) || decide (t.scratchSize < b + 8) | none => false)

/-- COLL (R104). -/
def execColl (o : FOps) (s : State) : Host.Outcome State Fault Refusal :=
  issue2 (.coll o) s free_
    (fun c t => match requestCheck t o c with
      | some f => .error f
      | none => .ok (t.releaseAt c (.coll o) (fld o.ox 0 3)))
    (fun c _ t =>
      let a := (c.g.rs o.a.toNat).toNat
      let m := t.team c.g.team
      if c.active o.g = 0 then .ok t
      else requestRead t c a (fun t =>
        let r := readColl m a c (fld o.ox 0 3)
        if collBad m a r then .error (fEngine true 2 a 8)
        else
          let n := t.newOp c (.coll o) (some 5) .none 1
          let s1 := match n.2.op n.1 with | some x => n.2.putOp n.1 { x with scope := some r.scope } | none => n.2
          .ok ((s1.modDie (dieOf c.gid) (fun d => { d with colls := d.colls ++ [{ r with op := n.1 }] })).meetArrive (collMeet c.g.ctx r.comm) (clusterOfCore (coreOf c.gid)))))

/-- CSTAT (R107): a path counter, or the free entries of the kick queue. -/
def execCstat (o : FOps) (s : State) : Host.Outcome State Fault Refusal :=
  issue (.cstat o) s free_ (fun c t =>
    let k := fld o.ox 0 3
    let x := if k < 6 then c.g.counter k else 16 - (t.core (coreOf c.gid)).kicks.length
    .ok (if c.active o.g = 0 then t else t.modGroup c.gid (fun g => g.ws o.d.toNat (BitVec.ofNat 32 x))))

end Sys2Proof.Machine
end

