-- ==== Sys2Proof/Machine/Special.lean ====
section
/-! DEFINITION. The special functions FRCP to FCOSPI (08 R154). Reciprocals and roots are rounded from an
exact quotient or root; the transcendental functions from a fixed-point value with 448 fraction bits, whose
irrational result never lies on a rounding boundary (log 22). -/

namespace Sys2Proof

/-- Fraction bits of the fixed-point values. -/
def fxBits : Nat := 448
/-- 1 in fixed point. -/
def fxOne : Nat := 2 ^ fxBits

/-- The integer square root, bit by bit from bit `k` down. -/
def isqrtFrom (x r : Nat) : Nat → Nat
  | 0 => r
  | k + 1 => isqrtFrom x (if (r + 2 ^ k) * (r + 2 ^ k) ≤ x then r + 2 ^ k else r) k

/-- The integer square root. -/
def isqrt (x : Nat) : Nat := isqrtFrom x 0 (bitLen x / 2 + 1)

/-- artanh of z in fixed point, z at most 1/3. -/
def fxAtanh (z : Nat) : Nat :=
  let z2 := (z * z) >>> fxBits
  ((List.range 150).foldl (fun (a : Nat × Nat) k => (a.1 + a.2 / (2 * k + 1), (a.2 * z2) >>> fxBits)) (0, z)).1

/-- ln 2 in fixed point: 2 artanh(1/3). -/
def fxLn2 : Nat := 2 * fxAtanh (fxOne / 3)

/-- arctan(1/x) in fixed point. -/
def fxAtanInv (x : Nat) : Int :=
  (List.range 110).foldl (fun (a : Int) k => a + (if k % 2 = 0 then 1 else -1) * ((fxOne / ((2 * k + 1) * x ^ (2 * k + 1)) : Nat) : Int)) 0

/-- π in fixed point: 16 arctan(1/5) - 4 arctan(1/239). -/
def fxPi : Nat := (16 * fxAtanInv 5 - 4 * fxAtanInv 239).toNat

/-- e^x in fixed point, x in [0, 1). -/
def fxExp (x : Nat) : Nat :=
  ((List.range 110).foldl (fun (a : Nat × Nat) k => (a.1 + a.2, ((a.2 * x) >>> fxBits) / (k + 1))) (0, fxOne)).1

/-- sin x and cos x in fixed point, x in [0, 1): the terms of the exponential series with alternating signs,
from term `k0`. -/
def fxTrig (k0 x : Nat) : Nat :=
  ((List.range 110).foldl (fun (a : Int × Nat) k =>
    (if k % 2 = k0 then a.1 + (if k % 4 < 2 then 1 else -1) * (a.2 : Int) else a.1, ((a.2 * x) >>> fxBits) / (k + 1))) ((0 : Int), fxOne)).1.toNat
def fxSin (x : Nat) : Nat := fxTrig 1 x
def fxCos (x : Nat) : Nat := fxTrig 0 x

/-- A fixed-point value as an irrational value. -/
def fxVal (neg : Bool) (y : Nat) : Val := .fin neg y (-fxBits) true

/-- 2^x for x = i + f, f a fixed-point fraction. -/
def exp2At (i : Int) (f : Nat) : Val :=
  if f = 0 then .dy false 1 i else .fin false (fxExp ((f * fxLn2) >>> fxBits)) (i - fxBits) true

/-- The integer and fixed-point fraction of a finite value. -/
def splitVal (neg : Bool) (m : Nat) (e : Int) : Int × Nat :=
  let x : Int := (if neg then -1 else 1) * (if 0 ≤ e then ((m <<< (e.toNat + fxBits) : Nat) : Int) else ((m <<< fxBits >>> (-e).toNat : Nat) : Int))
  (x / (fxOne : Int), (x % (fxOne : Int)).toNat)

/-- 2^a; beyond ±1024 every result is past the range of FP32. -/
def exp2Val (neg : Bool) (m : Nat) (e : Int) : Val :=
  if 10 < e + bitLen m then (if neg then .fin false 1 (-1024) true else .dy false 1 1024)
  else exp2At (splitVal neg m e).1 (splitVal neg m e).2

/-- log2 of m × 2^e, m not 0: the integer part is taken so that what is left lies in [3/4, 3/2). -/
def log2Val (m : Nat) (e : Int) : Val :=
  let n := bitLen m - 1
  if m = 2 ^ n then .ofInt (e + n)
  else
    let up := 3 * 2 ^ n ≤ 2 * m
    let k := if up then n + 1 else n
    -- what is left is m / 2^k, and z = (m - 2^k) / (m + 2^k)
    let d := if up then 2 ^ k - m else m - 2 ^ k
    let l := 2 * fxAtanh (d * fxOne / (m + 2 ^ k)) * fxOne / fxLn2
    let x : Int := (e + k) * (fxOne : Int) + (if up then -(l : Int) else l)
    .fin (x < 0) (if x < 0 then x.natAbs - 1 else x.natAbs) (-fxBits) true

/-- tanh of m × 2^e with its sign: near 0 just below m × 2^e, past 32 just below 1. -/
def tanhVal (neg : Bool) (m : Nat) (e : Int) : Val :=
  if e + bitLen m < -40 then .fin neg (m * 2 ^ 40 - 1) (e - 40) true
  else if 5 < e + bitLen m then .fin neg (2 ^ 80 - 1) (-80) true
  else
    let x := splitVal false m e
    let y := (x.1.toNat * fxOne + x.2) * 2 * fxOne / fxLn2
    let E := fxExp ((y % fxOne * fxLn2) >>> fxBits) <<< (y / fxOne)
    fxVal neg ((E - fxOne) * fxOne / (E + fxOne))

/-- |a| modulo 2 as (u, unit): u / unit. -/
def mod2 (m : Nat) (e : Int) : Nat × Nat :=
  if 0 ≤ e then ((m <<< e.toNat) % 2, 1) else (m % 2 ^ ((-e).toNat + 1), 2 ^ (-e).toNat)

/-- sin(π u / unit) for u / unit in (0, 1/2). -/
def sinArc (neg : Bool) (u unit : Nat) : Val :=
  if 4 * u ≤ unit then fxVal neg (fxSin (fxPi * u / unit)) else fxVal neg (fxCos (fxPi * (unit - 2 * u) / (2 * unit)))

/-- sin(πa); an integer gives the zero of a's sign. -/
def sinpiVal (neg : Bool) (m : Nat) (e : Int) : Val :=
  let (u, unit) := mod2 m e
  let flip := decide (unit ≤ u)
  let v := if flip then u - unit else u
  let w := if unit < 2 * v then unit - v else v
  if w = 0 then .zero neg
  else if 2 * w = unit then .dy (bxor neg flip) 1 0
  else sinArc (bxor neg flip) w unit

/-- cos(πa); n + 0.5 gives +0. -/
def cospiVal (m : Nat) (e : Int) : Val :=
  let (u, unit) := mod2 m e
  let v := if unit < u then 2 * unit - u else u
  let flip := decide (unit < 2 * v)
  let w := if flip then unit - v else v
  if w = 0 then .dy flip 1 0
  else if 2 * w = unit then .zero false
  else if 4 * w ≤ unit then fxVal flip (fxCos (fxPi * w / unit)) else fxVal flip (fxSin (fxPi * (unit - 2 * w) / (2 * unit)))

/-- 1/√(m × 2^e) and √(m × 2^e), with the exponent made even. -/
def rsqrtVal (m : Nat) (e : Int) : Val :=
  let m1 := if e % 2 = 0 then m else 2 * m
  let k := (if e % 2 = 0 then e else e - 1) / 2
  let r := isqrt (2 ^ 200 / m1)
  .fin false r (-k - 100) (r * r * m1 ≠ 2 ^ 200)
def sqrtVal (m : Nat) (e : Int) : Val :=
  let m1 := if e % 2 = 0 then m else 2 * m
  let k := (if e % 2 = 0 then e else e - 1) / 2
  let r := isqrt (m1 * 2 ^ 200)
  .fin false r (k - 100) (r * r ≠ m1 * 2 ^ 200)

/-- The special functions (R154). -/
inductive Special where
  | rcp | rsq | sqrt | exp2 | log2 | tanh | sinpi | cospi
deriving DecidableEq, Repr

/-- The exact value of a special function, with invalid and division by zero (R133, R154). -/
def Special.value (f : Special) (a : Val) : Val × FFlags :=
  match f, a with
  | _, .nan => (.nan, {})
  | .rcp, .inf n => (.zero n, {})
  | .rcp, .fin n m e _ => if m = 0 then (.inf n, { dz := true }) else (divVals n 1 0 m e, {})
  | .rsq, .inf n => if n then (.nan, { inv := true }) else (.zero false, {})
  | .rsq, .fin n m e _ => if m = 0 then (.inf n, { dz := true }) else if n then (.nan, { inv := true }) else (rsqrtVal m e, {})
  | .sqrt, .inf n => if n then (.nan, { inv := true }) else (.inf false, {})
  | .sqrt, .fin n m e _ => if m = 0 then (.zero n, {}) else if n then (.nan, { inv := true }) else (sqrtVal m e, {})
  | .exp2, .inf n => (if n then .zero false else .inf false, {})
  | .exp2, .fin n m e _ => if m = 0 then (.dy false 1 0, {}) else (exp2Val n m e, {})
  | .log2, .inf n => if n then (.nan, { inv := true }) else (.inf false, {})
  | .log2, .fin n m e _ => if m = 0 then (.inf true, { dz := true }) else if n then (.nan, { inv := true }) else (log2Val m e, {})
  | .tanh, .inf n => (.dy n 1 0, {})
  | .tanh, .fin n m e _ => if m = 0 then (.zero n, {}) else (tanhVal n m e, {})
  | .sinpi, .inf _ => (.nan, { inv := true })
  | .sinpi, .fin n m e _ => if m = 0 then (.zero n, {}) else (sinpiVal n m e, {})
  | .cospi, .inf _ => (.nan, { inv := true })
  | .cospi, .fin _ m e _ => if m = 0 then (.dy false 1 0, {}) else (cospiVal m e, {})

/-- A special function of an FP32 word, rounded once; only invalid and division by zero are checked. -/
def Special.apply (f : Special) (mode : RMode) (a : Nat) : Nat × FFlags :=
  ((fp32.round mode false (f.value (fp32.decode a)).1).1, (f.value (fp32.decode a)).2)

end Sys2Proof
end

