-- ==== Sys2Proof/Machine/Fp32.lean ====
section
/-! DEFINITION. The FP32 group (08 R152 to R155). -/

namespace Sys2Proof.Machine

/-- A rounded function of A and B as FP32 values. -/
def fp2 (i : Instr) (o : FOps) (s : State) (f : Nat → Nat → Nat × FFlags) : Host.Outcome State Fault Refusal :=
  checked1 i o s (fun c t L => f (c.a o L).toNat (c.fb t o fp32 0 L))

/-- FADD (R152). -/
def execFadd (o : FOps) (s : State) : Host.Outcome State Fault Refusal := fp2 (.fadd o) o s (fp32.add o.rm)

/-- FSUB (R152). -/
def execFsub (o : FOps) (s : State) : Host.Outcome State Fault Refusal := fp2 (.fsub o) o s (fp32.sub o.rm)

/-- FMUL (R152). -/
def execFmul (o : FOps) (s : State) : Host.Outcome State Fault Refusal := fp2 (.fmul o) o s (fp32.mul o.rm)

/-- FFMA (R152). -/
def execFfma (o : FOps) (s : State) : Host.Outcome State Fault Refusal :=
  checked1 (.ffma o) o s (fun c t L => fp32.fma o.rm (c.a o L).toNat (c.b t o L).toNat (c.c o L).toNat)

/-- FMIN (R153). -/
def execFmin (o : FOps) (s : State) : Host.Outcome State Fault Refusal := fp2 (.fmin o) o s (fun a b => (fp32.minmax false a b, {}))

/-- FMAX (R153). -/
def execFmax (o : FOps) (s : State) : Host.Outcome State Fault Refusal := fp2 (.fmax o) o s (fun a b => (fp32.minmax true a b, {}))

/-- A special function (R154): its exceptions are found at issue, and its results are written when it
completes. -/
def special (i : Instr) (o : FOps) (s : State) (f : Special) : Host.Outcome State Fault Refusal :=
  issue i s free_ (fun c t =>
    let rs := (lanesIn (c.active o.g)).map (fun L => (L, f.apply o.rm (c.a o L).toNat))
    match arithFault i.opcNum c.g.fpx (rs.map (fun r => (r.1, r.2.2))) with
    | some e => .error e
    | none => .ok (t.newOp c i none (.cells (rs.map (fun r => (⟨0, 32 * o.d.toNat + r.1⟩, BitVec.ofNat 32 r.2.1)))) 0).2)

/-- FRCP (R154). -/
def execFrcp (o : FOps) (s : State) : Host.Outcome State Fault Refusal := special (.frcp o) o s .rcp

/-- FRSQ (R154). -/
def execFrsq (o : FOps) (s : State) : Host.Outcome State Fault Refusal := special (.frsq o) o s .rsq

/-- FSQRT (R154). -/
def execFsqrt (o : FOps) (s : State) : Host.Outcome State Fault Refusal := special (.fsqrt o) o s .sqrt

/-- FEXP2 (R154). -/
def execFexp2 (o : FOps) (s : State) : Host.Outcome State Fault Refusal := special (.fexp2 o) o s .exp2

/-- FLOG2 (R154). -/
def execFlog2 (o : FOps) (s : State) : Host.Outcome State Fault Refusal := special (.flog2 o) o s .log2

/-- FTANH (R154). -/
def execFtanh (o : FOps) (s : State) : Host.Outcome State Fault Refusal := special (.ftanh o) o s .tanh

/-- FSINPI (R154). -/
def execFsinpi (o : FOps) (s : State) : Host.Outcome State Fault Refusal := special (.fsinpi o) o s .sinpi

/-- FCOSPI (R154). -/
def execFcospi (o : FOps) (s : State) : Host.Outcome State Fault Refusal := special (.fcospi o) o s .cospi

/-- FRND (R155). -/
def execFrnd (o : FOps) (s : State) : Host.Outcome State Fault Refusal := lanewise1 (.frnd o) o s (fun a => BitVec.ofNat 32 (frnd o.rm a.toNat))

/-- FCLASS (R155). -/
def execFclass (o : FOps) (s : State) : Host.Outcome State Fault Refusal := lanewise1 (.fclass o) o s (fun a => BitVec.ofNat 32 (fclass a.toNat))

/-- FSCALE (R155): B is read as an integer. -/
def execFscale (o : FOps) (s : State) : Host.Outcome State Fault Refusal :=
  checked1 (.fscale o) o s (fun c t L => fscale o.rm (c.a o L).toNat (c.b t o L).toInt)

end Sys2Proof.Machine
end

