-- ==== Sys2Proof/Machine/EngineEvents.lean ====
section
/-! DEFINITION. What the copy engines, gather units and collective engines do (05 R97 to R106). -/

namespace Sys2Proof.Machine

/-- The lowest number of the engines with the fewest queued bytes (R99). -/
def leastEngine (ps : Table Piece) : Nat :=
  let q (e : Nat) : Nat := ps.foldl (fun n p => if p.2.engine = e then n + (p.2.stop - p.2.next) else n) 0
  (List.range 4).foldl (fun best e => if q e < q best then e else best) 0

/-- Hands out the pieces of a request from byte `k` on (R99). -/
def State.handPieces (s : State) (c : Copy) (total : Nat) : (fuel : Nat) → Nat → State
  | 0, _ => s
  | n + 1, k =>
    let d := dieOf c.gid
    let f := s.fresh
    let p : Piece := { copy := c, engine := leastEngine (s.die d).pieces, next := k, stop := min total (k + 65536) }
    (f.2.modDie d (fun x => { x with pieces := tput f.1 p x.pieces })).handPieces c total n (k + 65536)

/-- KICK_QUEUE_TAKE (R99). -/
def execKickQueueTake (core : Nat) (s : State) : Host.Outcome State Fault Refusal :=
  match (s.core core).kicks with
  | [] => .next s
  | c :: rest =>
    if s.halted c.ctx then .next s
    else
      let total := c.x * c.y * c.z
      .next ((s.modCore core (fun k => { k with kicks := rest })).handPieces c total ((total + 65535) / 65536) 0)

/-- Reads a byte for an engine: scratchpad, or global under the context (R97). -/
def State.engineByte (s : State) (team ctx : Nat) (sp : Bool) (a : Int) : Except Flt Byte :=
  if sp then (match s.spPoison team [a.toNat] with | some f => .error f | none => .ok (tget 0 a.toNat (s.team team).scratch))
  else
    let va := wrap a 64
    if 2 ^ 56 ≤ va then .error (fTranslation 4 3 0 3 va)
    else s.slicePeek ctx va { rd := true } .engineRead (some (dieOfCore (s.team team).core))

/-- What a read of global memory by an engine leaves behind. -/
def State.engineTook (s : State) (team ctx : Nat) (sp : Bool) (va n : Nat) : State :=
  if sp || 2 ^ 56 ≤ va then s else s.slicePeeked ctx { rd := true } .engineRead va (min n (2 ^ 56 - va)) (some (dieOfCore (s.team team).core))

/-- Writes bytes for an engine (R97). -/
def State.engineWrite (s : State) (team ctx : Nat) (sp : Bool) (bs : List (Nat × Byte)) : Except Flt State :=
  if sp then .ok (s.writeScratch team bs)
  else match bs.find? (fun b => 2 ^ 56 ≤ b.1) with
    | some b => .error (fTranslation 5 3 0 3 b.1)
    | none => s.slicePokes ctx { wr := true } .engineWrite (byLine bs) (some (dieOfCore (s.team team).core))

/-- What a write by an engine that faults leaves behind. -/
def State.engineMet (s : State) (team ctx : Nat) (sp : Bool) (bs : List (Nat × Byte)) : State :=
  if sp || bs.any (fun b => 2 ^ 56 ≤ b.1) then s else s.pokesMet ctx { wr := true } .engineWrite (byLine bs) (some (dieOfCore (s.team team).core))

/-- The addresses of byte `k` of a request (R97). -/
def Copy.src (c : Copy) (k : Nat) : Int := c.saddr + (k / (c.x * c.y) : Nat) * c.spz + (k / c.x % c.y : Nat) * c.spy + (k % c.x : Nat)
def Copy.dst (c : Copy) (k : Nat) : Int := c.daddr + (k / (c.x * c.y) : Nat) * c.dpz + (k / c.x % c.y : Nat) * c.dpy + (k % c.x : Nat)

/-- What reading byte `k` leaves behind: a line is read once for the bytes of a row that follow each other in it. -/
def State.copyAccess (s : State) (c : Copy) (k : Nat) : State :=
  let va := wrap (c.src k) 64
  if c.ssp || 2 ^ 56 ≤ va || (k % 65536 ≠ 0 && va / 128 == wrap (c.src (k - 1)) 64 / 128) then s
  else s.peekedLine (some (dieOfCore (s.team c.team).core)) c.ctx { rd := true } .engineRead va (min (128 - va % 128) (c.x - k % c.x))

/-- What byte `k` leaves behind where it faults. -/
def State.copyMet (s : State) (c : Copy) (k : Nat) : State :=
  match s.engineByte c.team c.ctx c.ssp (c.src k) with
  | .error _ => s.engineTook c.team c.ctx c.ssp (wrap (c.src k) 64) 1
  | .ok b => s.engineMet c.team c.ctx c.dsp [(if c.dsp then (c.dst k).toNat else wrap (c.dst k) 64, b)]

/-- The lasting error of the object that a request counts on: what would count is not performed (06 R110). -/
def State.barPoison (s : State) (team : Nat) : Option Nat → Option Flt
  | some a => s.spPoison team (spBytes 8 [a])
  | none => none

/-- Performs byte `k` of a request (R97), with the checks of the race detector (13 R255). A destination line is marked
with the request's hint (R95). -/
def State.copyByte (s : State) (c : Copy) (k : Nat) : Except Flt State :=
  match s.engineByte c.team c.ctx c.ssp (c.src k), s.barPoison c.team c.bar with
  | .error f, _ | _, some f => .error f
  | .ok b, none =>
    let to_ := if c.dsp then (c.dst k).toNat else wrap (c.dst k) 64
    match s.engineWrite c.team c.ctx c.dsp [(to_, b)] with
    | .error f => .error f
    | .ok s1 =>
      let s2 := if c.ssp then s1 else s1.raceOp c.op 0 false (c.scope + 1) [wrap (c.src k) 64]
      let s2 := if c.ssp then s2.spRead c.team [(c.src k).toNat] else s2
      .ok ((if c.dsp then s2 else (s2.hintLine c.ctx (to_ / 128) c.hint).raceOp c.op 0 true (c.scope + 1) [to_]).copyAccess c k)

/-- The address a fault names, for the ADDR word of an engine record. -/
def Flt.addr (f : Flt) : Nat := nbits f.detail.toNat 0 56

/-- A lasting error of a core's files that an engine met is logged by its die (16 R313). -/
def State.logEngine (s : State) (ctx die : Nat) (f : Flt) : State :=
  if f.cause = 16 && !f.ofMemory then s.logDie die true (logInfo (s.context ctx).tenant false (f.detail.getLsbD 60) true (nbits f.detail.toNat 56 4) 49) (s.context ctx).num f.addr else s

/-- A fault of an engine (R100): the halt line and the engine record (16 R306). -/
def State.engineFault (s : State) (ctx : Nat) (f : Flt) (kind number die gid req prog : Nat) : State :=
  (s.logEngine ctx die f).raiseEngine ctx f { kind := kind, number := number, die := die, cause := f.cause, detail := f.detail, group := srcWord gid 0, req := req, prog := prog, addr := f.addr, time := s.devTime }

/-- Counts a byte that has been performed: its arrival, then CP (R97). -/
def State.countByte (s : State) (c : Copy) : State :=
  (match c.bar with | some a => s.arriveAt c.team a 1 c.scope | none => s).partDone c.op

/-- COPY_BYTE_PERFORMED (R97, R100): the next byte of piece `op`; a fault holds the piece until the resume. -/
def execCopyBytePerformed (op : Nat) (s : State) : Host.Outcome State Fault Refusal :=
  match s.dies.find? (fun d => (tfind op d.2.pieces).isSome) with
  | none => .next s
  | some (die, d) => match tfind op d.pieces with
    | none => .next s
    | some p =>
      if s.halted p.copy.ctx || p.held.isSome || (!p.copy.ssp && s.swapStalls p.copy.ctx (wrap (p.copy.src p.next) 64)) || (!p.copy.dsp && s.swapStalls p.copy.ctx (wrap (p.copy.dst p.next) 64)) then .next s
      else match s.copyByte p.copy p.next with
        | .error f =>
          .next (((s.copyMet p.copy p.next).modDie die (fun x => { x with pieces := tput op { p with held := some f } x.pieces })).engineFault p.copy.ctx f 0 p.engine die p.copy.gid p.copy.req p.next)
        | .ok s1 =>
          let next := p.next + 1
          .next ((s1.modDie die (fun x => { x with pieces := if next < p.stop then tput op { p with next := next } x.pieces else tdel op x.pieces })).countByte p.copy |>.reapTeam p.copy.team)

/-- The bytes that a row takes from its source. -/
def State.rowBytes (s : State) (x : Gather) (g p : Nat) : Except Flt (List (Nat × Byte)) :=
  let mine := if x.scatter then g else p
  (List.range x.len).foldr (fun k (rest : Except Flt (List (Nat × Byte))) => match s.engineByte x.team x.ctx x.scatter (if x.scatter then p + k else g + k : Nat) with
    | .error f => .error f
    | .ok b => match rest with
      | .error f => .error f
      | .ok l => .ok ((mine + k, b) :: l)) (.ok [])

/-- What a row leaves behind where it faults. -/
def State.rowMet (s : State) (x : Gather) (g p : Nat) : State :=
  match s.rowBytes x g p with
  | .error _ => s.engineTook x.team x.ctx x.scatter g x.len
  | .ok l => s.engineMet x.team x.ctx (!x.scatter) l

/-- Moves one row; bytes that a higher lane's row also covers are that lane's (R103). -/
def State.moveRow (s : State) (x : Gather) (L g p : Nat) : Except Flt State :=
  let offs := List.range x.len
  let base (r : Nat × Nat × Nat) : Nat := if x.scatter then r.2.1 else r.2.2
  let mine := if x.scatter then g else p
  let above := x.rows.filter (fun r => decide (L < r.1))
  let own := offs.filter (fun k => !above.any (fun r => decide (base r ≤ mine + k) && decide (mine + k < base r + x.len)))
  match s.rowBytes x g p with
  | .error f => .error f
  | .ok l => match s.engineWrite x.team x.ctx (!x.scatter) (l.filter (fun b => own.contains (b.1 - mine))) with
    | .error f => .error f
    | .ok s1 => .ok ((if x.scatter then s1.spRead x.team (offs.map (fun k => p + k)) else s1.engineTook x.team x.ctx false g x.len).raceOp x.op L x.scatter (x.scope + 1) (offs.map (fun k => g + k)))

/-- GATHER_ROW_PERFORMED (R103): GT falls when all rows have been moved. A row that faulted waits for the resume. -/
def execGatherRowPerformed (op lane : Nat) (s : State) : Host.Outcome State Fault Refusal :=
  match s.cores.find? (fun k => k.2.gathers.any (fun x => x.op == op)) with
  | none => .next s
  | some (core, k) => match k.gathers.find? (fun x => x.op == op) with
    | none => .next s
    | some x => match x.rows.find? (fun r => r.1 == lane && x.left.contains lane) with
      | none => .next s
      | some r =>
        let put (s : State) (y : Gather) : State := s.modCore core (fun k => { k with gathers := k.gathers.map (fun z => if z.op = op then y else z) })
        if s.halted x.ctx || x.faults.any (fun y => y.1 == lane) || s.swapStallsAt x.ctx r.2.1 x.len then .next s
        else match s.moveRow x lane r.2.1 r.2.2 with
          | .error f =>
            let s1 := put (s.rowMet x r.2.1 r.2.2) { x with faults := (lane, f) :: x.faults }
            .next (if x.faults = [] then s1.engineFault x.ctx f 1 (core % 64) (dieOfCore core) x.gid 0 lane else (s1.logEngine x.ctx (dieOfCore core) f).raise x.ctx f { die := dieOfCore core })
          | .ok s1 =>
            let left := x.left.filter (· ≠ lane)
            let s2 := if left = [] then s1.modCore core (fun k => { k with gathers := k.gathers.filter (fun z => z.op ≠ op) }) else put s1 { x with left := left }
            .next ((s2.partDone op).reapTeam x.team)

/-! ### Collectives (R104 to R106) -/

/-- The op of R105 on two values of a type, held as FP32 words or INT32 words. -/
def collOp (opc type a b : Nat) : Nat :=
  if type = 2 then
    match opc with
    | 0 => (a + b) % 2 ^ 32
    | 1 => if sext b 32 ≤ sext a 32 then a else b
    | _ => if sext a 32 ≤ sext b 32 then a else b
  else match opc with
    | 0 => (fp32.add .rne a b).1
    | 1 => fp32.minmax true a b
    | _ => fp32.minmax false a b

/-- One round of the tree of R105. -/
def collRound (f : Nat → Nat → Nat) : List Nat → List Nat
  | a :: b :: rest => f a b :: collRound f rest
  | l => l

/-- The combination of R105: each round halves the list, so its length bounds the rounds. -/
def collTree (f : Nat → Nat → Nat) : (fuel : Nat) → List Nat → Nat
  | 0, l => l.headD 0
  | n + 1, l => match l with
    | [] => 0
    | [x] => x
    | l => collTree f n (collRound f l)

/-- Element `e` of an input. -/
def elemOf (type : Nat) (bs : List Byte) (e : Nat) : Nat :=
  let x := ofBytes ((bs.drop (e * elemSize type)).take (elemSize type))
  if type = 1 then x * 2 ^ 16 else x

/-- Result bytes of a reduction of the ranks' inputs; a NaN result is the canonical one, of one rank as well (07 R127). -/
def collReduce (opc type count : Nat) (ins : List (List Byte)) : List Byte :=
  (List.range count).flatMap (fun e =>
    let x := collTree (collOp opc type) ins.length (ins.map (fun b => elemOf type b e))
    toBytes (match type with | 0 => if (fp32.decode x).isNan then fp32.nan else x | 1 => (bf16.round .rne false (fp32.decode x)).1 | _ => x) (elemSize type))

/-- A communicator's members as (module, die), or none where the descriptor breaks R340. -/
def State.members (s : State) (c : Collective) : Except Flt (Option (List (Nat × Nat))) :=
  match s.readCtx c.ctx c.comm 16 .engineRead (some (dieOf c.gid)) with
  | .error f => .error f
  | .ok h =>
    let n := nbits h 0 32
    if c.comm % 16 ≠ 0 || n = 0 || 65536 < n || nbits h 32 96 ≠ 0 || 2 ^ 56 < c.comm + 16 + 8 * n then .ok none
    else
      (List.range n).foldr (fun r (rest : Except Flt (Option (List (Nat × Nat)))) =>
        match s.readCtx c.ctx (c.comm + 16 + 8 * r) 8 .engineRead (some (dieOf c.gid)) with
        | .error f => .error f
        | .ok e => match rest with
          | .error f => .error f
          | .ok none => .ok none
          | .ok (some l) => .ok (if nbits e 18 46 ≠ 0 then none else some ((nbits e 0 13, nbits e 13 5) :: l))) (.ok (some []))

/-- The bytes of a communicator, as its first word counts its ranks. -/
def State.commSize (s : State) (c : Collective) : Nat :=
  match s.readCtx c.ctx c.comm 16 .engineRead (some (dieOf c.gid)) with
  | .ok h => if nbits h 0 32 ≤ 65536 then 16 + 8 * nbits h 0 32 else 16
  | .error _ => 16

/-- Whether reading the communicator stalls for a page swap (03 R49). -/
def State.commStalls (s : State) (c : Collective) : Bool := s.swapPages ≠ [] && s.swapStallsAt c.ctx c.comm (s.commSize c)

/-- What reading the communicator leaves behind. -/
def State.commTook (s : State) (c : Collective) : State := s.slicePeeked c.ctx { rd := true } .engineRead c.comm (s.commSize c) (some (dieOf c.gid))

/-- The request of a rank of this module: the first queued at its die for that communicator and rank. A communicator's
collectives are taken in the order in which each rank queued them (log 66). -/
def State.peer (s : State) (c : Collective) (die rank : Nat) : Option Collective :=
  (s.die die).colls.find? (fun x => x.comm == c.comm && x.ctx == c.ctx && x.rank == rank)

/-- Whether two ranks supplied the same shape (R104). -/
def Collective.agrees (c : Collective) (seq kind opc type count root : Nat) : Bool :=
  c.seq == seq && c.kind == kind && c.opc == opc && c.type == type && c.count == count && c.root == root

/-- The bytes a rank writes at OUT, none for a rank that only gives its input (R105, R106). -/
def Collective.result (c : Collective) (ins : List (List Byte)) : Option (List Byte) :=
  match c.kind with
  | 0 => some (collReduce c.opc c.type c.count ins)
  | 1 => if c.rank = c.root then some (collReduce c.opc c.type c.count ins) else none
  | 2 => some (ins.getD c.root [])
  | _ => some (ins.flatMap id)

/-- Writes the result of one rank and counts its bytes (R106). -/
def State.finishColl (s : State) (c : Collective) (nrank : Nat) (ins : List (List Byte)) : Except Flt State :=
  let counted := (if c.kind = 3 then nrank else 1) * c.count * elemSize c.type
  let w : Except Flt State := match s.barPoison c.team c.bar, c.result ins with
    | some f, _ => .error f
    | none, some bs => match s.engineWrite c.team c.ctx false (bs.zipIdx.map (fun (b : Byte × Nat) => (c.out + b.2, b.1))) with
      | .error f => .error f
      | .ok s1 => .ok (s1.raceOp c.op 0 true (c.scope + 1) ((List.range bs.length).map (fun k => c.out + k)))
    | none, none => .ok s
  match w with
  | .error f => .error f
  | .ok s1 =>
    let s2 := s1.modDie (dieOf c.gid) (fun d => { d with colls := d.colls.filter (fun x => x.op ≠ c.op) })
    .ok ((match c.bar with | some a => s2.arriveAt c.team a counted c.scope | none => s2).partDone c.op |>.reapTeam c.team)

/-- One member as a collective sees it: its input, or that it has not arrived. -/
inductive Member where
  | absent
  | mismatch
  | fault (f : Flt)
  | input (bs : List Byte) (own : Option Collective)

/-- Whether rank `r` gives an input that is read: of a broadcast, ROOT's alone is (R105; log 66). -/
def Collective.reads (c : Collective) (r : Nat) : Bool := c.kind ≠ 2 || r == c.root

/-- The input of rank `r` at (module, die) (R104). -/
def State.memberOf (s : State) (c : Collective) (remote : List RankInput) (r : Nat) (m : Nat × Nat) : Member :=
  if m.1 = s.hub.module then
    match s.peer c m.2 r with
    | none => .absent
    | some p =>
      if !c.agrees p.seq p.kind p.opc p.type p.count p.root then .mismatch
      else match s.slicePeeks p.ctx { rd := true } .engineRead p.inp (if c.reads r then p.count * elemSize p.type else 0) (some m.2) with
        | .error f => .fault f
        | .ok bs => .input bs (some p)
  else match remote.find? (fun x => x.rank == r) with
    | none => .absent
    | some x => if c.agrees x.seq.toNat x.kind.toNat x.op.toNat x.type.toNat x.count x.root.toNat then .input x.data none else .mismatch

/-- Whether a rank's accesses stall for a page swap (03 R49). -/
def State.collStalls (s : State) (c : Collective) (nrank r : Nat) : Bool :=
  let n := c.count * elemSize c.type
  (c.reads r && s.swapStallsAt c.ctx c.inp n) || s.swapStallsAt c.ctx c.out (if c.kind = 3 then nrank * n else n)

/-- What the inputs of the ranks of this module, (rank, die), leave behind as they are read. -/
def State.inputsTook (s : State) (c : Collective) (ranks : List (Nat × Nat)) : State :=
  ranks.foldl (fun (s : State) x => match s.peer c x.2 x.1 with
    | some p => if s.halted p.ctx || !c.reads x.1 then s else
        let n := p.count * elemSize p.type
        (State.peekedRuns (some x.2) p.ctx { rd := true } .engineRead (lineRuns p.inp n) s).raceOp p.op 0 false (p.scope + 1) ((List.range n).map (fun k => p.inp + k))
    | none => s) s

/-- The lasting error of memory that the read of an input meets is logged. -/
def State.logInput (s : State) (c : Collective) (ranks : List (Nat × Nat)) : State :=
  match ranks.findSome? (fun x => match s.peer c x.2 x.1 with
    | some p => match s.slicePeeks p.ctx { rd := true } .engineRead p.inp (if c.reads x.1 then p.count * elemSize p.type else 0) (some x.2) with
      | .error _ => some (p, x.2)
      | .ok _ => none
    | none => none) with
  | some (p, die) => s.logPeek p.ctx { rd := true } .engineRead p.inp (p.count * elemSize p.type) (some die)
  | none => s

/-- What a result that faults leaves behind. -/
def State.resultMet (s : State) (c : Collective) (ins : List (List Byte)) : State :=
  match c.result ins with
  | some bs => s.engineMet c.team c.ctx false (bs.zipIdx.map (fun (b : Byte × Nat) => (c.out + b.2, b.1)))
  | none => s

/-- The ranks of this module, as (rank, die). -/
def State.ownRanks (s : State) (ms : List (Nat × Nat)) : List (Nat × Nat) := (ms.zipIdx.filter (fun m => m.1.1 == s.hub.module)).map (fun m => (m.2, m.1.2))

/-- COLLECTIVE_COMPLETE (R104 to R106): once every rank has supplied its input, each rank of this module writes
its result and counts. -/
def execCollectiveComplete (op : Nat) (remote : List RankInput) (s : State) : Host.Outcome State Fault Refusal :=
  match (s.dies.flatMap (fun d => d.2.colls)).find? (fun c => c.op == op) with
  | none => .next s
  | some c =>
    if s.halted c.ctx || c.held.isSome || (s.peer c (dieOf c.gid) c.rank).map (·.op) ≠ some op || s.commStalls c then .next s
    else
      let fail (s : State) (f : Flt) : State := (s.modDie (dieOf c.gid) (fun d => { d with colls := d.colls.map (fun x => if x.op = op then { x with held := some f } else x) })).engineFault c.ctx f 2 0 (dieOf c.gid) c.gid c.req 0
      match s.members c with
      | .error f => .next (fail (s.commTook c) f)
      | .ok none => .next (fail (s.commTook c) (fEngine false 2 c.req 8))
      | .ok (some ms) =>
        if ms.length ≤ c.rank || ms.length ≤ c.root then .next (fail (s.commTook c) (fEngine false 2 c.req 9))
        else
          let all := ms.zipIdx.map (fun m => s.memberOf c remote m.2 m.1)
          let bad := all.findSome? (fun m => match m with | .mismatch => some (fEngine false 2 c.req 9) | .fault f => some f | _ => none)
          match bad with
          | some f => .next (fail (((s.logInput c (s.ownRanks ms)).commTook c).inputsTook c (s.ownRanks ms)) f)
          | none =>
            if ms.zipIdx.any (fun m => decide (m.1.1 = s.hub.module) && (match s.peer c m.1.2 m.2 with | some p => s.collStalls p ms.length m.2 | none => false)) then .next s
            else if all.any (fun m => match m with | .absent => true | _ => false) then
              -- A rank of a module that no port reaches (17 R357).
              .next (match (ms.zip all).findSome? (fun m => match m.2 with | .absent => if m.1.1 ≠ s.hub.module then s.hub.noWay m.1.1 c.comm else none | _ => none) with
                | some f => fail (s.commTook c) f
                | none => s)
            else
              let ins := all.map (fun m => match m with | .input b _ => b | _ => [])
              let s1 := (s.commTook c).inputsTook c (s.ownRanks ms)
              let done := all.foldl (fun (a : Except Flt State) m => match a, m with
                | .ok s, .input _ (some p) => s.finishColl p ms.length ins
                | a, _ => a) (.ok s1)
              match done with
              | .error f =>
                let unwritten := all.findSome? (fun m => match m with
                  | .input _ (some p) => (match s1.finishColl p ms.length ins with | .error _ => some p | .ok _ => none)
                  | _ => none)
                .next (fail (match unwritten with | some p => s1.resultMet p ins | none => s1) f)
              | .ok s2 => .next (s2.meetDone (collMeet c.ctx c.comm))

end Sys2Proof.Machine
end

