-- ==== Sys2Proof/Machine/Fetch.lean ====
section
/-! DEFINITION. Fetching the next word of a slot (03 R58, log 6), its decoding with the entry rules of R24, and
the start and the skip of a clause (01 R26, R28). -/

namespace Sys2Proof.Machine

/-- The word at a code address, read at its home slice with EX (R58). -/
def State.fetchWord (s : State) (gid : Nat) (pc : DWord) : Except Flt DWord :=
  let va := pc.toNat
  if 2 ^ 56 ≤ va then .error (fTranslation 3 3 0 3 va)
  else if va % 8 ≠ 0 then .error (fAlign 0 0 3 va)
  else match s.slicePeeks (s.group gid).ctx { ex := true } .fetch va 8 (some (dieOf gid)) with
    | .error f => .error f
    | .ok bs => .ok (BitVec.ofNat 64 (wordOfBytes bs))

/-- Whether an instruction is a clause header. -/
def isHeader : Instr → Bool
  | .clauseStart _ => true
  | _ => false

/-- What a fetch leaves behind. -/
def State.fetched (s : State) (gid : Nat) (pc : DWord) : State :=
  if 2 ^ 56 ≤ pc.toNat || pc.toNat % 8 ≠ 0 then s else State.peekedRuns (some (dieOf gid)) (s.group gid).ctx { ex := true } .fetch (lineRuns pc.toNat 8) s

/-- A lasting error of memory that a fetch met is logged with the fault (16 R313). -/
def State.logFetch (s : State) (gid : Nat) (pc : DWord) (f : Flt) : State :=
  if f.ofMemory then s.logPeek (s.group gid).ctx { ex := true } .fetch pc.toNat 8 (some (dieOf gid)) else s

/-- The next word of a slot, or what is wrong with it: the fetch, the encoding (R13), or its place (R24). -/
def State.nextWord (s : State) (gid : Nat) (slotB : Bool) : Except Flt Instr :=
  let x := (s.group gid).slot slotB
  match s.fetchWord gid x.pc with
  | .error f => .error f
  | .ok w =>
    match decode (bytesOfWord w) with
    | .error (.enc e) => .error (fEncoding e.half e.reason.code w)
    | .error .short => .error (fEncoding false 0 w)
    | .ok (i, _) => if isHeader i = x.cl.isNone then .ok i else .error (fEncoding false 5 w)

/-- The step that a slot's next word stands for: a header whose mask is zero is a skip (R28). -/
def stepOf (i : Instr) (mask : Word) : Instr :=
  match i with
  | .clauseStart h => if mask = 0 then .clauseSkip h else .clauseStart h
  | i => i

/-- The mask register that a slot's header reads (R28). -/
def Grant.maskReg (gr : Grant) : List Reg := [⟨.sca, gr.slotB.toNat⟩]

/-- CLAUSE_START (R26, R28): the clause begins, and its first word issues in the same opportunity. -/
def execClauseStart (h : Header) (s : State) : Host.Outcome State Fault Refusal :=
  match s.grant with
  | none => .next s
  | some gr =>
    let g := s.group gr.gid
    if !g.waitsClear h.wait then .next { s with grant := none }
    else match poisonFault s (s.issuer gr) gr.maskReg with
    | some f => .next (s.trapAt (s.issuer gr) f)
    | none =>
      let x := g.slot gr.slotB
      let cl : Clause := { sa := h.sa.map BitVec.toNat, sb := h.sb.map BitVec.toNat, left := h.len.toNat + 1, yld := h.yld }
      .next (((s.correct (s.issuer gr) gr.maskReg).fetched gr.gid (x.pc + 8)).setGroup gr.gid ((g.clearMarks h.wait).setSlot gr.slotB { x with pc := x.pc + 8, cl := some cl }))

/-- CLAUSE_SKIP (R28): the slot goes on at the header that follows; the skip is an issue of its group. -/
def execClauseSkip (h : Header) (s : State) : Host.Outcome State Fault Refusal :=
  match s.grant with
  | none => .next s
  | some gr =>
    let g := s.group gr.gid
    if !g.waitsClear h.wait then .next { s with grant := none }
    else match poisonFault s (s.issuer gr) gr.maskReg with
    | some f => .next (s.trapAt (s.issuer gr) f)
    | none =>
      let x := g.slot gr.slotB
      let g1 := (g.clearMarks h.wait).setSlot gr.slotB { x with pc := x.pc + 8 * (h.len.toNat + 2), cl := none }
      .next (({ s.correct (s.issuer gr) gr.maskReg with grant := none, issues := s.issues + 1 } : State).setGroup gr.gid { g1 with last := s.issues + 1, due := 0, nextB := !gr.slotB })

end Sys2Proof.Machine
end

