-- ==== Sys2Proof/Machine/Launch.lean ====
section
/-! DEFINITION. Launch records (14 R257 to R261): the record and its checks, the take of a posted record, its
dependence and its aging, the timers of bins and DEQT, the governor, and the end of a grid (13 R248). -/

namespace Sys2Proof.Machine

/-! ### Records (R258, R260) -/

/-- The record in 64 bytes. -/
def launchOf (x : Nat) : Launch :=
  let f (o n : Nat) : Nat := nbits x (8 * o) (8 * n)
  let b (o lo n : Nat) : Nat := nbits x (8 * o + lo) n
  { code := BitVec.ofNat 64 (f 0 8), arg := BitVec.ofNat 64 (f 8 8), gx := f 0x10 4, gy := f 0x14 2, gz := f 0x16 2, grp := b 0x18 0 5, pgrp := b 0x19 0 5, vg := b 0x1A 0 6, vgc := b 0x1A 6 6, tp := b 0x1C 0 5, tc := b 0x1C 5 5, ap := b 0x1C 10 4, ac := b 0x1C 14 4, scr := b 0x20 0 6, pal := b 0x22 0 12, mask := BitVec.ofNat 32 (f 0x24 4), ptm := f 0x28 4, dstk := f 0x2C 2, prio := b 0x2E 0 2, hint := b 0x2E 2 3, dep := b 0x2E 5 1 = 1, persist := b 0x2E 6 1 = 1, depa := BitVec.ofNat 64 (f 0x30 8), depv := f 0x38 4 }

/-- Groups of role 0 or 1, and consumer groups. -/
def Launch.first (l : Launch) : Nat := if l.pgrp = 0 then l.grp else l.pgrp
def Launch.second (l : Launch) : Nat := l.grp - l.first

/-- What a team needs of a core (15 R288): group slots, vector granules, tiles, accumulators, scratchpad
granules, palette lines. -/
def Launch.needs (l : Launch) : List Nat :=
  [l.grp, l.first * l.vg + l.second * l.vgc, l.first * l.tp + l.second * l.tc, l.first * l.ap + l.second * l.ac, l.scr, l.pal]

/-- L1 lines of a core whose teams hold `scr` scratchpad granules, and the pool they allow (04 R68). -/
def poolLimit (scr : Nat) : Nat := min 2048 (4096 - 64 * scr - 512)

/-- Whether a record with a non-zero reserved field. -/
def reservedBits (x : Nat) : Bool :=
  let b (o lo n : Nat) : Nat := nbits x (8 * o + lo) n
  b 0x18 5 3 ≠ 0 || b 0x19 5 3 ≠ 0 || b 0x1A 12 4 ≠ 0 || b 0x1C 18 14 ≠ 0 || b 0x20 6 10 ≠ 0 || b 0x22 12 4 ≠ 0 || b 0x2E 7 9 ≠ 0

/-- Whether the shape breaks R258. -/
def Launch.badShape (l : Launch) : Bool :=
  l.gx = 0 || l.gy = 0 || l.gz = 0 || 2 ^ 32 ≤ l.gx * l.gy * l.gz || l.grp = 0 || 16 < l.grp || (l.pgrp ≠ 0 && l.grp ≤ l.pgrp) || l.vg = 0 || 32 < l.vg || (if l.pgrp = 0 then l.vgc ≠ 0 else l.vgc = 0 || 32 < l.vgc) || 16 < l.tp || 16 < l.tc || 8 < l.ap || 8 < l.ac || 48 < l.scr || 2048 < l.pal || l.ptm < l.dstk

/-- Whether no core of the context can ever hold its team (R260, 15 R288, 17 R336). -/
def Launch.tooLarge (l : Launch) (c : Context) : Bool :=
  ((l.needs.zip [64, 512, 128, 64, 48, poolLimit l.scr]).any (fun x => decide (x.2 < x.1))) || c.ptmw < l.ptm || (0 < l.ptm && c.ptmn < l.grp)

/-- The kind of a record's rejection, if it is rejected (R260); of several the lowest (log 9). -/
def rejects (x : Nat) (c : Context) : Option Nat :=
  let l := launchOf x
  if reservedBits x || (!l.dep && (l.depa ≠ 0 || l.depv ≠ 0)) then some 1
  else if l.badShape then some 2
  else if l.tooLarge c then some 3
  else if l.code.toNat % 8 ≠ 0 || 2 ^ 56 ≤ l.code.toNat then some 4
  else if l.dep && (l.depa.toNat % 4 ≠ 0 || 2 ^ 56 ≤ l.depa.toNat) then some 5
  else none

/-- Teams of a grid. -/
def Launch.teams (l : Launch) : Nat := l.gx * l.gy * l.gz

/-- The queue die of a context (R256). -/
def State.queueDie (s : State) (ctx : Nat) : Nat := (s.partDies (s.context ctx).part).headD 0

/-- A record of a queue that has been copied and whose teams have not all been started. -/
def State.waiting (s : State) (ctx queue : Nat) : Bool := s.grids.any (fun g => g.2.ctx == ctx && !g.2.spawned && g.2.queue == queue && decide (g.2.nextTeam < g.2.launch.teams))

/-- LQ_RECORD_TAKE (R260): the record at HEAD, once the record before it in its queue has been started (R285). -/
def execLqRecordTake (ctx queue : Nat) (s : State) : Host.Outcome State Fault Refusal :=
  let c := s.context ctx
  let q := tget {} queue c.queues
  let die := s.queueDie ctx
  let slot := q.base + 64 * (q.head % 2 ^ q.logn)
  let qd := c.queuesAt + 32 * queue + 0x10
  if c.hb.halt || !q.en || s.waiting ctx queue || s.swapStalls ctx slot || s.swapStalls ctx qd then .next s
  else
    let poll := s.readRun ctx (slot + 0x3C) 4 .engineRead (some die)
    match poll.1 with
    | .error f => .next (poll.2.taskFault ctx die f slot)
    | .ok v =>
      let r := s.readRun ctx slot 64 .engineRead (some die)
      if v ≠ 1 then .next poll.2
      else match r.1 with
        | .error f => .next (r.2.taskFault ctx die f slot)
        | .ok x =>
          let bad := rejects x c
          let w := match bad with | some k => 2 ^ 31 + k | none => 0
          match r.2.writeCtx ctx (slot + 0x3C) w 4 .engineWrite (some die) with
          | .error f => .next ((r.2.writeMet ctx (slot + 0x3C) w 4 .engineWrite (some die)).taskFault ctx die f slot)
          | .ok s1 =>
            let head := (q.head + 1) % 2 ^ 32
            match s1.writeCtx ctx qd head 4 .engineWrite (some die) with
            | .error f => .next ((r.2.writeMet ctx qd head 4 .engineWrite (some die)).taskFault ctx die f slot)
            | .ok s2 =>
              let s3 := s2.modContext ctx (fun c => { c with queues := tput queue { q with head := head } c.queues })
              match bad with
              | some _ => .next (s3.interrupt 32 c.level ctx)
              | none =>
                let l := launchOf x
                let n := s3.fresh
                let now := s3.ctxTime ctx
                let g : Grid := { ctx := ctx, die := die, queue := queue, launch := l, depOk := !l.dep, ready := now, eff := l.prio, waitSince := now }
                .next { n.2 with grids := tput n.1 g n.2.grids }

/-- DEP_POLL (R261): the dependence word is read again; the record is ready from the time that satisfies it. -/
def execDepPoll (grid : Nat) (s : State) : Host.Outcome State Fault Refusal :=
  match tfind grid s.grids with
  | none => .next s
  | some g =>
    if g.depOk || (s.context g.ctx).hb.halt || s.swapStalls g.ctx g.launch.depa.toNat then .next s
    else
      let r := s.readRun g.ctx g.launch.depa.toNat 4 .engineRead (some g.die)
      match r.1 with
      | .error f => .next (r.2.taskFault g.ctx g.die f g.launch.depa.toNat)
      | .ok v => .next (if g.launch.depv ≤ v then r.2.modGrid grid (fun g => { g with depOk := true, ready := s.ctxTime g.ctx, waitSince := s.ctxTime g.ctx }) else r.2)

/-- The effective priority of a record at a context time (15 R284). -/
def Grid.priority (g : Grid) (now : Nat) : Nat := min 3 (g.launch.prio + (now - g.ready) / 100000)

/-- The effective priority now: it rises until the first team starts (15 R284). -/
def State.effOf (s : State) (g : Grid) : Nat := if g.depOk && g.nextTeam = 0 then g.priority (s.ctxTime g.ctx) else g.eff

/-- RECORD_AGING (15 R284): a ready record whose first team has not started. -/
def execRecordAging (grid : Nat) (s : State) : Host.Outcome State Fault Refusal :=
  match tfind grid s.grids with
  | none => .next s
  | some g => .next (if g.depOk && g.nextTeam = 0 then s.modGrid grid (fun g => { g with eff := g.priority (s.ctxTime g.ctx) }) else s)

/-! ### Timers and the governor (R264, R267, R277) -/

/-- BIN_TIMER_EXPIRY (R264): TIMER µs after it started, a bin that is not empty is due. -/
def execBinTimerExpiry (ctx die node : Nat) (s : State) : Host.Outcome State Fault Refusal :=
  let key := 4096 * die + node
  let n := s.node ctx key
  match n.started with
  | none => .next s
  | some t =>
    if n.timer = 0 || n.due || n.depth = 0 || (s.context ctx).hb.halt || s.ctxTime ctx < t + 1000 * n.timer then .next s
    else .next ((s.modNode ctx key (fun n => { n with due := true })).settleNode ctx key)

/-- The nodes of a die that take part in a ring (R267). -/
def State.ringNodes (s : State) (ctx die ring : Nat) : List (Nat × Node) :=
  (s.context ctx).nodes.filter (fun x => x.1 / 4096 == die && x.2.v && x.2.mode == 1 && x.2.ring == some ring && decide (x.2.lo < x.2.hi))

/-- The governed groups bound to a node for 50 µs, as (binding time, slot). -/
def State.movable (s : State) (ctx key : Nat) : List (Nat × Nat) :=
  ((s.groups.filter (fun g => g.2.ctx == ctx && g.2.bind.node == some key)).filter (fun g => g.2.bind.governed && decide (g.2.bind.time + 50000 ≤ s.ctxTime ctx))).map (fun g => (g.2.bind.time, g.1))

/-- The least of a list by a key, the first among equals. -/
def leastBy {α : Type} (key : α → Nat) : List α → Option α
  | [] => none
  | x :: rest => some (rest.foldl (fun m y => if key y < key m then y else m) x)

/-- One ring of one evaluation (R267): a group that is blocked in a DEQ waits on its new node. -/
def State.govern (s : State) (ctx die ring : Nat) : State :=
  let ns := s.ringNodes ctx die ring
  let high := ns.filter (fun x => decide (x.2.hi < x.2.depth))
  let low := ns.filter (fun x => decide (x.2.depth < x.2.lo) && !(s.movable ctx x.1).isEmpty)
  match leastBy (fun x => 2 ^ 32 - min x.2.depth (2 ^ 32)) high, leastBy (fun x => x.2.depth) low with
  | some h, some f => match leastBy (·.1) (s.movable ctx f.1) with
    | some g => (s.modGroup g.2 (fun x => { x with bind := { x.bind with node := some h.1, time := s.ctxTime ctx, changed := true } })).settleNode ctx h.1
    | none => s
  | _, _ => s

/-- GOVERNOR_EVAL (R267): every 10 µs. -/
def execGovernorEval (ctx die : Nat) (s : State) : Host.Outcome State Fault Refusal :=
  if (s.context ctx).hb.halt || s.ctxTime ctx < tget 0 die (s.context ctx).govAt + 10000 then .next s
  else .next ((List.range 16).foldl (fun (s : State) r => s.govern ctx die r) (s.modContext ctx (fun c => { c with govAt := tset 0 die (s.ctxTime ctx) c.govAt })))

/-- DEQT_TIMEOUT (R277): a DEQT whose deadline has passed returns TIMEOUT. -/
def execDeqtTimeout (gid : Nat) (s : State) : Host.Outcome State Fault Refusal :=
  let g := s.group gid
  match g.wait with
  | none => .next s
  | some w => match w.kind, g.bind.node with
    | .deq _ (some d), some key =>
      if (s.context g.ctx).hb.halt || s.ctxTime g.ctx < d then .next s
      else .next (s.give gid w.slotB w.instr [] (2 ^ 9 + key % 4096 * 2 ^ 12))
    | _, _ => .next s

/-! ### The end of a grid (13 R248) -/

/-- Whether a request writes memory. -/
def ReqKind.writes : ReqKind → Bool
  | .load | .table | .palette _ _ | .prefetch | .check _ _ => false
  | _ => true

/-- Whether writes of a grid are still to be performed, of those that bear a number below `n`: requests of its cores,
drain rows, and what its engines were asked for. A pinned row is written by a DREPL alone
(09 R190). -/
def State.gridWrites (s : State) (g : Grid) (n : Nat) : Bool :=
  let tenant := (s.context g.ctx).tenant
  s.reqs.any (fun r => decide (r.1 < n) && r.2.kind.writes && r.2.tenant == tenant && g.cores.contains r.2.core) ||
  g.cores.any (fun k => (s.core k).drain.any (fun e => !e.2.pinned && e.2.tenant == tenant && decide (e.2.op < n)) || (s.core k).mx.any (fun x => decide (x.op < n) && (s.op x.op).any (fun o => o.tenant == tenant)) ||
    (s.core k).kicks.any (fun c => c.tenant == tenant && decide (c.op < n)) || (s.core k).gathers.any (fun x => x.tenant == tenant && decide (x.op < n))) ||
  s.dies.any (fun d => d.2.pieces.any (fun p => p.2.copy.tenant == tenant && decide (p.2.copy.op < n) && g.cores.contains (coreOf p.2.copy.gid)) || d.2.colls.any (fun c => c.tenant == tenant && decide (c.op < n) && g.cores.contains (coreOf c.gid)))

/-- The episodes of a context without a grid are over (17 R323). -/
def State.dropMeets (s : State) (ctx : Nat) : State :=
  if s.grids.any (fun g => g.2.ctx == ctx) then s else s.modHub (fun h => { h with meets := h.meets.filter (fun m => m.1 / 2 / 2 ^ 56 ≠ ctx) })

/-- GRID_COMPLETE (R248, 14 R266): all teams have retired and every write of the grid has been performed; each core that
ran one writes back the dirty bytes of the tenant, and the grid is complete once the write-backs have been accepted
(log 46). -/
def execGridComplete (grid : Nat) (s : State) : Host.Outcome State Fault Refusal :=
  match tfind grid s.grids with
  | none => .next s
  | some g =>
    let tenant := (s.context g.ctx).tenant
    if g.nextTeam < g.launch.teams || g.retired < g.launch.teams then .next s
    else match g.doneAt with
    | none =>
      let s1 := g.cores.foldl (fun (s : State) k => s.flushCombine (clusterOfCore k) (fun e => e.tenant == tenant && e.ops.any (fun x => coreOf x.1 == k))) s
      .next (s1.modGrid grid (fun g => { g with doneAt := some s1.nextId, batch := [] }))
    | some n =>
      if s.gridWrites g n then .next s
      else if !g.complete then .next ((g.cores.foldl (fun (s : State) k => s.releaseL1 k tenant) s).modGrid grid (fun g => { g with complete := true }))
      else if s.reqs.any (fun r => r.2.kind == .writeback && r.2.tenant == tenant && g.cores.contains r.2.core) then .next s
      else .next (({ s with grids := tdel grid s.grids } : State).dropMeets g.ctx)

end Sys2Proof.Machine
end

