-- ==== Sys2Proof/Machine/MatrixEvents.lean ====
section
/-! DEFINITION. What the matrix unit of a core does with the instructions it holds (09 R170), and the drain
buffer (R188, R190, R191). -/

namespace Sys2Proof.Machine

/-! ### Order (R170) -/

/-- The accumulator of its group that an instruction reads or writes. -/
def MxWork.acc : MxWork → Option Nat
  | .mma d _ _ _ _ _ _ | .aclr d | .aload d _ _ => some d
  | .amov _ a _ _ => some a
  | .drain a _ _ _ _ _ _ _ _ _ => some a
  | .drepl _ _ | .atbl _ _ => none

/-- The activation slot that it reads or writes. -/
def MxWork.slot : MxWork → Option Nat
  | .drain _ _ _ _ _ _ _ cmd _ _ => if cmd.testBit 1 then some (nbits cmd 4 1) else none
  | .atbl t _ => some t
  | _ => none

/-- Whether an instruction writes the accumulator that it names, and the activation slot. -/
def MxWork.writesAcc : MxWork → Bool
  | .mma _ _ _ _ _ _ _ | .aclr _ | .aload _ _ _ => true
  | _ => false
def MxWork.writesSlot : MxWork → Bool
  | .atbl _ _ => true
  | _ => false

/-- A read of memory that a slice holds with its fault (R181, R182). -/
def State.mxHeld (s : State) (op : Nat) : Bool :=
  s.reqs.any (fun r => r.2.ops.contains op && (match r.2.stage with | .held _ => true | _ => false))

/-- Whether an instruction must follow another that is set aside or waits: they share an accumulator or a table slot, and
one of them writes it. -/
def MxOp.follows (x y : MxOp) : Bool :=
  (x.gid == y.gid && x.work.acc.isSome && x.work.acc == y.work.acc && (x.work.writesAcc || y.work.writesAcc)) ||
  (x.team == y.team && x.work.slot.isSome && x.work.slot == y.work.slot && (x.work.writesSlot || y.work.writesSlot))

/-- The instruction that the unit applies next: the first in issue order that is not set aside and does not
follow one that is. -/
def State.mxNext (s : State) (aside : List MxOp) : List MxOp → Option MxOp
  | [] => none
  | x :: rest => if s.mxHeld x.op || aside.any (fun y => x.follows y) then s.mxNext (aside ++ [x]) rest else some x

def State.nextMx (s : State) (core : Nat) : Option MxOp := s.mxNext [] (s.core core).mx

/-- Takes an instruction out of the unit's queue. -/
def State.dropMx (s : State) (core op : Nat) : State := s.modCore core (fun k => { k with mx := k.mx.filter (fun x => x.op ≠ op) })

/-! ### DREPL (R191) -/

/-- The bytes of row `i` of an entry, at their destination. -/
def Drain.rowBytes (d : Drain) (i : Nat) : List (Nat × Byte) :=
  ((d.rows.getD i []).flatMap (fun w => toBytes w.toNat 4)).zipIdx.map (fun b => (d.base + i * d.stride + b.2, b.1))

/-- An operation has one more part. -/
def State.morePart (s : State) (k : Nat) : State := match s.op k with | some o => s.putOp k { o with parts := o.parts + 1 } | none => s

/-- The line requests of row `i` of a global drain, each a part of its operation (R188). A row that its slice has applied
already is sent again as it was (10 R208). -/
def State.sendRow (s : State) (core entry : Nat) (d : Drain) (i : Nat) : State :=
  match s.reqs.find? (fun q => q.2.core == core && q.2.drain == some (entry, i) && decide (q.2.stage = .pinned)) with
  | some q => (s.morePart d.op).putReq q.1 { q.2 with ops := [d.op], stage := .toSlice }
  | none =>
  let bs := (d.rowBytes i).map (fun b => ((s.core core).remap d.tenant b.1, b.2))
  (byLine bs).foldl (fun (s : State) l =>
    (s.morePart d.op).request { ops := [d.op], gid := d.gid, core := core, ctx := d.ctx, tenant := d.tenant, kind := if d.add then .addOnStore else .store, line := l.1, bytes := l.2, lanes := [⟨i, 0, 0, 0⟩], atom := { ty := d.fmt }, drain := some (entry, i) } none) s

/-- Sends the rows of an entry that have faulted again, for DREPL; rows for the scratchpad are performed by the entry. -/
def State.resendRows (s : State) (core entry : Nat) (d : Drain) : State :=
  let rows := (List.range 32).filter (fun i => d.faulted.any (fun x => x.1 == i))
  let s1 := s.modCore core (fun k => { k with drain := tput entry { d with faulted := [] } k.drain })
  if d.dest ≠ 1 then s1
  else rows.foldl (fun (s : State) i => s.sendRow core entry d i) s1

/-- Whether a context may replay an entry: its own, or one whose delegation chain passes through its own entry. -/
def State.mayReplay (s : State) (ctx : Nat) (d : Drain) : Bool :=
  d.ctx == ctx || (match s.chain (s.context d.ctx).grant with | some c => c.contains (s.context ctx).grant | none => false)

/-! ### Taking an instruction (R170) -/

/-- The table that ATBL loads: `w k` is the word at byte offset `k` of its base (R182). -/
def actTableOf (base : Nat) (w : Nat → Word) : ActTable :=
  let finite (x : Word) : Bool := nbits x.toNat 23 8 ≠ 255
  let ok := finite (w 0) && finite (w 4) && (fp32.decode (w 0).toNat).cmp (fp32.decode (w 4).toNat) = .lt && w 8 = 0 && w 12 = 0
  { valid := ok, base := base, lo := w 0, hi := w 4, seg := (List.range 64).map (fun k => (w (16 + 8 * k), w (20 + 8 * k))) }

/-- The table from the words that its requests brought; `as` are the addresses of its 132 words. -/
def Op.actTable (o : Op) (base : Nat) (as : List Nat) : ActTable := actTableOf base (fun k => BitVec.ofNat 32 (o.num (as.getD (k / 4) 0) 4))

/-- MATRIX_TAKE (R170): the unit applies its next instruction; a DRAIN waits for DRAIN_ENTRY_TAKE, an ALOAD or
ATBL for its bytes. -/
def execMatrixTake (core : Nat) (s : State) : Host.Outcome State Fault Refusal :=
  match s.nextMx core with
  | none => .next s
  | some x => match s.op x.op with
    | none => .next (s.dropMx core x.op)
    | some o =>
      let g := s.group x.gid
      let s1 := s.dropMx core x.op
      match x.work with
      | .mma d p z sat a tile sc => .next ((s1.putCells x.gid (g.mma d p z sat a tile sc)).partDone x.op)
      | .aclr d => .next ((s1.putCells x.gid ((List.range 1024).map (fun k => (⟨4, 1024 * d + k⟩, 0)))).partDone x.op)
      | .amov d a c0 n =>
        let ws : List (RCell × Word) := (List.range n).flatMap (fun c => (List.range 32).map (fun i => (⟨0, 32 * (d + c) + i⟩, g.racc a i (c0 + c))))
        .next ((s1.putOp x.op { o with dest := .cells ws }).partDone x.op)
      | .aload d add int =>
        if o.parts ≠ 1 then .next s
        else
          let ws : List (RCell × Word) := x.rows.zipIdx.map (fun r =>
            let w : Word := BitVec.ofNat 32 (o.num r.1 4)
            (⟨4, 1024 * d + r.2⟩, if add then accAdd int (g.racc d (r.2 / 32) (r.2 % 32)) w else w))
          .next ((s1.putCells x.gid ws).partDone x.op)
      | .atbl t base =>
        if o.parts ≠ 1 then .next s
        else .next (((s1.modTeam x.team (fun m => { m with act := tput t (o.actTable base x.rows) m.act })).partDone x.op).reapTeam x.team)
      | .drepl n ctx => match tfind n (s.core core).drain with
        | some d =>
          if d.pinned && d.faulted ≠ [] && s.mayReplay ctx d then
            .next (s1.resendRows core n { d with replayer := some x.op }).settle
          else .next (s1.partDone x.op)
        | none => .next (s1.partDone x.op)
      | .drain _ _ _ _ _ _ _ _ _ _ => .next s

/-- MATRIX_OP_COMPLETE (R170): the registers and accumulators have been written. -/
def execMatrixOpComplete (op : Nat) (s : State) : Host.Outcome State Fault Refusal :=
  match s.op op with
  | none => .next s
  | some o =>
    if o.parts ≠ 0 || o.path ≠ some 3 then .next s
    else .next ((s.putCells o.gid o.results).finishOp op o).settle

/-! ### The drain buffer (R188, R190) -/

/-- DRAIN_ENTRY_TAKE (R188): a DRAIN whose turn it is takes a free entry; its rows are computed from the
accumulator as it stands, and rows for global memory are sent in ascending order. -/
def execDrainEntryTake (core : Nat) (s : State) : Host.Outcome State Fault Refusal :=
  match s.nextMx core with
  | none => .next s
  | some x => match x.work, s.op x.op, (List.range 4).find? (fun e => (tfind e (s.core core).drain).isNone) with
    | .drain a dest base stride fmt int add cmd scale bias, some o, some e =>
      let g := s.group x.gid
      let t := tget {} (nbits cmd 4 1) (s.team x.team).act
      let d : Drain := { op := x.op, gid := x.gid, team := x.team, ctx := o.ctx, tenant := o.tenant, dest := dest, base := base, stride := stride, fmt := fmt, add := add, rows := (List.range 32).map (fun i => g.drainRow a int fmt cmd scale bias t i), pc := o.pc }
      let s1 := (s.dropMx core x.op).modCore core (fun k => { k with drain := tput e d k.drain })
      if dest = 1 then
        let s2 := s1.flushLines x.gid (((List.range 32).flatMap (fun i => d.rowBytes i)).map (fun b => (s1.core core).remap d.tenant b.1 / 128))
        .next ((List.range 32).foldl (fun (s : State) i => s.sendRow core e d i) s2).settle
      else .next s1
    | _, _, _ => .next s

/-- The add-on-store of a row at the scratchpad port (R189). -/
def State.scratchAdd (s : State) (team fmt : Nat) (bs : List (Nat × Byte)) : List (Nat × Byte) :=
  let t := (s.team team).scratch
  addLine fmt (fun a => tget 0 a t) (bs.foldl (fun (d : Table Byte) b => tput b.1 b.2 d) [])

/-- The lasting error that the add-on-store of a row finds in the words that it reads (06 R111). -/
def State.rowPoison (s : State) (d : Drain) (row : Nat) : Option Flt := if d.dest = 0 && d.add then s.spPoison d.team ((d.rowBytes row).map (·.1)) else none

/-- DRAIN_ROW_PERFORMED (R190): a row whose line requests are all done, or a row for the scratchpad or for
registers, which is performed now, in ascending order. The entry is free when all are. -/
def execDrainRowPerformed (core entry row : Nat) (s : State) : Host.Outcome State Fault Refusal :=
  match tfind entry (s.core core).drain with
  | none => .next s
  | some d =>
    let ready := !d.faulted.any (fun x => x.1 == row) && (if d.dest = 1 then !s.reqs.any (fun r => r.2.core == core && r.2.drain == some (entry, row)) else d.doneBelow row)
    if 32 ≤ row || d.mask.testBit row || !ready then .next s
    else match s.rowPoison d row with
    | some f =>
      let d1 := { d with faulted := (row, f) :: d.faulted }
      .next (((s.logLasting d.ctx (dieOfCore core) d.tenant core f).pinRow core entry row d f (dieOfCore core)).endReplay core entry d1).settle
    | none =>
      let s1 := match d.dest with
        | 0 => let bs := d.rowBytes row; (if d.add then s.spRead d.team (bs.map (fun (b : Nat × Byte) => b.1)) else s).writeScratch d.team (if d.add then s.scratchAdd d.team d.fmt bs else bs)
        | 1 => s
        | _ => s.putCells d.gid ((d.rows.getD row []).zipIdx.map (fun (w : Word × Nat) => (⟨0, 32 * (d.base + w.2) + row⟩, w.1)))
      let mask := d.mask ||| 2 ^ row
      let d1 := { d with mask := mask }
      if mask = 2 ^ 32 - 1 then .next (((((s1.modCore core (fun k => { k with drain := tdel entry k.drain })).endReplay core entry d1).partDone d.op).reapTeam d.team)).settle
      else .next ((s1.modCore core (fun k => { k with drain := tput entry d1 k.drain })).endReplay core entry d1).settle

end Sys2Proof.Machine
end

