-- ==== Sys2Proof/Machine/TeamSync.lean ====
section
/-! DEFINITION. Team synchronisation (12): named barriers, scratchpad queues, and the issue of the grid
barrier. An arrival or a queue change releases the groups it satisfies at once (R227, R233). -/

namespace Sys2Proof.Machine

/-- Every group of a team that is blocked in a wait that `p` finds over returns from it. -/
def State.returnWaits (s : State) (team : Nat) (p : Wait → Bool) : State :=
  { s with groups := s.groups.map (fun (g : Nat × Group) => match g.2.wait with
    | some w => if g.2.team = team ∧ p w = true then (g.1, { g.2 with wait := none }) else g
    | none => g) }

/-! ### Named barriers (R226 to R229) -/

def Team.bar (t : Team) (b : Nat) : Nat := tget 0 b t.bars
def barPh (w : Nat) : Bool := w.testBit 21
def barExp (w : Nat) : Nat := nbits w 16 5
def barArr (w : Nat) : Nat := nbits w 0 16

/-- The barrier word after the arrival of group `g` with count `n`, or the kind of the failed check (R227). -/
def arriveBar (w g n : Nat) : Except Nat Nat :=
  if barExp w ≠ 0 ∧ barExp w ≠ n then .error 1
  else if (barArr w).testBit g then .error 2
  else
    let arr := barArr w + 2 ^ g
    if popcount arr 16 = n then .ok ((!barPh w).toNat * 2 ^ 21)
    else .ok ((barPh w).toNat * 2 ^ 21 + n * 2 ^ 16 + arr)

/-- Applies an arrival: the phase it found, and the groups it releases go on. -/
def State.arriveAtBar (s : State) (c : Iss) (b n : Nat) : Except Flt (Bool × State) :=
  let t := s.team c.g.team
  match arriveBar (t.bar b) c.g.index n with
  | .error k => .error (fSync 0 n (barExp (t.bar b)) b k)
  | .ok w =>
    let s1 := s.modTeam c.g.team (fun t => { t with bars := tset 0 b w t.bars })
    .ok (barPh (t.bar b), s1.returnWaits c.g.team (fun x => match x.kind with
      | .bar b' ph => b' == b && barPh w != ph
      | .bphs b' p => b' == b && barPh w != p
      | _ => false))

/-- The count-range check of an arrival (R227). -/
def countCheck (s : State) (c : Iss) (o : FOps) : Option Flt :=
  let n := (c.bs s o).toNat
  if n < 1 || (s.team c.g.team).gids.length < n then some (fSync 0 n 0 (fld o.ox 0 4) 3) else none

/-- BARV (R229). -/
def execBarv (o : FOps) (s : State) : Host.Outcome State Fault Refusal :=
  issue2 (.barv o) s free_
    (fun c t => match countCheck t c o with
      | some f => .error f
      | none => .ok (t.releaseAt c (.barv o) 1))
    (fun c _ t => match t.arriveAtBar c (fld o.ox 0 4) (c.bs t o).toNat with
      | .error f => .error f
      | .ok (ph, s1) => .ok (if o.ox.getLsbD 4 then s1.modGroup c.gid (fun g => g.ws o.d.toNat (BitVec.ofNat 32 ph.toNat)) else s1))

/-- BSYN (R229). -/
def execBsyn (o : FOps) (s : State) : Host.Outcome State Fault Refusal :=
  issue2 (.bsyn o) s free_
    (fun c t => match countCheck t c o with
      | some f => .error f
      | none => .ok (t.releaseAt c (.bsyn o) 1))
    (fun c w t => match w.kind with
      | .release _ =>
        let b := fld o.ox 0 4
        match t.arriveAtBar c b (c.bs t o).toNat with
        | .error f => .error f
        | .ok (ph, s1) => .ok (if barPh ((s1.team c.g.team).bar b) ≠ ph then s1 else s1.block c (.bsyn o) (.bar b ph))
      | _ => .ok t)

/-- BPHS (R229). -/
def execBphs (o : FOps) (s : State) : Host.Outcome State Fault Refusal :=
  issue2 (.bphs o) s free_
    (fun c t => .ok (t.releaseAt c (.bphs o) 1))
    (fun c w t => match w.kind with
      | .release _ =>
        let b := fld o.ox 0 4
        let p := (c.bs t o).getLsbD 0
        .ok (if barPh ((t.team c.g.team).bar b) ≠ p then t else t.block c (.bphs o) (.bphs b p))
      | _ => .ok t)

/-! ### Scratchpad queues (R230 to R233) -/

/-- A queue state (R230). -/
structure QState where
  alw : Nat
  tail : Nat
  head : Nat
  v : Bool
  logcap : Nat
  base : Nat
deriving DecidableEq, Repr

def QState.ofNat (x : Nat) : QState := ⟨nbits x 34 8, nbits x 27 7, nbits x 20 7, x.testBit 19, nbits x 16 3, nbits x 0 16⟩
def QState.toNat (q : QState) : Nat := q.alw % 2 ^ 8 * 2 ^ 34 + q.tail % 2 ^ 7 * 2 ^ 27 + q.head % 2 ^ 7 * 2 ^ 20 + q.v.toNat * 2 ^ 19 + q.logcap % 8 * 2 ^ 16 + q.base % 2 ^ 16
def QState.cap (q : QState) : Nat := 2 ^ q.logcap
def QState.count (q : QState) : Nat := (q.tail + 128 - q.head) % 128
/-- The scratchpad address of ring entry `j`. -/
def QState.slot (q : QState) (j : Nat) : Nat := 8 * q.base + 4 * (j % q.cap)

def Team.queue (t : Team) (i : Nat) : QState := .ofNat (tget 0 i t.queues)
def Team.setQueue (t : Team) (i : Nat) (q : QState) : Team := { t with queues := tset 0 i q.toNat t.queues }

/-- The push of an item, and the pop of one, once they may be made (R232). -/
def Team.push (t : Team) (i : Nat) (x : Word) : Team :=
  let q := t.queue i
  (t.setBytes (bytesAt (q.slot q.tail) x.toNat 4)).setQueue i { q with alw := q.alw - 1, tail := (q.tail + 1) % 128 }
def Team.pop (t : Team) (i : Nat) : Word × Team :=
  let q := t.queue i
  (BitVec.ofNat 32 (t.num (q.slot q.head) 4), t.setQueue i { q with head := (q.head + 1) % 128 })

/-- The group of a team that has blocked longest in a push, or a pop, of a queue (R233). -/
def State.firstWaiter (s : State) (team : Nat) (p : WaitKind → Option Nat) : Option (Nat × Wait) :=
  ((s.team team).gids.filterMap id).foldl (fun (best : Option (Nat × Wait)) x => match (s.group x).wait with
    | some w => match p w.kind, best with
      | some n, some (_, b) => (match p b.kind with | some m => if n < m then some (x, w) else best | none => some (x, w))
      | some _, none => some (x, w)
      | none, _ => best
    | none => best) none

def pushOrder (i : Nat) : WaitKind → Option Nat
  | .qpush q n => if q = i then some n else none
  | _ => none
def popOrder (i : Nat) : WaitKind → Option Nat
  | .qpop q n => if q = i then some n else none
  | _ => none

/-- The push or pop of a word, and its return. -/
def State.doPush (s : State) (gid i : Nat) (o : FOps) : State :=
  let team := (s.group gid).team
  let q := (s.team team).queue i
  ((s.mendScratch team [q.slot q.tail]).modTeam team (fun t => t.push i ((s.group gid).rs o.a.toNat))).modGroup gid (fun g => { g with wait := none })

/-- The bytes of the item at the head of a queue. -/
def Team.headItem (t : Team) (i : Nat) : List Nat := let q := t.queue i; spBytes 4 [q.slot q.head]

def State.doPop (s : State) (gid i : Nat) (o : FOps) : State :=
  let d := o.d.toNat
  let team := (s.group gid).team
  let t := s.team team
  (((s.spRead team (t.headItem i)).modTeam team (fun _ => (t.pop i).2)).modGroup gid (fun g => { (g.ws d (t.pop i).1) with wait := none })).mendCells gid [⟨1, d⟩]

/-- A pop whose item is in lasting error faults (06 R110); the item stays. -/
def State.popChecked (s : State) (gid i : Nat) (go : State → State) : Except Flt State :=
  match s.spPoison (s.group gid).team ((s.team (s.group gid).team).headItem i) with
  | some f => .error f
  | none => .ok (go s)

/-- Arrivals at a barrier, and queue operations. -/
def isArrival : Instr → Bool
  | .barv _ | .bsyn _ => true
  | _ => false
def isQueueOp : Instr → Bool
  | .qpush _ | .qpop _ | .qalw _ | .qalwInit _ | .qtryPush _ | .qtryPop _ => true
  | _ => false

/-- Whether a word of a group's team that issued in the same cycle in a lower quadrant, and is of the same sort, still
waits for its release: such words are applied in ascending quadrant order (R227, R233). -/
def State.sameCycleAhead (s : State) (gid cycle : Nat) (sort : Instr → Bool) : Bool :=
  s.groups.any (fun x => x.2.team == (s.group gid).team && coreOf x.1 == coreOf gid && decide (quadOf x.1 < quadOf gid) && (match x.2.wait with
    | some w => (match w.kind with | .release _ => w.cycle == cycle && sort w.instr | _ => false)
    | none => false))

/-- Whether a word comes after such a one. -/
def State.outOfTurn (s : State) (gid cycle : Nat) (i : Instr) : Bool := (isArrival i && s.sameCycleAhead gid cycle isArrival) || (isQueueOp i && s.sameCycleAhead gid cycle isQueueOp)

/-- Serves the groups blocked on a queue as long as one can be served (R233). -/
def State.serveQueue (s : State) (team i : Nat) : (fuel : Nat) → State
  | 0 => s
  | n + 1 =>
    let q := (s.team team).queue i
    match (if 0 < q.count then (s.firstWaiter team (popOrder i)).filter (fun x => !s.outOfTurn x.1 x.2.cycle x.2.instr) else none) with
    | some (x, w) =>
      (match w.instr with
        | .qpop o => match s.popChecked x i (fun s => s.doPop x i o) with
          | .ok s1 => s1
          | .error f => s.trapHeld x w f
        | _ => s.modGroup x (fun g => { g with wait := none })).serveQueue team i n
    | none => match (if 0 < q.alw then s.firstWaiter team (pushOrder i) else none) with
      | some (x, w) => (match w.instr with | .qpush o => s.doPush x i o | _ => s.modGroup x (fun g => { g with wait := none })).serveQueue team i n
      | none => s

/-- The number of the queue a word names, and the check that it is bound (R232). -/
def qnum (o : FOps) : Nat := fld o.ox 0 3
def boundCheck (s : State) (o : FOps) (c : Iss) : Option Flt :=
  if ((s.team c.g.team).queue (qnum o)).v then none else some (fSync 0 0 0 (qnum o) 5)

/-- Blocks in a queue, after those already blocked. -/
def State.blockQueue (s : State) (c : Iss) (i : Instr) (k : Nat → WaitKind) : State :=
  let n := (s.team c.g.team).order
  (s.modTeam c.g.team (fun t => { t with order := t.order + 1 })).block c i (k n)

/-- QPUSH (R232). -/
def execQpush (o : FOps) (s : State) : Host.Outcome State Fault Refusal :=
  issue2 (.qpush o) s free_
    (fun c t => match boundCheck t o c with
      | some f => .error f
      | none => .ok (t.releaseAt c (.qpush o) 1))
    (fun c w t => match w.kind with
      | .release _ =>
        .ok (if 0 < ((t.team c.g.team).queue (qnum o)).alw then (t.doPush c.gid (qnum o) o).serveQueue c.g.team (qnum o) 256
          else t.blockQueue c (.qpush o) (fun n => .qpush (qnum o) n))
      | _ => .ok ((t.doPush c.gid (qnum o) o).serveQueue c.g.team (qnum o) 256))

/-- QPOP (R232): it commits the region and makes no release (R228, 16 R298). -/
def execQpop (o : FOps) (s : State) : Host.Outcome State Fault Refusal :=
  issue2 (.qpop o) s free_
    (fun c t => match boundCheck t o c with
      | some f => .error f
      | none =>
        let s1 := t.commitRegion c.gid c.slotB
        if 0 < ((s1.team c.g.team).queue (qnum o)).count && (s1.firstWaiter c.g.team (popOrder (qnum o))).isNone && !s1.outOfTurn c.gid (s1.cycleOf c.gid).2 (.qpop o) then
          s1.popChecked c.gid (qnum o) (fun s => (s.doPop c.gid (qnum o) o).serveQueue c.g.team (qnum o) 256)
        else .ok (s1.blockQueue c (.qpop o) (fun n => .qpop (qnum o) n)))
    (fun c _ t => t.popChecked c.gid (qnum o) (fun s => (s.doPop c.gid (qnum o) o).serveQueue c.g.team (qnum o) 256))

/-- What a group of the team that holds at a word of a queue until its release is complete makes of the word. -/
def State.releasing {α : Type} (s : State) (team : Nat) (f : Iss → Instr → Option α) : List α :=
  (s.groups.filter (fun x => x.2.team == team)).filterMap (fun x => match x.2.wait with
    | some w => (match w.kind with | .release _ => f ⟨x.1, w.slotB, w.pc, w.cl.getD {}, x.2⟩ w.instr | _ => none)
    | none => none)

/-- What the QALWs of a team that have passed their check, and still wait for their release, are to add to a queue. -/
def State.granting (s : State) (team i : Nat) : Nat :=
  (s.releasing team (fun c w => match w with | .qalw p => if qnum p = i then some (c.bs s p).toNat else none | _ => none)).foldl (· + ·) 0

/-- The capacities that the QALW.inits of a team in that position are to bind a queue with. -/
def State.binding (s : State) (team i : Nat) : List Nat :=
  s.releasing team (fun c w => match w with | .qalwInit p => if qnum p = i then some (c.bs s p).toNat else none | _ => none)

/-- The checks of QALW (R232), made at issue; they count what other QALWs are about to add, against the smallest ring that a
QALW.init is about to bind, so that the bound of R230 holds (log 23). -/
def allowCheck (s : State) (o : FOps) (c : Iss) : Option Flt :=
  let q := (s.team c.g.team).queue (qnum o)
  let n := (c.bs s o).toNat
  let held := q.alw + s.granting c.g.team (qnum o) + q.count
  if !q.v then some (fSync 0 n 0 (qnum o) 5)
  else if (s.binding c.g.team (qnum o)).foldl min q.cap < held + n then some (fSync 0 n held (qnum o) 6)
  else none

/-- QALW (R232). -/
def execQalw (o : FOps) (s : State) : Host.Outcome State Fault Refusal :=
  issue2 (.qalw o) s free_
    (fun c t => match allowCheck t o c with
      | some f => .error f
      | none => .ok (t.releaseAt c (.qalw o) 1))
    (fun c _ t => .ok ((t.modTeam c.g.team (fun m => let q := m.queue (qnum o); m.setQueue (qnum o) { q with alw := q.alw + (c.bs t o).toNat })).serveQueue c.g.team (qnum o) 256))

/-- The checks of QALW.init (R232). A group whose QALW has still to add its allowance counts as one that waits on the queue
(log 23). -/
def ringCheck (s : State) (o : FOps) (c : Iss) : Option Flt :=
  let t := s.team c.g.team
  let q := t.queue (qnum o)
  let cap := (c.bs s o).toNat
  let base := (c.g.rs o.a.toNat).toNat
  if !([1, 2, 4, 8, 16, 32, 64].contains cap) then some (fSync base cap 0 (qnum o) 9)
  else if base % 8 ≠ 0 then some (fAlign 1 0 3 base)
  else if t.scratchSize < base + 4 * cap then some (fScratch base)
  else if q.v && (q.count ≠ 0 || s.granting c.g.team (qnum o) ≠ 0 || (s.firstWaiter c.g.team (popOrder (qnum o))).isSome || (s.firstWaiter c.g.team (pushOrder (qnum o))).isSome) then some (fSync base cap q.count (qnum o) 7)
  else none

/-- QALW.init (R232). -/
def execQalwInit (o : FOps) (s : State) : Host.Outcome State Fault Refusal :=
  issue2 (.qalwInit o) s free_
    (fun c t => match ringCheck t o c with
      | some f => .error f
      | none => .ok (t.releaseAt c (.qalwInit o) 1))
    (fun c _ t => .ok (t.modTeam c.g.team (fun m => m.setQueue (qnum o) ⟨0, 0, 0, true, Nat.log2 (c.bs t o).toNat, (c.g.rs o.a.toNat).toNat / 8⟩)))

/-- QTRY.push (R232). -/
def execQtryPush (o : FOps) (s : State) : Host.Outcome State Fault Refusal :=
  issue2 (.qtryPush o) s free_
    (fun c t => match boundCheck t o c with
      | some f => .error f
      | none => .ok (t.releaseAt c (.qtryPush o) 1))
    (fun c _ t =>
      let done (s : State) (x : Word) : State := s.modGroup c.gid (fun g => g.ws o.d.toNat x)
      .ok (if ((t.team c.g.team).queue (qnum o)).alw = 0 then done t 0
        else (done (t.doPush c.gid (qnum o) o) 1).serveQueue c.g.team (qnum o) 256))

/-- QTRY.pop (R232). -/
def execQtryPop (o : FOps) (s : State) : Host.Outcome State Fault Refusal :=
  issue2 (.qtryPop o) s free_
    (fun c t => match boundCheck t o c with
      | some f => .error f
      | none => .ok (t.releaseAt c (.qtryPop o) 1))
    (fun c _ t =>
      let done (s : State) (x : Word) : State := s.modGroup c.gid (fun g => g.ws (o.d.toNat + 1) x)
      if ((t.team c.g.team).queue (qnum o)).count = 0 then .ok (done t 0)
      else t.popChecked c.gid (qnum o) (fun s => (done (s.doPop c.gid (qnum o) o) 1).serveQueue c.g.team (qnum o) 256))

/-! ### The grid barrier (R236) -/

/-- The checks of GSYNC at issue. -/
def gridCheck (s : State) (o : FOps) (c : Iss) : Option Flt :=
  let a := (c.g.rpair o.a.toNat).toNat
  let n := (c.bs s o).toNat
  if a % 16 ≠ 0 then some (fAlign 0 0 4 a)
  else if 2 ^ 56 ≤ a then some (fTranslation 2 3 0 3 a)
  else if n < 1 || 2 ^ 24 ≤ n then some (fSync a n 0 0 3)
  else none

/-- GSYNC (R236): the release at `.dev`, the arrival at the home slice, the wait for the next generation, and
the acquire at `.dev`. -/
def execGsync (o : FOps) (s : State) : Host.Outcome State Fault Refusal :=
  issue2 (.gsync o) s free_
    (fun c t => match gridCheck t o c with
      | some f => .error f
      | none => .ok (t.releaseAt c (.gsync o) 3))
    (fun c w t => match w.kind with
      | .release _ =>
        let va := (t.core (coreOf c.gid)).remap c.g.tenant (c.g.rpair o.a.toNat).toNat
        let n := t.newOp c (.gsync o) none (.cells []) 1
        .ok ((n.2.block c (.gsync o) (.gridOp n.1)).request { ops := [n.1], gid := c.gid, core := coreOf c.gid, ctx := c.g.ctx, tenant := c.g.tenant, kind := .grid, line := va / 128, lanes := [⟨0, va % 128, (c.bs t o).toNat, 0⟩], strong := true, scope := 4 } none)
      | .grid _ _ => .ok (t.acquireL1 (coreOf c.gid) c.g.tenant)
      | _ => .ok t)

end Sys2Proof.Machine
end

