-- ==== Sys2Proof/Machine/Preempt.lean ====
section
/-! DEFINITION. Pre-emption (16 R302, 02 R45, R46, 04 R83): a team that leaves, the save areas as they are laid
out and written, and what the scheduler keeps. -/

namespace Sys2Proof.Machine

/-! ### Quiet groups -/

/-- Operations of stores that are still buffered: a rollback drops them (R302). -/
def Group.buffered (g : Group) : List Nat := g.buf.flatMap (·.ops)

/-- A word that holds its group goes on to its effect before its team is saved; the waits that R235 records stay
(13 R355, 12 R235). -/
def WaitKind.finishes : WaitKind → Bool
  | .release _ | .table _ | .gridOp _ | .outbox _ | .exit | .path _ _ => true
  | _ => false

/-- Per-thread lines of a group (04 R70). -/
def State.ptmLines (s : State) (gid : Nat) : List Nat :=
  let g := s.group gid
  (List.range g.ptmWords).map (fun w => (s.core (coreOf gid)).remap g.tenant (g.ptmBase + 128 * w) / 128)

/-- Whether everything that a group started has come to its end, so that it may be saved (R302). -/
def State.quiet (s : State) (gid : Nat) : Bool :=
  let g := s.group gid
  let lines := s.ptmLines gid
  s.ops.all (fun o => o.2.gid ≠ gid || g.buffered.contains o.1) && !s.holding gid &&
  !(s.cluster (clusterOfCore (coreOf gid))).combine.any (fun e => e.by gid) &&
  (match g.wait with | some w => !w.kind.finishes | none => true) && g.tables.isEmpty &&
  !s.reqs.any (fun r => r.2.core == coreOf gid && r.2.tenant == g.tenant && r.2.kind == .writeback && lines.contains r.2.line) &&
  (match s.grant with | some gr => gr.gid ≠ gid | none => true)

/-- A team begins to leave: its groups issue no more, their combining entries are sent (10 R200), and their dirty
per-thread lines, which must follow them, are written back (log 30). -/
def State.startLeaving (s : State) (team : Nat) (byPriority : Bool) : State :=
  let t := s.team team
  let gs := t.gids.filterMap id
  let s1 := s.modTeam team (fun t => { t with leaving := true, byPriority := byPriority })
  gs.foldl (fun (s : State) gid =>
    let s2 := s.flushCombine (clusterOfCore (coreOf gid)) (fun e => e.by gid)
    (s2.ptmLines gid).foldl (fun (s : State) l => match (s.core (coreOf gid)).line t.tenant l with
      | some x => s.evictL1 (coreOf gid) t.tenant l x
      | none => s) s2) s1

/-! ### The save areas (R45, R46) -/

/-- Lays bytes of a number into an area at an offset. -/
def field (off n x : Nat) : List (Nat × Byte) := bytesAt off x n

/-- Words at consecutive offsets. -/
def fieldWords (off : Nat) (ws : List Word) : List (Nat × Byte) := ws.zipIdx.flatMap (fun w => field (off + 4 * w.2) 4 w.1.toNat)

/-- A slot's state code (02 R39). -/
def SlotState.code : SlotState → Nat
  | .free => 0 | .running => 1 | .parked => 2

/-- The mask of the low `n` bits. -/
def lowBits (n : Nat) : Nat := 2 ^ n - 1

/-- The live set of a group's region, "all allocated" written out (R45). -/
def Group.liveSet (g : Group) : Live :=
  match g.region.live with
  | some l => l
  | none => ⟨BitVec.ofNat 32 (lowBits (g.nv / 8)), BitVec.allOnes 64, BitVec.allOnes 8, BitVec.ofNat 16 (lowBits g.nt), BitVec.ofNat 8 (lowBits g.na)⟩

/-- The set bits of a bitmap. -/
def setBits (n x : Nat) : List Nat := (List.range n).filter (fun i => x.testBit i)

/-- A save area: the offset at which each live granule, tile and accumulator lies, and its size (R45). -/
def Live.layout (l : Live) : List (Nat × Nat) × List (Nat × Nat) × List (Nat × Nat) × Nat :=
  let gs := (setBits 32 l.v.toNat).zipIdx.map (fun x => (x.1, 0x240 + 1024 * x.2))
  let o1 := 0x240 + 1024 * gs.length
  let ts := (setBits 16 l.t.toNat).zipIdx.map (fun x => (x.1, o1 + 2048 * x.2))
  let o2 := o1 + 2048 * ts.length
  let as := (setBits 8 l.a.toNat).zipIdx.map (fun x => (x.1, o2 + 4096 * x.2))
  (gs, ts, as, o2 + 4096 * as.length)

/-- The bytes of a group's save area, by offset (R45); the group has been rolled back. -/
def Group.saveBytes (g : Group) : List (Nat × Byte) :=
  let l := g.liveSet
  let y := l.layout
  field 0 8 g.a.pc.toNat ++ field 8 8 g.b.pc.toNat ++ field 0x10 4 (g.rs 0).toNat ++ field 0x14 4 (g.rs 1).toNat
  ++ field 0x18 4 (g.a.st.code + 4 * g.b.st.code) ++ field 0x1C 12 0 ++ field 0x28 8 g.region.start.toNat
  ++ field 0x30 8 l.v.toNat ++ field 0x38 8 l.s.toNat ++ field 0x40 2 l.q.toNat ++ field 0x42 2 l.t.toNat ++ field 0x44 4 l.a.toNat
  ++ field 0x48 8 g.dsp.toNat ++ field 0x50 4 (g.nv / 8 + g.nt * 2 ^ 8 + g.na * 2 ^ 16 + g.role * 2 ^ 24) ++ field 0x54 4 y.2.2.2 ++ field 0x58 168 0
  ++ fieldWords 0x100 ((List.range 64).map g.rs) ++ fieldWords 0x200 ((List.range 8).map g.rq) ++ field 0x220 32 0
  ++ y.1.flatMap (fun x => fieldWords x.2 ((List.range 256).map (fun k => g.rv (8 * x.1 + k / 32) (k % 32))))
  ++ y.2.1.flatMap (fun x => fieldWords x.2 ((List.range 512).map (fun k => g.rt x.1 k)))
  ++ y.2.2.1.flatMap (fun x => fieldWords x.2 ((List.range 1024).map (fun k => g.racc x.1 (k / 32) (k % 32))))

/-- The live ranges of a team with a non-zero length, in index order (R301). -/
def Team.liveRanges (t : Team) : List (Nat × Nat) := (List.range 4).filterMap (fun i => match tget (0, 0) i t.ranges with | (_, 0) => none | r => some r)

/-- The bytes of a team area, by offset (R46). -/
def Team.saveBytes (t : Team) : List (Nat × Byte) :=
  let pairs := (List.range 4).flatMap (fun i => match tget (0, 0) i t.ranges with | (_, 0) => field (8 + 8 * i) 8 0 | (o, n) => field (8 + 8 * i) 4 o ++ field (12 + 8 * i) 4 n)
  let body := (t.liveRanges.foldl (fun (a : Nat × List (Nat × Byte)) r => (a.1 + r.2, a.2 ++ (List.range r.2).map (fun k => (a.1 + k, tget 0 (r.1 + k) t.scratch)))) (0x100, [])).2
  field 0 8 t.liveRanges.length ++ pairs ++ field 0x28 24 0 ++ (List.range 16).flatMap (fun b => field (0x40 + 4 * b) 4 (t.bar b)) ++ (List.range 8).flatMap (fun q => field (0x80 + 8 * q) 8 (tget 0 q t.queues)) ++ field 0xC0 64 0 ++ body

/-- The base of a group slot's save area and of a team's area (17 R335). -/
def Context.saveAt (c : Context) (gid : Nat) : Nat := c.save + 0x20000 * gid
def Context.teamAt (c : Context) (gid : Nat) : Nat := c.tsave + 0x64000 * gid

/-- Writes bytes at offsets from a base of a context's memory, for the scheduler of a die. -/
def State.writeArea (s : State) (die ctx base : Nat) (bs : List (Nat × Byte)) : Except Flt State :=
  s.slicePokes ctx { wr := true } .saveArea (byLine (bs.map (fun b => (base + b.1, b.2)))) (some die)

/-- What such a write leaves behind where it faults. -/
def State.areaMet (s : State) (die ctx base : Nat) (bs : List (Nat × Byte)) : State :=
  s.pokesMet ctx { wr := true } .saveArea (byLine (bs.map (fun b => (base + b.1, b.2)))) (some die)

/-! ### Saving a team (R302) -/

/-- Rolls a group back to its region (R302): the buffers are dropped, the slots return, flags and marks clear. The other
registers stay as the region has left them (R299). What its completed engine operations leave to the next acquire stays,
with what a WAITN of the region has taken (05 R91). -/
def State.rollback (s : State) (gid : Nat) : State :=
  let g := s.group gid
  let s1 : State := { s with ops := s.ops.filter (fun o => !g.buffered.contains o.1) }
  let g1 := { g with buf := [], staged := none, latch := none, a := g.region.a.slot, b := g.region.b.slot, flags := [], marks := [], paths := [], tables := [], due := 0, yielded := false, engScope := max g.engScope g.engTaken, engTaken := 0 }
  s1.setGroup gid ((g1.setMask false g.region.a.mask).setMask true g.region.b.mask)

/-- What the scheduler keeps of a saved group: no register; its waits, and the time for which its lanes have held their
records, by how long they have lasted, which counts only while it is resident (R312, 14 R272); and whether its palette
entry was Ready (04 R83). -/
def Group.kept (g : Group) (t : Team) (now cycles : Nat) : Group := { g with held := g.held.map (fun x => (x.1, { x.2 with since := cycles - x.2.since })), wait := g.wait.map (fun w => { w with since := now - w.since }), palSince := g.palSince.map (fun t => now - t), v := [], s := [], q := [], t := [], acc := [], vmap := [], tmap := [], amap := [], stop := {}, readmit := match g.pal with | some k => g.readmit || decide ((t.palette k).state = .entered) | none => false }

/-- The words of a core's files that a save of a group reads: the registers of its live set (06 R110). -/
def Group.savedWords (g : Group) (gid : Nat) : List (FileWord × Nat) :=
  let l := g.liveSet
  let rs : List Reg := (setBits 32 l.v.toNat).flatMap (fun i => (List.range 8).map (fun k => ⟨.vec, 8 * i + k⟩)) ++ (setBits 64 (l.s.toNat ||| 3)).map (fun i => ⟨.sca, i⟩) ++ (setBits 8 l.q.toNat).map (fun i => ⟨.pred, i⟩) ++ (setBits 16 l.t.toNat).map (fun i => ⟨.tile, i⟩) ++ (setBits 8 l.a.toNat).map (fun i => ⟨.acc, i⟩)
  (⟨gid, false, 0, {}, g⟩ : Iss).readsOf rs

/-- The scratchpad bytes that a save of a team reads. -/
def Team.savedBytes (t : Team) : List Nat := t.liveRanges.flatMap (fun r => (List.range r.2).map (r.1 + ·))

/-- The lasting error that a save meets, which is logged (16 R313), and what the reads of its words leave. -/
def State.saveRead (s : State) (team : Nat) : Option Flt × State :=
  let t := s.team team
  if (s.core t.core).sound then (none, s)
  else
    let gs := t.gids.filterMap id
    let ws := gs.flatMap (fun gid => (s.group gid).savedWords gid)
    match (s.errorFault t.core 0 ws).orElse (fun _ => s.spPoison team t.savedBytes) with
    | some f => (some f, s.logLasting t.ctx (dieOfCore t.core) t.tenant t.core f)
    | none => (none, (s.readWords t.core t.ctx 0 ws).spRead team t.savedBytes)

/-- Saves every group of a team and the team, and takes it off its core (R302, R46, R83). -/
def State.saveTeam (s : State) (team : Nat) : Except Flt State :=
  let t := s.team team
  let c := s.context t.ctx
  let gs := t.gids.filterMap id
  let first := gs.headD 0
  let s1 := gs.foldl (fun (s : State) gid => s.rollback gid) s
  let saved := gs.foldl (fun (a : Except Flt State) gid => match a with
    | .error f => .error f
    | .ok s => s.writeArea (dieOf gid) t.ctx (c.saveAt gid) (s.group gid).saveBytes) (.ok s1)
  match saved with
  | .error f => .error f
  | .ok s2 => match s2.writeArea (dieOf first) t.ctx (c.teamAt first) t.saveBytes with
    | .error f => .error f
    | .ok s3 =>
      let keep := t.gids.map (fun g => g.map (fun gid => (gid, (s3.group gid).kept t (s3.ctxTime t.ctx) (s3.cycleOf gid).2)))
      let s4 := s3.releasePool team
      let s5 : State := { s4 with reqs := s4.reqs.filter (fun r => match r.2.kind with | .palette u _ => u ≠ team | _ => true) }
      let s6 := gs.foldl (fun (s : State) gid => s.freeGranules gid) s5
      let s7 : State := { s6 with groups := s6.groups.filter (fun g => !gs.contains g.1) }
      let s8 := (s7.modTeam team (fun t => { t with gids := t.gids.map (fun _ => none), saved := some keep, savedFirst := first, leaving := false, passing := true, scratch := [], scratchMap := [], bars := [], queues := [], heldClock := false, pals := t.pals.map (fun (p : Nat × Palette) => if p.2.state = .resident then (p.1, { p.2 with state := .absent }) else p) })).modCore t.core (fun k => { k with sUsed := k.sUsed.filter (fun x => !t.scratchMap.contains x) })
      .ok (s8.retargetDie (dieOfCore t.core))

/-- The teams of a context that leave, and whether all of a team's groups are quiet and no request that names it is left,
of a group that has exited either (05 R101). -/
def State.leavingTeams (s : State) (ctx : Nat) : List Nat := (s.teams.filter (fun t => t.2.ctx == ctx && t.2.leaving)).map (·.1)
def State.teamQuiet (s : State) (team : Nat) : Bool := !s.namesTeam team && (s.team team).gids.all (fun g => match g with | some gid => s.quiet gid | none => true)

/-- A fault of a save is reported by the task unit (16 R306); the team stays where it is. -/
def State.saveFault (s : State) (ctx gid : Nat) (f : Flt) : State :=
  s.raiseEngine ctx f { kind := 3, number := 0, die := dieOf gid, cause := f.cause, detail := f.detail, group := srcWord gid 0, req := 0, prog := 0, addr := nbits f.detail.toNat 0 56, time := s.devTime }

/-- A pre-emption of a context ends with its last team; of the whole context, its next time slice begins (R302). -/
def State.endPass (s : State) (ctx : Nat) : State :=
  if s.leavingTeams ctx ≠ [] then s
  else
    let s1 : State := { s with teams := s.teams.map (fun (t : Nat × Team) => if t.2.ctx = ctx then (t.1, { t.2 with passing := false }) else t) }
    if !(s.context ctx).hb.preempt then s1
    else s1.modContext ctx (fun c => { c with sliceEnded := false, sliceStart := s.ctxTime ctx, hb := { c.hb with preempt := false } })

/-- Saves the teams of a context that leave and are quiet. -/
def State.savePass (s : State) (ctx : Nat) : State :=
  if (s.context ctx).hb.halt then s
  else
    ((s.leavingTeams ctx).foldl (fun (s : State) t =>
      if (s.context ctx).hb.halt || !s.teamQuiet t then s
      else
        let first := ((s.team t).gids.filterMap id).headD 0
        match s.saveRead t with
        | (some f, s1) => s1.saveFault ctx first f
        | (none, s1) => match s1.saveTeam t with
          | .ok s2 => s2
          | .error f => s1.saveFault ctx first f) s).endPass ctx

/-- Starts the pre-emption of every resident team of a context. -/
def State.preemptAll (s : State) (ctx : Nat) : State :=
  let ts := (s.teams.filter (fun t => t.2.ctx == ctx && t.2.isResident && !t.2.leaving)).map (·.1)
  (ts.foldl (fun (s : State) t => s.startLeaving t false) s).modContext ctx (fun c => { c with hb := { c.hb with preempt := true } })

/-- TIME_SLICE_EXPIRY (R302, R314): the slice of a context that is not halted ends; its teams leave, and those
that are quiet are saved. -/
def execTimeSliceExpiry (ctx : Nat) (s : State) : Host.Outcome State Fault Refusal :=
  let c := s.context ctx
  if c.hb.halt then .next s
  else if c.hb.preempt then .next (s.savePass ctx)
  else if c.slice = 0 || s.ctxTime ctx < c.sliceStart + 1000 * c.slice then .next s
  else .next (((s.modContext ctx (fun c => { c with sliceEnded := true })).preemptAll ctx).savePass ctx)

end Sys2Proof.Machine
end

