-- ==== Sys2Proof/Machine/Place.lean ====
section
/-! DEFINITION. From a record to resident groups (15 R284 to R292): the choice of a record, the fit of a team, its
placement and launch values (02 R40, R43, 17 R336), reservations, priority pre-emption, and the resume of a team
(16 R303, 02 R45, R46). -/

namespace Sys2Proof.Machine

/-! ### The choice of a record (R284, R286) -/

/-- Whether record `a` is served ahead of `b`: effective priority, time ready, queue, then age (log 9). -/
def aheadOf (a b : Nat × Grid) : Bool :=
  decide (b.2.eff < a.2.eff) || (a.2.eff == b.2.eff && (decide (a.2.ready < b.2.ready) || (a.2.ready == b.2.ready && (decide (a.2.queue < b.2.queue) || (a.2.queue == b.2.queue && decide (a.1 < b.1))))))

/-- The record served first of a list. -/
def firstServed : List (Nat × Grid) → Option (Nat × Grid)
  | [] => none
  | x :: rest => some (rest.foldl (fun m y => if aheadOf y m then y else m) x)

/-- Whether teams of a record are still to be started. -/
def Grid.unstarted (g : Grid) : Bool := decide (g.nextTeam < g.launch.teams)

/-- The ready records of a context that a task unit serves, each with its effective priority now, and the one it serves
now. -/
def State.readyGrids (s : State) (ctx die : Nat) : List (Nat × Grid) :=
  (s.grids.filter (fun g => g.2.ctx == ctx && g.2.die == die && g.2.depOk && g.2.unstarted)).map (fun g => (g.1, { g.2 with eff := s.effOf g.2 }))
def State.serving (s : State) (ctx die : Nat) : Option (Nat × Grid) := firstServed ((s.readyGrids ctx die).filter (·.2.chosen))

/-! ### The fit (R288) -/

/-- What a core's resident teams occupy, in the order of `Launch.needs`, with the teams of `gone` taken off. -/
def State.usedOn (s : State) (core : Nat) (gone : List Nat) : List Nat :=
  let k := s.core core
  let gs := s.groups.filter (fun g => coreOf g.1 == core)
  let off := gs.filter (fun g => gone.contains g.2.team)
  let sum (f : Group → Nat) : Nat := (off.map (fun g => f g.2)).foldl (· + ·) 0
  let ts := s.teams.filter (fun t => t.2.core == core && t.2.saved.isNone && !gone.contains t.1)
  let pins := (s.reqs.filter (fun r => r.2.pin && r.2.core == core)).length
  let scr := (gone.map (fun t => (s.team t).scratchMap.length)).foldl (· + ·) 0
  [gs.length - off.length, k.vUsed.length - sum (·.vmap.length), k.tUsed.length - sum (·.tmap.length), k.aUsed.length - sum (·.amap.length), k.sUsed.length - scr, (ts.map (·.2.palCap)).foldl (· + ·) pins]

/-- Resources of a core, by row of R288, that a team of the given needs lacks. -/
def State.lacks (s : State) (core : Nat) (needs gone : List Nat) : Nat :=
  let used := s.usedOn core gone
  let limits := [64, 512, 128, 64, 48, poolLimit (used.getD 4 0 + needs.getD 4 0)]
  ((needs.zip (used.zip limits)).filter (fun x => decide (x.2.2 < x.1 + x.2.1))).length

/-- Whether a reservation keeps a team of effective priority `eff` off a core (R291): any but the waiting team, the next
one of the record `own`. -/
def State.reservedFrom (s : State) (core : Nat) (own : Option Nat) (eff : Nat) : Bool :=
  s.contexts.any (fun c => c.2.reserved.any (fun r => r.2.2 == core && own ≠ some r.2.1 && decide (eff ≤ s.effOf (s.grid r.2.1))))

/-- The cores of a context's partition. -/
def State.coresOf (s : State) (ctx : Nat) : List Nat := (s.partDies (s.context ctx).part).flatMap (fun d => (List.range 64).map (fun k => 64 * d + k))

/-- The first of some cores by the keys of R289. -/
def State.bestCore (s : State) (cores : List Nat) : Option Nat :=
  leastBy (fun k => ((s.groups.filter (fun g => coreOf g.1 == k)).length * 64 + (s.core k).sUsed.length) * 2048 + k) cores

/-- The core on which a team is placed, if it fits one (R288, R289). -/
def State.coreFor (s : State) (ctx : Nat) (own : Option Nat) (eff : Nat) (needs : List Nat) : Option Nat :=
  s.bestCore ((s.coresOf ctx).filter (fun k => s.lacks k needs [] = 0 && !s.reservedFrom k own eff))

/-- Whether the context has a per-thread area for each group of a team at its first placement (17 R336). -/
def State.areasFor (s : State) (ctx : Nat) (l : Launch) : Bool :=
  let c := s.context ctx
  l.ptm = 0 || decide (l.grp + c.ptmUsed.length ≤ c.ptmn)

/-- The core of the next team of a record. -/
def State.teamCore (s : State) (grid : Nat) : Option Nat :=
  let g := s.grid grid
  if s.areasFor g.ctx g.launch then s.coreFor g.ctx (some grid) (s.effOf g) g.launch.needs else none

/-- Whether a pre-empted team of a context waits that is placed before a new team of a priority (R289). -/
def State.resumesFirst (s : State) (ctx eff : Nat) : Bool := s.teams.any (fun t => t.2.ctx == ctx && t.2.saved.isSome && decide (eff ≤ s.effOf (s.grid t.2.grid)))

/-- RECORD_CHOICE (R284, R286): the task unit chooses a ready record; while the next team of a chosen record waits it
chooses another only of strictly higher effective priority. -/
def execRecordChoice (ctx die : Nat) (s : State) : Host.Outcome State Fault Refusal :=
  if (s.context ctx).hb.halt then .next s
  else
    let mark (g : Nat × Grid) : State := s.modGrid g.1 (fun g => { g with chosen := true })
    let others := (s.readyGrids ctx die).filter (fun g => !g.2.chosen)
    match s.serving ctx die with
    | none => match firstServed others with
      | some g => .next (mark g)
      | none => .next s
    | some c => match firstServed (others.filter (fun g => decide (c.2.eff < g.2.eff))) with
      | some g => .next (if (s.teamCore c.1).isSome && !s.resumesFirst ctx c.2.eff then s else mark g)
      | none => .next s

/-! ### Taking a place (R289, 02 R40) -/

/-- The group slot that the next group of a core takes: in the quadrant with the most free slots. -/
def State.nextSlot (s : State) (core : Nat) : Nat :=
  let free (q : Nat) : List Nat := (List.range 16).map (fun k => 64 * core + 16 * q + k) |>.filter (fun gid => !s.resident gid)
  let q := [1, 2, 3].foldl (fun b q => if (free b).length < (free q).length then q else b) 0
  (free q).headD (64 * core)

/-- The lowest `n` granules not in use. -/
def freeGranulesOf (used : List Nat) (total n : Nat) : List Nat := ((List.range total).filter (fun x => !used.contains x)).take n

/-- The words of a physical granule are cleared, and with them their errors (R40, 06 R111). -/
def Core.clearFile (k : Core) (f : RegFile) (size : Nat) (gr : List Nat) : Core :=
  k.mend (fun w => w.file == f && gr.contains (w.index / size))

/-- Seats a group of a shape in a slot of a core: its granules are taken. -/
def State.seat (s : State) (gid : Nat) (g : Group) : State :=
  let core := coreOf gid
  let k := s.core core
  let v := freeGranulesOf k.vUsed 512 (g.nv / 8)
  let t := freeGranulesOf k.tUsed 128 g.nt
  let a := freeGranulesOf k.aUsed 64 g.na
  let s1 := s.modCore core (fun k =>
    let k1 := ((((k.clearFile .vector 256 v).clearFile .tile 512 t).clearFile .accumulator 1024 a).clearFile .scalar 64 [slotOf gid]).clearFile .predicate 8 [slotOf gid]
    { k1 with vUsed := k1.vUsed ++ v, tUsed := k1.tUsed ++ t, aUsed := k1.aUsed ++ a })
  s1.setGroup gid { g with vmap := v, tmap := t, amap := a }

/-- An L1 that has lost lines to scratchpad granules gives up ordinary lines until it fits (04 R68). -/
def State.shrinkL1 (s : State) (core : Nat) : (fuel : Nat) → State
  | 0 => s
  | n + 1 => if (s.core core).l1.length ≤ (s.core core).l1Capacity then s else (s.roomL1 core).shrinkL1 core n

/-- Takes scratchpad granules of a core; they read zero (R40). -/
def State.takeScratch (s : State) (core n : Nat) : List Nat × State :=
  let m := freeGranulesOf (s.core core).sUsed 48 n
  let s1 := s.modCore core (fun k => { (k.clearFile .scratchpad 2048 m) with sUsed := k.sUsed ++ m })
  (m, s1.shrinkL1 core (64 * n))

/-! ### Starting a team (02 R39, R43) -/

/-- A group as its launch gives it. -/
def Launch.group (l : Launch) (g : Grid) (c : Context) (team index : Nat) (area : Option Nat) : Group :=
  let role := if l.pgrp = 0 then 0 else if index < l.pgrp then 1 else 2
  let pick (a b : Nat) : Nat := if role = 2 then b else a
  let x : Group := { team := team, index := index, ctx := g.ctx, tenant := c.tenant, role := role, nv := 8 * pick l.vg l.vgc, nt := pick l.tp l.tc, na := pick l.ap l.ac, a := { pc := l.code, st := .running }, ptmArea := area, ptmBase := (match area with | some a => c.ptmb + a * 128 * c.ptmw | none => 0), ptmWords := l.ptm, dstkWords := l.dstk, fpx := c.fpx, bind := { batch := g.spawned } }
  let y := ((((((x.ws 0 l.mask).wpair 2 l.arg).ws 4 (BitVec.ofNat 32 index)).ws 5 (BitVec.ofNat 32 g.nextTeam)).ws 6 (BitVec.ofNat 32 l.teams)).ws 7 (BitVec.ofNat 32 role))
  ({ y with dsp := BitVec.ofNat 64 y.stackTop } : Group).record l.code none

/-- Starts the next team of a record on a core. The context's ceiling clamps its hint (17 R318). A hinted first team is held until the clocks of its die are
stable (R287); a record with a dependence synchronises with the release that satisfied it (14 R261), and a spawn that a
LNCH fired with the LNCH (14 R281). -/
def State.startTeam (s : State) (grid core : Nat) : State :=
  let g := s.grid grid
  let l := g.launch
  let c := s.context g.ctx
  let f := s.fresh
  let id := f.1
  let sc := f.2.takeScratch core l.scr
  let seated := (List.range l.grp).foldl (fun (a : List (Option Nat) × State) i =>
    let gid := a.2.nextSlot core
    let area := if l.ptm = 0 then none else (List.range c.ptmn).find? (fun k => !(a.2.context g.ctx).ptmUsed.contains k)
    let n := a.2.fresh
    let s1 := n.2.seat gid { (l.group g c id i area) with serial := n.1 }
    (a.1 ++ [some gid], match area with | some k => s1.modContext g.ctx (fun c => { c with ptmUsed := k :: c.ptmUsed }) | none => s1)) ([], sc.2)
  let hint := min l.hint c.ceiling
  let held := hint ≠ 0 && g.nextTeam = 0
  let t : Team := { ctx := g.ctx, tenant := c.tenant, grid := grid, core := core, index := g.nextTeam, gids := seated.1, producers := l.pgrp, scratchSize := 8192 * l.scr, scratchMap := sc.1, palCap := l.pal, prio := l.prio, persist := l.persist, hint := hint, heldClock := held, age := id }
  let s2 := (({ seated.2 with teams := tput id t seated.2.teams } : State).modGrid grid (fun g => { g with nextTeam := g.nextTeam + 1, eff := s.effOf g, waitSince := s.ctxTime g.ctx, cores := if g.cores.contains core then g.cores else core :: g.cores })).modContext g.ctx (fun c => { c with reserved := c.reserved.filter (fun r => r.2.1 ≠ grid) })
  let s3 := if l.dep || g.fired then s2.acquireL1 core c.tenant else s2
  let s4 := s3.retargetDie (dieOfCore core)
  if held && s4.clocksStable t then s4.modTeam id (fun t => { t with heldClock := false }) else s4

/-! ### Priority pre-emption (R292) -/

/-- The teams of a context on a core that a record of priority `p` may pre-empt, in the order in which they go. -/
def State.victims (s : State) (ctx core p : Nat) : List Nat :=
  let ts := s.teams.filter (fun t => t.2.ctx == ctx && t.2.core == core && t.2.isResident && !t.2.leaving && decide (t.2.prio < p) && !t.2.persist && (match t.2.resumedAt with | some x => decide (x + 200000 ≤ s.devTime) | none => true))
  let key (t : Nat × Team) : Nat := t.2.prio * 2 ^ 64 + (2 ^ 64 - 1 - t.2.age % 2 ^ 64)
  (ts.foldl (fun (a : List (Nat × Team)) x => a.takeWhile (fun y => decide (key y ≤ key x)) ++ x :: a.dropWhile (fun y => decide (key y ≤ key x))) []).map (·.1)

/-- The teams that must go from a core before a team fits, if their going suffices. -/
def State.mustGo (s : State) (ctx core p : Nat) (needs : List Nat) : Option (List Nat) :=
  let vs := s.victims ctx core p
  ((List.range (vs.length + 1)).find? (fun n => s.lacks core needs (vs.take n) = 0)).map (fun n => vs.take n)

/-- Pre-empts for the next team of a record where that makes room. -/
def State.makeRoom (s : State) (grid : Nat) : State :=
  let g := s.grid grid
  let l := g.launch
  let opts := ((s.coresOf g.ctx).filter (fun k => !s.reservedFrom k (some grid) (s.effOf g))).filterMap (fun k => (s.mustGo g.ctx k l.prio l.needs).map (fun v => (k, v)))
  let few := (opts.map (fun x => x.2.length)).foldl min 65
  match s.bestCore ((opts.filter (fun x => x.2.length == few)).map (·.1)) with
  | some k => (match opts.find? (fun x => x.1 == k) with | some x => x.2.foldl (fun (s : State) t => s.startLeaving t true) s | none => s)
  | none => s

/-- TEAM_PLACE (R286 to R292): the teams of the context that leave are saved as far as they are quiet; then the
next team of the record that the task unit serves takes its place, or pre-empts. -/
def execTeamPlace (ctx die : Nat) (s : State) : Host.Outcome State Fault Refusal :=
  let s1 := s.savePass ctx
  let c := s1.context ctx
  if c.hb.halt || c.hb.preempt || c.sliceEnded then .next s1
  else match s1.serving ctx die with
    | none => .next s1
    | some g =>
      if s1.resumesFirst ctx g.2.eff then .next s1
      else match s1.teamCore g.1 with
        | some k => .next (s1.startTeam g.1 k)
        | none => .next (if s1.leavingTeams ctx = [] && s1.areasFor ctx g.2.launch then s1.makeRoom g.1 else s1)

/-- RESERVATION_TIMEOUT (R291): the team that has waited 100 µs is named the core on which it lacks the fewest
rows of the table of R288 (log 31). -/
def execReservationTimeout (ctx die : Nat) (s : State) : Host.Outcome State Fault Refusal :=
  let c := s.context ctx
  match s.serving ctx die with
  | none => .next s
  | some g =>
    if c.hb.halt || (tfind die c.reserved).isSome || s.ctxTime ctx < g.2.waitSince + 100000 then .next s
    else
      let ks := (s.coresOf ctx).map (fun k => (k, s.lacks k g.2.launch.needs []))
      let least := (ks.map (·.2)).foldl min 6
      match s.bestCore ((ks.filter (fun x => x.2 == least)).map (·.1)) with
      | some k => .next (s.modContext ctx (fun c => { c with reserved := tput die (g.1, k) c.reserved }))
      | none => .next s

/-! ### Resuming a team (16 R303) -/

/-- The number of `n` bytes at an offset of an area. -/
def numAt (bs : List Byte) (off n : Nat) : Nat := ofBytes ((bs.drop off).take n)

/-- The offset of the lowest field of a group header that fails the checks of R45. -/
def Group.headerBad (g : Group) (bs : List Byte) : Option Nat :=
  let f := numAt bs
  let above (x n : Nat) : Bool := decide (2 ^ n ≤ x)
  let checks : List (Nat × Bool) :=
    [(0x18, above (f 0x18 4) 4 || nbits (f 0x18 4) 0 2 = 3 || nbits (f 0x18 4) 2 2 = 3), (0x1C, f 0x1C 4 ≠ 0), (0x20, f 0x20 6 ≠ 0), (0x26, f 0x26 2 ≠ 0), (0x30, above (f 0x30 4) (g.nv / 8)), (0x34, f 0x34 4 ≠ 0), (0x41, f 0x41 1 ≠ 0), (0x42, above (f 0x42 2) g.nt), (0x44, above (f 0x44 1) g.na), (0x45, f 0x45 3 ≠ 0), (0x50, f 0x50 4 ≠ g.nv / 8 + g.nt * 2 ^ 8 + g.na * 2 ^ 16 + g.role * 2 ^ 24), (0x58, f 0x58 168 ≠ 0)]
  (checks.find? (·.2)).map (·.1)

/-- The offset of the lowest field of a team header that fails them (R46, 12 R226, R230). The count of ranges at 0x00 is not
among them (DESIGN CHOICE, log 77: R46 does not say what a count above 4, or one that differs from the lengths, does). -/
def Team.headerBad (t : Team) (bs : List Byte) : Option Nat :=
  let f := numAt bs
  let ranges := (List.range 4).map (fun i => (8 + 8 * i, f (8 + 8 * i) 4 % 4 ≠ 0 || f (12 + 8 * i) 4 % 4 ≠ 0 || decide (t.scratchSize < f (8 + 8 * i) 4 + f (12 + 8 * i) 4)))
  let bars := (List.range 16).map (fun b => (0x40 + 4 * b, decide (2 ^ 22 ≤ f (0x40 + 4 * b) 4)))
  let queues := (List.range 8).map (fun q => (0x80 + 8 * q, decide (2 ^ 42 ≤ f (0x80 + 8 * q) 8) || nbits (f (0x80 + 8 * q) 8) 16 3 = 7))
  let all : List (Nat × Bool) := [(0x04, decide (f 4 4 ≠ 0))] ++ ranges ++ [(0x28, decide (f 0x28 24 ≠ 0))] ++ bars ++ queues ++ [(0xC0, decide (f 0xC0 64 ≠ 0))]
  (all.find? (·.2)).map (·.1)

/-- The words from `pc` up to the next header, if one follows within `fuel` words; 0 at a header. -/
def State.toHeader (s : State) (gid : Nat) (pc : DWord) : (fuel : Nat) → Option Nat
  | 0 => none
  | n + 1 => match s.fetchWord gid pc with
    | .error _ => none
    | .ok w => match decode (bytesOfWord w) with
      | .ok (.clauseStart _, _) => some 0
      | _ => (s.toHeader gid (pc + 8) n).map (· + 1)

/-- A slot at a saved PC (R303): a word inside a clause runs up to the next header, under the clause's flags when
the PC is the saved one (log 8). A word that cannot be fetched faults when it issues. -/
def State.slotAt (s : State) (gid : Nat) (kept : Slot) (pc : DWord) (st : SlotState) : Option Slot :=
  let same : Option Clause := if pc = kept.pc then kept.cl else none
  match st with
  | .running => match s.fetchWord gid pc with
    | .error _ => some { pc := pc, st := st, cl := none }
    | .ok _ => match s.toHeader gid pc 17 with
      | none => none
      | some 0 => some { pc := pc, st := st, cl := none }
      | some n => some { pc := pc, st := st, cl := some { (same.getD {}) with left := n } }
  | st => some { pc := pc, st := st, cl := same }

/-- A state of a slot from its code (02 R39). -/
def slotState : Nat → SlotState
  | 1 => .running | 2 => .parked | _ => .free

/-- The registers of a live set as the area holds them; s0 and s1 come from the area in any case (R45). -/
def Group.restore (g : Group) (l : Live) (bs : List Byte) : Group :=
  let y := l.layout
  let w (off : Nat) : Word := BitVec.ofNat 32 (numAt bs off 4)
  let sc := (List.range 64).filter (fun i => i < 2 || l.s.getLsbD i)
  let g1 := sc.foldl (fun (g : Group) i => g.ws i (w (0x100 + 4 * i))) { g with v := [], s := [], q := [], t := [], acc := [] }
  let g2 := (setBits 8 l.q.toNat).foldl (fun (g : Group) i => g.wq i (w (0x200 + 4 * i))) g1
  let block (cls n : Nat) (g : Group) (x : Nat × Nat) : Group := (List.range n).foldl (fun (g : Group) k => g.wcell ⟨cls, n * x.1 + k⟩ (w (x.2 + 4 * k))) g
  y.2.2.1.foldl (block 4 1024) (y.2.1.foldl (block 3 512) (y.1.foldl (block 0 256) g2))

/-- What is wrong with a resume: a fault, reported by the task unit. -/
def State.resumeFault (s : State) (team gid : Nat) (f : Flt) : State := s.saveFault (s.team team).ctx gid f

/-- The live set that the header of a group's area gives (R45). -/
def headerLive (hd : List Byte) : Live :=
  let f := numAt hd
  ⟨BitVec.ofNat 32 (f 0x30 4), BitVec.ofNat 64 (f 0x38 8), BitVec.ofNat 8 (f 0x40 1), BitVec.ofNat 16 (f 0x42 2), BitVec.ofNat 8 (f 0x44 1)⟩

/-- A saved group as its area gives it, or the fault of the resume. The reserved fields of the header are checked for zero; the
32 reserved bytes at 0x220 to 0x23F are not (DESIGN CHOICE, log 77: R45 does not say whether they are among the reserved
bits that fail a resume). -/
def State.savedGroup (s : State) (ctx team old gid : Nat) (kept : Group) : Except Flt Group :=
  let base := (s.context ctx).saveAt old
  let die := some (dieOf gid)
  match s.slicePeeks ctx { rd := true } .saveArea base 0x240 die with
  | .error f => .error f
  | .ok hd => match kept.headerBad hd with
    | some off => .error (fRegister off 0 0 0 3)
    | none =>
      let f := numAt hd
      let live := headerLive hd
      match s.slicePeeks ctx { rd := true } .saveArea (base + 0x240) (live.layout.2.2.2 - 0x240) die with
      | .error f => .error f
      | .ok more =>
        let now := s.ctxTime ctx
        let g := ({ kept with dsp := BitVec.ofNat 64 (f 0x48 8), team := team, wait := kept.wait.map (fun w => { w with since := now - w.since }), palSince := kept.palSince.map (fun t => now - t), held := kept.held.map (fun x => (x.1, { x.2 with since := (s.cycleOf gid).2 - x.2.since })) } : Group).restore live (hd ++ more)
        let s1 := s.setGroup gid g
        let pcA : DWord := BitVec.ofNat 64 (f 0 8)
        let pcB : DWord := BitVec.ofNat 64 (f 8 8)
        let bad (pc : DWord) : Flt := fEncoding false 5 (match s1.fetchWord gid pc with | .ok w => w | .error _ => 0)
        match s1.slotAt gid kept.a pcA (slotState (nbits (f 0x18 4) 0 2)), s1.slotAt gid kept.b pcB (slotState (nbits (f 0x18 4) 2 2)) with
        | none, _ => .error (bad pcA)
        | _, none => .error (bad pcB)
        | some a, some b =>
          let all := kept.region.live.isNone && live == kept.liveSet
          .ok (({ g with a := a, b := b } : Group).record (BitVec.ofNat 64 (f 0x28 8)) (if all then none else some live))

/-- The bytes of an activation table for a core, 16 at a time, each through the remap filter (03 R61), as the home slices hold
them, past the L1 (DESIGN CHOICE, log 77: R182 does not say by which way a resume reads them). -/
def State.tableBytes (s : State) (ctx core : Nat) (base : Nat) : Nat → Except Flt (List Byte)
  | 0 => .ok []
  | n + 1 => match s.tableBytes ctx core base n with
    | .error f => .error f
    | .ok bs => match s.slicePeeks ctx { rd := true } .load ((s.core core).remap (s.context ctx).tenant (base + 16 * n)) 16 (some (dieOfCore core)) with
      | .error f => .error f
      | .ok more => .ok (bs ++ more)

/-- The activation tables of a team, read again from their addresses (09 R182). -/
def State.rereadTables (s : State) (ctx core : Nat) : Table ActTable → Except Flt (Table ActTable)
  | [] => .ok []
  | (k, a) :: rest => match s.tableBytes ctx core a.base 33 with
    | .error f => .error f
    | .ok bs => match s.rereadTables ctx core rest with
      | .error f => .error f
      | .ok r => .ok ((k, actTableOf a.base (fun o => BitVec.ofNat 32 (numAt bs o 4))) :: r)

/-- The team as its header and range bytes give it. -/
def Team.restore (t : Team) (hd body : List Byte) : Team :=
  let f := numAt hd
  let rs := (List.range 4).filterMap (fun i => if f (12 + 8 * i) 4 = 0 then none else some (i, (f (8 + 8 * i) 4, f (12 + 8 * i) 4)))
  let bytes := (rs.foldl (fun (a : Nat × List (Nat × Byte)) r => (a.1 + r.2.2, a.2 ++ (List.range r.2.2).map (fun k => (r.2.1 + k, body.getD (a.1 + k) 0)))) (0, [])).2
  { t with ranges := rs, scratch := tsetAll 0 bytes [], bars := tsetAll 0 ((List.range 16).map (fun b => (b, f (0x40 + 4 * b) 4))) [], queues := tsetAll 0 ((List.range 8).map (fun q => (q, f (0x80 + 8 * q) 8))) [] }

/-- Re-admits the palettes of a resumed team that were Filling or Entered (04 R83). -/
def State.readmitPalettes (s : State) (team : Nat) : State :=
  let t := s.team team
  let ks := (t.pals.filter (fun p => decide (p.2.state = .filling) || decide (p.2.state = .entered))).map (·.1)
  let s1 := s.modTeam team (fun t => ks.foldl (fun (t : Team) k => t.modPal k (fun p => { p with state := .filling, refill := p.refill || decide (p.state = .entered) })) t)
  let fills := ks.foldl (fun (a : List Nat × State) k =>
    let ls := (t.palette k).lines.filter (fun l => !a.1.contains l)
    (a.1 ++ ls, ls.foldl (fun (s : State) l => s.fillLine team k l) a.2)) ([], s1)
  fills.2.palMove team 32

/-- What a saved team needs of a core (R288). -/
def Team.needs (t : Team) (gs : List Group) : List Nat :=
  let sum (f : Group → Nat) : Nat := (gs.map f).foldl (· + ·) 0
  [gs.length, sum (·.nv / 8), sum (·.nt), sum (·.na), t.scratchSize / 8192, t.palCap]

/-- The runs that a resume reads, in order, as (access, address, bytes). -/
def State.resumeReads (s : State) (team core : Nat) (saved : List (Option (Nat × Group))) : List (Acc × Nat × Nat) :=
  let t := s.team team
  let c := s.context t.ctx
  let base := c.teamAt t.savedFirst
  let len := match s.slicePeeks t.ctx { rd := true } .saveArea base 0x100 (some (dieOfCore core)) with
    | .ok hd => ((List.range 4).map (fun i => numAt hd (12 + 8 * i) 4)).foldl (· + ·) 0
    | .error _ => 0
  let tables := t.act.flatMap (fun a => (List.range 33).map (fun n => (Acc.load, (s.core core).remap c.tenant (a.2.base + 16 * n), 16)))
  let areas := (saved.filterMap id).flatMap (fun x => [(Acc.saveArea, c.saveAt x.1, 0x240), (Acc.saveArea, c.saveAt x.1 + 0x240, match s.slicePeeks t.ctx { rd := true } .saveArea (c.saveAt x.1) 0x240 (some (dieOfCore core)) with | .ok hd => (headerLive hd).layout.2.2.2 - 0x240 | .error _ => 0)])
  (.saveArea, base, 0x100) :: (.saveArea, base + 0x100, len) :: tables ++ areas

/-- What such runs leave behind, up to the first that faults, whose lasting error of memory is logged (16 R313). -/
def State.areasTook (s : State) (ctx core : Nat) (rs : List (Acc × Nat × Nat)) : State :=
  let bad (r : Acc × Nat × Nat) : Bool := match s.slicePeeks ctx { rd := true } r.1 r.2.1 r.2.2 (some (dieOfCore core)) with | .ok _ => false | .error _ => true
  let good := rs.takeWhile (fun r => !bad r)
  let met := good ++ (rs.drop good.length).take 1
  let s1 := ((rs.drop good.length).take 1).foldl (fun (s : State) r => s.logPeek ctx { rd := true } r.1 r.2.1 r.2.2 (some (dieOfCore core))) s
  met.foldl (fun (s : State) r => State.peekedRuns (some (dieOfCore core)) ctx { rd := true } r.1 (lineRuns r.2.1 r.2.2) s) s1

/-- Places a saved team on a core and restores it, or says what is wrong with its areas. -/
def State.resumeOn (s : State) (team core : Nat) (saved : List (Option (Nat × Group))) : Except Flt State :=
  let t := s.team team
  let base := (s.context t.ctx).teamAt t.savedFirst
  match s.slicePeeks t.ctx { rd := true } .saveArea base 0x100 (some (dieOfCore core)) with
  | .error f => .error f
  | .ok hd => match t.headerBad hd with
    | some off => .error (fRegister off 0 0 0 3)
    | none =>
      let len := ((List.range 4).map (fun i => numAt hd (12 + 8 * i) 4)).foldl (· + ·) 0
      match s.slicePeeks t.ctx { rd := true } .saveArea (base + 0x100) len (some (dieOfCore core)), s.rereadTables t.ctx core t.act with
      | .error f, _ => .error f
      | _, .error f => .error f
      | .ok body, .ok act =>
        let sc := s.takeScratch core (t.scratchSize / 8192)
        let seated := saved.foldl (fun (a : Except Flt (List (Option Nat) × State)) x => match a, x with
          | .error f, _ => .error f
          | .ok (l, s), none => .ok (l ++ [none], s)
          | .ok (l, s), some (old, kept) =>
            let gid := s.nextSlot core
            match s.savedGroup t.ctx team old gid kept with
            | .error f => .error f
            | .ok g => .ok (l ++ [some gid], s.seat gid g)) (.ok ([], sc.2))
        match seated with
        | .error f => .error f
        | .ok (gids, s1) =>
          let t1 : Team := { (t.restore hd body) with core := core, gids := gids, scratchMap := sc.1, act := act, saved := none, resumedAt := if t.byPriority then some s.devTime else t.resumedAt, byPriority := false, passing := false }
          let s2 := (s1.modTeam team (fun _ => t1)).modGrid t.grid (fun g => { g with cores := if g.cores.contains core then g.cores else core :: g.cores })
          .ok (((s2.readmitPalettes team).retargetDie (dieOfCore core)).areasTook t.ctx core (s.resumeReads team core saved))

/-- TEAM_RESUME (R303): a pre-empted team is placed by R289, re-admitted and restored; it is not served before a
waiting record of strictly higher effective priority. -/
def execTeamResume (team : Nat) (s : State) : Host.Outcome State Fault Refusal :=
  match tfind team s.teams with
  | none => .next s
  | some t => match t.saved with
    | none => .next s
    | some saved =>
      let c := s.context t.ctx
      let eff := s.effOf (s.grid t.grid)
      let behind := (s.partDies c.part).any (fun d => match s.serving t.ctx d with | some g => decide (eff < g.2.eff) | none => false)
      if c.hb.halt || c.hb.preempt || c.sliceEnded || behind then .next s
      else match s.coreFor t.ctx none eff (t.needs (saved.filterMap (fun x => x.map (·.2)))) with
        | none => .next s
        | some core => match s.resumeOn team core saved with
          | .ok s1 => .next s1
          | .error f => .next ((s.areasTook t.ctx core (s.resumeReads team core saved)).resumeFault team (t.savedFirst) f)

end Sys2Proof.Machine
end

