-- ==== Sys2Proof/Machine/RouterEvents.lean ====
section
/-! DEFINITION. What the task unit does with the events of its routers (14 R272) and with pushes between dies and
modules (14 R268). -/

namespace Sys2Proof.Machine

/-! ### Routers (R272) -/

/-- A router whose context is not halted, with its next event and itself without it. -/
def State.routerHead (s : State) (die idx : Nat) : Option (RouterEvent × Router) :=
  match tfind idx (s.die die).routers with
  | none => none
  | some r => if (s.context r.ctx).hb.halt then none else match r.events with
    | [] => none
    | e :: rest => some (e, { r with events := rest })

/-- ROUTER_ENTRY (R271, R272): the manifest is written; its upper word is the router's own, and free (log 4). -/
def execRouterEntry (die router : Nat) (s : State) : Host.Outcome State Fault Refusal :=
  match s.routerHead die router with
  | some (.entry source rec_, r) =>
    let f := s.freeBits 32
    let m := f.2.entryFromRing die r
    let r := m.1
    .next (m.2.route die router { r with origin := (r.origin + 1) % 2 ^ 16 } source (manifest r.origin :: BitVec.ofNat 32 f.1 :: rec_.drop 2))
  | _ => .next s

/-- ROUTER_RPASS (R272). -/
def execRouterRpass (die router : Nat) (s : State) : Host.Outcome State Fault Refusal :=
  match s.routerHead die router with
  | some (.pass source st rec_ words cyc, r) => .next (s.route die router (r.count st cyc true) source (stageReport r st true rec_ words))
  | _ => .next s

/-- ROUTER_RREJ (R272). -/
def execRouterRrej (die router : Nat) (s : State) : Host.Outcome State Fault Refusal :=
  match s.routerHead die router with
  | some (.rej source st rec_ words cyc, r) => .next (s.route die router (r.count st cyc false) source (stageReport r st false rec_ words))
  | _ => .next s

/-! ### Remote pushes (R268) -/

/-- The outbox slot of this module whose push a tail write carries, as (context, key, operation). -/
def State.ownPush (s : State) (p : RemotePush) : Option (Nat × Nat × Nat) :=
  s.contexts.findSome? (fun c => (c.2.outbox.find? (fun x => x.1 == 256 * p.port + p.slot && x.2.1 % 2 ^ 16 == p.tag && x.2.2.1 == p.handle && x.2.2.2.isSome)).map (fun x => (c.1, x.1, x.2.1)))

/-- Sets the stage of an outbox slot. -/
def State.setOutbox (s : State) (ctx key : Nat) (st : Option Nat) : State :=
  s.modContext ctx (fun c => { c with outbox := c.outbox.map (fun (x : Nat × Nat × Word × Option Nat) => if x.1 = key then (x.1, x.2.1, x.2.2.1, st) else x) })

/-- The key under which the filter knows a push: its source port and tag, of this module or of another. -/
def RemotePushKey (own : Bool) (p : RemotePush) : Nat × Nat := (if own then p.port + 64 else p.port, p.tag)

/-- REMOTE_TAIL_WRITE (R268): a tail write that arrives twice is taken once; the filter of a task unit keeps the
last 64 (log 33). -/
def execRemoteTailWrite (push : RemotePush) (s : State) : Host.Outcome State Fault Refusal :=
  let own := s.ownPush push
  let key := RemotePushKey own.isSome push
  if (s.die push.die).tagsSeen.contains key then .next s
  else
    let s1 := s.modDie push.die (fun d => { d with pulls := d.pulls ++ [(push, own.isSome)], tagsSeen := (key :: d.tagsSeen).take 64 })
    .next (match own with | some x => s1.setOutbox x.1 x.2.1 (some 1) | none => s1)

/-- The context whose node a push from another module names: the one of its tenant. -/
def State.tenantContext (s : State) (tenant : BitVec 16) : Option Nat := (s.contexts.find? (fun c => c.2.tenant == tenant.toNat)).map (·.1)

/-- The kind under which a remote push is refused, if it is (R268, R264). -/
def State.remoteRefuses (s : State) (ctx : Nat) (h : Word) : Option Nat :=
  let key := nodeKey h
  if !h.getLsbD 31 || h.getLsbD 12 || (s.context ctx).ncount ≤ key % 4096 then some 1
  else if !(s.node ctx key).export_ then some 2
  else s.refuses ctx key 1

/-- The record of an outbox slot, as the target pulls it. -/
def State.pullRecord (s : State) (die ctx key : Nat) : Except Flt (List Word) :=
  match s.slicePeeks ctx { rd := true } .engineRead ((s.context ctx).outboxAt + key / 256 * 0x8000 + 128 * (key % 256)) 128 (some die) with
  | .error f => .error f
  | .ok bs => .ok ((List.range 32).map (fun k => BitVec.ofNat 32 (ofBytes ((bs.drop (4 * k)).take 4))))

/-- What the pull leaves behind at the slice. -/
def State.pulled (s : State) (die ctx key : Nat) : State := s.slicePeeked ctx { rd := true } .engineRead ((s.context ctx).outboxAt + key / 256 * 0x8000 + 128 * (key % 256)) 128 (some die)

/-- REMOTE_PULL_COMPLETE (R268): the oldest pull of a die; a record of this module is read where its slot lies. -/
def execRemotePullComplete (die : Nat) (record : List (BitVec 32)) (s : State) : Host.Outcome State Fault Refusal :=
  match (s.die die).pulls with
  | [] => .next s
  | (p, _) :: rest =>
    let s1 := s.modDie die (fun d => { d with pulls := rest })
    let forget (own : Bool) (s : State) : State := s.modDie die (fun d => { d with tagsSeen := d.tagsSeen.filter (fun k => k ≠ RemotePushKey own p) })
    match s.ownPush p with
    | none => match s.tenantContext p.tenant with
      | none => .next s1
      | some ctx => .next (match s.remoteRefuses ctx p.handle with | some _ => forget false s1 | none => s1.accept ctx (nodeKey p.handle) none record)
    | some (ctx, key, op) =>
      let s1 := s1.pulled die ctx key
      match s.pullRecord die ctx key with
      | .error f => .next ((forget true (s1.setOutbox ctx key (some 16))).raiseEngine ctx f { kind := 3, number := 0, die := die, cause := f.cause, detail := f.detail, group := 0, req := p.handle.toNat, prog := 0, addr := nbits f.detail.toNat 0 56, time := s.devTime })
      | .ok rec_ => match s.remoteRefuses ctx p.handle with
        | some k => .next (forget true (s1.modDie die (fun d => { d with acks := d.acks ++ [(op, k)] })))
        | none => .next ((s1.modDie die (fun d => { d with acks := d.acks ++ [(op, 0)] })).accept ctx (nodeKey p.handle) ((s.op op).map (·.serial)) rec_)

/-- The outbox slot of a push operation whose tail has been sent, as (context, key, handle). -/
def State.outboxOf (s : State) (op : Nat) : Option (Nat × Nat × Word) :=
  s.contexts.findSome? (fun c => (c.2.outbox.find? (fun x => x.2.1 == op && (x.2.2.2 == some 1 || (x.2.2.2 == some 0 && nbits x.2.2.1.toNat 18 13 ≠ s.hub.module)))).map (fun x => (c.1, x.1, x.2.2.1)))

/-- PUSH_ACK (R268): of an acceptance, or of a refusal of kind 1 to 4, which is held in the pushing group's stop
record; the acknowledgement of another module comes from outside. -/
def execPushAck (op : Nat) (kind : BitVec 4) (s : State) : Host.Outcome State Fault Refusal :=
  match s.outboxOf op with
  | none => .next s
  | some (ctx, key, h) =>
    let foreign := decide (nbits h.toNat 18 13 ≠ s.hub.module)
    let mine := s.dies.any (fun d => d.2.acks.contains (op, kind.toNat))
    if !foreign && !mine then .next s
    else
      let s1 : State := { s with dies := s.dies.map (fun (d : Nat × Die) => if d.2.acks.contains (op, kind.toNat) then (d.1, { d.2 with acks := d.2.acks.erase (op, kind.toNat) }) else d) }
      if kind = 0 then .next ((s1.modContext ctx (fun c => { c with outbox := tdel key c.outbox })).partDone op).settle
      else
        let f := fNode 1 false 0 (nodeKey h / 4096) h kind.toNat
        let s2 := s1.setOutbox ctx key (some (16 + kind.toNat))
        match s2.op op with
        | some o => if s2.resident o.gid && (s2.group o.gid).ctx == ctx && o.path.isSome then .next (s2.raise ctx f { gid := some o.gid, slotB := o.slotB, pc := o.pc, held := true, first := some (op, true) })
          else .next (s2.raiseEngine ctx f { kind := 3, number := 0, die := key / 256, cause := 9, detail := f.detail, group := srcWord o.gid 0, req := h.toNat, prog := 0, addr := 0, time := s.devTime })
        | none => .next s2

end Sys2Proof.Machine
end

