-- ==== Sys2Proof/Machine/Tasks.lean ====
section
/-! DEFINITION. The task instructions (14 R276 to R283). -/

namespace Sys2Proof.Machine

/-- The invalid-handle check of R262 at issue, for SOURCE `source`. -/
def handleCheck (s : State) (source : Nat) (o : FOps) (c : Iss) : Option Flt :=
  if s.handleBad c.gid (c.g.rs o.a.toNat) then some (fHandle source (c.g.rs o.a.toNat)) else none


/-! ### DEQ and DEQT (R277) -/

/-- The checks of the binding (R277). -/
def bindCheck (s : State) (c : Iss) : Option Flt :=
  let b := c.g.bind
  match b.node with
  | some key =>
    let n := s.node c.g.ctx key
    if !n.v then some (fNode 2 true 0 (key / 4096) (s.nodeHandle key) 2)
    else if !n.en then some (fNode 2 true 0 (key / 4096) (s.nodeHandle key) 3)
    else none
  | none => if b.batch then none else some (fNode 2 true 0 (dieOf c.gid) 0 2)

/-- A DEQ of the batch of the group's grid (R277). -/
def State.deqBatch (s : State) (gid : Nat) (slotB : Bool) (i : Instr) : State :=
  let grid := (s.team (s.group gid).team).grid
  let batch := (s.grid grid).batch
  let k := min batch.length ((s.group gid).freeLanes slotB).length
  let s1 := s.modGrid grid (fun g => { g with batch := g.batch.drop k })
  s1.give gid slotB i (batch.take k) (if k = 0 && batch = [] then 2 ^ 8 + 2 ^ 11 else 2 ^ 11)

/-- DEQ and DEQT with the deadline in context time, if any. A DEQ that finds others blocked on its node stands
behind them (log 24), and one that issues while its context is halted is served after the halt (16 R304). -/
def deqWord (i : Instr) (s : State) (deadline : Iss → State → Option Nat) : Host.Outcome State Fault Refusal :=
  issue2 i s free_
    (fun c t => match bindCheck t c with
      | some f => .error f
      | none =>
        let s1 := t.commitRegion c.gid c.slotB
        if (s1.context c.g.ctx).hb.halt then (let n := s1.fresh; .ok (n.2.block c i (.deq n.1 (deadline c t))))
        else match c.g.bind.node with
        | none => .ok (s1.deqBatch c.gid c.slotB i)
        | some key =>
          let first := ((s1.group c.gid).freeLanes c.slotB) = [] || s1.deqWaiters c.g.ctx key = []
          match (if first then s1.deqServe c.gid key c.slotB i else none) with
          | some s2 => .ok s2
          | none =>
            if (match deadline c t with | some d => decide (d ≤ s1.ctxTime c.g.ctx) | none => false) then .ok (s1.give c.gid c.slotB i [] (2 ^ 9 + key % 4096 * 2 ^ 12))
            else let n := s1.fresh; .ok (n.2.block c i (.deq n.1 (deadline c t))))
    (fun c w t => match c.g.bind.node with
      | none => .ok (t.deqBatch c.gid w.slotB i)
      | some key => match t.deqServe c.gid key w.slotB i with
        | some s2 => .ok s2
        | none => .ok (t.block c i w.kind))

/-- DEQ (R277). -/
def execDeq (o : FOps) (s : State) : Host.Outcome State Fault Refusal := deqWord (.deq o) s (fun _ _ => none)

/-- DEQT (R277): the timeout counts from issue in the context's time. -/
def execDeqt (o : FOps) (s : State) : Host.Outcome State Fault Refusal := deqWord (.deqt o) s (fun c t => some (t.ctxTime c.g.ctx + (c.bs t o).toNat))

/-! ### RPUSH (R278, R268) -/

/-- The record of lane L: words from D. -/
def Iss.record (c : Iss) (o : FOps) (L : Nat) : List Word := (List.range (4 * 2 ^ fld o.ox 0 2)).map (fun w => c.g.rv (o.d.toNat + w) L)

/-- A free outbox slot of the group's die, the lowest. -/
def State.freeOutbox (s : State) (ctx die : Nat) : Option Nat := (List.range 256).find? (fun k => (tfind (256 * die + k) (s.context ctx).outbox).isNone)

/-- Sends the remote pushes of lanes as far as the outbox has slots; the rest wait (R268). -/
def State.sendRemote (s : State) (c : Iss) (i : Instr) (o : FOps) : List Nat → State
  | [] => s
  | L :: rest =>
    let die := dieOf c.gid
    match s.freeOutbox c.g.ctx die with
    | none => s.block c i (.outbox (L :: rest))
    | some k =>
      let n := s.newOp c i (some 5) .none 2
      let s1 := match n.2.op n.1 with | some x => n.2.putOp n.1 { x with scope := some 3, who := [(0, L)] } | none => n.2
      let s2 := s1.modContext c.g.ctx (fun x => { x with outbox := tput (256 * die + k) (n.1, c.g.rs o.a.toNat, none) x.outbox })
      let va := (s.context c.g.ctx).outboxAt + die * 0x8000 + 128 * k
      let bs := (c.record o L ++ List.replicate 32 0).take 32
      let bytes : Table Byte := (bs.flatMap (fun w => toBytes w.toNat 4)).zipIdx.map (fun b => (b.2, b.1))
      (s2.request { ops := [n.1], gid := c.gid, core := coreOf c.gid, ctx := c.g.ctx, tenant := c.g.tenant, kind := .outbox, line := va / 128, bytes := bytes, strong := true, race := false } none).sendRemote c i o rest

/-- RPUSH (R278): local lanes are accepted all or none, after the release. -/
def execRpush (o : FOps) (s : State) : Host.Outcome State Fault Refusal :=
  issue2 (.rpush o) s (handleCheck s 1 o)
    (fun c t => .ok (t.releaseAt c (.rpush o) 3))
    (fun c w t =>
      let h := c.g.rs o.a.toNat
      let key := nodeKey h
      let lanes := lanesIn (c.active o.g)
      match w.kind with
      | .outbox ls => .ok (t.sendRemote c (.rpush o) o ls)
      | _ =>
        if lanes = [] then .ok t
        else match (if t.foreign h then t.hub.noWay (nbits h.toNat 18 13) h.toNat else none) with
        | some f => .error f
        | none =>
        if t.foreign h || key / 4096 ≠ dieOf c.gid then .ok (t.sendRemote c (.rpush o) o lanes)
        else match t.refuses c.g.ctx key lanes.length with
          | some k => .error (fNode 1 true 0 (key / 4096) h k)
          | none => .ok (t.acceptAll c.g.ctx key (some c.g.serial) (lanes.map (fun L => c.record o L))))

/-! ### RPASS and RREJ (R279) -/

/-- Sends the reports of the active lanes that hold records. -/
def State.report (s : State) (c : Iss) (o : FOps) (pass : Bool) : State :=
  let now : Int := (s.cluster (clusterOfCore (coreOf c.gid))).cycles
  (lanesIn (c.active o.g)).foldl (fun (s : State) L => match tfind L (s.group c.gid).held with
    | none => s
    | some h =>
      let cyc := min (now - h.since).toNat (2 ^ 24 - 1)
      let words := c.record o L
      let e : RouterEvent := if pass then .pass (some c.g.serial) h.stage h.words words cyc else .rej (some c.g.serial) h.stage h.words words cyc
      let s1 := match s.routerOf c.g.ctx h.router with
        | some (die, r, _) => s.modDie die (fun d => { d with routers := d.routers.map (fun (x : Nat × Router) => if x.1 = r then (r, { x.2 with events := x.2.events ++ [e] }) else x) })
        | none => s
      s1.modGroup c.gid (fun g => { g with held := tdel L g.held })) s

/-- The word of a report: the release at `.dev`, then the reports. -/
def reportWord (i : Instr) (o : FOps) (s : State) (pass : Bool) : Host.Outcome State Fault Refusal :=
  issue2 i s free_ (fun c t => .ok (t.releaseAt c i 3)) (fun c _ t => .ok (t.report c o pass))

/-- RPASS (R279). -/
def execRpass (o : FOps) (s : State) : Host.Outcome State Fault Refusal := reportWord (.rpass o) o s true

/-- RREJ (R279). -/
def execRrej (o : FOps) (s : State) : Host.Outcome State Fault Refusal := reportWord (.rrej o) o s false

/-! ### LNCH, NODEQ, RBIND (R281 to R283) -/

/-- The checks of LNCH (R281). -/
def launchCheck (s : State) (o : FOps) (c : Iss) : Option Flt :=
  let h := c.g.rs o.a.toNat
  let n := s.node c.g.ctx (nodeKey h)
  match handleCheck s 3 o c with
  | some f => some f
  | none => if s.foreign h then some (fHandle 3 h)
    else if !n.v then some (fNode 3 true 0 (nodeKey h / 4096) h 2)
    else if !n.en then some (fNode 3 true 0 (nodeKey h / 4096) h 3)
    else none

/-- LNCH (R281). -/
def execLnch (o : FOps) (s : State) : Host.Outcome State Fault Refusal :=
  issue2 (.lnch o) s (launchCheck s o)
    (fun c t => .ok (t.releaseAt c (.lnch o) 3))
    (fun c _ t =>
      let key := nodeKey (c.g.rs o.a.toNat)
      .ok (if (t.node c.g.ctx key).mode = 0 then t.batch c.g.ctx key true (if o.ox.getLsbD 0 then some (c.g.rpair o.c.toNat) else none)
        else (t.modNode c.g.ctx key (fun n => { n with due := true })).settleNode c.g.ctx key))

/-- The handle checks of NODEQ; a node of another module cannot be read (log 25). -/
def nodeqCheck (s : State) (o : FOps) (c : Iss) : Option Flt :=
  match handleCheck s 5 o c with
  | some f => some f
  | none => if s.foreign (c.g.rs o.a.toNat) then some (fHandle 5 (c.g.rs o.a.toNat)) else none

/-- Groups bound to a node. -/
def State.boundGroups (s : State) (ctx key : Nat) : List (Nat × Group) := s.groups.filter (fun g => g.2.ctx == ctx && g.2.bind.node == some key)

/-- NODEQ `.qry` (R282). -/
def execNodeqQry (o : FOps) (s : State) : Host.Outcome State Fault Refusal :=
  issue (.nodeqQry o) s (nodeqCheck s o) (fun c t =>
    let key := nodeKey (c.g.rs o.a.toNat)
    let n := t.node c.g.ctx key
    let w := min (t.nodeDepth c.g.ctx key) 65535 + n.v.toNat * 2 ^ 16 + n.en.toNat * 2 ^ 17 + n.sealed.toNat * 2 ^ 18 + n.mode % 4 * 2 ^ 19 + n.due.toNat * 2 ^ 21 + min (t.boundGroups c.g.ctx key).length 1023 * 2 ^ 22
    .ok (t.modGroup c.gid (fun g => g.ws o.d.toNat (BitVec.ofNat 32 w))))

/-- Sets SEALED in the task unit and in bit 6 of the descriptor in memory (R282). -/
def State.setSealed (s : State) (ctx key : Nat) (b : Bool) : Except Flt State :=
  let va := (s.context ctx).nodesAt + key / 4096 * 0x20000 + 32 * (key % 4096)
  let r := s.readRun ctx va 4 .engineRead (some (key / 4096))
  match r.1 with
  | .error f => .error f
  | .ok x => match r.2.writeCtx ctx va (x - nbits x 6 1 * 64 + b.toNat * 64) 4 .engineWrite (some (key / 4096)) with
    | .error f => .error f
    | .ok s1 => .ok ((s1.modNode ctx key (fun n => { n with sealed := b })).settleNode ctx key)

/-- What it leaves behind where it faults: the log entry of a lasting error of memory (16 R313). -/
def State.sealMet (s : State) (ctx key : Nat) (b : Bool) (f : Flt) : State :=
  let va := (s.context ctx).nodesAt + key / 4096 * 0x20000 + 32 * (key % 4096)
  if !f.ofMemory then s
  else match s.readCtx ctx va 4 .engineRead (some (key / 4096)) with
    | .error _ => s.logPeek ctx { rd := true } .engineRead va 4 (some (key / 4096))
    | .ok x => s.writeMet ctx va (x - nbits x 6 1 * 64 + b.toNat * 64) 4 .engineWrite (some (key / 4096))

/-- The word of NODEQ `.seal` and `.open`. -/
def sealWord (i : Instr) (o : FOps) (s : State) (b : Bool) : Host.Outcome State Fault Refusal :=
  issue2 i s (nodeqCheck s o) (fun c t => .ok (t.releaseAt c i 3)) (fun c w t =>
    let key := nodeKey (c.g.rs o.a.toNat)
    match t.setSealed c.g.ctx key b with
    | .ok s1 => .ok s1
    | .error f => .ok ((t.sealMet c.g.ctx key b f).trapHeld c.gid w f))

/-- NODEQ `.seal` (R282). -/
def execNodeqSeal (o : FOps) (s : State) : Host.Outcome State Fault Refusal := sealWord (.nodeqSeal o) o s true

/-- NODEQ `.open` (R282). -/
def execNodeqOpen (o : FOps) (s : State) : Host.Outcome State Fault Refusal := sealWord (.nodeqOpen o) o s false

/-- RBIND (R283). -/
def execRbind (o : FOps) (s : State) : Host.Outcome State Fault Refusal :=
  let clr := o.ox.getLsbD 1
  issue (.rbind o) s (fun c =>
      let h := c.g.rs o.a.toNat
      let n := s.node c.g.ctx (nodeKey h)
      if clr then none
      else match handleCheck s 6 o c with
        | some f => some f
        | none => if s.foreign h || nodeKey h / 4096 ≠ dieOf c.gid || n.mode ≠ 1 || !n.v then some (fNode 6 true 0 (nodeKey h / 4096) h 2) else none)
    (fun c t =>
      let s1 := t.commitRegion c.gid c.slotB
      let b : Binding := { node := if clr then none else some (nodeKey (c.g.rs o.a.toNat)), batch := false, time := s1.ctxTime c.g.ctx, changed := true, governed := !clr && o.ox.getLsbD 0 }
      .ok (s1.modGroup c.gid (fun g => { g with bind := b })))

end Sys2Proof.Machine
end

