-- ==== Sys2Proof/Machine/HaltEvents.lean ====
section
/-! DEFINITION. The halt of a context (16 R304 to R307, R311, R312): its stop records, the commands of its halt
block, and the watchdog. -/

namespace Sys2Proof.Machine

/-! ### Who may command (17 R328 to R330) -/

/-- Whether a writer holds a right over a context: through the entry it names, at its own level, on the context's
delegation chain or at level 0. -/
def State.holdsOver (s : State) (w : Writer) (ctx right : Nat) : Bool :=
  s.holds_ w.entry right && (tget {} w.entry s.hub.dl).level == w.level && (w.level == 0 || (match s.chain (s.context ctx).grant with | some ch => ch.contains w.entry | none => false))

/-- The level that owns a context's halt block (R305): the one that the routing table names for the cause of its halt,
or, outside a halt, the lowest that it names for any cause (log 69). -/
def State.haltOwner (s : State) (ctx : Nat) : Nat :=
  let c := s.context ctx
  if c.hb.halt then (s.handlerOf (c.hb.first % 32) c.level).1 else ((List.range 32).map (fun row => (s.handlerOf row c.level).1)).foldl max 0

/-- Whether a writer may write a context's halt block: at the owning level or above it, with HALT (R305, 17 R328). -/
def State.ownsHalt (s : State) (w : Writer) (ctx : Nat) : Bool := s.holdsOver w ctx 11 && decide (w.level ≤ s.haltOwner ctx)

/-- hb.cmd holds what was last written to it (00 R9, R305). -/
def State.noteCmd (s : State) (w : Writer) (ctx v : Nat) : State :=
  if s.ownsHalt w ctx then s.modContext ctx (fun c => { c with hb := { c.hb with cmd := v % 8 } }) else s

/-- Whether a command of the halt block is taken: once every stop record has been written (R305). -/
def State.commands (s : State) (w : Writer) (ctx : Nat) : Bool := (s.context ctx).hb.stopped && s.ownsHalt w ctx

/-! ### Stop records (R306) -/

/-- Whether an operation still counts on its group. -/
def Op.live (o : Op) : Bool := o.path.isSome || o.flag.isSome || decide (o.dest ≠ .none)

/-- The held requests that a group's record speaks of. -/
def State.heldReqs (s : State) (gid : Nat) : List (Nat × Req) :=
  s.reqs.filter (fun r => (match r.2.stage with | .held _ => true | _ => false) && decide (r.2.kind ≠ .writeback) && (if r.2.ops = [] then s.reqOwner r.2 == some gid else r.2.ops.any (fun k => match s.op k with | some o => o.gid == gid && o.live | none => false)))

/-- The outbox slots of a group whose push was refused. -/
def State.heldPushes (s : State) (gid : Nat) : List (Nat × Nat) :=
  let ctx := (s.group gid).ctx
  (s.context ctx).outbox.filterMap (fun x => match x.2.2.2 with
    | some st => if 16 ≤ st ∧ (match s.op x.2.1 with | some o => o.gid == gid && o.live | none => false) = true then some (x.1, x.2.1) else none
    | none => none)

/-- The HINFO kind of a request (R306). -/
def State.heldKind (s : State) (r : Req) : Nat :=
  let i := match r.ops with | k :: _ => (match s.op k with | some o => some o.instr | none => none) | [] => none
  match r.kind with
  | .load | .table | .check _ _ => match i with | some (.aload _) | some (.atbl _) => 5 | _ => 1
  | .store => 2
  | .atomic => 3
  | .acont => 4
  | .palette _ _ => 6
  | .grid => 7
  | _ => 0

/-- The lanes of a held request that belong to a group. -/
def State.heldLanes (s : State) (gid : Nat) (r : Req) : Word :=
  let who := r.ops.flatMap (fun k => match s.op k with | some o => if o.gid = gid then (o.who.filter (fun x => x.1 == r.line)).map (·.2) else [] | none => [])
  let own := if who = [] ∧ (r.kind = .atomic ∨ r.kind = .acont) then r.lanes.map (·.lane) else who
  maskOf (fun L => own.contains L)

/-- Held operations of a group, counted by instruction (R67): operation numbers, and palettes. -/
def State.heldOps (s : State) (gid : Nat) : Nat :=
  let rs := (s.heldReqs gid).flatMap (fun r => if r.2.ops = [] then (match r.2.kind with | .palette t k => [2 ^ 60 + 8 * t + k] | _ => [2 ^ 62 + r.1]) else r.2.ops.filter (fun k => match s.op k with | some o => o.gid == gid && o.live | none => false))
  ((rs ++ (s.heldPushes gid).map (·.2)).foldl (fun (a : List Nat) k => if a.contains k then a else k :: a) []).length

/-- HLINE, HLANES and HINFO of the first held operation. -/
def State.heldWords (s : State) (gid : Nat) : Nat × Word × Nat :=
  let g := s.group gid
  match g.stop.first with
  | some (n, false) => match s.req n with
    | some r => (r.line * 128, s.heldLanes gid r, (if r.sectors ≠ 0 then r.sectors else if r.bytes ≠ [] then touchedSectors r.bytes else r.lanes.foldl (fun m x => m ||| 2 ^ (x.off / 32)) 0) + s.heldKind r * 16)
    | none => (0, 0, 0)
  | some (n, true) => match (s.heldPushes gid).find? (fun x => x.2 == n) with
    | some x => ((s.context g.ctx).outboxAt + x.1 / 256 * 0x8000 + 128 * (x.1 % 256), (match s.op n with | some o => maskOf (fun L => o.who.any (fun y => y.2 == L)) | none => 0), 0xF + 8 * 16)
    | none => (0, 0, 0)
  | none => (0, 0, 0)

/-- The waits of a group, of the whole group or of a slot that BRX or CALLX holds. -/
def Group.waits (g : Group) : List Wait := g.wait.toList ++ g.tables

/-- The PC that a record gives for a slot: the word it is blocked in, else its next word. -/
def Group.recordPc (g : Group) (slotB : Bool) : DWord := match g.waits.find? (fun w => w.slotB == slotB) with | some w => w.pc | none => (g.slot slotB).pc

/-- The bytes of a group's stop record (R306), at offsets. -/
def State.stopBytes (s : State) (gid : Nat) : List (Nat × Byte) :=
  let g := s.group gid
  let x := g.stop
  let h := s.heldWords gid
  let n := s.heldOps gid
  let cause := x.cause + x.precise.toNat * 2 ^ 5 + x.slotB.toNat * 2 ^ 6 + x.held.toNat * 2 ^ 7 + 2 ^ 9 + (g.waits ≠ [] : Bool).toNat * 2 ^ 10
  field 0 8 (g.recordPc false).toNat ++ field 8 8 (g.recordPc true).toNat ++ field 0x10 8 x.fpc.toNat ++ field 0x18 4 cause ++ field 0x1C 4 0 ++ field 0x20 12 x.detail.toNat ++ field 0x2C 4 (match x.drain with | some e => e + 4 | none => 0) ++ field 0x30 8 h.1 ++ field 0x38 4 h.2.1.toNat ++ field 0x3C 4 h.2.2 ++ field 0x40 8 (x.time.getD (s.context g.ctx).haltAt) ++ field 0x48 4 (g.a.st.code + 4 * g.b.st.code) ++ field 0x4C 4 (min (n - 1) (2 ^ 32 - 1)) ++ field 0x50 48 0

/-- The record of a group that is saved: SAVED = 1 (R314), and the refusal of a router's push that it holds (14 R272). -/
def savedBytes (c : Context) (g : Group) : List (Nat × Byte) :=
  field 0 8 g.a.pc.toNat ++ field 8 8 g.b.pc.toNat ++ field 0x10 8 0 ++ field 0x18 4 (g.stop.cause + g.stop.held.toNat * 2 ^ 7 + 2 ^ 8 + 2 ^ 9) ++ field 0x1C 4 0 ++ field 0x20 12 g.stop.detail.toNat ++ field 0x2C 20 0 ++ field 0x40 8 c.haltAt ++ field 0x48 4 (g.a.st.code + 4 * g.b.st.code) ++ field 0x4C 52 0

/-- A fault in writing the stop area (R306): cause 16, unit 8, to level 0. -/
def State.stopFault (s : State) (ctx die addr : Nat) : State :=
  (s.logDie die true (logInfo (s.context ctx).tenant false false true 8 48) (s.context ctx).num addr).interrupt 16 0 ctx

/-- Writes bytes of the stop area at a virtual address. -/
def State.writeStop (s : State) (ctx die base : Nat) (bs : List (Nat × Byte)) : State :=
  match s.writeArea die ctx base bs with
  | .ok s1 => s1
  | .error f => (s.areaMet die ctx base bs).stopFault ctx die (nbits f.detail.toNat 0 56)

/-- The groups of a context that the present halt records: resident ones, and those that a pre-emption in progress
has saved, of the whole context or by a priority switch, or that hold a refusal, as (slot, kept group), where no other group
has the slot. -/
def State.contextGroups (s : State) (ctx : Nat) : List Nat := (s.groups.filter (fun g => g.2.ctx == ctx)).map (·.1)
def State.savedNow (s : State) (ctx : Nat) : List (Nat × Group) :=
  let saving := s.leavingTeams ctx ≠ []
  ((s.teams.filter (fun t => t.2.ctx == ctx)).flatMap (fun t => match t.2.saved with
    | some l => (l.filterMap id).filter (fun x => (saving && t.2.passing) || x.2.stop.cause ≠ 0)
    | none => [])).filter (fun x => !s.resident x.1)

/-- The bytes of an engine record (R306). -/
def EngRec.bytes (r : EngRec) : List (Nat × Byte) :=
  field 0 4 (r.kind + r.number % 256 * 2 ^ 4 + r.die * 2 ^ 12) ++ field 4 4 r.cause ++ field 8 12 r.detail.toNat ++ field 0x14 4 r.group ++ field 0x18 8 r.req ++ field 0x20 8 r.prog ++ field 0x28 8 r.addr ++ field 0x30 8 r.time ++ field 0x38 8 0

/-- The pieces, row sets and collectives that the engines hold without a fault (R306). -/
def State.heldWork (s : State) (ctx : Nat) : List EngRec :=
  let now := (s.context ctx).haltAt
  let base (kind number die gid req prog : Nat) : EngRec := { kind := kind, number := number, die := die, cause := 0, detail := 0, group := srcWord gid 0, req := req, prog := prog, addr := 0, time := now }
  s.dies.flatMap (fun d => (d.2.pieces.filter (fun p => p.2.copy.ctx == ctx && p.2.held.isNone)).map (fun p => base 0 p.2.engine d.1 p.2.copy.gid p.2.copy.req p.2.next))
  ++ s.cores.flatMap (fun k => (k.2.gathers.filter (fun x => x.ctx == ctx && x.faults.isEmpty)).map (fun x => base 1 (k.1 % 64) (dieOfCore k.1) x.gid 0 (x.left.headD 0)))
  ++ s.dies.flatMap (fun d => (d.2.colls.filter (fun x => x.ctx == ctx && x.held.isNone)).map (fun x => base 2 0 d.1 x.gid x.req 0))

/-- The instructions of a matrix unit that cannot go on: a read that is held, what must follow it, and what waits for
a drain-buffer entry where all are pinned (09 R170, R188, R190). -/
def State.mxStuck (s : State) (core : Nat) : List MxOp :=
  let d := (s.core core).drain
  let full := decide (4 ≤ d.length) && d.all (·.2.pinned)
  ((s.core core).mx.foldl (fun (a : List MxOp × Bool) x =>
    let waits : Bool := match x.work with | .drain _ _ _ _ _ _ _ _ _ _ => full | _ => false
    if a.2 || waits then (a.1 ++ [x], true)
    else if s.mxHeld x.op || a.1.any (fun y => x.follows y) then (a.1 ++ [x], false) else a) ([], false)).1

/-- Whether the matrix units have completed what they took of a context: each row of its drain-buffer entries is
performed or has faulted, and its other instructions cannot go on (R304, 09 R190). -/
def State.mxSettled (s : State) (ctx : Nat) : Bool :=
  s.cores.all (fun k => k.2.drain.all (fun e => e.2.ctx ≠ ctx || (e.2.pinned && e.2.doneBelow 32)) &&
    (k.2.mx.filter (fun x => match s.op x.op with | some o => o.ctx == ctx | none => false)).all (fun x => (s.mxStuck k.1).contains x))

/-- Whether the operations of a halted context have run to their end or are held, its engines and matrix units have
stopped, and its groups too (R304). An ACONT that waits for launch-queue entries, and what follows a held release or a
held request, stay as they are. -/
def State.settled (s : State) (ctx : Nat) : Bool :=
  s.halted ctx && (s.context ctx).hb.skid.all (fun x => !s.resident x.1) && s.mxSettled ctx &&
  s.clusters.all (fun k => k.2.combine.all (fun e => e.ctx ≠ ctx)) &&
  s.reqs.all (fun r => r.2.ctx ≠ ctx || (match r.2.stage with | .held _ | .behind _ | .pinned => true | .queued => !s.mayGo r.2 | .toSlice => decide (r.2.kind = .acont) | _ => false)) &&
  s.ops.all (fun o => o.2.ctx ≠ ctx || o.2.parts ≠ 0 || !o.2.live) &&
  (match s.grant with | some g => (s.group g.gid).ctx ≠ ctx | none => true)

/-- A group of a halted context stops at an instruction boundary (R304). -/
def stopGroup (ctx gid : Nat) (s : State) : Host.Outcome State Fault Refusal :=
  .next (s.stopNow ctx gid)

/-- The engines of a halted context stop at a piece or row boundary (R304). -/
def stopEngines (ctx : Nat) (s : State) : Host.Outcome State Fault Refusal :=
  .next (s.modContext ctx (fun c => { c with hb := { c.hb with engines := false } }))

/-- STOP_RECORDS_COMPLETE (R304): every record of the halt is written, STOPPED is set, and the handler of the first
fault's cause is interrupted. -/
def execStopRecordsComplete (ctx : Nat) (s : State) : Host.Outcome State Fault Refusal :=
  let c := s.context ctx
  if !c.hb.halt || c.hb.stopped || !s.settled ctx then .next s
  else
    let s1 := (s.contextGroups ctx).foldl (fun (s : State) gid => s.writeStop ctx (dieOf gid) (c.hb.stop + 128 * gid) (s.stopBytes gid)) s
    let s2 := (s.savedNow ctx).foldl (fun (s : State) x => s.writeStop ctx (dieOf x.1) (c.hb.stop + 128 * x.1) (savedBytes c x.2)) s1
    let all := c.hb.recs ++ s.heldWork ctx
    let s3 := (all.take 1024).zipIdx.foldl (fun (s : State) r => s.writeStop ctx r.1.die (c.hb.stop + 0xC00000 + 64 * r.2) r.1.bytes) s2
    let s4 := s3.modContext ctx (fun c => { c with hb := { c.hb with stopped := true, skid := [], engines := false, nrec := min all.length 1024, eovf := c.hb.eovf || decide (1024 < all.length) } })
    .next (s4.interrupt (c.hb.first % 32) c.level ctx)

/-! ### Ending a halt (R306, R307) -/

/-- Clears VALID in every record of the halt. -/
def State.clearValid (s : State) (ctx : Nat) : State :=
  let base := (s.context ctx).hb.stop
  (s.contextGroups ctx ++ (s.savedNow ctx).map (·.1)).foldl (fun (s : State) gid =>
    let at_ := base + 128 * gid + 0x18
    let r := s.readRun ctx at_ 4 .saveArea (some (dieOf gid))
    match r.1 with
    | .ok w => r.2.writeStop ctx (dieOf gid) at_ (field 0 4 (w - nbits w 9 1 * 2 ^ 9))
    | .error f => r.2.stopFault ctx (dieOf gid) (nbits f.detail.toNat 0 56)) s

/-- A record as the handler leaves it: PCA, PCB and CTL; one that cannot be read counts as unchanged. -/
def State.readStop (s : State) (ctx gid : Nat) : DWord × DWord × Nat :=
  let g := s.group gid
  let base := (s.context ctx).hb.stop + 128 * gid
  let word (off n : Nat) : Except Flt Nat := s.readCtx ctx (base + off) n .saveArea (some (dieOf gid))
  match word 0 8, word 8 8, word 0x1C 4 with
  | .ok a, .ok b, .ok c => (BitVec.ofNat 64 a, BitVec.ofNat 64 b, c)
  | _, _, _ => (g.recordPc false, g.recordPc true, 0)

/-- What is wrong with a PC that a handler chose: it must name a header (R307). -/
def State.entryBad (s : State) (gid : Nat) (pc : DWord) : Option Flt :=
  match s.fetchWord gid pc with
  | .error f => some f
  | .ok w => match decode (bytesOfWord w) with
    | .ok (.clauseStart _, _) => none
    | _ => some (fEncoding false 5 w)

/-- A slot's PC as the handler leaves it: a changed one abandons the slot's wait. -/
def Group.movePc (g : Group) (slotB : Bool) (pc : DWord) : Group :=
  if pc = g.recordPc slotB then g
  else { (g.modSlot slotB (fun x => { x with pc := pc, cl := none })) with wait := (match g.wait with | some w => if w.slotB = slotB then none else some w | none => none), tables := g.tables.filter (fun w => w.slotB ≠ slotB) }

/-- The reads of the BRX or CALLX that holds a slot are given up with its wait. -/
def State.dropTable (s : State) (gid : Nat) (slotB : Bool) : State :=
  ((s.group gid).tables.filter (fun w => w.slotB == slotB)).foldl (fun (s : State) w => match w.kind with | .table n => s.dropOp n | _ => s) s

/-- The faulting word counts as issued without effect (SKIP, R307). After a TRAP, a BKPT or a step it has issued. -/
def Group.skipWord (g : Group) : Group :=
  let x := g.stop
  if x.cause = 0 || x.cause = 13 || x.cause = 14 || !x.precise || (g.slot x.slotB).pc ≠ x.fpc then g
  else g.modSlot x.slotB (fun y => { y with pc := y.pc + 8, cl := match y.cl with | some k => if k.left ≤ 1 then none else some { k with left := k.left - 1 } | none => none })

/-- The words of one group's record applied: the group, and the fault that a bad CTL or PC raises. A slot whose PC
the handler has changed is not skipped as well. -/
def State.applyStop (s : State) (gid : Nat) (r : DWord × DWord × Nat) : State × Option (Flt × At) :=
  let g := s.group gid
  if r.2.2 / 4 ≠ 0 then (s, some (fRegister 0 0 0 0 3, { gid := some gid, slotB := g.stop.slotB, pc := g.stop.fpc }))
  else
    let moved (b : Bool) (pc : DWord) : Bool := pc ≠ g.recordPc b
    let bad (b : Bool) (pc : DWord) : Option (Flt × At) := if moved b pc then (s.entryBad gid pc).map (fun f => (f, { gid := some gid, slotB := b, pc := pc, precise := true })) else none
    let s0 := if moved false r.1 then s.dropTable gid false else s
    let s := if moved true r.2.1 then s0.dropTable gid true else s0
    let g1 := (g.movePc false r.1).movePc true r.2.1
    let g2 := if r.2.2.testBit 0 && !moved g.stop.slotB (if g.stop.slotB then r.2.1 else r.1) then g1.skipWord else g1
    (s.setGroup gid g2, match bad false r.1 with | some x => some x | none => bad true r.2.1)

/-- A wait for which the watchdog has raised its fault is timed afresh (R312). -/
def State.restartWaits (s : State) (ctx : Nat) : State :=
  let now := s.ctxTime ctx
  { s with groups := s.groups.map (fun (g : Nat × Group) => if g.2.ctx = ctx ∧ g.2.stop.cause = 17 then (g.1, { g.2 with wait := g.2.wait.map (fun w => { w with since := now }), palSince := g.2.palSince.map (fun _ => now) }) else g) }

/-- Pushes of a router that were refused are made again (14 R272). -/
def State.retryRouters (s : State) (ctx : Nat) : State :=
  s.dies.foldl (fun (s : State) d => d.2.routers.foldl (fun (s : State) r =>
    if r.2.ctx ≠ ctx || r.2.refused = [] then s
    else
      let s1 := s.modDie d.1 (fun x => { x with routers := x.routers.map (fun (y : Nat × Router) => if y.1 = r.1 then (y.1, { y.2 with refused := [] }) else y) })
      r.2.refused.foldl (fun (s : State) p => s.routerPush d.1 r.1 ctx p.1 p.2.1 p.2.2) s1) s) s

/-- The DEQs of a context's groups that wait for the batch of their grid: served, once the context runs (R304). -/
def State.serveBatches (s : State) (ctx : Nat) : State :=
  (s.contextGroups ctx).foldl (fun (s : State) gid => match (s.group gid).wait with
    | some w => (match w.kind with | .deq _ _ => if (s.group gid).bind.node.isNone then s.deqBatch gid w.slotB w.instr else s | _ => s)
    | none => s) s

/-- Everything that a halt holds goes on: held requests are issued again, engines continue, refused pushes are sent
again, queued palettes are tried, and DEQs are served (R304, R307). The rows of a pinned entry wait for a DREPL
(18 R347, log 47). -/
def State.goOn (s : State) (ctx : Nat) : State :=
  let held := s.reqs.filter (fun r => r.2.ctx == ctx && (match r.2.stage with | .held _ => true | _ => false))
  let s1 := held.foldl (fun (s : State) r => s.enter r.1 { r.2 with stage := .toSlice } true) s
  let s2 : State := { s1 with dies := s1.dies.map (fun (d : Nat × Die) => (d.1, { d.2 with pieces := d.2.pieces.map (fun (p : Nat × Piece) => if p.2.copy.ctx = ctx then (p.1, { p.2 with held := none }) else p), colls := d.2.colls.map (fun x => if x.ctx = ctx then { x with held := none } else x) })), cores := s1.cores.map (fun (k : Nat × Core) => (k.1, { k.2 with gathers := k.2.gathers.map (fun x => if x.ctx = ctx then { x with faults := [] } else x) })) }
  let s4 := s2.modContext ctx (fun c => { c with outbox := c.outbox.map (fun (x : Nat × Nat × Word × Option Nat) => match x.2.2.2 with | some st => if 16 ≤ st then (x.1, x.2.1, x.2.2.1, some 0) else x | none => x) })
  let s5 := s4.retryRouters ctx
  let s6 := (s5.context ctx).nodes.foldl (fun (s : State) n => s.settleNode ctx n.1) s5
  (((s6.teams.filter (fun t => t.2.ctx == ctx)).foldl (fun (s : State) t => s.palMove t.1 32) s6).serveBatches ctx).settle

/-- Ends a halt for a resume or a step: the handler's words are read, VALID is cleared, HALT clears, what is held
goes on; a group whose words are bad faults anew, before any group has gone on (log 14). -/
def State.resumeHalt (s : State) (ctx : Nat) : State × List (Nat × Nat) :=
  let words := (s.contextGroups ctx).map (fun gid => (gid, s.readStop ctx gid))
  let s1 := (s.restartWaits ctx).clearValid ctx
  let done := words.foldl (fun (a : State × List (Flt × At)) x => let r := a.1.applyStop x.1 x.2; (r.1, match r.2 with | some f => a.2 ++ [f] | none => a.2)) (s1, [])
  let s2 := (done.1.endHalt ctx).modContext ctx (fun c => { c with hb := { c.hb with refused := false } })
  let s3 := s2.goOn ctx
  let s4 := done.2.foldl (fun (s : State) f => s.raise ctx f.1 f.2) s3
  (if done.2.isEmpty then s4 else s4.modContext ctx (fun c => { c with hb := { c.hb with skid := [], engines := false } }), words.map (fun x => (x.1, x.2.2.2)))

/-- Resume (R307). -/
def State.resumeCmd (s : State) (w : Writer) (ctx : Nat) : State := if s.commands w ctx then (s.resumeHalt ctx).1 else s

/-- HALT_RESUME (R307). -/
def execHaltResume (ctx : Nat) (w : Writer) (s : State) : Host.Outcome State Fault Refusal := .next ((s.noteCmd w ctx 1).resumeCmd w ctx)

/-- Step (R307, R311): only the groups whose records have STEP = 1 issue, one word each. -/
def State.stepCmd (s : State) (w : Writer) (ctx : Nat) : State :=
  if !s.commands w ctx then s
  else
    let r := s.resumeHalt ctx
    let steps := (r.2.filter (fun x => x.2.testBit 1)).map (·.1)
    if (r.1.context ctx).hb.halt then r.1 else r.1.modContext ctx (fun c => { c with hb := { c.hb with stepMode := true, stepping := steps, stepped := [], stepBase := r.1.nextId } })

/-- HALT_STEP (R307, R311). -/
def execHaltStep (ctx : Nat) (w : Writer) (s : State) : Host.Outcome State Fault Refusal := .next ((s.noteCmd w ctx 2).stepCmd w ctx)

/-- Whether a held operation or a pinned drain entry of the context remains (R307). -/
def State.holdsWork (s : State) (ctx : Nat) : Bool :=
  s.reqs.any (fun r => r.2.ctx == ctx && (match r.2.stage with | .held _ => true | _ => false)) ||
  s.cores.any (fun k => k.2.drain.any (fun e => e.2.ctx == ctx && e.2.pinned)) ||
  (s.context ctx).outbox.any (fun x => match x.2.2.2 with | some st => decide (16 ≤ st) | none => false) ||
  s.dies.any (fun d => d.2.routers.any (fun r => r.2.ctx == ctx && r.2.refused ≠ []) || d.2.pieces.any (fun p => p.2.copy.ctx == ctx && p.2.held.isSome) || d.2.colls.any (fun x => x.ctx == ctx && x.held.isSome)) ||
  s.cores.any (fun k => k.2.gathers.any (fun x => x.ctx == ctx && x.faults ≠ []))

/-- Pre-empt (R307), which asks PRE as well (17 R328): refused while held work remains; else every team leaves, and
HALT clears. -/
def State.preemptCmd (s : State) (w : Writer) (ctx : Nat) : State :=
  if !s.commands w ctx || !s.holdsOver w ctx 3 then s
  else if s.holdsWork ctx then s.modContext ctx (fun c => { c with hb := { c.hb with refused := true } })
  else
    let s1 := (((s.restartWaits ctx).clearValid ctx).endHalt ctx).modContext ctx (fun c => { c with hb := { c.hb with refused := false } })
    ((s1.goOn ctx).preemptAll ctx).savePass ctx

/-- HALT_PREEMPT (R307). -/
def execHaltPreempt (ctx : Nat) (w : Writer) (s : State) : Host.Outcome State Fault Refusal := .next ((s.noteCmd w ctx 3).preemptCmd w ctx)

/-! ### Terminate (R307) -/

/-- Posted records of a launch queue are discarded: their slots are freed and HEAD passes them. -/
def State.dropPosted (s : State) (ctx queue : Nat) : (fuel : Nat) → State
  | 0 => s
  | n + 1 =>
    let q := tget {} queue (s.context ctx).queues
    let slot := q.base + 64 * (q.head % 2 ^ q.logn)
    let die := s.queueDie ctx
    let r := s.readRun ctx (slot + 0x3C) 4 .engineRead (some die)
    match r.1 with
    | .ok 1 => match r.2.writeCtx ctx (slot + 0x3C) 0 4 .engineWrite (some die) with
      | .error _ => r.2
      | .ok s1 => match s1.writeCtx ctx ((s.context ctx).queuesAt + 32 * queue + 0x10) ((q.head + 1) % 2 ^ 32) 4 .engineWrite (some die) with
        | .error _ => s1
        | .ok s2 => (s2.modContext ctx (fun c => { c with queues := tput queue { q with head := (q.head + 1) % 2 ^ 32 } c.queues })).dropPosted ctx queue n
    | _ => r.2

/-- Combining entries of a context are sent: they are performed, and count on nothing. -/
def State.flushContext (s : State) (ctx : Nat) : State := (s.clusters.map (·.1)).foldl (fun (s : State) cl => s.flushCombine cl (fun e => e.ctx == ctx)) s

/-- The dirty lines of a context's tenant are written back in every core, palette lines included (R307); the palette lines
of its own teams and the per-thread lines of its own groups leave, and those of another context of the tenant stay. -/
def State.writeTenant (s : State) (ctx : Nat) : State :=
  let tenant := (s.context ctx).tenant
  let ks := (s.cores.filter (fun k => k.2.l1.any (fun l => l.1 / 2 ^ 49 == tenant))).map (·.1)
  ks.foldl (fun (s : State) k => ((s.core k).tenantLines tenant).foldl (fun (s : State) x =>
    let w := (s.sendDirty k tenant x.1 x.2).2
    let keep := x.2.pool.filter (fun t => (s.team t).ctx ≠ ctx)
    if (x.2.isPool && keep = []) || s.isPtm k tenant x.1 (fun g => g.ctx == ctx) then w.delL1 k tenant x.1 else w.setL1 k tenant x.1 { x.2.clean with pool := keep }) s) s

/-- Discards everything of a context (R307, log 34); what this sends itself stays. -/
def State.discard (s : State) (ctx : Nat) : State :=
  let c := s.context ctx
  let mine := (s.ops.filter (fun o => o.2.ctx == ctx)).map (·.1)
  let gs := s.contextGroups ctx
  let ts := s.teams.filter (fun t => t.2.ctx == ctx)
  let s1 := gs.foldl (fun (s : State) gid => s.freeGranules gid) ((s.flushContext ctx).writeTenant ctx)
  let s2 : State := { s1 with groups := s1.groups.filter (fun g => g.2.ctx ≠ ctx), teams := s1.teams.filter (fun t => t.2.ctx ≠ ctx), grids := s1.grids.filter (fun g => g.2.ctx ≠ ctx), ops := s1.ops.filter (fun o => o.2.ctx ≠ ctx), holds := s1.holds.filter (fun h => !gs.contains h.2.gid) }
  let s3 : State := { s2 with reqs := s2.reqs.filter (fun r => r.2.ctx ≠ ctx || s.nextId ≤ r.1 || (decide (r.2.kind = .writeback) && (match r.2.stage with | .held _ => false | _ => true))), grant := (match s2.grant with | some g => if gs.contains g.gid then none else some g | none => none) }
  let s4 : State := { s3 with cores := s3.cores.map (fun (k : Nat × Core) => (k.1, { k.2 with kicks := k.2.kicks.filter (fun x => x.ctx ≠ ctx), gathers := k.2.gathers.filter (fun x => x.ctx ≠ ctx), mx := k.2.mx.filter (fun x => !mine.contains x.op), drain := k.2.drain.filter (fun e => e.2.ctx ≠ ctx), sUsed := k.2.sUsed.filter (fun x => !ts.any (fun t => t.2.core == k.1 && t.2.scratchMap.contains x)) })) }
  let pushes := c.outbox.map (·.2.1)
  let gone := s.dies.flatMap (fun d => (d.2.pulls.filter (fun p => (s.ownPush p.1).map (·.1) == some ctx)).map (fun p => (p.1.port, p.1.tag)))
  let s5 : State := { s4 with dies := s4.dies.map (fun (d : Nat × Die) => (d.1, { d.2 with pulls := d.2.pulls.filter (fun p => !(p.2 && gone.contains (p.1.port, p.1.tag))), acks := d.2.acks.filter (fun a => !pushes.contains a.1), pieces := d.2.pieces.filter (fun p => p.2.copy.ctx ≠ ctx), colls := d.2.colls.filter (fun x => x.ctx ≠ ctx), routers := d.2.routers.map (fun (r : Nat × Router) => if r.2.ctx = ctx then (r.1, { r.2 with events := [], refused := [] }) else r) })) }
  let s6 : State := { s5 with slices := s5.slices.map (fun (x : Nat × Slice) => (x.1, { x.2 with slq := x.2.slq.filter (fun e => e.ctx ≠ ctx) })) }
  let s7 := s6.modContext ctx (fun c => { c with ptmUsed := [], outbox := [], reserved := [], sliceEnded := false, nodes := c.nodes.map (fun (n : Nat × Node) => (n.1, { n.2 with bin := [], ovf := [], due := false, started := none })), hb := { c.hb with preempt := false } })
  let replays := s.cores.flatMap (fun k => (k.2.drain.filter (fun e => e.2.ctx == ctx)).filterMap (·.2.replayer))
  let s7 := replays.foldl (fun (s : State) k => s.partDone k) s7
  let s8 := c.queues.foldl (fun (s : State) q => s.dropPosted ctx q.1 (2 ^ q.2.logn)) s7
  (s.partDies c.part).foldl (fun (s : State) d => s.retargetDie d) s8

/-- Terminate (R307). -/
def State.terminateCmd (s : State) (w : Writer) (ctx : Nat) : State :=
  if !s.commands w ctx then s
  else (((s.modContext ctx (fun c => { c with hb := { c.hb with refused := false } })).clearValid ctx).endHalt ctx).discard ctx

/-- HALT_TERMINATE (R307). -/
def execHaltTerminate (ctx : Nat) (w : Writer) (s : State) : Host.Outcome State Fault Refusal := .next ((s.noteCmd w ctx 4).terminateCmd w ctx)

/-- A write of hb.cmd (R305): 1 to 4 perform the command, 0 and 5 to 7 nothing. -/
def State.haltCmd (s : State) (w : Writer) (ctx v : Nat) : State :=
  let s1 := s.noteCmd w ctx v
  match v % 8 with
  | 1 => s1.resumeCmd w ctx
  | 2 => s1.stepCmd w ctx
  | 3 => s1.preemptCmd w ctx
  | 4 => s1.terminateCmd w ctx
  | _ => s1

/-! ### The watchdog (R312) -/

/-- WAIT, the object's number and its address of a wait that the watchdog times. -/
def WaitKind.watched : WaitKind → Option (Nat × Nat × Nat)
  | .bar b _ => some (0, b, 0)
  | .bphs b _ => some (1, b, 0)
  | .qpush q _ => some (2, q, 0)
  | .qpop q _ => some (3, q, 0)
  | .palette k => some (4, k, 0)
  | .object a _ => some (5, 0, a)
  | .path p _ => some (6, p, 0)
  | .grid a _ => some (7, 0, a)
  | .regroup _ _ => some (8, 0, 0)
  | _ => none

/-- The wait of a group that the watchdog times: what it is, and since when. -/
def State.watchedWait (s : State) (gid : Nat) : Option ((Nat × Nat × Nat) × Nat) :=
  let g := s.group gid
  match g.wait with
  | some w => w.kind.watched.map (fun x => (x, w.since))
  | none => match g.pal, g.palSince with
    | some k, some t => if ((s.team g.team).palette k).state = .queued then some ((4, k, 0), t) else none
    | _, _ => none

/-- WATCHDOG_EXPIRY (R312). -/
def execWatchdogExpiry (gid : Nat) (s : State) : Host.Outcome State Fault Refusal :=
  let g := s.group gid
  let c := s.context g.ctx
  match s.watchedWait gid with
  | none => .next s
  | some (x, since) =>
    let ns := s.ctxTime g.ctx - since
    if c.hb.halt || c.hb.wdt = 0 || ns < 1000 * c.hb.wdt then .next s
    else .next (s.raise g.ctx (fWatchdog (ns / 1000) x.2.2 x.2.1 x.1) { gid := some gid, slotB := (match g.wait with | some w => w.slotB | none => false), pc := (match g.wait with | some w => w.pc | none => 0) })

end Sys2Proof.Machine
end

