-- ==== Sys2Proof/Machine/Slots.lean ====
section
/-! DEFINITION. The issue opportunity (15 R293 to R295): the candidates of a quadrant, the choice among them,
and the cycle of a cluster. -/

namespace Sys2Proof.Machine

/-- The memory accesses and engine kicks that a release or acquire holds back (13 R355). -/
def isHeldBack (i : Instr) : Bool :=
  match i with
  | .ld _ | .st _ | .sld _ | .sst _ | .ldp _ | .stp _ | .lds _ | .sts _ | .tld _ | .tst _ | .pref _ | .cinv _ | .cwb _ => true
  | .atom _ | .acas _ | .red _ | .acont _ | .aload _ | .atbl _ | .drain _ | .binit _ | .bexp _ | .bwait _ => true
  | .pdecl _ | .penter _ | .pwait _ | .pleave _ | .pdrop _ | .pqry _ | .ckick _ | .gthr _ | .sctr _ | .coll _ => true
  | i => match i.halves with
    | some (x, y) => decide (x.op = .lds ∨ x.op = .sts ∨ y.op = .lds ∨ y.op = .sts)
    | none => false

/-- A word that reads a target table (11 R215): a JOIN holds its reads back too (R221). -/
def readsTable (i : Instr) : Bool := match i with | .brx _ | .callx _ => true | _ => false

/-- The tile a TLD or TMOV writes (09 R172). -/
def tileWritten (i : Instr) : Option Nat := match i with | .tld _ | .tmov _ => (i.regs.2.find? (fun r => r.cls = .tile)).map (·.idx) | _ => none

/-- Whether a word has an active lane where it counts on a path or works an engine (16 R309); SLD and SST need none
(06 R122). -/
def Iss.works (c : Iss) (i : Instr) : Bool :=
  match i with
  | .sld _ | .sst _ => true
  | _ =>
  match i.halves with
  | some (x, y) => [x, y].any (fun p => decide (p.op = .lds ∨ p.op = .sts) && decide (c.active (match p.f.g with | some q => .on false q | none => .none) ≠ 0))
  | none => decide (c.active i.guardOf ≠ 0)

/-- The operations that a word counts on its path: an RPUSH counts one for each lane (14 R278). -/
def Iss.counts (c : Iss) (i : Instr) : Nat := match i with | .rpush _ => lanesOf (c.active i.guardOf) | _ => 1

/-- An RPUSH to a node of the group's own die counts on no path (14 R278). -/
def State.pushesHere (s : State) (gid : Nat) (i : Instr) : Bool :=
  match i with
  | .rpush o => let h := (s.group gid).rs o.a.toNat; !s.foreign h && nodeKey h / 4096 == dieOf gid
  | _ => false

/-- The lines of a group's divergence stack, with the one that a push would take (11 R218). -/
def State.stackLines (s : State) (gid : Nat) : List Nat :=
  let g := s.group gid
  let top := g.stackTop / 128
  let low := g.dsp.toNat / 128
  (List.range (top + 1 - low)).map (fun k => (s.core (coreOf gid)).remap g.tenant ((low - 1 + k) * 128) / 128)

/-- Whether a word of the divergence stack must wait: a request of its core to a line of the stack is on its way, or a
swap holds the line's page (11 R217, 03 R49; log 45). -/
def State.stackBusy (s : State) (gid : Nat) (i : Instr) : Bool :=
  match i with
  | .brs _ | .join _ | .exit _ | .regroup _ =>
    let ls := s.stackLines gid
    s.reqs.any (fun r => r.2.core == coreOf gid && r.2.tenant == (s.group gid).tenant && ls.contains r.2.line) || ls.any (fun l => s.swapStalls (s.group gid).ctx (l * 128))
  | _ => false

/-- Whether a word is stalled by a structural limit (R293) or by a release or acquire (13 R355). -/
def State.stalled (s : State) (gid : Nat) (slotB : Bool) (cl : Clause) (i : Instr) : Bool :=
  let g := s.group gid
  let k := s.core (coreOf gid)
  let c : Iss := ⟨gid, slotB, 0, cl, g⟩
  (match i.longLat with | some sb => (match (if sb then cl.sb else cl.sa) with | some f => decide (63 ≤ g.flagCount f) | none => false) | none => false) ||
  (c.works i && ((match pathOf i with | some p => decide (255 < g.counter p + c.counts i) && !s.pushesHere gid i | none => false) ||
    (match i with
      | .ckick _ => decide (16 ≤ k.kicks.length)
      | .gthr _ | .sctr _ => decide (8 ≤ k.gathers.length)
      | .drain _ => decide (4 ≤ k.drain.length)
      | _ => false))) ||
  s.stackBusy gid i ||
  (match tileWritten i with
    | some t => k.mx.any (fun x => x.gid == gid && (match x.work with | .mma _ _ _ _ _ b _ => b == t | _ => false))
    | none => false) ||
  (isHeldBack i && s.holding gid) || (readsTable i && s.joining gid)

/-- A candidate: group, slot, charge of its word, and what ranks it. -/
structure Cand where
  gid : Nat
  slotB : Bool
  charge : Nat
  due : Nat
  last : Nat
  yielded : Bool

/-- The charge of the word a slot would issue if it may issue now: the slot is not held at a word, and no swap holds the
page that it fetches from (03 R49). A word at fault is free to issue, and traps. -/
def State.slotReady (s : State) (gid : Nat) (slotB : Bool) : Option Nat :=
  let g := s.group gid
  let x := g.slot slotB
  if x.st ≠ .running || g.tables.any (fun w => w.slotB == slotB) || s.swapStalls g.ctx x.pc.toNat then none
  else match s.nextWord gid slotB with
    | .error _ => some 0
    | .ok i =>
      match i with
      | .clauseStart h =>
        if !g.waitsClear h.wait then none
        else if g.mask slotB = 0 then some 0
        else if s.swapStalls g.ctx (x.pc + 8).toNat then none
        else
          let cl : Clause := { sa := h.sa.map BitVec.toNat, sb := h.sb.map BitVec.toNat, left := h.len.toNat + 1, yld := h.yld }
          let s1 := s.setGroup gid ((g.clearMarks h.wait).setSlot slotB { x with pc := x.pc + 8, cl := some cl })
          match s1.nextWord gid slotB with
          | .error _ => some 0
          | .ok j => if s.stalled gid slotB cl j then none else some ((⟨gid, slotB, x.pc + 8, cl, g⟩ : Iss).charge j)
      | i => if s.stalled gid slotB (x.cl.getD {}) i then none else some ((⟨gid, slotB, x.pc, x.cl.getD {}, g⟩ : Iss).charge i)

/-- Whether a group may issue at all: it is not blocked or held, and its context runs, or steps it (16 R304,
R311, 15 R287). -/
def State.mayIssue (s : State) (gid : Nat) : Bool :=
  s.unheld gid && (!(s.context (s.group gid).ctx).hb.halt || s.skids gid)

/-- The candidate of a group, its slot chosen by R39: where both may issue, the one whose turn it is, which is that of a
clause that has begun last until its end. -/
def State.candidate (s : State) (gid : Nat) : Option Cand :=
  let g := s.group gid
  if !s.mayIssue gid then none
  else
    let mk (b : Bool) (n : Nat) : Cand := ⟨gid, b, n, g.due, g.last, g.yielded⟩
    match s.slotReady gid false, s.slotReady gid true with
    | some x, some y => some (if g.nextB then mk true y else mk false x)
    | some x, none => some (mk false x)
    | none, some y => some (mk true y)
    | none, none => none

/-- Orders candidates by last issue, least recent first, ties by slot. -/
def orderCands (cs : List Cand) : List Cand :=
  cs.foldl (fun a c => a.takeWhile (fun x => x.last < c.last || (x.last == c.last && x.gid < c.gid)) ++ c :: a.dropWhile (fun x => x.last < c.last || (x.last == c.last && x.gid < c.gid))) []

/-- The choice of R294 within a budget. -/
def pickWithin (cs : List Cand) (window budget : Nat) : Option Cand :=
  match cs with
  | [] => none
  | c :: rest =>
    if window + c.charge ≤ budget then some c
    else
      let x := rest.foldl (fun (b : Cand) y => if y.charge < b.charge then y else b) c
      if window + x.charge ≤ budget || x.charge = 0 then some x else none

/-- The choice of R294 and R295, with the preference of YIELD (11 R224). -/
def pickCand (cs : List Cand) (window budget : Nat) : Option Cand :=
  match cs.find? (fun c => decide (48 ≤ c.due)) with
  | some c => some c
  | none => match pickWithin (cs.filter (fun c => !c.yielded)) window budget with
    | some c => some c
    | none => pickWithin (cs.filter (·.yielded)) window budget

/-- Whether the budget holds back the candidate whose turn it is (R294): none is due, and the first is not the one that
issues. -/
def heldBack (cs : List Cand) (window budget : Nat) : Bool :=
  !cs.any (fun c => decide (48 ≤ c.due)) && (match cs.filter (fun c => !c.yielded) ++ cs.filter (·.yielded) with
    | [] => false
    | c :: _ => decide (budget < window + c.charge) && (match pickCand cs window budget with | some x => x.gid ≠ c.gid | none => true))

/-- The resident groups of a quadrant. -/
def State.quadGroups (s : State) (core quad : Nat) : List Nat := (s.groups.filter (fun g => g.1 / 16 == 4 * core + quad)).map (·.1)

/-- Contexts with a group in a cluster. -/
def State.clusterContexts (s : State) (cl : Nat) : List Nat := (s.groups.filter (fun g => clusterOfCore (coreOf g.1) == cl)).foldl (fun a g => if a.contains g.2.ctx then a else g.2.ctx :: a) []

/-- The counts that a cycle adds to the event counters of a cluster's cores and die (17 R326). -/
def State.countCycle (s : State) (cl : Nat) (stretched : Bool) : State :=
  let gs := s.groups.filter (fun g => clusterOfCore (coreOf g.1) == cl)
  let s1 := gs.foldl (fun (s : State) g => match g.2.wait with
    | some w => (match w.kind with | .palette _ => s.countCore (coreOf g.1) g.2.ctx 0x011 1 | _ => s)
    | none => s) s
  let full := (s1.cores.filter (fun k => clusterOfCore k.1 == cl && decide (4 ≤ k.2.drain.length))).map (·.1)
  let s2 := full.foldl (fun (s : State) k => (s.clusterContexts cl).foldl (fun (s : State) c => s.countCore k c 0x030 1) s) s1
  if stretched then (s2.clusterContexts cl).foldl (fun (s : State) c => s.countDie (cl / 8) c 0x131 1) s2 else s2

/-- The end of a cluster's cycle: its count, its window, the droop response and device time (17 R316, R320). -/
def State.endCycle (s : State) (cl : Nat) : State :=
  let c := s.cluster cl
  let st := decide (0 < c.stretch)
  let ns := Config.cycleTime (c.cycles * 192 + cl)
  let lost := if c.cycles % 16 = 15 then (c.lost :: c.lostWindows).take 256 else c.lostWindows
  let s1 := s.modCluster cl (fun c => { c with cycles := c.cycles + 1, turn := 0, window := (c.now :: c.window).take 15, now := 0, stretched := c.stretched + st.toNat, stretch := if c.alarm then 6 else c.stretch - 1, halving := if c.alarm then 64 else if st then c.halving else c.halving - 1, alarm := false, lostWindows := lost, lost := if c.cycles % 16 = 15 then false else c.lost })
  ({ s1.countCycle cl st with devTime := s.devTime + (if st then 2 * ns else ns) } : State).endSkids cl

/-- The quadrant of a cluster that decides next, after the end of a cycle where all have decided (R294). -/
def Cluster.next (c : Cluster) : Nat := if c.turn < 32 then (c.cycles + c.turn) % 32 else (c.cycles + 1) % 32

/-- Whether the droop response takes this cycle from a quadrant (R293). -/
def Cluster.halved (c : Cluster) : Bool := c.stretch = 0 && 0 < c.halving && c.cycles % 2 = 1

/-- The opportunity of a quadrant: the candidates' due counts, and the word that is to issue, with its charge. A group that
is the only candidate loses its preference of YIELD (11 R224). -/
def State.opportunity (s : State) (core quad : Nat) : State :=
  let cl := clusterOfCore core
  let c := s.cluster cl
  let gs := s.quadGroups core quad
  let cands := orderCands (gs.filterMap s.candidate)
  let window := c.window.foldl (· + ·) 0 + c.now + (c.picks.map (·.2.2)).foldl (· + ·) 0
  let pick := pickCand cands window c.budget
  let is (gid : Nat) : Bool := cands.any (fun x => x.gid == gid)
  let s1 : State := { s with groups := s.groups.map (fun (g : Nat × Group) => if gs.contains g.1 then (g.1, { g.2 with due := if is g.1 then g.2.due + 1 else 0, yielded := g.2.yielded && !(is g.1 && cands.length = 1) }) else g) }
  match pick, cands with
  | some x, _ => s1.modCluster cl (fun c => { c with picks := c.picks ++ [(x.gid, x.slotB, x.charge)], lost := c.lost || heldBack cands window c.budget })
  | none, [] => s1
  | none, x :: _ => (s1.modCluster cl (fun c => { c with lost := true })).countCore core (s.group x.gid).ctx 0x002 1

/-- The word that a cluster issues next of those decided in its cycle: they issue one per step, in ascending order of core
and quadrant (09 R170, 12 R227, R233). -/
def Cluster.firstPick (c : Cluster) : Option (Nat × Bool × Nat) :=
  c.picks.foldl (fun (b : Option (Nat × Bool × Nat)) x => match b with | some y => if x.1 < y.1 then some x else b | none => some x) none

/-- A word that has been decided issues, if its group may still issue it. -/
def issuePick (cl : Nat) (s : State) : Host.Outcome State Fault Refusal :=
  match (s.cluster cl).firstPick with
  | none => .next s
  | some x =>
    let s1 := s.modCluster cl (fun c => { c with picks := c.picks.filter (· ≠ x) })
    .next (if s.grant.isNone && s.mayIssue x.1 && (s.slotReady x.1 x.2.1).isSome then { (s1.fetched x.1 ((s.group x.1).slot x.2.1).pc) with grant := some ⟨x.1, x.2.1, false⟩ } else s1)

/-- ISSUE_OPPORTUNITY (R293 to R295): of the quadrant whose turn it is; a cycle ends once the words that were decided in it
have issued. -/
def execIssueOpportunity (core quad : Nat) (s : State) : Host.Outcome State Fault Refusal :=
  let cl := clusterOfCore core
  let idx := core % 8 * 4 + quad
  if s.grant.isSome || 4 ≤ quad || (s.cluster cl).relock.isSome || (s.cluster cl).next ≠ idx || (32 ≤ (s.cluster cl).turn && (s.cluster cl).picks ≠ []) then .next s
  else
    let s1 := if 32 ≤ (s.cluster cl).turn then s.endCycle cl else s
    let s2 := s1.modCluster cl (fun c => { c with turn := c.turn + 1 })
    if (s1.core core).secondRead.contains quad then .next (s2.modCore core (fun k => { k with secondRead := k.secondRead.filter (· ≠ quad) }))
    else if (s1.cluster cl).halved then .next s2
    else .next (s2.opportunity core quad)

end Sys2Proof.Machine
end

