-- ==== Sys2Proof/Machine/PowerEvents.lean ====
section
/-! DEFINITION. The arbiter's epochs and budgets (17 R316, R317, R323, R324), droop (R320) and heat (R325). What a
share is worth in charge units, what a lender leaves unused and how far a hot stack is throttled the manual does not
give (log 35). -/

namespace Sys2Proof.Machine

/-! ### Shares (R317) -/

/-- The tenant whose group a cluster holds, the one in the lowest slot. -/
def State.clusterTenant (s : State) (cl : Nat) : Option Nat := (s.groups.find? (fun g => clusterOfCore (coreOf g.1) == cl)).map (·.2.tenant)

/-- The clusters of a tenant. -/
def State.tenantClusters (s : State) (t : Nat) : List Nat := (s.clusters.map (·.1)).filter (fun k => s.clusterTenant k == some t)

/-- Whether a tenant is demanding: one window in eight of its clusters held back a candidate for budget. -/
def State.demanding (s : State) (t : Nat) : Bool :=
  let ws := (s.tenantClusters t).flatMap (fun k => (s.cluster k).lostWindows)
  ws ≠ [] && decide (ws.length ≤ 8 * (ws.filter id).length)

/-- The valid shares that a level wrote, as (tenant or partition, share); an entry keeps its writer's level above its 32
bits. -/
def Hub.shares (h : Hub) (level : Nat) : List (Nat × Nat) := (h.pwShare.filter (fun x => x.2.testBit 31 && x.2 / 2 ^ 32 == level)).map (fun x => (nbits x.2 12 16, nbits x.2 0 11))

/-- The partition of a tenant, that of a context of it. -/
def State.tenantPart (s : State) (t : Nat) : Option Nat := (s.contexts.find? (fun c => c.2.tenant == t)).map (·.2.part)

/-- The shares of the tenants. Those of one partition share out what level 0 has given it: where they sum to more, each is
cut in proportion; a partition without a share bounds nothing (log 35). -/
def State.tenantShares (s : State) : List (Nat × Nat) :=
  let ts := s.hub.shares 1
  ts.map (fun x => match s.tenantPart x.1 with
    | none => x
    | some p => match (s.hub.shares 0).find? (fun y => y.1 == p) with
      | none => x
      | some y =>
        let sum := ((ts.filter (fun z => s.tenantPart z.1 == some p)).map (·.2)).foldl (· + ·) 0
        if sum ≤ y.2 then x else (x.1, x.2 * y.2 / sum))

/-- What each tenant lends: a tenant that is not demanding, a free part of its share (log 35). -/
def State.lends (s : State) : List (Nat × Nat) → List (Nat × Nat) × State
  | [] => ([], s)
  | (t, sh) :: rest =>
    let x := if s.demanding t then (0, s) else s.choose (sh + 1)
    let r := x.2.lends rest
    ((t, x.1) :: r.1, r.2)

/-- The share a tenant may use in the coming epoch: its own less what it lends, or its own and its part of what is
lent. -/
def shareNow (shares loans : List (Nat × Nat)) (demand : Nat → Bool) (t own : Nat) : Nat :=
  let lent := (loans.map (·.2)).foldl (· + ·) 0
  let total := ((shares.filter (fun x => demand x.1)).map (·.2)).foldl (· + ·) 0
  if demand t then own + (if total = 0 then 0 else lent * own / total) else own - (match loans.find? (fun x => x.1 == t) with | some x => x.2 | none => 0)

/-- The budget of each cluster of a tenant that a share is worth, in charge units per window: the power is the same in
each (log 35). -/
def State.budgetOf (s : State) (t share : Nat) : Nat := Config.moduleLimit * share / 1024 / max 1 (s.tenantClusters t).length

/-! ### Balancing (R323, R324) -/

/-- The time for which a moved budget stands, in nanoseconds. -/
def settingHold : Nat := 200000

/-- The median of some figures, between the two middle ones of an even number. -/
def median (xs : List Nat) : Nat :=
  let l := xs.foldl (fun (a : List Nat) x => a.takeWhile (· ≤ x) ++ x :: a.dropWhile (· ≤ x)) []
  let n := l.length
  if n % 2 = 1 then l.getD (n / 2) 0 else (l.getD (n / 2 - 1) 0 + l.getD (n / 2) 0) / 2

/-- The slack of each cluster that meets there: the median over the last 8 episodes. -/
def Meet.slack (m : Meet) : List (Nat × Nat) :=
  let cs := m.past.foldl (fun (a : List Nat) e => e.1.foldl (fun (a : List Nat) x => if a.contains x.1 then a else a ++ [x.1]) a) []
  cs.map (fun c => (c, median (m.past.filterMap (fun e => tfind c e.1))))
/-- The length of its episodes: the median over the last 8. -/
def Meet.length (m : Meet) : Nat := median (m.past.map (·.2))

/-- Whether a cluster's setting has stood its time. -/
def State.freeToMove (s : State) (k : Nat) : Bool := match (s.cluster k).setting with | some t => decide (t + settingHold ≤ s.devTime) | none => true

/-- The budget of a cluster in a list. -/
def budgetIn (l : List (Nat × Nat)) (k : Nat) : Nat := match l.find? (fun x => x.1 == k) with | some x => x.2 | none => 0

/-- What a donor can give at most: what it has above its own share (R317, R323). -/
def donorRoom (own budgets : List (Nat × Nat)) (k : Nat) : Nat := budgetIn budgets k - budgetIn own k

/-- What a cluster has given, for balance and for other modules' deficits. -/
def Cluster.given (c : Cluster) : Nat := (c.moved.map (·.2)).foldl (· + ·) 0 + c.chase

/-- What a donor gives: at most a quarter of its own share, and of what it has above that share only what it has not given
yet (R317); the amount is free (log 35). -/
def State.gift (s : State) (donor : Nat) (own budgets : List (Nat × Nat)) : Nat × State :=
  s.choose (min (budgetIn own donor / 4) (donorRoom own budgets donor - (s.cluster donor).given) + 1)

/-- Moves as far as a donor's room covers them: a loan that is recalled takes what was moved of it back from its receiver at
once (R317). -/
def movesWithin (room : Nat) : List (Nat × Nat) → List (Nat × Nat)
  | [] => []
  | (k, x) :: rest => (k, min x room) :: movesWithin (room - min x room) rest

/-- What each cluster gives in an epoch, as (donor, receiver, amount). -/
def State.moves (s : State) (own budgets : List (Nat × Nat)) : List (Nat × Nat × Nat) :=
  s.clusters.flatMap (fun c => (movesWithin (donorRoom own budgets c.1) c.2.moved).map (fun x => (c.1, x.1, x.2)))

/-- The budget of a cluster in an epoch, after what balancing moves and what other modules' deficits take. -/
def State.budgetNow (s : State) (own budgets : List (Nat × Nat)) (k : Nat) : Nat :=
  let ms := s.moves own budgets
  let out := ((ms.filter (fun m => m.1 == k)).map (·.2.2)).foldl (· + ·) 0
  let inn := ((ms.filter (fun m => m.2.1 == k)).map (·.2.2)).foldl (· + ·) 0
  budgetIn budgets k - out - min (s.cluster k).chase (donorRoom own budgets k - out) + inn

/-- Moves budget from the clusters with the largest slack of a meeting to the one with the smallest. -/
def State.balance (s : State) (m : Meet) (own budgets : List (Nat × Nat)) : State :=
  let slack := m.slack
  let most := slack.foldl (fun a x => max a x.2) 0
  let least := slack.foldl (fun a x => min a x.2) most
  match slack.find? (fun x => x.2 == least) with
  | some r =>
    if 20 * (most - least) ≤ m.length || !s.freeToMove r.1 then s
    else (slack.filter (fun d => d.2 == most && s.freeToMove d.1)).foldl (fun (s : State) d =>
      let x := s.gift d.1 own budgets
      if x.1 = 0 then x.2
      else (x.2.modCluster d.1 (fun c => { c with moved := c.moved ++ [(r.1, x.1)], setting := some s.devTime })).modCluster r.1 (fun c => { c with setting := some s.devTime })) s
  | none => s

/-- The largest deficit that another module has reported, in nanoseconds. -/
def Hub.deficit (h : Hub) : Nat := (h.deficits.filter (fun d => d.1 ≠ h.module)).foldl (fun a d => max a (64 * d.2)) 0

/-- Another module's deficit is slack of the clusters that meet in a collective (R324): the cluster with the most gives up
budget; a deficit that is below the spread ends that. -/
def State.followDeficit (s : State) (m : Meet) (own budgets : List (Nat × Nat)) : State :=
  if !m.coll || m.past = [] then s
  else if 20 * s.hub.deficit ≤ m.length then
    m.slack.foldl (fun (s : State) x => if (s.cluster x.1).chase ≠ 0 && s.freeToMove x.1 then s.modCluster x.1 (fun c => { c with chase := 0, setting := some s.devTime }) else s) s
  else
    let most := m.slack.foldl (fun a x => max a x.2) 0
    match m.slack.find? (fun x => x.2 == most) with
    | some d =>
      if !s.freeToMove d.1 then s
      else
        let x := s.gift d.1 own budgets
        if x.1 = 0 then x.2 else x.2.modCluster d.1 (fun c => { c with chase := c.chase + x.1, setting := some s.devTime })
    | none => s

/-- A cluster that meets no longer keeps nothing of what balancing moved, once its setting has stood its time. -/
def State.endMoves (s : State) : State :=
  let meets (k : Nat) : Bool := s.hub.meets.any (fun m => m.2.past.any (fun e => (tfind k e.1).isSome))
  { s with clusters := s.clusters.map (fun (c : Nat × Cluster) => if c.2.setting.isSome && s.freeToMove c.1 && !meets c.1 then (c.1, { c.2 with moved := [], chase := 0, setting := none }) else c) }

/-! ### The epoch (R316, R317) -/

/-- The length of an epoch in nanoseconds. -/
def epochLength : Nat := 2000

/-- The clusters that a share of their tenant rules, with the tenant and its share. -/
def State.ruled (s : State) : List (Nat × Nat × Nat) :=
  s.clusters.filterMap (fun k => match s.clusterTenant k.1 with
    | some t => (s.tenantShares.find? (fun x => x.1 == t)).map (fun x => (k.1, t, x.2))
    | none => none)

/-- The clusters of the dies whose stacks are hot (R325). -/
def State.hotClusters (s : State) : List Nat := (s.dies.filter (fun d => d.2.bwHot)).flatMap (fun d => (List.range 8).map (8 * d.1 + ·))

/-- The clusters that no share rules: on a hot stack's die they are capped too, and have their budget back once it has
cooled (R325). -/
def State.capUnruled (s : State) (ruled : List Nat) : State :=
  let s1 := (s.hotClusters.filter (fun k => !ruled.contains k)).foldl (fun (s : State) k =>
    let c := s.cluster k
    let b := c.full.getD (c.nextBudget.getD c.budget)
    let y := s.choose (b + 1)
    y.2.modCluster k (fun c => { c with full := some b, nextBudget := if y.1 = c.budget then none else some y.1 })) s
  { s1 with clusters := s1.clusters.map (fun (c : Nat × Cluster) => match c.2.full with
    | some b => if s.hotClusters.contains c.1 && !ruled.contains c.1 then c else (c.1, { c.2 with full := none, nextBudget := if ruled.contains c.1 then c.2.nextBudget else if b = c.2.budget then none else some b })
    | none => c) }

/-- ARBITER_EPOCH (R316, R317, R323, R324): every 2 µs the budgets are computed anew. A cluster of a hot stack's die is
capped by a free amount (R325, log 35); one that no share rules keeps its budget. -/
def execArbiterEpoch (since : Nat) (s : State) : Host.Outcome State Fault Refusal :=
  if since ≠ s.hub.epoch || s.devTime < s.hub.epoch + epochLength then .next s
  else
    let shares := s.tenantShares
    let loans := s.lends shares
    let own := s.ruled.map (fun k => (k.1, s.budgetOf k.2.1 k.2.2))
    let base := s.ruled.map (fun k =>
      let b := s.budgetOf k.2.1 (shareNow shares loans.1 s.demanding k.2.1 k.2.2)
      (k.1, if s.demanding k.2.1 then max (s.budgetOf k.2.1 k.2.2) b else b))
    let s1 := s.hub.meets.foldl (fun (s : State) m => (s.balance m.2 own base).followDeficit m.2 own base) loans.2.endMoves
    let s2 := base.foldl (fun (s : State) k =>
      let b := s1.budgetNow own base k.1
      let y := if (s.die (k.1 / 8)).bwHot then s.choose (b + 1) else (b, s)
      y.2.modCluster k.1 (fun c => { c with nextBudget := if y.1 = c.budget then none else some y.1 })) s1
    let s2 := s2.capUnruled (base.map (·.1))
    let s3 : State := { s2 with clusters := s2.clusters.map (fun (c : Nat × Cluster) => (c.1, { c.2 with lostWindows := [] })) }
    .next (s3.modHub (fun h => { h with epoch := s.devTime, pwLent := (loans.1.map (·.2)).foldl (· + ·) 0 }))

/-- BUDGET_APPLY (R316): a new budget takes effect at a cycle count that is a multiple of 16. -/
def execBudgetApply (cluster : Nat) (s : State) : Host.Outcome State Fault Refusal :=
  let c := s.cluster cluster
  match c.nextBudget with
  | none => .next s
  | some b =>
    if (32 ≤ c.turn && (c.cycles + 1) % 16 = 0) || (c.turn = 0 && c.cycles % 16 = 0) then .next (s.modCluster cluster (fun c => { c with budget := b, nextBudget := none })) else .next s

/-- Whether the module is throttled: a stack is hot, or a window of a cluster held back a candidate for budget (DESIGN
CHOICE, log 81: the manual does not say what counts). -/
def State.throttled (s : State) : Bool := s.dies.any (fun d => d.2.bwHot) || s.clusters.any (fun c => c.2.lost || c.2.lostWindows.any id)

/-- The extra time of the episodes of a meeting: the median over the last 8 of what each took beyond the shortest of them
(DESIGN CHOICE, log 81: the manual does not say against what it is measured). -/
def Meet.extra (m : Meet) : Nat :=
  match m.past.map (·.2) with
  | [] => 0
  | x :: rest => let least := rest.foldl min x; median ((x :: rest).map (· - least))

/-- This module's deficit, in units of 64 ns (R324): the largest over its communicators while it is throttled. -/
def State.ownDeficit (s : State) : Nat :=
  if s.throttled then min 0xFFFF ((s.hub.meets.filter (fun m => m.2.coll)).foldl (fun a m => max a (m.2.extra / 64)) 0) else 0

/-- DEFICIT_REPORT (R324): a module's deficit, this one's, which is computed, in pw.deficit; row 34 hears of another's (R331). -/
def execDeficitReport (module : Nat) (deficit : BitVec 16) (s : State) : Host.Outcome State Fault Refusal :=
  .next (if module = s.hub.module then s.modHub (fun h => { h with pwDeficit := s.ownDeficit })
    else (s.modHub (fun h => { h with deficits := tset 0 module deficit.toNat h.deficits })).interrupt 34 0 module)

/-! ### Droop (R320) -/

/-- DROOP_ALARM (R320): none with the detector off or during a relock (R319); one during a stretch is merged. -/
def execDroopAlarm (cluster : Nat) (s : State) : Host.Outcome State Fault Refusal :=
  let c := s.cluster cluster
  if c.drpThr = 0 || c.relock.isSome || 0 < c.stretch || c.alarm then .next s
  else
    let s1 := s.modCluster cluster (fun c => { c with alarm := true, alarms := (c.alarms + 1) % 2 ^ 64 })
    .next ((s.clusterContexts cluster).foldl (fun (s : State) x => s.countDie (cluster / 8) x 0x130 1) s1)

/-- DROOP_HALVING_END (R320): the last of the 64 cycles is over. -/
def execDroopHalvingEnd (cluster : Nat) (s : State) : Host.Outcome State Fault Refusal :=
  let c := s.cluster cluster
  .next (if c.halving = 1 && c.stretch = 0 && 32 ≤ c.turn then s.modCluster cluster (fun c => { c with halving := 0 }) else s)

/-! ### Heat (R325) -/

/-- The guaranteed shares of a stack: of two valid entries for a tenant the lower index counts. -/
def guaranteed (t : Table Nat) : List (Nat × Nat) :=
  t.foldl (fun (a : List (Nat × Nat)) x => if x.2.testBit 31 && !a.any (fun y => y.1 == nbits x.2 8 16) then a ++ [(nbits x.2 8 16, nbits x.2 0 8)] else a) []

/-- The partition of a die. -/
def State.partitionOf (s : State) (die : Nat) : Option Nat := (s.hub.pt.find? (fun p => p.2.v && p.2.dies.testBit die)).map (·.1)

/-- A report of a stack's temperature (R325): one that is not below the threshold ends the count towards the restore. -/
def Die.reported (d : Die) (temp now : Nat) : Die := { d with bwTemp := temp, bwSince := if temp < d.bwThr && d.bwHot then some (d.bwSince.getD now) else none }

/-- THERMAL_OVER_THRESHOLD (R325): the shares scale by what bandwidth remains, which is free (log 35), over the
guaranteed total; the owning partition is told. -/
def execThermalOverThreshold (die : Nat) (temp : BitVec 12) (s : State) : Host.Outcome State Fault Refusal :=
  let d := s.die die
  let s0 := s.modDie die (fun d => d.reported temp.toNat s.devTime)
  if temp.toNat ≤ d.bwThr then .next s0
  else
    let total := ((guaranteed d.bwShare).map (·.2)).foldl (· + ·) 0
    let r := s0.choose 257
    let scale := if total = 0 then 256 else min 256 (256 * r.1 / total)
    let s1 := r.2.modDie die (fun d => { d with bwHot := true, bwScale := scale })
    .next (if d.bwHot then s1 else match s.partitionOf die with | some p => s1.interrupt 33 1 p | none => s1)

/-- THERMAL_RESTORE (R325): a report; once the temperature has stayed below the threshold for 1 ms the shares are
restored. -/
def execThermalRestore (die : Nat) (temp : BitVec 12) (s : State) : Host.Outcome State Fault Refusal :=
  let d := (s.die die).reported temp.toNat s.devTime
  .next (s.modDie die (fun _ => match d.bwSince with
    | some t => if t + 1000000 ≤ s.devTime then { d with bwHot := false, bwSince := none, bwScale := 256 } else d
    | none => d))

end Sys2Proof.Machine
end

