-- ==== Sys2Proof/Machine/Tracker.lean ====
section
/-! DEFINITION. The hot-page tracker of a die (03 R48, R49): the choice of a pair of pages at the end of an epoch,
the swap, and the halving of the counts. -/

namespace Sys2Proof.Machine

/-! ### Pages (R48) -/

/-- A page of a partition that a stage-2 leaf of 64 KiB with MG maps: its machine address, the leaf's address and
the leaf. -/
structure MapPage where
  page : Nat
  machine : Nat
  leafAt : Nat
  leaf : Nat

/-- Whether a leaf entry of the lowest level maps a 64 KiB page with MG. -/
def isSampled (e : Nat) : Bool := (entryKind 1 2 e).isNone && !e.testBit 1 && nbits e 2 2 = 0 && e.testBit 58 && backed (nbits e 12 40 * 2 ^ 12)
/-- Whether it is pinned. -/
def isPinned (e : Nat) : Bool := e.testBit 59

/-- The page of a partition, if it is one that is sampled; the tracker reads the tables in memory. -/
def State.mapPage (s : State) (part page : Nat) : Option MapPage :=
  match s.stage2 part (32 * 1024) (page * 2 ^ 16) with
  | .error _ => none
  | .ok (h, rs) => match rs.getLast? with
    | some (at_, e) => if h.level = 2 && isSampled e then some ⟨page, h.out, at_, e⟩ else none
    | none => none

/-- Tables that the valid entries of a table name, with their indexes. -/
def State.subTables (s : State) (level ma n : Nat) : List (Nat × Nat) :=
  if !backed ma then []
  else (List.range n).filterMap (fun k =>
    let e := s.memNum (ma + 8 * k) 8
    if (entryKind 1 level e).isNone && e.testBit 1 then some (k, nbits e 12 40 * 2 ^ 12) else none)

/-- The sampled pages of a partition in ascending partition address. -/
def State.mappedPages (s : State) (part : Nat) : List MapPage :=
  (s.subTables 0 (tget {} part s.hub.pt).s2root 8192).flatMap (fun r => (s.subTables 1 r.2 512).flatMap (fun m =>
    if !backed m.2 then []
    else (List.range 16384).filterMap (fun k =>
      let e := s.memNum (m.2 + 8 * k) 8
      if isSampled e then some ⟨r.1 * 2 ^ 23 + m.1 * 2 ^ 14 + k, nbits e 12 40 * 2 ^ 12, m.2 + 8 * k, e⟩ else none)))

/-- A count of a page in a table. -/
def pageCount (t : List ((Nat × Nat) × Nat)) (k : Nat × Nat) : Nat := match t.find? (fun x => x.1 == k) with | some x => x.2 | none => 0

/-- The place of a page in the scan that starts after `last` and wraps. Where the previous swap was in another partition, the
scan starts after its partner's page number all the same (DESIGN CHOICE, log 78: R48 does not say). -/
def scanPlace (last : Option (Nat × Nat)) (page : Nat) : Nat := match last with | some l => if l.2 < page then page else page + 2 ^ 40 | none => page

/-- Takes the page of the lowest key that is not pinned: it, and the pinned pages passed over (R48). -/
def passOver {α : Type} (key : α → Nat) (pinned : α → Bool) (l : List α) : Option α × Nat :=
  match leastBy' key (l.filter (fun x => !pinned x)) with
  | some x => (some x, (l.filter (fun y => pinned y && decide (key y < key x))).length)
  | none => (none, (l.filter pinned).length)
where
  leastBy' (key : α → Nat) : List α → Option α
    | [] => none
    | x :: rest => some (rest.foldl (fun m y => if key y < key m then y else m) x)

/-- The LPDDR6 page to move, with its partition, and the pinned pages passed over; of equal counts and addresses
the lowest partition comes first (log 32). -/
def State.hotPage (s : State) (die : Nat) : Option (Nat × MapPage) × Nat :=
  let d := s.die die
  let ps := (d.hptSlow.filter (fun x => decide (d.hptThr ≤ x.2))).filterMap (fun x => match s.mapPage x.1.1 x.1.2 with
    | some m => if (placeOf m.machine).2 then some (x.1.1, m, x.2) else none
    | none => none)
  let r := passOver (fun (x : Nat × MapPage × Nat) => (2 ^ 64 - x.2.2 % 2 ^ 64) * 2 ^ 64 + x.2.1.page * 2 ^ 8 + x.1) (fun x => isPinned x.2.1.leaf) ps
  (r.1.map (fun x => (x.1, x.2.1)), r.2)

/-- Its partner: the HBM4E page of the partition with the lowest count, the first that the scan finds. -/
def State.partner (s : State) (die part : Nat) : Option MapPage × Nat :=
  let d := s.die die
  passOver (fun (m : MapPage) => pageCount d.hptFast (part, m.page) * 2 ^ 64 + scanPlace d.hptLast m.page) (fun m => isPinned m.leaf) ((s.mappedPages part).filter (fun m => !(placeOf m.machine).2))

/-- Steps 2 to 4: the next swap of the epoch's end starts, or the counts are halved and the next epoch begins. A hottest page
whose partition has no partner ends the epoch (DESIGN CHOICE, log 78: R48 does not say whether the next page is tried). -/
def State.trackNext (s : State) (die : Nat) : State :=
  let d := s.die die
  let finish (s : State) : State := s.modDie die (fun d => { d with hptSlow := d.hptSlow.map (fun x => (x.1, x.2 / 2)), hptFast := d.hptFast.map (fun x => (x.1, x.2 / 2)), hptMade := 0 })
  let skip (n : Nat) (s : State) : State := s.modDie die (fun d => { d with hptPinskip := (d.hptPinskip + n) % 2 ^ 64 })
  if nbits d.hptCtl 8 8 ≤ d.hptMade then finish s
  else
    let p := s.hotPage die
    match p.1 with
    | none => finish (skip p.2 s)
    | some (part, m) =>
      let q := s.partner die part
      match q.1 with
      | none => finish (skip (p.2 + q.2) s)
      | some k => (skip (p.2 + q.2) s).modDie die (fun d => { d with swaps := [(part, m.page, k.page)], hptLast := some (part, k.page), hptMade := d.hptMade + 1 })

/-- HPT_EPOCH_END (R48). -/
def execHptEpochEnd (die : Nat) (s : State) : Host.Outcome State Fault Refusal :=
  let d := s.die die
  if !d.hptCtl.testBit 0 || d.swaps ≠ [] || s.devTime < d.hptSince + 1000 * d.hptEpoch then .next s
  else .next ((s.modDie die (fun d => { d with hptSince := s.devTime, hptMade := 0 })).trackNext die)

/-! ### The swap (R49) -/

/-- Exchanges the contents of two 64 KiB pages of machine memory. -/
def swapMem (p q : Nat) (m : Table Byte) : Table Byte :=
  let page (b : Nat) : List (Nat × Byte) := m.filter (fun c => c.1 / 2 ^ 16 == b / 2 ^ 16)
  let cleared := m.filter (fun c => c.1 / 2 ^ 16 ≠ p / 2 ^ 16 && c.1 / 2 ^ 16 ≠ q / 2 ^ 16)
  tsetAll 0 ((page p).map (fun c => (q + c.1 % 2 ^ 16, c.2)) ++ (page q).map (fun c => (p + c.1 % 2 ^ 16, c.2))) cleared

/-- A leaf that maps another machine page. -/
def retargetLeaf (e ma : Nat) : Nat := e - nbits e 12 40 * 2 ^ 12 + ma

/-- Lines of the slices that satisfy `p` are written back if dirty and invalidated. -/
def State.dropLines (s : State) (p : Nat → L2Line → Bool) : State :=
  s.slices.foldl (fun (s : State) x => (x.2.lines.filter (fun l => p x.1 l.2)).foldl (fun (s : State) l => s.dropLine x.1 l.2) s) s

/-- Translations and table entries that satisfy the two tests leave every slice. -/
def State.dropCached (s : State) (p : Tlb → Bool) (w : Nat → Bool) : State :=
  { s with slices := s.slices.map (fun (x : Nat × Slice) => (x.1, { x.2 with tlb := x.2.tlb.filter (fun t => !p t), walks := x.2.walks.filter (fun e => !w e.1) })) }

/-- The swap of two pages of a partition, as far as both are still mapped so. -/
def State.swapPair (s : State) (part p q : Nat) : State :=
  match s.mapPage part p, s.mapPage part q with
  | some a, some b =>
    let at_ (ma : Nat) : Bool := ma / 2 ^ 16 == a.machine / 2 ^ 16 || ma / 2 ^ 16 == b.machine / 2 ^ 16
    let s1 := s.dropLines (fun _ l => l.part == part && at_ l.machine)
    let s2 : State := { s1 with mem := swapMem a.machine b.machine s1.mem }
    -- A leaf that lies in one of the two pages has moved with it.
    let moved (x : Nat) : Nat := if x / 2 ^ 16 = a.machine / 2 ^ 16 then b.machine + x % 2 ^ 16 else if x / 2 ^ 16 = b.machine / 2 ^ 16 then a.machine + x % 2 ^ 16 else x
    let put (s : State) (ma e : Nat) : State := { s with mem := tsetAll 0 (bytesAt ma e 8) s.mem }
    let s3 := put (put s2 (moved a.leafAt) (retargetLeaf a.leaf b.machine)) (moved b.leafAt) (retargetLeaf b.leaf a.machine)
    s3.dropCached (fun t => t.part == part && (t.ppage == p || t.ppage == q) && t.bits == 16) (fun x => at_ x || x == a.leafAt || x == b.leafAt)
  | _, _ => s

/-- HPT_SWAP_DONE (R49): the stall ends; each context of the partition counts it (17 R326). -/
def execHptSwapDone (die : Nat) (s : State) : Host.Outcome State Fault Refusal :=
  match (s.die die).swaps with
  | [] => .next s
  | (part, p, q) :: rest =>
    let s1 := (s.swapPair part p q).modDie die (fun d => { d with swaps := rest, hptSwaps := (d.hptSwaps + 1) % 2 ^ 64 })
    let s2 := s1.contexts.foldl (fun (s : State) c => if c.2.part = part then s.countDie die c.1 0x120 1 else s) s1
    .next (s2.trackNext die)

end Sys2Proof.Machine
end

