-- ==== Sys2Proof/Machine/TcEvents.lean ====
section
/-! DEFINITION. Translation control (17 R337, 03 R60) and what a reload loads: context descriptors (17 R335), launch
queues (14 R257), nodes (14 R263) and routers (14 R269, R270). -/

namespace Sys2Proof.Machine

/-! ### Memory as the hub sees it -/

/-- A byte of machine memory with what a slice holds of it over it. -/
def State.devByte (s : State) (ma : Nat) : Byte :=
  match s.slices.findSome? (fun x => (x.2.lines.find? (fun l => l.2.machine / 128 == ma / 128)).map (·.2)) with
  | some l => s.lineByte l (ma % 128)
  | none => s.memByte ma

/-- Writes a byte of machine memory, in the slice that holds its line or in memory. -/
def State.devWrite (s : State) (ma : Nat) (b : Byte) : State :=
  match s.slices.findSome? (fun x => (x.2.lines.find? (fun l => l.2.machine / 128 == ma / 128)).map (fun l => (x.1, l.2))) with
  | some (k, l) => s.modSlice k (fun x => x.putLine (l.merge [(ma % 128, b)]))
  | none => s.setMem ma b

/-- Writes bytes so, given the pages of their addresses: each line of them that no slice holds is an access of memory
(03 R48). -/
def State.devWrites (s : State) (pages : List (Nat × Option (Nat × Nat))) (ws : List (Nat × Byte)) : State :=
  let lines := ws.foldl (fun (a : List Nat) w => if a.contains (w.1 / 128) then a else a ++ [w.1 / 128]) []
  let direct := lines.filter (fun l => !s.slices.any (fun x => x.2.lines.any (fun y => y.2.machine / 128 == l)))
  direct.foldl (fun (s : State) l => s.accessAt (l * 128) ((pages.find? (fun a => a.1 / 128 == l)).bind (·.2))) (ws.foldl (fun (s : State) w => s.devWrite w.1 w.2) s)

/-- The page of a partition that the tracker samples at a machine address (03 R48). -/
def State.sampledPage (s : State) (ma : Nat) : Option (Nat × Nat) :=
  s.hub.pt.findSome? (fun p => ((s.mappedPages p.1).find? (fun m => m.machine / 2 ^ 16 == ma / 2 ^ 16)).map (fun m => (p.1, m.page)))

/-- The accesses of memory that a read of `n` bytes from the hub makes: of each line that no slice holds (03 R48). -/
def State.devAccess (s : State) (ma n : Nat) : State :=
  if !s.dies.any (fun d => d.2.hptCtl.testBit 0) then s
  else ((List.range ((ma % 128 + n + 127) / 128)).filter (fun k => !s.slices.any (fun x => x.2.lines.any (fun y => y.2.machine / 128 == ma / 128 + k)))).foldl (fun (s : State) k => s.accessAt ((ma / 128 + k) * 128) (s.sampledPage ((ma / 128 + k) * 128))) s

def State.devBytes (s : State) (ma n : Nat) : List Byte := (List.range n).map (fun k => s.devByte (ma + k))

/-! ### Rights -/

/-- Whether a writer holds a right in the entry it names, at its own level. -/
def State.writerHolds (s : State) (w : Writer) (right : Nat) : Bool := s.holds_ w.entry right && (tget {} w.entry s.hub.dl).level == w.level

/-- Whether a tenant is the writer's own: no loaded context of it lies outside the writer's delegations. -/
def State.ownTenant (s : State) (w : Writer) (tenant : Nat) : Bool :=
  w.level == 0 || s.contexts.all (fun c => c.2.tenant ≠ tenant || (match s.chain c.2.grant with | some ch => ch.contains w.entry | none => false))

/-! ### Loading a context (R335, 03 R53) -/

/-- A window from its 16 bytes, if it is valid; its die must be in the partition when it is used (R53). -/
def windowOf (x : Nat) : Option Window :=
  if x.testBit 0 && nbits x 1 20 = 0 && nbits x 56 8 = 0 && nbits x 101 27 = 0 && nbits x 64 32 ≠ 0 && nbits x 96 5 < 24 then some ⟨nbits x 96 5, nbits x 64 32, nbits x 21 35 * 2 ^ 21⟩ else none

/-- Whether a context descriptor is invalid: a reserved field, a count or a base out of its range. -/
def contextBad (bs : List Byte) : Bool :=
  let f := numAt bs
  nbits (f 0 4) 30 2 ≠ 0 || nbits (f 4 4) 11 21 ≠ 0 || f 0x6C 148 ≠ 0 || decide (4096 < f 0x58 4) || decide (2 ^ 20 < f 0x5C 4) || f 0x60 8 % 128 ≠ 0 || decide (2 ^ 20 < f 0x68 4) || decide (256 ≤ f 8 4) || nbits (f 0 4) 28 2 = 3

/-- The partition of a delegation chain: the grantee of its level-1 entry (R333). -/
def State.chainPartition (s : State) (grant : Nat) : Option Nat :=
  match s.chain grant with
  | none => none
  | some ch => (ch.find? (fun e => (tget {} e s.hub.dl).level == 1)).map (fun e => (tget {} e s.hub.dl).grantee)

/-- A context as its descriptor gives it, over what it held before. -/
def Context.load (c : Context) (bs : List Byte) (desc part : Nat) : Context :=
  let f := numAt bs
  let flags := f 4 4
  { c with part := part, num := nbits (f 0 4) 16 12, tenant := nbits (f 0 4) 0 16, level := nbits (f 0 4) 28 2, desc := desc, fpx := nbits flags 0 5, pfen := flags.testBit 5, nxok := flags.testBit 6, ceiling := nbits flags 8 3, grant := f 8 4, slice := f 0xC 4, s1root := f 0x10 8, save := f 0x18 8, tsave := f 0x20 8, haltb := f 0x28 8, raceb := f 0x30 8, queuesAt := f 0x38 8, nodesAt := f 0x40 8, routersAt := f 0x48 8, outboxAt := f 0x50 8, ncount := f 0x58 4, ptmw := f 0x5C 4, ptmb := f 0x60 8, ptmn := f 0x68 4, windows := (List.range 16).filterMap (fun i => windowOf (f (0x100 + 16 * i) 16)) }

/-! ### Loading the task unit (14 R256, R257, R263) -/

/-- Bytes of a context's memory as the task unit reads a descriptor; one that cannot be read is invalid, and its
fault is taken. -/
def State.readDesc (s : State) (ctx die va n : Nat) : Option (List Byte) × State :=
  let r := s.peekRun ctx { rd := true } .engineRead va n (some die)
  match r.1 with
  | .ok bs => (some bs, r.2)
  | .error f => (none, r.2.taskFault ctx die f va)

/-- A launch queue from its descriptor; an invalid one is disabled. -/
def queueOf (bs : List Byte) : LaunchQueue :=
  let f := numAt bs
  let logn := nbits (f 8 4) 0 4
  if nbits (f 8 4) 5 27 ≠ 0 || f 0x14 12 ≠ 0 || 12 < logn || f 0 8 % (64 * 2 ^ logn) ≠ 0 then {} else { base := f 0 8, logn := logn, en := (f 8 4).testBit 4, head := f 0x10 4 }

/-- The template of a spawn node from its 64 bytes, if it keeps to R258. -/
def templateOf (c : Context) (x : Nat) : Option Launch :=
  let l := launchOf x
  if reservedBits x || l.badShape || l.gy ≠ 1 || l.gz ≠ 1 || l.tooLarge c || l.code.toNat % 8 ≠ 0 || 2 ^ 56 ≤ l.code.toNat then none else some { l with dep := false }

/-- A node from its descriptor and template over what it held; an invalid one is unbound. -/
def Node.load (n : Node) (bs : List Byte) (template : Option Launch) : Node :=
  let f := numAt bs
  let ctl := f 0 4
  let mode := nbits ctl 4 2
  let bad := nbits ctl 25 7 ≠ 0 || nbits (f 4 4) 16 16 ≠ 0 || mode = 3 || f 0x10 8 % 128 ≠ 0 || decide (2 ^ 24 < f 0x18 4) || (mode = 0 && (template.isNone || f 8 8 % 64 ≠ 0))
  { n with v := ctl.testBit 0 && !bad, en := ctl.testBit 1, rsz := nbits ctl 2 2, mode := mode, sealed := ctl.testBit 6, export_ := ctl.testBit 7, count := nbits ctl 8 8 + 1, set := nbits ctl 16 4, ring := if ctl.testBit 24 then some (nbits ctl 20 4) else none, timer := nbits (f 4 4) 0 16, lrec := f 8 8, template := template, ovfBase := f 0x10 8, ovfCap := f 0x18 4, lo := nbits (f 0x1C 4) 0 16, hi := nbits (f 0x1C 4) 16 16 }

/-- Reads and loads one node, a node that is not bound too (R282). -/
def State.loadNode (s : State) (ctx key : Nat) : State :=
  let c := s.context ctx
  let die := key / 4096
  let r := s.readDesc ctx die (c.nodesAt + die * 0x20000 + 32 * (key % 4096)) 32
  match r.1 with
  | none => if (tfind key c.nodes).isSome then r.2.modNode ctx key (fun n => { n with v := false }) else r.2
  | some bs =>
    let spawn := nbits (numAt bs 0 4) 0 1 = 1 && nbits (numAt bs 0 4) 4 2 = 0
    let t := if spawn then r.2.readDesc ctx die (numAt bs 8 8) 64 else (none, r.2)
    let n := (r.2.node ctx key).load bs (t.1.bind (fun x => templateOf c (ofBytes x)))
    if n ≠ {} || (tfind key c.nodes).isSome then t.2.modNode ctx key (fun _ => n) else t.2

/-- Loads the launch queues and nodes of a context. -/
def State.loadTasks (s : State) (ctx : Nat) : State :=
  let c := s.context ctx
  let die := s.queueDie ctx
  let s1 := (List.range 16).foldl (fun (s : State) q =>
    let r := s.readDesc ctx die (c.queuesAt + 32 * q) 32
    r.2.modContext ctx (fun c => { c with queues := tput q (match r.1 with | some bs => queueOf bs | none => {}) c.queues })) s
  let keys := (s.partDies c.part).flatMap (fun d => (List.range c.ncount).map (fun k => 4096 * d + k))
  let s2 := keys.foldl (fun (s : State) k => s.loadNode ctx k) s1
  keys.foldl (fun (s : State) k => s.settleNode ctx k) s2

/-! ### Routers (14 R269, R270) -/

/-- A router from its descriptor, with the die of its entry node; none where the descriptor is invalid or has V = 0. -/
def State.routerDesc (s : State) (ctx set : Nat) (bs : List Byte) : Option (Nat × Router) :=
  let f := numAt bs
  let ctl := f 0 4
  let entry : Word := BitVec.ofNat 32 (f 8 4)
  let stages := nbits ctl 3 3 + 1
  let die := nodeKey entry / 4096
  let bad := nbits ctl 11 21 ≠ 0 || f 6 2 ≠ 0 || f 0x14 4 ≠ 0 || f 0x48 56 ≠ 0 || stages < 2 || nbits ctl 6 4 < 3 || 12 < nbits ctl 6 4 || !entry.getLsbD 31 || entry.getLsbD 12 || nbits entry.toNat 18 13 ≠ s.hub.module || !(s.partDies (s.context ctx).part).contains die || (s.context ctx).ncount ≤ nodeKey entry % 4096 + stages
  if bad || !ctl.testBit 0 then none
  else some (die, { ctx := ctx, set := set, entry := nodeKey entry % 4096, stages := stages, lottery := ctl.testBit 1, depth := ctl.testBit 2, logw := nbits ctl 6 4, rejv := ctl.testBit 10, exitN := BitVec.ofNat 32 (f 0xC 4), reject := BitVec.ofNat 32 (f 0x10 4), cost := (List.range stages).map (fun k => f (0x18 + 2 * k) 2), write := (List.range stages).map (fun k => f (0x28 + 4 * k) 4), seed := f 4 2 })

/-- Takes a router off its die. -/
def State.releaseRouter (s : State) (die idx : Nat) : State := s.modDie die (fun d => { d with routers := tdel idx d.routers })

/-- Loads one router descriptor: the router kept, moved, taken or released. Answers false where a die has none free. -/
def State.loadRouter (s : State) (ctx set : Nat) : Bool × State :=
  let r := s.readDesc ctx (s.queueDie ctx) ((s.context ctx).routersAt + 128 * set) 128
  let old := r.2.routerOf ctx set
  let drop (s : State) : State := match old with | some (d, i, _) => s.releaseRouter d i | none => s
  match r.1.bind (fun bs => s.routerDesc ctx set bs) with
  | none => (true, drop r.2)
  | some (die, x) =>
    -- The origin number and the records in flight stay with the set.
    let y : Router := match old with | some (_, _, o) => { x with origin := o.origin, events := o.events, refused := o.refused } | none => x
    match old with
    | some (d, i, _) => if d = die then (true, r.2.modDie die (fun z => { z with routers := tput i y.restart z.routers }))
      else take (drop r.2) die y
    | none => take r.2 die y
where
  take (s : State) (die : Nat) (y : Router) : Bool × State :=
    match (List.range 16).find? (fun k => (tfind k (s.die die).routers).isNone) with
    | some k => (true, s.modDie die (fun z => { z with routers := tput k y.restart z.routers }))
    | none => (false, s)

/-- Loads the 16 router descriptors of a context: whether each that asked for a router has one. -/
def State.loadRouters (s : State) (ctx : Nat) : Bool × State :=
  (List.range 16).foldl (fun (a : Bool × State) k => let r := a.2.loadRouter ctx k; (a.1 && r.1, r.2)) (true, s)

/-! ### Commands (R337) -/

/-- A command that is refused: nothing is done, ERR is set. -/
def State.tcRefuse (s : State) : State := s.modHub (fun h => { h with tcErr := true })
/-- A command that runs. -/
def State.tcRun (s : State) (cmd : Nat) : State := s.modHub (fun h => { h with tcCmd := cmd, tcBusy := true, tcErr := false, tcRun0 := h.tcArg0, tcRun1 := h.tcArg1 })

/-- Whether the running invalidation names a line of a tenant, with its partition address (03 R60). -/
def Hub.tcNames (h : Hub) (tenant line pa : Nat) : Bool :=
  if h.tcCmd = 1 then
    let first := nbits h.tcRun1 0 40
    tenant == nbits h.tcRun0 0 16 && decide (first ≤ line / 512) && decide (line / 512 < first + nbits h.tcRun1 40 24)
  else decide (h.tcRun0 ≤ pa) && decide (pa < h.tcRun0 + h.tcRun1)

/-- The lines of the L1s that it names, as (core, tenant, line, contents). -/
def State.tcLines (s : State) : List (Nat × Nat × Nat × L1Line) :=
  s.cores.flatMap (fun k => (k.2.l1.filter (fun l => s.hub.tcNames (l.1 / 2 ^ 49) (l.1 % 2 ^ 49) l.2.pa)).map (fun l => (k.1, l.1 / 2 ^ 49, l.1 % 2 ^ 49, l.2)))

/-- Write-backs of such lines that no slice has accepted yet; one that is held with its fault is not waited for
(R356). -/
def State.tcPending (s : State) : Bool := s.reqs.any (fun r => decide (r.2.kind = .writeback) && (match r.2.stage with | .held _ => false | _ => true) && s.hub.tcNames r.2.tenant r.2.line r.2.pa)

/-- The dirty bytes of the L1s that it names are sent to the slices. -/
def State.tcSweep (s : State) : State :=
  s.tcLines.foldl (fun (s : State) x => if x.2.2.2.dirty = [] then s else (s.sendDirty x.1 x.2.1 x.2.2.1 x.2.2.2).2.setL1 x.1 x.2.1 x.2.2.1 x.2.2.2.clean) s

/-- Once every slice has accepted them, the lines leave the L1s and the slices, and the translations and table entries
the caches (03 R60): palette lines keep their place, and fills on their way bring nothing of the old mapping into a
cache. -/
def State.tcDrop (s : State) : State :=
  let h := s.hub
  let s1 := s.tcLines.foldl (fun (s : State) x => if x.2.2.2.isPool then s.setL1 x.1 x.2.1 x.2.2.1 x.2.2.2.empty else s.delL1 x.1 x.2.1 x.2.2.1) s
  let s2 := (s1.dropLines (fun _ l => h.tcNames l.tenant l.line l.pa)).dropCached (fun t => h.tcCmd ≠ 1 || t.tenant == nbits h.tcRun0 0 16) (fun _ => true)
  { s2 with reqs := s2.reqs.map (fun (r : Nat × Req) => if h.tcNames r.2.tenant r.2.line r.2.pa then (match r.2.kind with
    | .palette _ _ => if r.2.stage = .reply then (r.1, { r.2 with stage := .toSlice }) else r
    | _ => (r.1, { r.2 with noAlloc := true })) else r) }

/-- Command 1: a bad argument or a missing right is refused. -/
def State.tcInvalidateS1 (s : State) (w : Writer) : State :=
  if nbits s.hub.tcArg1 40 24 = 0 || !s.writerHolds w 0 || !s.ownTenant w (nbits s.hub.tcArg0 0 16) then s.tcRefuse else (s.tcRun 1).tcSweep

/-- Command 2, level 0's. It names no partition: the range is taken in every one (log 36). -/
def State.tcInvalidateS2 (s : State) (w : Writer) : State :=
  if s.hub.tcArg0 % 2 ^ 16 ≠ 0 || w.level ≠ 0 || !s.writerHolds w 1 then s.tcRefuse else (s.tcRun 2).tcSweep

/-- Command 3 (R335, R337). A context loaded for the first time takes its task descriptors too. A change of the time slice
asks PRE, of the exception override FPX, and a higher ceiling OPT (R328). -/
def State.tcReloadContext (s : State) (w : Writer) : State :=
  let desc := s.hub.tcArg0
  let bs := s.devBytes desc 512
  let s := if desc % 512 ≠ 0 || !backed desc then s else s.devAccess desc 512
  let f := numAt bs
  match (if desc % 512 ≠ 0 || !backed desc || contextBad bs || !s.writerHolds w 5 then none else s.chainPartition (f 8 4)) with
  | none => s.tcRefuse
  | some part =>
    let key := 4096 * part + nbits (f 0 4) 16 12
    let old := tfind key s.contexts
    let was : Context := old.getD {}
    let level := nbits (f 0 4) 28 2
    let flags := f 4 4
    if !(tget {} part s.hub.pt).v || level ≤ w.level && w.level ≠ 0 || !(w.level == 0 || (match s.chain (f 8 4) with | some ch => ch.contains w.entry | none => false)) || (flags.testBit 6 && !s.writerHolds w 8) || (decide (was.ceiling < nbits flags 8 3) && !s.writerHolds w 9) || (was.slice ≠ f 0xC 4 && !s.writerHolds w 3) then s.tcRefuse
    else
      let s1 := s.modContext key (fun c => c.load bs desc part)
      let s2 := if old.isNone then (s1.modContext key (fun c => { c with sliceStart := s1.devTime })).loadTasks key else s1
      let r := s2.loadRouters key
      (r.2.tcRun 3).modHub (fun h => { h with tcErr := !r.1 })

/-- Command 4; what it loads applies once BUSY clears. -/
def State.tcReloadTask (s : State) (w : Writer) : State :=
  match s.contexts.find? (fun c => c.2.num == nbits s.hub.tcArg0 0 12 && s.holdsOver w c.1 12) with
  | none => s.tcRefuse
  | some c => (s.tcRun 4).modHub (fun h => { h with tcCtx := c.1 })

/-- A write of tc.cmd starts a command, and is ignored while one runs (R337); a number that names none is a bad
argument. -/
def State.tcWrite (s : State) (w : Writer) (cmd : Nat) : State :=
  if s.hub.tcBusy then s
  else match cmd with
    | 1 => s.tcInvalidateS1 w
    | 2 => s.tcInvalidateS2 w
    | 3 => s.tcReloadContext w
    | 4 => s.tcReloadTask w
    | _ => s.tcRefuse

/-- TC_INVALIDATE_S1 (R337). -/
def execTcInvalidateS1 (w : Writer) (s : State) : Host.Outcome State Fault Refusal := .next (s.tcWrite w 1)

/-- TC_INVALIDATE_S2 (R337). -/
def execTcInvalidateS2 (w : Writer) (s : State) : Host.Outcome State Fault Refusal := .next (s.tcWrite w 2)

/-- TC_RELOAD_CONTEXT (R335, R337). -/
def execTcReloadContext (w : Writer) (s : State) : Host.Outcome State Fault Refusal := .next (s.tcWrite w 3)

/-- TC_RELOAD_TASK (R337). -/
def execTcReloadTask (w : Writer) (s : State) : Host.Outcome State Fault Refusal := .next (s.tcWrite w 4)

/-- The running command ends: what it loads is loaded, what it names leaves the caches. -/
def State.tcEnd (s : State) : Bool × State :=
  match s.hub.tcCmd with
  | 1 | 2 => (true, s.tcDrop)
  | 4 => (s.loadTasks s.hub.tcCtx).loadRouters s.hub.tcCtx
  | _ => (!s.hub.tcErr, s)

/-- TC_COMMAND_DONE (R337): BUSY clears once every write-back of the command has been accepted; bytes written since in
lines that it names are written back first. -/
def execTcCommandDone (s : State) : Host.Outcome State Fault Refusal :=
  let inv := decide (s.hub.tcCmd = 1 ∨ s.hub.tcCmd = 2)
  if !s.hub.tcBusy || (inv && s.tcPending) then .next s
  else if inv && s.tcLines.any (fun x => x.2.2.2.dirty ≠ []) then .next s.tcSweep
  else .next (s.tcEnd.2.modHub (fun h => { h with tcBusy := false, tcErr := !s.tcEnd.1 }))

end Sys2Proof.Machine
end

