-- ==== Sys2Proof/Machine/Registers.lean ====
section
/-! DEFINITION. Control registers by their machine address (17 R315 and the rules of each block): what a write does, and
what a read gives. The offsets of a die's and of the hub's blocks are those of R315. -/

namespace Sys2Proof.Machine

/-! ### Words -/

/-- A 32-bit write to a half of a 64-bit register. -/
def setHalf (x off v : Nat) : Nat := if off % 8 = 0 then x / 2 ^ 32 * 2 ^ 32 + v else x % 2 ^ 32 + v * 2 ^ 32
/-- A 64-bit register after a write of `n` bytes at offset `off`. -/
def setPart (x off n v : Nat) : Nat := if n = 8 then v else setHalf x off v
/-- Bits [hi−1:lo] of a value in place. -/
def keepBits (x lo hi : Nat) : Nat := nbits x lo (hi - lo) * 2 ^ lo
/-- The 32-bit half of a 64-bit register at offset `off`. -/
def halfOf (x off : Nat) : Nat := if off % 8 = 0 then x % 2 ^ 32 else x / 2 ^ 32 % 2 ^ 32

/-- A write of `n` bytes that reaches 32-bit registers: one, or two in ascending order. -/
def State.eachWord (s : State) (o n v : Nat) (f : State → Nat → Nat → State) : State :=
  if n = 8 then f (f s o (nbits v 0 32)) (o + 4) (nbits v 32 32) else f s o (nbits v 0 32)

/-- Whether a writer's entry is effective and of its level. -/
def State.atLevel (s : State) (w : Writer) : Bool := (s.chain w.entry).isSome && (tget {} w.entry s.hub.dl).level == w.level

/-! ### Delegation (R329, R330) -/

/-- A delegation entry from its two doublewords. -/
def delegationOf (low high : Nat) : Delegation :=
  { gen := nbits high 32 16, pgen := nbits high 16 16, parent := nbits high 8 8, grantee := nbits high 0 8 * 256 + nbits low 56 8, level := nbits low 54 2, v := low.testBit 53, mask := nbits low 0 16 }

/-- The two doublewords of an entry. -/
def Delegation.low (e : Delegation) : Nat := e.mask + e.v.toNat * 2 ^ 53 + e.level * 2 ^ 54 + e.grantee % 256 * 2 ^ 56
def Delegation.high (e : Delegation) : Nat := e.grantee / 256 + e.parent * 2 ^ 8 + e.pgen * 2 ^ 16 + e.gen * 2 ^ 32

/-- The checks of R329 and R330 on an entry that is written. -/
def State.entryAccepted (s : State) (w : Writer) (index low high : Nat) : Bool :=
  let e := delegationOf low high
  let parent := tget {} w.entry s.hub.dl
  2 ≤ index && index < 256 && nbits high 48 16 == 0 && nbits low 16 37 == 0 && !e.mask.testBit 15 && e.parent == w.entry && s.writerHolds w 5 && (e.mask &&& parent.mask) == e.mask && e.level == w.level + 1 && e.level ≤ 2 && !s.hub.dl.any (fun x => x.2.v && x.2.parent == index && x.1 != index && decide (2 ≤ x.1))

/-- A write of an entry's low doubleword is staged, nothing more (R330). -/
def State.stageEntry (s : State) (index v : Nat) : State := if index < 256 then s.modHub (fun h => { h with dlLow := tset 0 index v h.dlLow }) else s

/-- A write of its high doubleword is checked, and commits the entry or sets ERR (R330). -/
def State.commitEntryWrite (s : State) (w : Writer) (index v : Nat) : State :=
  let low := tget 0 index s.hub.dlLow
  s.modHub (fun h => if s.entryAccepted w index low v then { h with dl := tput index (delegationOf low v) h.dl, dlLow := tdel index h.dlLow, dlErr := false } else { h with dlErr := true, dlLow := tdel index h.dlLow })

/-- A write of dl.revoke: the named entry's generation rises; a root is never changed (R329, R330). -/
def State.revoke (s : State) (w : Writer) (v : Nat) : State :=
  let i := nbits v 0 8
  let e : Delegation := tget {} i s.hub.dl
  s.modHub (fun h => if 2 ≤ i && !h.dlBusy && e.parent == w.entry && s.writerHolds w 5 then { h with dl := tput i { e with gen := (e.gen + 1) % 2 ^ 16 } h.dl, dlBusy := true, dlErr := false } else { h with dlErr := true })

/-- A write to the delegation block. A 32-bit write to half of an entry's doubleword does nothing (log 70). -/
def State.writeDl (s : State) (w : Writer) (o n v : Nat) : State :=
  if o < 0x1000 then (if n ≠ 8 then s else if o % 16 = 0 then s.stageEntry (o / 16) v else s.commitEntryWrite w (o / 16) v)
  else if o = 0x1000 then s.revoke w (nbits v 0 32)
  else s

/-! ### Routing and shares (R331, R317, R325) -/

/-- A routing row after a write to the cells of origin levels `ls`: a cell changes only where the writer may write it. -/
def routeRow (w : Writer) (old value : Nat) (ls : List Nat) : Nat :=
  ((List.range 3).map (fun l => (if ls.contains l && decide (w.level ≤ l) && decide (nbits value (16 * l) 2 ≤ w.level) then nbits value (16 * l) 16 else nbits old (16 * l) 16) * 2 ^ (16 * l))).foldl (· + ·) 0

/-- A write to a routing row (R331). -/
def State.writeRow (s : State) (w : Writer) (row : Nat) (part : RowPart) (v : Nat) : State :=
  let ls := match part with | .all => [0, 1, 2] | .low => [0, 1] | .high => [2]
  let x := match part with | .high => nbits v 0 32 * 2 ^ 32 | _ => v
  if row < 48 && s.writerHolds w 6 && ls.all (fun l => nbits x (16 * l + 3) 5 == 0) then s.modHub (fun h => { h with rt := tset 0 row (routeRow w (tget 0 row h.rt) x ls) h.rt }) else s

/-- The sum of the valid shares of one level but that of `index` (R317). -/
def Hub.otherShares (h : Hub) (level index : Nat) : Nat :=
  ((h.pwShare.filter (fun x => x.1 ≠ index && x.2.testBit 31 && x.2 / 2 ^ 32 == level)).map (fun x => nbits x.2 0 11)).foldl (· + ·) 0

/-- A write of a power share (R317): an entry keeps the level that wrote it, since only shares of one level are summed.
Level 1 writes those of its own tenants. -/
def State.writePwShare (s : State) (w : Writer) (index value : Nat) : State :=
  let v := value &&& 0x8FFFF7FF
  let old := tget 0 index s.hub.pwShare
  let mine (x : Nat) : Bool := w.level == 0 || s.ownTenant w (nbits x 12 16)
  if index < 256 && w.level ≤ 1 && s.writerHolds w 2 && mine v && (w.level == 0 || !old.testBit 31 || (old / 2 ^ 32 == 1 && mine old)) && (!v.testBit 31 || s.hub.otherShares w.level index + nbits v 0 11 ≤ 1024) then s.modHub (fun h => { h with pwShare := tset 0 index (v + w.level * 2 ^ 32) h.pwShare }) else s

/-- A write of a bandwidth share (R325): level 0, or level 1 with PWR for its own tenants, the one that the entry names and
the one that it named. -/
def State.writeBwShare (s : State) (w : Writer) (die index value : Nat) : State :=
  let v := value &&& 0x80FFFFFF
  let old := tget 0 index (s.die die).bwShare
  let others := (((s.die die).bwShare.filter (fun x => x.1 ≠ index && x.2.testBit 31)).map (fun x => nbits x.2 0 8)).foldl (· + ·) 0
  let own := w.level == 1 && s.writerHolds w 2 && s.ownTenant w (nbits v 8 16) && (!old.testBit 31 || s.ownTenant w (nbits old 8 16))
  if die < 24 && index < 64 && ((w.level == 0 && s.atLevel w) || own) && (!v.testBit 31 || others + nbits v 0 8 ≤ 256) then s.modDie die (fun d => { d with bwShare := tset 0 index v d.bwShare }) else s

/-! ### The partition table and the module number (R333, R357) -/

/-- Whether a die mask is not empty and no other valid entry holds a die of it. -/
def State.diesFree (s : State) (entry dies : Nat) : Bool := dies ≠ 0 && s.hub.pt.all (fun p => p.1 == entry || !p.2.v || (p.2.dies &&& dies) == 0)

/-- A partition that is undefined loses its contexts. -/
def State.undefine (s : State) (entry : Nat) : State :=
  let cs := (s.contexts.filter (fun c => c.2.part == entry)).map (·.1)
  { s with contexts := s.contexts.filter (fun c => c.2.part ≠ entry), dies := s.dies.map (fun (d : Nat × Die) => (d.1, { d.2 with routers := d.2.routers.filter (fun r => !cs.contains r.2.ctx) })) }

/-- Puts an entry of the partition table where that keeps its rules (R333): dies and root change only while it is not
valid, a valid one has dies of its own, and one with a resident context stays. -/
def State.putPartition (s : State) (entry : Nat) (q : Partition) : State :=
  let p : Partition := tget {} entry s.hub.pt
  let same := p.dies == q.dies && p.s2root == q.s2root
  if (p.v && !same) || (q.v && !s.diesFree entry q.dies) || (p.v && !q.v && s.contexts.any (fun c => c.2.part == entry && s.ctxResident c.1)) then s
  else (if p.v && !q.v then s.undefine entry else s).modHub (fun h => { h with pt := tput entry q h.pt })

/-- A write of one field of a partition-table entry; a reserved bit that is set makes it ignored. -/
def State.writePartition (s : State) (entry : Nat) (field : PartField) (v : Nat) : State :=
  let p : Partition := tget {} entry s.hub.pt
  match field with
  | .ctl => if 2 ≤ v then s else s.putPartition entry { p with v := v == 1 }
  | .dies => if 2 ^ 24 ≤ v then s else s.putPartition entry { p with dies := v }
  | .s2root => if v % 2 ^ 16 ≠ 0 || 2 ^ 52 ≤ v then s else s.putPartition entry { p with s2root := v }
  | .reserved => s

/-- A write to the partition table (R333): a 64-bit word gives CTL and DIES together, a 32-bit one half of S2ROOT. -/
def State.writePt (s : State) (w : Writer) (o n v : Nat) : State :=
  let entry := o / 32
  let p : Partition := tget {} entry s.hub.pt
  if 24 ≤ entry || w.level ≠ 0 || !s.writerHolds w 1 then s
  else if o % 32 = 0 && n = 8 then (if 2 ≤ nbits v 0 32 || 2 ^ 24 ≤ nbits v 32 32 then s else s.putPartition entry { p with v := v.testBit 0, dies := nbits v 32 32 })
  else if o % 32 = 0 then s.writePartition entry .ctl v
  else if o % 32 = 4 then s.writePartition entry .dies v
  else if o % 32 = 8 || o % 32 = 12 then s.writePartition entry .s2root (setPart p.s2root o n v)
  else s

/-- A write of lk.module (R357). -/
def State.writeModule (s : State) (w : Writer) (v : Nat) : State :=
  if w.level == 0 && s.writerHolds w 14 && !s.contexts.any (fun c => s.ctxResident c.1) then s.modHub (fun h => { h with module := nbits v 0 13 }) else s

/-! ### Blocks of the dies (R50, R55, R61) -/

/-- A write of a prefetch selector (R55): the bucket's four counters start at zero. -/
def State.writeSel (s : State) (w : Writer) (slice index v : Nat) : State :=
  if slice < 768 && index < 8 && w.level ≤ 1 && s.atLevel w then s.modSlice slice (fun x => { x with sel := tset 0 index (nbits v 0 17) x.sel, pf := [0, 1, 2, 3].foldl (fun t k => tset 0 (9 * k + index) 0 t) x.pf }) else s

/-- A write of a remap-filter entry's word (R61): a runtime those of its own tenant, and it may claim one that is as
reset left it; level 1 any, and level 0 as level 1 (log 70). -/
def State.writeRmf (s : State) (w : Writer) (core index : Nat) (canon : Bool) (value : Nat) : State :=
  let old := tget 0 index (s.core core).alias_
  let v := if canon then nbits value 0 40 else nbits value 0 56 + nbits value 63 1 * 2 ^ 63
  let own (x : Nat) : Bool := nbits x 0 16 == w.tenant.toNat
  let may := w.level ≤ 1 || (if canon then own old else (old == 0 || own old) && own v)
  if core < 1536 && index < 64 && s.writerHolds w 13 && may then s.modCore core (fun k => if canon then { k with canon := tset 0 index v k.canon } else { k with alias_ := tset 0 index v k.alias_ }) else s

/-- A write of hpt.ctl (R50): EN = 0 clears the tables; EN set anew starts an epoch. -/
def Die.writeHpt (d : Die) (v now : Nat) : Die :=
  let v := nbits v 0 1 + min 8 (nbits v 1 4) * 2 + nbits v 8 8 * 256
  if v.testBit 0 then { d with hptCtl := v, hptSince := if d.hptCtl.testBit 0 then d.hptSince else now, hptMade := if d.hptCtl.testBit 0 then d.hptMade else 0 }
  else { d with hptCtl := v, hptSlow := [], hptFast := [], samplesFast := 0, samplesSlow := 0 }
def State.writeHpt (s : State) (w : Writer) (die v : Nat) : State :=
  if die < 24 && w.level == 0 && s.writerHolds w 14 then s.modDie die (fun d => d.writeHpt v s.devTime) else s

/-- A word written to a firewall's registers (R332). -/
def Firewall.writeReg (f : Firewall) (r v : Nat) : Firewall :=
  if r = 0 then { f with ctl := nbits v 0 2 }
  else if r = 8 || r = 12 then { f with base := keepBits (setHalf f.base r v) 16 52 }
  else if r = 16 || r = 20 then { f with limit := keepBits (setHalf f.limit r v) 16 52 }
  else if 0x18 ≤ r && r < 0x28 then { f with ten := tset 0 ((r - 0x18) / 4) (nbits v 0 17) f.ten }
  else f

/-- A word written to a register of a die that has no behaviour of its own (R50, R313, R325, R332). -/
def Die.writeReg (d : Die) (o v : Nat) : Die :=
  if o = 0x04 then { d with hptEpoch := max 1 (nbits v 0 16) }
  else if o = 0x08 then { d with hptThr := nbits v 0 16 }
  else if o = 0xA0018 then (if v.testBit 0 then { d with log := { d.log with ovf := false } } else d)
  else if o = 0xC0108 then { d with bwThr := nbits v 0 12 }
  else if 0x90000 ≤ o && o < 0x90400 then
    let port := o % 0x1000 / 0x100
    let f : Firewall := tget {} port d.fw
    let g := f.writeReg (o % 0x100) v
    if g = f then d else { d with fw := tput port g d.fw }
  else d

/-- The rights that a die's register asks of its writer: level 0, and TRK for the tracker and the firewalls. -/
def State.dieRegAllowed (s : State) (w : Writer) (o : Nat) : Bool := w.level == 0 && (if o < 0x10000 || (0x90000 ≤ o && o < 0x90400) then s.writerHolds w 14 else s.atLevel w)

/-- A write to the blocks of die `die` at offset `o`. -/
def State.writeDie (s : State) (w : Writer) (die o n v : Nat) : State :=
  if 0x40000 ≤ o && o < 0x80000 then
    let core := 64 * die + (o - 0x40000) / 0x1000
    let r := o % 0x1000
    let k := s.core core
    if 0x400 ≤ r then s
    else if r % 16 < 8 then s.writeRmf w core (r / 16) false (setPart (tget 0 (r / 16) k.alias_) r n v)
    else s.writeRmf w core (r / 16) true (setPart (tget 0 (r / 16) k.canon) r n v)
  else s.eachWord o n v (fun s o v =>
    if o = 0 then s.writeHpt w die v
    else if 0x10000 ≤ o && o < 0x30000 then (if o % 0x1000 < 0x20 then s.writeSel w (32 * die + (o - 0x10000) / 0x1000) (o % 0x1000 / 4) v else s)
    else if 0xC0000 ≤ o && o < 0xC0100 then s.writeBwShare w die ((o - 0xC0000) / 4) v
    else if !s.dieRegAllowed w o then s
    else if 0x80000 ≤ o && o < 0x88000 then (if o % 0x1000 = 0 then s.modCluster (8 * die + (o - 0x80000) / 0x1000) (fun c => { c with drpThr := nbits v 0 8 }) else s)
    else s.modDie die (fun d => d.writeReg o v))

/-! ### Blocks of the hub and of a context -/

/-- A word written to el.stat of the hub, or to an argument of translation control (R313, R337). -/
def Hub.writeReg (h : Hub) (o v : Nat) (level0 : Bool) : Hub :=
  if o = 0x18 then (if level0 && v.testBit 0 then { h with log := { h.log with ovf := false } } else h)
  else if o = 0x40008 || o = 0x4000C then { h with tcArg0 := setHalf h.tcArg0 o v }
  else if o = 0x40010 || o = 0x40014 then { h with tcArg1 := setHalf h.tcArg1 (o - 0x10) v }
  else h

/-- A write to the blocks of the hub at offset `o` (R315). -/
def State.writeHub (s : State) (w : Writer) (o n v : Nat) : State :=
  if 0x20000 ≤ o && o < 0x30000 then s.writeDl w (o - 0x20000) n v
  else if 0x30000 ≤ o && o < 0x40000 then s.writeRow w ((o - 0x30000) / 8) (if n = 8 then .all else if o % 8 = 0 then .low else .high) v
  else if 0x50000 ≤ o && o < 0x60000 then s.writePt w (o - 0x50000) n v
  else s.eachWord o n v (fun s o v =>
    if 0x10000 ≤ o && o < 0x10400 then s.writePwShare w ((o - 0x10000) / 4) v
    else if o = 0x40000 then s.tcWrite w v
    else if o = 0x60000 then s.writeModule w v
    else if s.atLevel w then s.modHub (fun h => h.writeReg o v (w.level == 0)) else s)

/-- A word written to the fields of a context's halt block without behaviour of their own (16 R305). -/
def HaltBlock.writeReg (b : HaltBlock) (o v : Nat) : HaltBlock :=
  if o = 0x10 || o = 0x14 then { b with stop := keepBits (setHalf b.stop (o - 0x10) v) 12 64 }
  else if o = 0x18 then { b with wdt := nbits v 0 24 }
  else if o = 0x1C then { b with debugBits := nbits v 0 1 }
  else b

/-- A word written to a context's race-detector block (13 R254). -/
def RaceBlock.writeReg (b : RaceBlock) (o v : Nat) : RaceBlock :=
  if o = 0x08 || o = 0x0C then { b with lo := keepBits (setHalf b.lo o v) 5 64 }
  else if o = 0x10 || o = 0x14 then { b with hi := keepBits (setHalf b.hi o v) 5 64 }
  else if o = 0x18 || o = 0x1C then { b with shadow := keepBits (setHalf b.shadow o v) 3 64 }
  else if o = 0x20 || o = 0x24 then { b with log := keepBits (setHalf b.log o v) 5 64 }
  else if o = 0x28 then { b with logsz := min 16 (nbits v 0 5) }
  else b

/-- A write of rd.ctl (13 R254): EN set anew restarts the count of log records. -/
def State.writeRd (s : State) (w : Writer) (ctx v : Nat) : State :=
  if s.holdsOver w ctx 10 then s.modContext ctx (fun c => { c with rd := { c.rd with en := v.testBit 0, mode := v.testBit 1, logwr := if v.testBit 0 && !c.rd.en then 0 else c.rd.logwr } }) else s

/-- A word written to a context's halt block, by its owning level (16 R305). -/
def State.writeHalt (s : State) (w : Writer) (ctx o v : Nat) : State :=
  if o = 4 then s.haltCmd w ctx v
  else if s.ownsHalt w ctx then s.modContext ctx (fun x => { x with hb := x.hb.writeReg o v }) else s

/-- A word written to a context's race-detector block (13 R254). -/
def State.writeRace (s : State) (w : Writer) (ctx o v : Nat) : State :=
  if o = 0 then s.writeRd w ctx v
  else if s.holdsOver w ctx 10 then s.modContext ctx (fun x => { x with rd := x.rd.writeReg o v }) else s

/-! ### By address (R315) -/

/-- The block that a machine address lies in, with the offset there. -/
inductive Block where
  | halt (ctx o : Nat)
  | race (ctx o : Nat)
  | hub (o : Nat)
  | die (d o : Nat)
deriving DecidableEq, Repr

def hubBase : Nat := 0xFFF0000000000
def dieBase : Nat := 0xF000000000000

def State.blockOf (s : State) (addr : Nat) : Option Block :=
  match s.contexts.find? (fun c => c.2.haltb ≤ addr && addr < c.2.haltb + 0x20), s.contexts.find? (fun c => c.2.raceb ≤ addr && addr < c.2.raceb + 0x38) with
  | some c, _ => some (.halt c.1 (addr - c.2.haltb))
  | none, some c => some (.race c.1 (addr - c.2.raceb))
  | none, none =>
    if hubBase ≤ addr then some (.hub (addr - hubBase))
    else if dieBase ≤ addr && addr < dieBase + 0x18000000 then some (.die ((addr - dieBase) / 0x1000000) (addr % 0x1000000))
    else none

/-- Whether an access is an aligned 32-bit or 64-bit word. -/
def wordAccess (addr size : Nat) : Bool := (size == 4 || size == 8) && addr % size == 0

/-- A write to a control register at a machine address; one of another size is ignored. -/
def State.writeRegister (s : State) (w : Writer) (addr size v : Nat) : State :=
  if !wordAccess addr size then s
  else match s.blockOf addr with
    | some (.halt ctx o) => s.eachWord o size v (fun s o v => s.writeHalt w ctx o v)
    | some (.race ctx o) => s.eachWord o size v (fun s o v => s.writeRace w ctx o v)
    | some (.hub o) => s.writeHub w o size v
    | some (.die d o) => s.writeDie w d o size v
    | none => s

/-! ### What a read gives (00 R9, R315) -/

/-- The 32-bit words of a log entry (16 R313). -/
def LogEntry.word (e : LogEntry) (i : Nat) : Nat :=
  match i with
  | 0 => e.seq % 2 ^ 32 | 1 => e.seq / 2 ^ 32 | 2 => e.time % 2 ^ 32 | 3 => e.time / 2 ^ 32 % 2 ^ 32
  | 4 => e.info % 2 ^ 32 | 5 => e.ctx % 2 ^ 12 | 6 => e.addr % 2 ^ 32 | _ => e.addr / 2 ^ 32 % 2 ^ 32

/-- Whether a reader sees a log entry: level 0 every one, another level those with its tenants (16 R313). -/
def State.seesEntry (s : State) (w : Writer) (e : LogEntry) : Bool := w.level == 0 || s.ownTenant w (e.info / 2 ^ 16)

/-- A word of an error log. -/
def State.logWord (s : State) (w : Writer) (l : ErrLog) (o : Nat) : Nat :=
  if o < 0x08 then halfOf l.count o
  else if o < 0x10 then halfOf l.trans o
  else if o < 0x18 then halfOf l.last o
  else if o = 0x18 then l.ovf.toNat
  else if 0x100 ≤ o && o < 0x500 then (match tfind ((o - 0x100) / 32) l.entries with
    | some e => if s.seesEntry w e then e.word (o % 32 / 4) else 0
    | none => 0)
  else 0

/-- An entry that is read is marked so (16 R313). -/
def ErrLog.readAt (l : ErrLog) (o : Nat) (sees : LogEntry → Bool) : ErrLog :=
  if 0x100 ≤ o && o < 0x500 then { l with entries := l.entries.map (fun (e : Nat × LogEntry) => if e.1 = (o - 0x100) / 32 ∧ sees e.2 = true then (e.1, { e.2 with read := true }) else e) } else l

/-- hb.stat (16 R305). -/
def State.haltStat (s : State) (ctx : Nat) : Nat :=
  let hb := (s.context ctx).hb
  hb.halt.toNat + hb.stopped.toNat * 2 + hb.eovf.toNat * 4 + (hb.preempt || decide (s.leavingTeams ctx ≠ [])).toNat * 8 + hb.refused.toNat * 16

/-- A word of a context's halt block (16 R305). -/
def State.haltWord (s : State) (ctx o : Nat) : Nat :=
  let hb := (s.context ctx).hb
  if o = 0 then s.haltStat ctx else if o = 4 then hb.cmd else if o = 8 then hb.first else if o = 0xC then min 1024 hb.nrec
  else if o < 0x18 then halfOf hb.stop (o - 0x10) else if o = 0x18 then hb.wdt else hb.debugBits

/-- A word of a context's race-detector block (13 R254). -/
def RaceBlock.word (b : RaceBlock) (o : Nat) : Nat :=
  if o = 0 then b.en.toNat + b.mode.toNat * 2
  else if o < 8 then 0
  else if o < 0x10 then halfOf b.lo o else if o < 0x18 then halfOf b.hi o else if o < 0x20 then halfOf b.shadow o else if o < 0x28 then halfOf b.log o
  else if o = 0x28 then b.logsz else if o = 0x2C then b.logwr % 2 ^ 32 else halfOf b.hits o

/-- A word of a firewall (R332). -/
def Firewall.word (f : Firewall) (o : Nat) : Nat :=
  if o = 0 then f.ctl else if o < 8 then 0 else if o < 0x10 then halfOf f.base o else if o < 0x18 then halfOf f.limit o else if o < 0x28 then tget 0 ((o - 0x18) / 4) f.ten else 0

/-- Whether a reader sees the prefetch counters of a bucket: level 0 all; another level, with CNT, those of its own
tenants (R55, R328). -/
def State.seesBucket (s : State) (w : Writer) (x : Slice) (i : Nat) : Bool :=
  w.level == 0 || (s.writerHolds w 4 && decide (i < 8) && (tget 0 i x.sel).testBit 16 && s.ownTenant w (nbits (tget 0 i x.sel) 0 16))

/-- A word of the blocks of a die. -/
def State.dieWord (s : State) (w : Writer) (die o : Nat) : Nat :=
  let d := s.die die
  if o < 0x10000 then
    if o = 0 then d.hptCtl else if o = 4 then d.hptEpoch else if o = 8 then d.hptThr else if o = 0xC then (decide (d.swaps ≠ [])).toNat
    else if o < 0x18 then halfOf d.hptSwaps o else if o < 0x20 then halfOf d.hptPinskip o else 0
  else if o < 0x30000 then
    let x := s.slice (32 * die + (o - 0x10000) / 0x1000)
    let r := o % 0x1000
    if r < 0x20 then tget 0 (r / 4) x.sel
    else if 0x40 ≤ r && r < 0x140 && r % 0x40 / 4 < 9 && s.seesBucket w x (r % 0x40 / 4) then tget 0 (9 * (r / 0x40 - 1) + r % 0x40 / 4) x.pf
    else 0
  else if o < 0x40000 then 0
  else if o < 0x80000 then
    let k := s.core (64 * die + (o - 0x40000) / 0x1000)
    let r := o % 0x1000
    if 0x400 ≤ r then 0 else halfOf (tget 0 (r / 16) (if r % 16 < 8 then k.alias_ else k.canon)) o
  else if o < 0x88000 then
    let c := s.cluster (8 * die + (o - 0x80000) / 0x1000)
    let r := o % 0x1000
    if r = 0 then c.drpThr else if r = 8 || r = 12 then halfOf c.alarms r else if r = 16 || r = 20 then halfOf c.stretched r else 0
  else if o < 0x90000 then 0
  else if o < 0x90400 then (tget {} (o % 0x1000 / 0x100) d.fw : Firewall).word (o % 0x100)
  else if 0xA0000 ≤ o && o < 0xB0000 then s.logWord w d.log (o - 0xA0000)
  else if 0xC0000 ≤ o && o < 0xC0100 then tget 0 ((o - 0xC0000) / 4) d.bwShare
  else if o = 0xC0100 then d.bwScale else if o = 0xC0104 then d.bwTemp else if o = 0xC0108 then d.bwThr else 0

/-- A word of the blocks of the hub. -/
def State.hubWord (s : State) (w : Writer) (o : Nat) : Nat :=
  let h := s.hub
  if o < 0x10000 then s.logWord w h.log o
  else if o < 0x10400 then tget 0 ((o - 0x10000) / 4) h.pwShare % 2 ^ 32
  else if o = 0x10400 then h.pwLent else if o = 0x10404 then h.pwDeficit
  else if o < 0x20000 then 0
  else if o < 0x21000 then (let e : Delegation := tget {} ((o - 0x20000) / 16) h.dl; halfOf (if o % 16 < 8 then e.low else e.high) o)
  else if o = 0x21004 then h.dlBusy.toNat + h.dlErr.toNat * 2
  else if o < 0x30000 then 0
  else if o < 0x30180 then halfOf (tget 0 ((o - 0x30000) / 8) h.rt) o
  else if o < 0x40000 then 0
  else if o = 0x40000 then h.tcCmd else if o = 0x40008 || o = 0x4000C then halfOf h.tcArg0 o else if o = 0x40010 || o = 0x40014 then halfOf h.tcArg1 o
  else if o = 0x40018 then h.tcBusy.toNat + h.tcErr.toNat * 2
  else if 0x50000 ≤ o && o < 0x50300 then
    let p : Partition := tget {} ((o - 0x50000) / 32) h.pt
    let r := o % 32
    if r = 0 then p.v.toNat else if r = 4 then p.dies else if r = 8 || r = 12 then halfOf p.s2root r else 0
  else if o = 0x60000 then h.module else 0

/-- A word of a block. -/
def State.blockWord (s : State) (w : Writer) : Block → Nat
  | .halt ctx o => s.haltWord ctx o
  | .race ctx o => (s.context ctx).rd.word o
  | .hub o => s.hubWord w o
  | .die d o => s.dieWord w d o

/-- Whether a reader's rights reach a block (R315, R328): where R328 names a right for what is written there, that right; else
an effective entry of its level, or of level 0 alone where no other level writes there (DESIGN CHOICE, log 80: the manual does
not say which right a read asks, nor what one without it gives; the model gives 0). -/
def State.reaches (s : State) (w : Writer) : Block → Bool
  | .halt ctx _ => s.holdsOver w ctx 11
  | .race ctx _ => s.holdsOver w ctx 10
  | .hub o =>
    if 0x10000 ≤ o && o < 0x20000 then s.writerHolds w 2
    else if 0x30000 ≤ o && o < 0x40000 then s.writerHolds w 6
    else if 0x50000 ≤ o && o < 0x60000 then w.level == 0 && s.writerHolds w 1
    else if 0x60000 ≤ o then w.level == 0 && s.writerHolds w 14
    else s.atLevel w
  | .die _ o =>
    if o < 0x10000 || (0x90000 ≤ o && o < 0xA0000) then w.level == 0 && s.writerHolds w 14
    else if 0x40000 ≤ o && o < 0x80000 then s.writerHolds w 13
    else if 0x80000 ≤ o && o < 0x90000 then w.level == 0 && s.atLevel w
    else if 0xC0000 ≤ o then s.atLevel w && (w.level == 0 || s.writerHolds w 2)
    else s.atLevel w

/-- What a read of a control register gives: an aligned word its value, another access 0. -/
def State.readRegister (s : State) (w : Writer) (addr size : Nat) : Nat :=
  let word (a : Nat) : Nat := match s.blockOf a with | some b => if s.reaches w b then s.blockWord w b else 0 | none => 0
  if !wordAccess addr size then 0 else if size = 8 then word addr + word (addr + 4) * 2 ^ 32 else word addr

/-- What a read leaves behind: the log entries it returned count as read. -/
def State.noteRead (s : State) (w : Writer) (addr size : Nat) : State :=
  if !wordAccess addr size then s
  else match s.blockOf addr with
    | some (.hub o) => if o < 0x10000 && s.atLevel w then s.modHub (fun h => { h with log := h.log.readAt o (s.seesEntry w) }) else s
    | some (.die d o) => if 0xA0000 ≤ o && o < 0xB0000 && s.atLevel w then s.modDie d (fun x => { x with log := x.log.readAt (o - 0xA0000) (s.seesEntry w) }) else s
    | _ => s

end Sys2Proof.Machine
end

