-- ==== Sys2Proof/Machine/HubEvents.lean ====
section
/-! DEFINITION. The events of the hub: writes of control registers (17 R315; Machine/Registers.lean has what they do), links
and the host (R332, R338, R339), boot and attestation (R341, R342). -/

namespace Sys2Proof.Machine

/-! ### Register writes -/

/-- DL_ENTRY_WRITE_LOW (R330). -/
def execDlEntryWriteLow (_w : Writer) (index : Nat) (value : BitVec 64) (s : State) : Host.Outcome State Fault Refusal := .next (s.stageEntry index value.toNat)

/-- DL_ENTRY_WRITE_HIGH (R329, R330). -/
def execDlEntryWriteHigh (w : Writer) (index : Nat) (value : BitVec 64) (s : State) : Host.Outcome State Fault Refusal := .next (s.commitEntryWrite w index value.toNat)

/-- DL_REVOKE (R330). -/
def execDlRevoke (w : Writer) (value : BitVec 32) (s : State) : Host.Outcome State Fault Refusal := .next (s.revoke w value.toNat)

/-- DL_REVOKE_DONE (R330): every later check sees the new generation. -/
def execDlRevokeDone (s : State) : Host.Outcome State Fault Refusal := .next (s.modHub (fun h => { h with dlBusy := false }))

/-- RT_ROW_WRITE (R331). -/
def execRtRowWrite (w : Writer) (row : Nat) (part : RowPart) (value : BitVec 64) (s : State) : Host.Outcome State Fault Refusal := .next (s.writeRow w row part value.toNat)

/-- PW_SHARE_WRITE (R317). -/
def execPwShareWrite (w : Writer) (index : Nat) (value : BitVec 32) (s : State) : Host.Outcome State Fault Refusal := .next (s.writePwShare w index value.toNat)

/-- BW_SHARE_WRITE (R325). -/
def execBwShareWrite (w : Writer) (die index : Nat) (value : BitVec 32) (s : State) : Host.Outcome State Fault Refusal := .next (s.writeBwShare w die index value.toNat)

/-- PARTITION_TABLE_WRITE (R333). -/
def execPartitionTableWrite (w : Writer) (entry : Nat) (field : PartField) (value : BitVec 64) (s : State) : Host.Outcome State Fault Refusal :=
  .next (if entry < 24 && w.level == 0 && s.writerHolds w 1 then s.writePartition entry field value.toNat else s)

/-- LK_MODULE_WRITE (R357). -/
def execLkModuleWrite (w : Writer) (value : BitVec 32) (s : State) : Host.Outcome State Fault Refusal := .next (s.writeModule w value.toNat)

/-- PF_SEL_WRITE (R55). -/
def execPfSelWrite (w : Writer) (slice index : Nat) (value : BitVec 32) (s : State) : Host.Outcome State Fault Refusal := .next (s.writeSel w slice index value.toNat)

/-- RMF_ENTRY_WRITE (R61). -/
def execRmfEntryWrite (w : Writer) (core index : Nat) (canon : Bool) (value : BitVec 64) (s : State) : Host.Outcome State Fault Refusal := .next (s.writeRmf w core index canon value.toNat)

/-- HPT_CTL_WRITE (R50). -/
def execHptCtlWrite (w : Writer) (die : Nat) (value : BitVec 32) (s : State) : Host.Outcome State Fault Refusal := .next (s.writeHpt w die value.toNat)

/-- REGISTER_WRITE (00 R9, R315): any register by its machine address. -/
def execRegisterWrite (w : Writer) (addr : BitVec 52) (size : Nat) (value : BitVec 64) (s : State) : Host.Outcome State Fault Refusal := .next (s.writeRegister w addr.toNat size value.toNat)

/-- RD_CTL_WRITE (13 R254). -/
def execRdCtlWrite (w : Writer) (ctx : Nat) (value : BitVec 32) (s : State) : Host.Outcome State Fault Refusal := .next (s.writeRd w ctx value.toNat)

/-! ### Links (R332, R339) -/

/-- A fault of the access that a flit carries: its request is held, else its context halts; it is found by the die of the
port (16 R305). -/
def State.linkFault (s : State) (req : Option Nat) (ctx die : Nat) (f : Flt) : State :=
  match req.bind (fun n => (s.req n).map (fun r => (n, r))) with
  | some (n, r) => if r.moving && r.ctx == ctx then s.sliceFault n r f else s.raise ctx f { die := die }
  | none => if (tfind ctx s.contexts).isSome then s.raise ctx f { die := die } else s.interrupt f.cause 0 ctx

/-- FIREWALL_FLIT (R332): a packet that is refused is dropped. -/
def execFirewallFlit (f : Flit) (s : State) : Host.Outcome State Fault Refusal :=
  match (tget {} f.port (s.die f.die).fw : Firewall).refuses (some f.addr.toNat) f.tenant.toNat with
  | none => .next s
  | some r => .next (s.linkFault f.req f.ctx f.die (fFirewall r f.tenant.toNat f.addr.toNat f.inbound f.port f.die))

/-- FLIT_CRC_FAIL (R339, 16 R313): after the link-level replay one retry; then the error is lasting. -/
def execFlitCrcFail (l : CrcFail) (s : State) : Host.Outcome State Fault Refusal :=
  if !l.replayFails then .next s
  else
    let c := s.context l.ctx
    let lasting := l.retryFails
    let seq := (if l.chipToChip then s.hub.log.count else (s.die l.die).log.count) + 1
    let unit := if l.chipToChip then 10 else 9
    let s1 := if l.chipToChip then s.logHub lasting (logInfo c.tenant false false lasting unit (l.port % 32)) c.num l.addr.toNat else s.logDie l.die lasting (logInfo c.tenant false false lasting unit (36 + l.port % 4)) c.num l.addr.toNat
    .next (if lasting then s1.linkFault l.req l.ctx (if l.chipToChip then 0 else l.die) (fLasting seq false false unit l.addr.toNat) else s1)

/-- LINK_DOWN (R339): the group whose push or collective meets the port halts with its context. -/
def execLinkDown (port : Nat) (gid : Option Nat) (ctx : Nat) (addr : BitVec 56) (s : State) : Host.Outcome State Fault Refusal :=
  let s1 := s.modHub (fun h => { h with linkDown := if h.linkDown.contains port then h.linkDown else port :: h.linkDown })
  let f := fLink addr.toNat 1 true port
  .next (match gid with
    | some g => if s1.resident g && (s1.group g).ctx == ctx then s1.raise ctx f { gid := some g } else s1.linkFault none ctx 0 f
    | none => s1.linkFault none ctx 0 f)

/-- The slice number of a walk that no slice makes. -/
def hubWalker : Nat := 768

/-- The machine addresses of `n` bytes of a partition, with the page of each line, if every page has a pinned stage-2 leaf
(R339). -/
def State.peerPages (s : State) (part addr n : Nat) : Option (List (Nat × Option (Nat × Nat))) :=
  let at_ := (List.range n).map (fun k => match s.stage2 part hubWalker (addr + k) with
    | .ok (h, _) => if h.entry.testBit 59 then some (h.out, if h.bits = 16 && h.entry.testBit 58 then some (part, (addr + k) / 2 ^ 16) else none) else none
    | .error _ => none)
  if at_.all (·.isSome) then some (at_.filterMap id) else none

/-- The slice whose replay filter an inbound access of a machine address passes (10 R208, log 73). -/
def inboundSlice (ma : Nat) : Nat := 32 * (placeOf ma).1 + ma / 128 % 32

/-- The source port of a chip-to-chip port in a replay filter: they share port 11 of a slice (10 R193). -/
def linkPort (port : Nat) : Nat := 16 + port

/-- The number of bytes of a peer's access. -/
def opSize : PeerOp → Nat
  | .write bs => bs.length
  | .atomic ty _ _ _ _ => tyBits ty / 8

/-- What an access from the hub does to machine memory: the state and, of an atomic, the old value. -/
def State.hubAccess (s : State) (as : List (Nat × Option (Nat × Nat))) : PeerOp → State × List Nat
  | .write bs => (s.devWrites as ((as.map (·.1)).zip bs), [])
  | .atomic ty kind cas x y =>
    let old := ofBytes (as.map (fun a => s.devByte a.1))
    let r := atomRun { ty := ty, kind := kind, cas := cas } [⟨0, 0, x, y⟩] old
    (s.devWrites as ((as.map (·.1)).zip (toBytes r.2 (tyBits ty / 8))), r.1)

/-- Whether an application core's access lies in device memory (03 R47). -/
def deviceRange (addr n : Nat) : Bool := 0 < n && (List.range n).all (fun k => backed (addr + k))

/-- The context of a port function (R338). -/
def State.functionCtx (s : State) (f : Nat) : Option Nat := (tfind f s.hub.functions).bind (fun c => (tfind c s.contexts).map (fun _ => c))

/-- The machine addresses of an application core's bytes, with the page that the tracker samples (03 R48). -/
def State.appPages (s : State) (addr n : Nat) : List (Nat × Option (Nat × Nat)) :=
  (List.range n).map (fun k => (addr + k, if s.dies.any (fun d => d.2.hptCtl.testBit 0) then s.sampledPage (addr + k) else none))

/-- The number of bytes that an access of the hub's side reaches. -/
def hostSize (a : HostAccess) (bytes : List (BitVec 8)) : Nat :=
  match a with
  | .dmaRead n | .load n => n
  | .dmaWrite | .store => bytes.length
  | .atomic ty _ _ _ _ => tyBits ty / 8
  | .assign _ _ | .register _ _ => 0

/-- The lines of machine memory that an access reaches. -/
def State.accessLines (s : State) : HubAccess → List Nat
  | .peer p => match s.peerPages p.part p.addr.toNat (opSize p.op) with
    | some as => (as.map (fun a => a.1 / 128)).eraseDups
    | none => []
  | .host f addr a bytes =>
    let n := hostSize a bytes
    let ma := addr.toNat % 2 ^ 52
    match a with
    | .dmaRead _ | .dmaWrite => match s.functionCtx f with
      | some ctx => (lineRuns addr.toNat n).filterMap (fun r => (s.machineOf ctx (s.home ctx (r.1 % 2 ^ 56 / 128)).2 (r.1 % 2 ^ 56)).map (· / 128))
      | none => []
    | _ => (lineRuns ma n).map (fun r => r.1 / 128)

/-- Whether two accesses reach one line: the later of them waits for the earlier (10 R193). -/
def State.hubConflict (s : State) (x y : HubAccess) : Bool := (s.accessLines x).any (fun l => (s.accessLines y).contains l)

/-- The machine pages of the swaps in progress. -/
def State.swapMachines (s : State) : List Nat :=
  s.swapPages.filterMap (fun p => match s.stage2 p.1 hubWalker (p.2 * 2 ^ 16) with | .ok (h, _) => some (h.out / 2 ^ 16) | .error _ => none)

/-- Whether a peer's access finds the replay filter full (10 R208). -/
def State.peerFull (s : State) (p : PeerAccess) : Bool :=
  match s.peerPages p.part p.addr.toNat (opSize p.op) with
  | some (a :: _) => let x := s.slice (inboundSlice a.1); !x.replay.any (fun e => e.port == linkPort p.port && e.tag == p.tag.toNat) && decide (64 ≤ x.replay.length)
  | _ => false

/-- Whether an access must wait of itself: for room in a replay filter, or for a page swap (03 R49). -/
def State.hubStalls (s : State) : HubAccess → Bool
  | .peer p => s.peerFull p
  | .host f addr a bytes => match a with
    | .dmaRead _ | .dmaWrite => match s.functionCtx f with
      | some ctx => s.swapStallsAt ctx addr.toNat (hostSize a bytes)
      | none => false
    | _ => s.swapPages ≠ [] && (lineRuns (addr.toNat % 2 ^ 52) (hostSize a bytes)).any (fun r => s.swapMachines.contains (r.1 / 2 ^ 16))

/-- A peer's access is applied, once (10 R208), or refused where its page is not pinned: level 0 hears of cause group 19,
reason 0x2 (R339). -/
def State.peerRun (s : State) (p : PeerAccess) : State :=
  match s.peerPages p.part p.addr.toNat (opSize p.op) with
  | none => s.interrupt 19 0 p.part (fFirewall 2 0 p.addr.toNat true 0 0).detail
  | some as =>
    let k := inboundSlice (as.headD (0, none)).1
    if as = [] || (s.slice k).replay.any (fun e => e.port == linkPort p.port && e.tag == p.tag.toNat) then s
    else
      let r := s.hubAccess as p.op
      let f := r.1.fresh
      f.2.modSlice k (fun x => { x with replay := x.replay ++ [{ port := linkPort p.port, tag := p.tag.toNat, op := f.1, reply := r.2 }] })

/-- An application core's access to device memory, by port 11 of the home slices at scope `.sys` (R338): what it reads
stands in `Hub.answer`. -/
def State.appAccess (s : State) (addr : Nat) (op : PeerOp) : State :=
  if !deviceRange addr (opSize op) || (match op with | .atomic _ _ _ _ _ => addr % (opSize op) ≠ 0 | .write _ => false) then s
  else
    let r := s.hubAccess (s.appPages addr (opSize op)) op
    match op with
    | .write _ => r.1
    | .atomic _ _ _ _ _ => r.1.modHub (fun h => { h with answer := toBytes (r.2.headD 0) (opSize op) })

/-- The die of the slice that finds the fault of an access: that of the address in its detail (16 R305). -/
def State.faultDie (s : State) (ctx : Nat) (f : Flt) : Nat := (s.home ctx (nbits f.detail.toNat 0 56 / 128)).2 / 32

/-- DMA of a port function, translated in two stages under its context; that of a function without one does nothing (R338,
log 73). -/
def State.dmaRun (s : State) (function va : Nat) (read : Option Nat) (bytes : List (BitVec 8)) : State :=
  match s.functionCtx function with
  | none => s
  | some ctx => match read with
    | some n =>
      let r := s.peekRun ctx { rd := true } .engineRead va n
      match r.1 with
      | .ok bs => r.2.modHub (fun h => { h with answer := bs })
      | .error f => r.2.raise ctx f { die := s.faultDie ctx f }
    | none =>
      let bs := byLine (bytes.zipIdx.map (fun b => ((va + b.2) % 2 ^ 56, b.1)))
      match s.slicePokes ctx { wr := true } .engineWrite bs with
      | .ok s1 => s1
      | .error f => (s.pokesMet ctx { wr := true } .engineWrite bs).raise ctx f { die := s.faultDie ctx f }

/-- An access by way of the hub is performed. -/
def State.hubRun (s : State) : HubAccess → State
  | .peer p => s.peerRun p
  | .host function addr a bytes =>
    let ma := addr.toNat % 2 ^ 52
    match a with
    | .dmaWrite => s.dmaRun function addr.toNat none bytes
    | .dmaRead n => s.dmaRun function addr.toNat (some n) bytes
    | .load n => if deviceRange ma n then (s.devAccess ma n).modHub (fun h => { h with answer := s.devBytes ma n }) else s
    | .store => s.appAccess ma (.write bytes)
    | .atomic ty kind cas x y => s.appAccess ma (.atomic ty kind cas x y)
    | .assign _ _ | .register _ _ => s

/-- An access reaches the slices from the hub: it waits behind an earlier one to a line of its own, and for room or a swap. -/
def State.hubArrive (s : State) (x : HubAccess) : State :=
  if s.hub.waits.any (fun y => s.hubConflict y x) || s.hubStalls x then s.modHub (fun h => { h with waits := h.waits ++ [x] }) else s.hubRun x

/-- The waiting accesses that may go on, each with its place. -/
def State.hubReady (s : State) : List (HubAccess × Nat) :=
  s.hub.waits.zipIdx.filter (fun x => !(s.hub.waits.take x.2).any (fun y => s.hubConflict y x.1) && !s.hubStalls x.1)

/-- One of them goes on. -/
def execHubAccess (x : HubAccess × Nat) (s : State) : Host.Outcome State Fault Refusal :=
  .next ((s.modHub (fun h => { h with waits := h.waits.eraseIdx x.2 })).hubRun x.1)

/-- PEER_DIRECT_WRITE (R339): an inbound write or atomic into pages whose stage-2 leaf is pinned. -/
def execPeerDirectWrite (addr : BitVec 52) (part : Nat) (flit : PeerFlit) (s : State) : Host.Outcome State Fault Refusal :=
  .next (s.hubArrive (.peer { flit with part := part, addr := addr }))

/-- ROOT_PORT_DMA (R338): DMA of a port function, translated in two stages under the context that level 1 has assigned to it;
and what else comes from the hub's side: that assignment (log 73), the application cores' accesses to device memory, and
their reads of control registers (R315). -/
def execRootPortDma (function : Nat) (addr : BitVec 64) (a : HostAccess) (bytes : List (BitVec 8)) (s : State) : Host.Outcome State Fault Refusal :=
  let ma := addr.toNat % 2 ^ 52
  match a with
  | .assign w ctx => .next (if w.level ≤ 1 && s.holdsOver w ctx 5 && (tfind ctx s.contexts).isSome then s.modHub (fun h => { h with functions := tput function ctx h.functions }) else s)
  | .register w size => .next ((s.noteRead w ma size).modHub (fun h => { h with answer := toBytes (s.readRegister w ma size) size }))
  | .dmaRead _ | .dmaWrite | .load _ | .store | .atomic _ _ _ _ _ => .next (s.hubArrive (.host function addr a bytes))

/-! ### Boot and attestation (R341, R342) -/

/-- The first stage whose signature does not hold; the configuration counts as the stage after the last. -/
def bootFailure (b : BootImage) : Option Nat :=
  match (b.stages.zipIdx.find? (fun x => !Config.verifies (Config.shake256 x.1.1) x.1.2)).map (·.2) with
  | some i => some i
  | none => if Config.verifies (Config.shake256 b.config) b.configSig && b.configKey == Config.identityKey then none else some b.stages.length

/-- The root entries as firmware writes them (R329). -/
def rootEntry (i mask : Nat) : Delegation := { gen := 0, pgen := 0, parent := i, grantee := 0, level := 0, v := true, mask := mask % 2 ^ 15 }

/-- BOOT (R341, R329, R357): reset starts it, once. -/
def execBoot (b : BootImage) (s : State) : Host.Outcome State Fault Refusal :=
  if s.hub.booted || s.hub.failed.isSome then .next s
  else match bootFailure b with
    | some i => .next ((s.modHub (fun h => { h with failed := some i })).logHub true (logInfo 0 false false true 0 40) 0 i)
    | none =>
      let s1 := s.modHub (fun h => { h with booted := true, bootCount := (h.bootCount + 1) % 2 ^ 64, measurements := b.stages.map (fun x => Config.shake256 x.1), module := b.module.toNat, links := b.links, dl := tput 1 (rootEntry 1 b.rootMask1.toNat) (tput 0 (rootEntry 0 b.rootMask0.toNat) h.dl) })
      .next ((b.partitions.take 24).zipIdx.foldl (fun (s : State) p => ((s.writePartition p.2 .dies p.1.1.toNat).writePartition p.2 .s2root p.1.2.toNat).writePartition p.2 .ctl 1) s1)

/-- The configuration of a partition as bytes: dies, firewalls, shares, root grants (log 38). -/
def State.configBytes (s : State) (part : Nat) : List Byte :=
  let p : Partition := tget {} part s.hub.pt
  let num (x : Nat) : List Byte := toBytes x 8
  let dies := s.partDies part
  num part ++ num p.dies ++ num p.s2root ++
  dies.flatMap (fun d => (List.range 4).flatMap (fun k => let f : Firewall := tget {} k (s.die d).fw; num f.ctl ++ num f.base ++ num f.limit ++ (List.range 4).flatMap (fun i => num (tget 0 i f.ten)))) ++
  (List.range 256).flatMap (fun i => num (tget 0 i s.hub.pwShare)) ++
  dies.flatMap (fun d => (List.range 64).flatMap (fun i => num (tget 0 i (s.die d).bwShare))) ++
  [0, 1].flatMap (fun i => let e : Delegation := tget {} i s.hub.dl; num e.gen ++ num e.pgen ++ num e.grantee ++ num e.v.toNat ++ num e.mask)

/-- The report that a request gives (R342). -/
def State.attest (s : State) (part : Nat) (nonce : List Byte) : Report :=
  let config := Config.shake256 (s.configBytes part)
  let fields := s.hub.measurements.flatten ++ config ++ nonce ++ toBytes s.hub.bootCount 8
  { measurements := s.hub.measurements, config := config, nonce := nonce, counter := s.hub.bootCount, signature := Config.signs (Config.shake256 fields) }

/-- Whether a partition is the requester's own: that of its delegation chain; level 0, which has none, asks for any
(log 38). -/
def State.ownPartition (s : State) (w : Writer) (part : Nat) : Bool := s.atLevel w && (w.level == 0 || s.chainPartition w.entry == some part)

/-- ATTESTATION_REQUEST (R342): by a level for its own partition, with a nonce of 32 bytes. -/
def execAttestationRequest (w : Writer) (part : Nat) (nonce : List (BitVec 8)) (s : State) : Host.Outcome State Fault Refusal :=
  .next (if s.hub.booted && s.ownPartition w part && (tget {} part s.hub.pt : Partition).v && nonce.length == 32 then s.modHub (fun h => { h with reports := h.reports ++ [s.attest part nonce] }) else s)

end Sys2Proof.Machine
end

