-- ==== Sys2Proof/Machine/Integer.lean ====
section
/-! DEFINITION. The integer group (08 R144 to R147) with MOV, MOVI and SEL (06 R113, R114). -/

namespace Sys2Proof.Machine

/-- IADD (R144). -/
def execIadd (o : FOps) (s : State) : Host.Outcome State Fault Refusal := lanewise2 (.iadd o) o s (· + ·)

/-- ISUB (R144). -/
def execIsub (o : FOps) (s : State) : Host.Outcome State Fault Refusal := lanewise2 (.isub o) o s (· - ·)

/-- IMUL (R144). -/
def execImul (o : FOps) (s : State) : Host.Outcome State Fault Refusal := lanewise2 (.imul o) o s (· * ·)

/-- The high half of a product. -/
def mulHigh (u : Bool) (a b : Word) : Word := word (asInt u a * asInt u b / 2 ^ 32)

/-- IMULH (R144). -/
def execImulh (o : FOps) (s : State) : Host.Outcome State Fault Refusal := lanewise2 (.imulh o) o s (mulHigh (o.ox.getLsbD 0))

/-- IMAD (R144). -/
def execImad (o : FOps) (s : State) : Host.Outcome State Fault Refusal := lanewise3 (.imad o) o s (fun a b c => a * b + c)

/-- The 64-bit sum of IMADW (R146). -/
def madWide (u : Bool) (a b : Word) (w : DWord) : DWord := BitVec.ofNat 64 (wrap (asInt u a * asInt u b + w.toNat) 64)

/-- IMADW (R146). -/
def execImadw (o : FOps) (s : State) : Host.Outcome State Fault Refusal :=
  issue (.imadw o) s free_ (fun c t => .ok (t.modGroup c.gid (fun g =>
    let f (L : Nat) : DWord := madWide (o.ox.getLsbD 0) (c.a o L) (c.b t o L) (pair (c.ck o 0 L) (c.ck o 1 L))
    (g.wlanes o.d.toNat (c.active o.g) (fun L => loWord (f L))).wlanes (o.d.toNat + 1) (c.active o.g) (fun L => hiWord (f L)))))

/-- The carry chain (R145): sum or difference to v[D], carry or borrow to q[p]. -/
def carryChain (i : Instr) (o : FOps) (s : State) (f : Word → Word → Bool → Word × Bool) : Host.Outcome State Fault Refusal :=
  issue i s free_ (fun c t => .ok (t.modGroup c.gid (fun g =>
    let p := fld o.ox 0 3
    let r (L : Nat) : Word × Bool := f (c.a o L) (c.b t o L) ((c.g.rq p).getLsbD L)
    (g.wlanes o.d.toNat (c.active o.g) (fun L => (r L).1)).wpred p (c.active o.g) (fun L => (r L).2))))

/-- IADDC (R145). -/
def execIaddc (o : FOps) (s : State) : Host.Outcome State Fault Refusal := carryChain (.iaddc o) o s addCarry

/-- ISUBB (R145). -/
def execIsubb (o : FOps) (s : State) : Host.Outcome State Fault Refusal := carryChain (.isubb o) o s subBorrow

/-- Absolute value, saturating 0x8000_0000 when asked (R144). -/
def absWord (sat : Bool) (a : Word) : Word := if sat then word (clamp a.toInt.natAbs 0 (2 ^ 31 - 1)) else word a.toInt.natAbs

/-- IABS (R144). -/
def execIabs (o : FOps) (s : State) : Host.Outcome State Fault Refusal := lanewise1 (.iabs o) o s (absWord o.sat)

/-- Negation, saturating 0x8000_0000 when asked (R144). -/
def negWord (sat : Bool) (a : Word) : Word := if sat then word (clamp (-a.toInt) (-2 ^ 31) (2 ^ 31 - 1)) else -a

/-- INEG (R144). -/
def execIneg (o : FOps) (s : State) : Host.Outcome State Fault Refusal := lanewise1 (.ineg o) o s (negWord o.sat)

/-- Minimum and maximum, signed or unsigned (R144). -/
def minWord (u : Bool) (a b : Word) : Word := if asInt u a ≤ asInt u b then a else b
def maxWord (u : Bool) (a b : Word) : Word := if asInt u b ≤ asInt u a then a else b

/-- IMIN (R144). -/
def execImin (o : FOps) (s : State) : Host.Outcome State Fault Refusal := lanewise2 (.imin o) o s (minWord (o.ox.getLsbD 0))

/-- IMAX (R144). -/
def execImax (o : FOps) (s : State) : Host.Outcome State Fault Refusal := lanewise2 (.imax o) o s (maxWord (o.ox.getLsbD 0))

/-- An exact result clamped to the INT32 or the UINT32 range (R144). -/
def satWord (u : Bool) (x : Int) : Word := word (if u then clamp x 0 (2 ^ 32 - 1) else clamp x (-2 ^ 31) (2 ^ 31 - 1))

/-- IADDS (R144). -/
def execIadds (o : FOps) (s : State) : Host.Outcome State Fault Refusal :=
  lanewise2 (.iadds o) o s (fun a b => satWord (o.ox.getLsbD 0) (asInt (o.ox.getLsbD 0) a + asInt (o.ox.getLsbD 0) b))

/-- ISUBS (R144). -/
def execIsubs (o : FOps) (s : State) : Host.Outcome State Fault Refusal :=
  lanewise2 (.isubs o) o s (fun a b => satWord (o.ox.getLsbD 0) (asInt (o.ox.getLsbD 0) a - asInt (o.ox.getLsbD 0) b))

/-- Element `k` of `w` bits of a word, signed unless `u` (R147). -/
def element (u : Bool) (w k : Nat) (x : Word) : Int := if u then (nbits x.toNat (w * k) w : Int) else sext (nbits x.toNat (w * k) w) w

/-- The dot product of `n` packed elements added to an INT32 accumulator (R147). -/
def intDot (n : Nat) (ua ub sat : Bool) (a b c : Word) : Word :=
  let t := (List.range n).foldl (fun (acc : Int) k => acc + element ua (32 / n) k a * element ub (32 / n) k b) c.toInt
  if sat then word (clamp t (-2 ^ 31) (2 ^ 31 - 1)) else word t

/-- IDOT4 (R147). -/
def execIdot4 (o : FOps) (s : State) : Host.Outcome State Fault Refusal := lanewise3 (.idot4 o) o s (intDot 4 (o.ox.getLsbD 0) (o.ox.getLsbD 1) o.sat)

/-- IDOT8 (R147). -/
def execIdot8 (o : FOps) (s : State) : Host.Outcome State Fault Refusal := lanewise3 (.idot8 o) o s (intDot 8 (o.ox.getLsbD 0) (o.ox.getLsbD 1) o.sat)

/-- LEA (R144). -/
def execLea (o : FOps) (s : State) : Host.Outcome State Fault Refusal := lanewise2 (.lea o) o s (fun a b => a + b <<< fld o.ox 0 5)

/-- MOV (R113). -/
def execMov (o : FOps) (s : State) : Host.Outcome State Fault Refusal := lanewise (.mov o) o s (fun c t L => c.b t o L)

/-- MOVI (R113). -/
def execMovi (o : Imm32Ops) (s : State) : Host.Outcome State Fault Refusal :=
  issue (.movi o) s free_ (fun c t => .ok (t.modGroup c.gid (fun g => g.wlanes o.d.toNat (c.active o.g) (fun _ => o.imm))))

/-- SEL (R114): A where the predicate, or its complement, is set, else B. -/
def execSel (o : FOps) (s : State) : Host.Outcome State Fault Refusal :=
  lanewise (.sel o) o s (fun c t L => if bxor ((c.g.rq (fld o.ox 0 3)).getLsbD L) (o.ox.getLsbD 3) then c.a o L else c.b t o L)

end Sys2Proof.Machine
end

