-- ==== Sys2Proof/Machine/PForm.lean ====
section
/-! DEFINITION. The P-form (01 R19 to R22): both halves read all their operands before either writes, and each
half has the effect and the faults of the F-form instruction of its name. -/

namespace Sys2Proof.Machine

/-- The lanes of a half. -/
def Iss.pActive (c : Iss) (h : PHalf) : Word := c.active (match h.f.g with | some q => .on false q | none => .none)

/-- The second source of a vector half (R22). -/
def Iss.pSrc (c : Iss) (h : PHalf) (L : Nat) : Word := if h.f.imm then h.f.s.signExtend 32 else c.g.rv h.f.s.toNat L
/-- The second source of a scalar half. -/
def Iss.pScalar (c : Iss) (h : PHalf) : Word := if h.f.imm then h.f.s.signExtend 32 else c.g.rs h.f.s.toNat
/-- The second source in a format, at element `k` (R22). -/
def Iss.pFloat (c : Iss) (h : PHalf) (f : Fmt) (k L : Nat) : Nat :=
  if h.f.imm then (f.round .rne false (.ofInt h.f.s.toInt)).1 else nbits (c.g.rv h.f.s.toNat L).toNat (f.width * k) f.width

/-- The rounding of a half (R22). -/
def halfRm (h : PHalf) : RMode := rmodeOf (h.f.sub.extractLsb' 0 2)

/-- The value of a vector half for lane L, with its exceptions. -/
def Iss.pValue (c : Iss) (h : PHalf) (L : Nat) : Nat × FFlags :=
  let d := c.g.rv h.f.d.toNat L
  let x := c.pSrc h L
  let w (r : Word) : Nat × FFlags := (r.toNat, {})
  let pack (f : Nat → Nat → Nat × FFlags) : Nat × FFlags :=
    let e (k : Nat) : Nat × FFlags := f (nbits d.toNat (16 * k) 16) (c.pFloat h fp16 k L)
    joinHalves (e 0) (e 1)
  match h.op with
  | .iadd => w (d + x)
  | .isub => w (d - x)
  | .imin => w (minWord false d x)
  | .imax => w (maxWord false d x)
  | .and => w (d &&& x)
  | .or => w (d ||| x)
  | .xor => w (d ^^^ x)
  | .shl => w (d <<< (x.toNat % 32))
  | .shr => w (d >>> (x.toNat % 32))
  | .sar => w (d.sshiftRight (x.toNat % 32))
  | .mov => w x
  | .imul => w (d * x)
  | .fadd => fp32.add (halfRm h) d.toNat (c.pFloat h fp32 0 L)
  | .fsub => fp32.sub (halfRm h) d.toNat (c.pFloat h fp32 0 L)
  | .fmul => fp32.mul (halfRm h) d.toNat (c.pFloat h fp32 0 L)
  | .fmin => (fp32.minmax false d.toNat (c.pFloat h fp32 0 L), {})
  | .fmax => (fp32.minmax true d.toNat (c.pFloat h fp32 0 L), {})
  | .hadd2 => pack (fp16.add (halfRm h))
  | .hmul2 => pack (fp16.mul (halfRm h))
  | .sadd | .ssub | .sand | .sor | .sxor | .smov | .sshl | .sshr | .lds | .sts | .nop => w 0

/-- The value of a scalar half. -/
def Iss.pScalarValue (c : Iss) (h : PHalf) : Word :=
  let d := c.g.rs h.f.d.toNat
  let x := c.pScalar h
  match h.op with
  | .sadd => d + x
  | .ssub => d - x
  | .sand => d &&& x
  | .sor => d ||| x
  | .sxor => d ^^^ x
  | .sshl => d <<< (x.toNat % 32)
  | .sshr => d >>> (x.toNat % 32)
  | _ => x

/-- What a half does: a value in each lane, a scalar, a scratchpad access, or nothing. -/
inductive HalfKind where
  | vector | scalar | load | store | nothing
deriving DecidableEq, Repr

def POp.kind : POp → HalfKind
  | .iadd | .isub | .imin | .imax | .and | .or | .xor | .shl | .shr | .sar | .mov | .imul | .fadd | .fsub | .fmul | .fmin | .fmax | .hadd2 | .hmul2 => .vector
  | .sadd | .ssub | .sand | .sor | .sxor | .smov | .sshl | .sshr => .scalar
  | .lds => .load
  | .sts => .store
  | .nop => .nothing

/-- The F-form opcode of a half that can find exceptions, for the cause-4 detail. -/
def POp.fOpcode : POp → Nat
  | .fadd => 0x080 | .fsub => 0x081 | .fmul => 0x082 | .hadd2 => 0x0C0 | .hmul2 => 0x0C1 | _ => 0

/-- The width code and size of an LDS or STS half (R22). -/
def halfWidth (h : PHalf) : Nat := match h.f.sub.toNat with | 1 => 2 | 2 => 0 | _ => 4

/-- The scratchpad addresses of a half (R22). -/
def Iss.pAddrs (c : Iss) (h : PHalf) : List (Nat × Nat) :=
  (lanesIn (c.pActive h)).map (fun L => (L, if h.f.imm then h.f.s.toNat * 4 else (c.g.rv h.f.s.toNat L).toNat))

/-- The fault of a half, if it finds one. -/
def Iss.pFault (c : Iss) (t : State) (h : PHalf) : Option Flt :=
  match POp.kind h.op with
  | .vector => arithFault (POp.fOpcode h.op) c.g.fpx ((lanesIn (c.pActive h)).map (fun L => (L, (c.pValue h L).2)))
  | .load => match checkSp (t.team c.g.team).scratchSize (widthBytes (halfWidth h)) (c.pAddrs h) with
    | some f => some f
    | none => t.spPoison c.g.team (spBytes (widthBytes (halfWidth h)) ((c.pAddrs h).map (·.2)))
  | .store => checkSp (t.team c.g.team).scratchSize (widthBytes (halfWidth h)) (c.pAddrs h)
  | .scalar | .nothing => none

/-- The registers a half writes at its issue, from the state before the word. -/
def Iss.pCells (c : Iss) (h : PHalf) : List (RCell × Word) :=
  match POp.kind h.op with
  | .vector => (lanesIn (c.pActive h)).map (fun L => (⟨0, 32 * h.f.d.toNat + L⟩, BitVec.ofNat 32 (c.pValue h L).1))
  | .scalar => [(⟨1, h.f.d.toNat⟩, c.pScalarValue h)]
  | .load | .store | .nothing => []

/-- The scratchpad access of a half. -/
def State.pAccess (t : State) (c : Iss) (i : Instr) (h : PHalf) : State :=
  match POp.kind h.op with
  | .load => t.scratchLoad c i h.f.d.toNat (halfWidth h) (c.pAddrs h)
  | .store => t.scratchStore c i (widthBytes (halfWidth h)) (fun _ L => c.g.rv h.f.d.toNat L) (c.pAddrs h)
  | .vector | .scalar | .nothing => t

/-- A P-form word (R20). Where both halves find an enabled exception the detail is that of half X
(DESIGN CHOICE, log 9: the manual does not say which half's it is). -/
def execPair (x y : PHalf) (s : State) : Host.Outcome State Fault Refusal :=
  let i := Instr.ofHalves x y
  issue i s free_ (fun c t =>
    match c.pFault t x, c.pFault t y with
    | some f, _ => .error f
    | none, some f => .error f
    | none, none => .ok (((t.pAccess c i x).pAccess c i y).modGroup c.gid (fun g => g.wcells (c.pCells x ++ c.pCells y))))

/-- IADD_P (R20, R22). -/
def execIaddP (x : PFields) (y : PHalf) (s : State) : Host.Outcome State Fault Refusal := execPair ⟨.iadd, x⟩ y s

/-- ISUB_P (R20, R22). -/
def execIsubP (x : PFields) (y : PHalf) (s : State) : Host.Outcome State Fault Refusal := execPair ⟨.isub, x⟩ y s

/-- IMIN_P (R20, R22). -/
def execIminP (x : PFields) (y : PHalf) (s : State) : Host.Outcome State Fault Refusal := execPair ⟨.imin, x⟩ y s

/-- IMAX_P (R20, R22). -/
def execImaxP (x : PFields) (y : PHalf) (s : State) : Host.Outcome State Fault Refusal := execPair ⟨.imax, x⟩ y s

/-- AND_P (R20, R22). -/
def execAndP (x : PFields) (y : PHalf) (s : State) : Host.Outcome State Fault Refusal := execPair ⟨.and, x⟩ y s

/-- OR_P (R20, R22). -/
def execOrP (x : PFields) (y : PHalf) (s : State) : Host.Outcome State Fault Refusal := execPair ⟨.or, x⟩ y s

/-- XOR_P (R20, R22). -/
def execXorP (x : PFields) (y : PHalf) (s : State) : Host.Outcome State Fault Refusal := execPair ⟨.xor, x⟩ y s

/-- SHL_P (R20, R22). -/
def execShlP (x : PFields) (y : PHalf) (s : State) : Host.Outcome State Fault Refusal := execPair ⟨.shl, x⟩ y s

/-- SHR_P (R20, R22). -/
def execShrP (x : PFields) (y : PHalf) (s : State) : Host.Outcome State Fault Refusal := execPair ⟨.shr, x⟩ y s

/-- SAR_P (R20, R22). -/
def execSarP (x : PFields) (y : PHalf) (s : State) : Host.Outcome State Fault Refusal := execPair ⟨.sar, x⟩ y s

/-- MOV_P (R20, R22). -/
def execMovP (x : PFields) (y : PHalf) (s : State) : Host.Outcome State Fault Refusal := execPair ⟨.mov, x⟩ y s

/-- IMUL_P (R20, R22). -/
def execImulP (x : PFields) (y : PHalf) (s : State) : Host.Outcome State Fault Refusal := execPair ⟨.imul, x⟩ y s

/-- FADD_P (R20, R22). -/
def execFaddP (x : PFields) (y : PHalf) (s : State) : Host.Outcome State Fault Refusal := execPair ⟨.fadd, x⟩ y s

/-- FSUB_P (R20, R22). -/
def execFsubP (x : PFields) (y : PHalf) (s : State) : Host.Outcome State Fault Refusal := execPair ⟨.fsub, x⟩ y s

/-- FMUL_P (R20, R22). -/
def execFmulP (x : PFields) (y : PHalf) (s : State) : Host.Outcome State Fault Refusal := execPair ⟨.fmul, x⟩ y s

/-- FMIN_P (R20, R22). -/
def execFminP (x : PFields) (y : PHalf) (s : State) : Host.Outcome State Fault Refusal := execPair ⟨.fmin, x⟩ y s

/-- FMAX_P (R20, R22). -/
def execFmaxP (x : PFields) (y : PHalf) (s : State) : Host.Outcome State Fault Refusal := execPair ⟨.fmax, x⟩ y s

/-- HADD2_P (R20, R22). -/
def execHadd2P (x : PFields) (y : PHalf) (s : State) : Host.Outcome State Fault Refusal := execPair ⟨.hadd2, x⟩ y s

/-- HMUL2_P (R20, R22). -/
def execHmul2P (x : PFields) (y : PHalf) (s : State) : Host.Outcome State Fault Refusal := execPair ⟨.hmul2, x⟩ y s

/-- SADD_P (R20, R22). -/
def execSaddP (x : PFields) (y : PHalf) (s : State) : Host.Outcome State Fault Refusal := execPair ⟨.sadd, x⟩ y s

/-- SSUB_P (R20, R22). -/
def execSsubP (x : PFields) (y : PHalf) (s : State) : Host.Outcome State Fault Refusal := execPair ⟨.ssub, x⟩ y s

/-- SAND_P (R20, R22). -/
def execSandP (x : PFields) (y : PHalf) (s : State) : Host.Outcome State Fault Refusal := execPair ⟨.sand, x⟩ y s

/-- SOR_P (R20, R22). -/
def execSorP (x : PFields) (y : PHalf) (s : State) : Host.Outcome State Fault Refusal := execPair ⟨.sor, x⟩ y s

/-- SXOR_P (R20, R22). -/
def execSxorP (x : PFields) (y : PHalf) (s : State) : Host.Outcome State Fault Refusal := execPair ⟨.sxor, x⟩ y s

/-- SMOV_P (R20, R22). -/
def execSmovP (x : PFields) (y : PHalf) (s : State) : Host.Outcome State Fault Refusal := execPair ⟨.smov, x⟩ y s

/-- SSHL_P (R20, R22). -/
def execSshlP (x : PFields) (y : PHalf) (s : State) : Host.Outcome State Fault Refusal := execPair ⟨.sshl, x⟩ y s

/-- SSHR_P (R20, R22). -/
def execSshrP (x : PFields) (y : PHalf) (s : State) : Host.Outcome State Fault Refusal := execPair ⟨.sshr, x⟩ y s

/-- LDS_P (R20, R22). -/
def execLdsP (x : PFields) (y : PHalf) (s : State) : Host.Outcome State Fault Refusal := execPair ⟨.lds, x⟩ y s

/-- STS_P (R20, R22). -/
def execStsP (x : PFields) (y : PHalf) (s : State) : Host.Outcome State Fault Refusal := execPair ⟨.sts, x⟩ y s

/-- NOP_P (R20, R22). -/
def execNopP (x : PFields) (y : PHalf) (s : State) : Host.Outcome State Fault Refusal := execPair ⟨.nop, x⟩ y s

end Sys2Proof.Machine
end

