-- ==== Sys2Proof/Machine/Scalar.lean ====
section
/-! DEFINITION. The scalar group (06 R119 to R123) but for its memory accesses. -/

namespace Sys2Proof.Machine

/-- A of a scalar word. -/
def Iss.sa (c : Iss) (o : FOps) : Word := c.g.rs o.a.toNat

/-- B of a `.d` form: an even pair, or a sign-extended immediate (R120). -/
def Iss.bd (c : Iss) (o : FOps) : DWord :=
  match o.bk with
  | .imm => o.c.signExtend 64
  | _ => c.g.rpair o.b.toNat

/-- Writes a function of A and B to s[D]. -/
def scalar2 (i : Instr) (o : FOps) (s : State) (f : Word → Word → Word) : Host.Outcome State Fault Refusal :=
  scalar i o s (fun c t => f (c.sa o) (c.bs t o))

/-- A scalar word with a `.d` form, OX[0] (R120). -/
def scalarD (i : Instr) (o : FOps) (s : State) (f : Word → Word → Word) (fd : DWord → DWord → DWord) : Host.Outcome State Fault Refusal :=
  issue i s free_ (fun c t => .ok (t.modGroup c.gid (fun g =>
    if o.ox.getLsbD 0 then g.wpair o.d.toNat (fd (c.g.rpair o.a.toNat) (c.bd o)) else g.ws o.d.toNat (f (c.sa o) (c.bs t o)))))

/-- SADD (R120). -/
def execSadd (o : FOps) (s : State) : Host.Outcome State Fault Refusal := scalarD (.sadd o) o s (· + ·) (· + ·)

/-- SSUB (R120). -/
def execSsub (o : FOps) (s : State) : Host.Outcome State Fault Refusal := scalarD (.ssub o) o s (· - ·) (· - ·)

/-- SMUL (R120). -/
def execSmul (o : FOps) (s : State) : Host.Outcome State Fault Refusal :=
  scalar2 (.smul o) o s (fun a b => match fld o.ox 0 2 with
    | 0 => a * b
    | 1 => word (asInt true a * asInt true b / 2 ^ 32)
    | _ => word (asInt false a * asInt false b / 2 ^ 32))

/-- SAND (R120). -/
def execSand (o : FOps) (s : State) : Host.Outcome State Fault Refusal := scalar2 (.sand o) o s (· &&& ·)

/-- SOR (R120). -/
def execSor (o : FOps) (s : State) : Host.Outcome State Fault Refusal := scalar2 (.sor o) o s (· ||| ·)

/-- SXOR (R120). -/
def execSxor (o : FOps) (s : State) : Host.Outcome State Fault Refusal := scalar2 (.sxor o) o s (· ^^^ ·)

/-- SSHL (R120). -/
def execSshl (o : FOps) (s : State) : Host.Outcome State Fault Refusal :=
  scalarD (.sshl o) o s (fun a b => a <<< (b.toNat % 32)) (fun a b => a <<< (b.toNat % 64))

/-- SSHR (R120). -/
def execSshr (o : FOps) (s : State) : Host.Outcome State Fault Refusal :=
  scalarD (.sshr o) o s (fun a b => if o.ox.getLsbD 1 then a.sshiftRight (b.toNat % 32) else a >>> (b.toNat % 32)) (fun a b => if o.ox.getLsbD 1 then a.sshiftRight (b.toNat % 64) else a >>> (b.toNat % 64))

/-- SMOV (R120). -/
def execSmov (o : FOps) (s : State) : Host.Outcome State Fault Refusal := scalarD (.smov o) o s (fun _ b => b) (fun _ b => b)

/-- SMOVI (R120). -/
def execSmovi (o : Imm32Ops) (s : State) : Host.Outcome State Fault Refusal :=
  issue (.smovi o) s free_ (fun c t => .ok (t.modGroup c.gid (fun g => g.ws o.d.toNat o.imm)))

/-- SPOPC (R120). -/
def execSpopc (o : FOps) (s : State) : Host.Outcome State Fault Refusal := scalar2 (.spopc o) o s (fun _ b => BitVec.ofNat 32 (lanesOf b))

/-- SFFS (R120). -/
def execSffs (o : FOps) (s : State) : Host.Outcome State Fault Refusal := scalar2 (.sffs o) o s (fun _ b => BitVec.ofNat 32 ((lowest b).getD 32))

/-- SMIN (R120). -/
def execSmin (o : FOps) (s : State) : Host.Outcome State Fault Refusal :=
  scalar2 (.smin o) o s (fun a b => if asInt (o.ox.getLsbD 0) a ≤ asInt (o.ox.getLsbD 0) b then a else b)

/-- SMAX (R120). -/
def execSmax (o : FOps) (s : State) : Host.Outcome State Fault Refusal :=
  scalar2 (.smax o) o s (fun a b => if asInt (o.ox.getLsbD 0) b ≤ asInt (o.ox.getLsbD 0) a then a else b)

/-- SCMP (R120). -/
def execScmp (o : FOps) (s : State) : Host.Outcome State Fault Refusal :=
  scalar2 (.scmp o) o s (fun a b => if cond (fld o.ox 0 3) (asInt (o.ox.getLsbD 3) a) (asInt (o.ox.getLsbD 3) b) then 1 else 0)

/-- SREAD (R123). -/
def execSread (o : FOps) (s : State) : Host.Outcome State Fault Refusal := scalar (.sread o) o s (fun c t => c.bs t o)

/-- SWRITE (R123): the one writable register, sy.scrub.ctl, is protected at level 0 (R112). -/
def execSwrite (o : FOps) (s : State) : Host.Outcome State Fault Refusal :=
  issue (.swrite o) s (fun c => if (s.context c.g.ctx).level = 0 then none else some (fRight (s.context c.g.ctx).level 0xF o.b.toNat (Instr.swrite o).opcNum))
    (fun c t => .ok (t.modCore (coreOf c.gid) (fun k => { k with scrubCtl := (c.sa o).getLsbD 0 })))

end Sys2Proof.Machine
end

