-- ==== Sys2Proof/Machine/System.lean ====
section
/-! DEFINITION. The system group: TSTAMP, CYCLES, OPHINT (17 R321, R322), the event counters (R326, R327), the
region hints PHINT, PHINTS and OSTAGE (16 R300, R301, 06 R109), and TRAP and BKPT (16 R310). -/

namespace Sys2Proof.Machine

/-- TSTAMP (R321). -/
def execTstamp (o : FOps) (s : State) : Host.Outcome State Fault Refusal :=
  issue (.tstamp o) s free_ (fun c t => .ok (t.modGroup c.gid (fun g => g.wpair o.d.toNat (BitVec.ofNat 64 t.devTime))))

/-- CYCLES (R321). -/
def execCycles (o : FOps) (s : State) : Host.Outcome State Fault Refusal :=
  issue (.cycles o) s free_ (fun c t => .ok (t.modGroup c.gid (fun g => g.wpair o.d.toNat (BitVec.ofNat 64 (t.cluster (clusterOfCore (coreOf c.gid))).cycles))))

/-! ### Event counters (R327) -/

/-- The counters that an instruction of the group names, and how many there are. -/
def Iss.counters (c : Iss) (s : State) (die : Bool) : Table Counter := if die then (s.die (dieOf c.gid)).counters else (s.core (coreOf c.gid)).counters
def counterCount (die : Bool) : Nat := if die then 32 else 8

/-- EVRD (R327): a context reads only counters it owns. -/
def execEvrd (o : FOps) (s : State) : Host.Outcome State Fault Refusal :=
  issue (.evrd o) s free_ (fun c t =>
    let die := o.ox.getLsbD 0
    let n := (c.bs t o).toNat
    let k := tget {} n (c.counters t die)
    let x := if n < counterCount die ∧ k.owner = some c.g.ctx then k.count else 0
    .ok (t.modGroup c.gid (fun g => g.wpair o.d.toNat (BitVec.ofNat 64 x))))

/-- Whether a source code belongs to a scope (R326); any other counts nothing. -/
def sourceOf (die : Bool) (src : Nat) : Bool :=
  if die then (0x100 ≤ src && src ≤ 0x103) || [0x110, 0x111, 0x120, 0x130, 0x131, 0x140].contains src
  else [0x001, 0x002, 0x003, 0x010, 0x011, 0x012, 0x020, 0x030].contains src

/-- EVCFG (R327): the right CNT, then the control word. -/
def execEvcfg (o : FOps) (s : State) : Host.Outcome State Fault Refusal :=
  issue (.evcfg o) s (fun c => if s.ctxRight c.g.ctx 4 then none else some (fRight (s.context c.g.ctx).level 4 0 (Instr.evcfg o).opcNum))
    (fun c t =>
      let die := o.ox.getLsbD 0
      let n := (c.bs t o).toNat
      let w := (c.g.rs o.a.toNat).toNat
      if nbits w 15 17 ≠ 0 || w.testBit 12 then .error (fEncoding false 2 (Instr.evcfg o).wordOf)
      else if counterCount die ≤ n then .ok t
      else
        let k := tget {} n (c.counters t die)
        let src := nbits w 0 12
        let k1 : Counter := { count := if w.testBit 14 then 0 else k.count, en := w.testBit 13 && sourceOf die src, src := src, owner := some c.g.ctx }
        .ok (if die then t.modDie (dieOf c.gid) (fun d => { d with counters := tput n k1 d.counters }) else t.modCore (coreOf c.gid) (fun x => { x with counters := tput n k1 x.counters })))

/-! ### Operating point (R322) -/

/-- The dwell of OPHINT in nanoseconds. -/
def opDwell : Nat := 200000

/-- A team's request becomes `p`, and its cluster follows (R322). -/
def State.setRequest (s : State) (team p : Nat) : State :=
  (s.modTeam team (fun t => { t with opReq := p, opTime := max 1 s.devTime, opKept := none })).retarget (clusterOfCore (s.team team).core)

/-- OPHINT (R322): clamped to 7 and to the context's ceiling; kept while the last change is younger than the
dwell. -/
def execOphint (o : FOps) (s : State) : Host.Outcome State Fault Refusal :=
  issue (.ophint o) s free_ (fun c t =>
    let p := min (min (c.bs t o).toNat 7) (t.context c.g.ctx).ceiling
    let m := t.team c.g.team
    .ok (if m.opTime = 0 || m.opTime + opDwell ≤ t.devTime then t.setRequest c.g.team p else t.modTeam c.g.team (fun m => { m with opKept := some p })))

/-- OPHINT_DWELL_EXPIRY (R322): a kept request takes effect when the dwell has passed. -/
def execOphintDwellExpiry (team : Nat) (s : State) : Host.Outcome State Fault Refusal :=
  match tfind team s.teams with
  | none => .next s
  | some m => match m.opKept with
    | none => .next s
    | some p => .next (if m.opTime + opDwell ≤ s.devTime then s.setRequest team p else s)

/-! ### Regions -/

/-- The live set of a quad (R300). -/
def liveOf (g : Group) (a : Nat) : Live := ⟨g.rs a, g.rpair (a + 1), (g.rs (a + 3)).extractLsb' 0 8, (g.rs (a + 3)).extractLsb' 8 16, (g.rs (a + 3)).extractLsb' 24 8⟩

/-- The first register a live set names that is not allocated: granules, then tiles, then accumulators. -/
def liveBad (g : Group) (l : Live) : Option Reg :=
  match (List.range 32).find? (fun k => l.v.getLsbD k && decide (g.nv ≤ 8 * k)) with
  | some k => some ⟨.vec, 8 * k⟩
  | none => match (List.range 16).find? (fun k => l.t.getLsbD k && decide (g.nt ≤ k)) with
    | some k => some ⟨.tile, k⟩
    | none => match (List.range 8).find? (fun k => l.a.getLsbD k && decide (g.na ≤ k)) with
      | some k => some ⟨.acc, k⟩
      | none => none

/-- PHINT (R300). -/
def execPhint (o : FOps) (s : State) : Host.Outcome State Fault Refusal :=
  issue (.phint o) s free_ (fun c t =>
    let all := o.ox.getLsbD 0
    let l := liveOf c.g o.a.toNat
    match (if all then none else liveBad c.g l) with
    | some r => .error (fUnallocated r)
    | none => .ok ((t.commitRegion c.gid c.slotB).modGroup c.gid (fun g => g.record (c.pc + 8) (if all then none else some l))))

/-- PHINTS (R301). -/
def execPhints (o : FOps) (s : State) : Host.Outcome State Fault Refusal :=
  issue (.phints o) s free_ (fun c t =>
    let off := (c.g.rs o.a.toNat).toNat
    let len := (c.g.rs (o.a.toNat + 1)).toNat
    let m := t.team c.g.team
    if off % 4 ≠ 0 then .error (fAlign 1 0 2 off)
    else if len % 4 ≠ 0 then .error (fAlign 1 0 2 len)
    else if m.scratchSize < off + len then .error (fScratch off)
    else .ok (t.modTeam c.g.team (fun m => { m with ranges := if len = 0 then tdel (fld o.ox 0 2) m.ranges else tput (fld o.ox 0 2) (off, len) m.ranges })))

/-- OSTAGE (06 R109): only its bounds are state; a staged read returns the register's value. -/
def execOstage (o : FOps) (s : State) : Host.Outcome State Fault Refusal :=
  issue (.ostage o) s free_ (fun c t => .ok (t.modGroup c.gid (fun g => { g with staged := some (o.a.toNat, o.c.toNat + 1) })))

/-! ### TRAP and BKPT (R310) -/

/-- A fault of a word that counts as issued: the stop PC is the next word. -/
def State.trapAfter (s : State) (c : Iss) (f : Flt) : State :=
  ({ s with grant := none }).raise c.g.ctx f { gid := some c.gid, slotB := c.slotB, pc := c.pc, precise := true }

/-- TRAP (R310). -/
def execTrap (o : ImmOps) (s : State) : Host.Outcome State Fault Refusal :=
  issue (.trap o) s free_ (fun c t => .ok (if c.active o.g = 0 then t else t.trapAfter c (fTrap (if o.mods.getLsbD 0 then c.g.rs o.a.toNat else 0) (fld o.imm 0 16))))

/-- BKPT (R310). -/
def execBkpt (o : ImmOps) (s : State) : Host.Outcome State Fault Refusal :=
  issue (.bkpt o) s free_ (fun c t => .ok (if c.active o.g = 0 then t else t.trapAfter c (fDebug (fld o.imm 0 16) 0)))

end Sys2Proof.Machine
end

