-- ==== Sys2Proof/Machine/Dispatch.lean ====
section
/-! DEFINITION. One arm per step of the part: a call of its meaning. -/

namespace Sys2Proof.Machine

def exec (i : Instr) (s : State) : Host.Outcome State Fault Refusal :=
  match i with
  | .iadd o => Sys2Proof.Machine.execIadd o s
  | .isub o => Sys2Proof.Machine.execIsub o s
  | .imul o => Sys2Proof.Machine.execImul o s
  | .imulh o => Sys2Proof.Machine.execImulh o s
  | .imad o => Sys2Proof.Machine.execImad o s
  | .imadw o => Sys2Proof.Machine.execImadw o s
  | .iaddc o => Sys2Proof.Machine.execIaddc o s
  | .isubb o => Sys2Proof.Machine.execIsubb o s
  | .iabs o => Sys2Proof.Machine.execIabs o s
  | .ineg o => Sys2Proof.Machine.execIneg o s
  | .imin o => Sys2Proof.Machine.execImin o s
  | .imax o => Sys2Proof.Machine.execImax o s
  | .iadds o => Sys2Proof.Machine.execIadds o s
  | .isubs o => Sys2Proof.Machine.execIsubs o s
  | .idot4 o => Sys2Proof.Machine.execIdot4 o s
  | .idot8 o => Sys2Proof.Machine.execIdot8 o s
  | .lea o => Sys2Proof.Machine.execLea o s
  | .mov o => Sys2Proof.Machine.execMov o s
  | .movi o => Sys2Proof.Machine.execMovi o s
  | .sel o => Sys2Proof.Machine.execSel o s
  | .and o => Sys2Proof.Machine.execAnd o s
  | .or o => Sys2Proof.Machine.execOr o s
  | .xor o => Sys2Proof.Machine.execXor o s
  | .not o => Sys2Proof.Machine.execNot o s
  | .tri o => Sys2Proof.Machine.execTri o s
  | .shl o => Sys2Proof.Machine.execShl o s
  | .shr o => Sys2Proof.Machine.execShr o s
  | .sar o => Sys2Proof.Machine.execSar o s
  | .shf o => Sys2Proof.Machine.execShf o s
  | .popc o => Sys2Proof.Machine.execPopc o s
  | .clz o => Sys2Proof.Machine.execClz o s
  | .brev o => Sys2Proof.Machine.execBrev o s
  | .bfe o => Sys2Proof.Machine.execBfe o s
  | .bfi o => Sys2Proof.Machine.execBfi o s
  | .prmb o => Sys2Proof.Machine.execPrmb o s
  | .fadd o => Sys2Proof.Machine.execFadd o s
  | .fsub o => Sys2Proof.Machine.execFsub o s
  | .fmul o => Sys2Proof.Machine.execFmul o s
  | .ffma o => Sys2Proof.Machine.execFfma o s
  | .fmin o => Sys2Proof.Machine.execFmin o s
  | .fmax o => Sys2Proof.Machine.execFmax o s
  | .frcp o => Sys2Proof.Machine.execFrcp o s
  | .frsq o => Sys2Proof.Machine.execFrsq o s
  | .fsqrt o => Sys2Proof.Machine.execFsqrt o s
  | .fexp2 o => Sys2Proof.Machine.execFexp2 o s
  | .flog2 o => Sys2Proof.Machine.execFlog2 o s
  | .ftanh o => Sys2Proof.Machine.execFtanh o s
  | .fsinpi o => Sys2Proof.Machine.execFsinpi o s
  | .fcospi o => Sys2Proof.Machine.execFcospi o s
  | .frnd o => Sys2Proof.Machine.execFrnd o s
  | .fclass o => Sys2Proof.Machine.execFclass o s
  | .fscale o => Sys2Proof.Machine.execFscale o s
  | .hadd2 o => Sys2Proof.Machine.execHadd2 o s
  | .hmul2 o => Sys2Proof.Machine.execHmul2 o s
  | .hfma2 o => Sys2Proof.Machine.execHfma2 o s
  | .hmin2 o => Sys2Proof.Machine.execHmin2 o s
  | .hmax2 o => Sys2Proof.Machine.execHmax2 o s
  | .fdot2 o => Sys2Proof.Machine.execFdot2 o s
  | .cvtff o => Sys2Proof.Machine.execCvtff o s
  | .cvtfi o => Sys2Proof.Machine.execCvtfi o s
  | .cvtif o => Sys2Proof.Machine.execCvtif o s
  | .cvtii o => Sys2Proof.Machine.execCvtii o s
  | .pack8 o => Sys2Proof.Machine.execPack8 o s
  | .unpk8 o => Sys2Proof.Machine.execUnpk8 o s
  | .packq o => Sys2Proof.Machine.execPackq o s
  | .unpkq o => Sys2Proof.Machine.execUnpkq o s
  | .keyf o => Sys2Proof.Machine.execKeyf o s
  | .qscl o => Sys2Proof.Machine.execQscl o s
  | .icmp o => Sys2Proof.Machine.execIcmp o s
  | .fcmp o => Sys2Proof.Machine.execFcmp o s
  | .plop o => Sys2Proof.Machine.execPlop o s
  | .vote o => Sys2Proof.Machine.execVote o s
  | .xch o => Sys2Proof.Machine.execXch o s
  | .gred o => Sys2Proof.Machine.execGred o s
  | .pmov o => Sys2Proof.Machine.execPmov o s
  | .sadd o => Sys2Proof.Machine.execSadd o s
  | .ssub o => Sys2Proof.Machine.execSsub o s
  | .smul o => Sys2Proof.Machine.execSmul o s
  | .sand o => Sys2Proof.Machine.execSand o s
  | .sor o => Sys2Proof.Machine.execSor o s
  | .sxor o => Sys2Proof.Machine.execSxor o s
  | .sshl o => Sys2Proof.Machine.execSshl o s
  | .sshr o => Sys2Proof.Machine.execSshr o s
  | .smov o => Sys2Proof.Machine.execSmov o s
  | .smovi o => Sys2Proof.Machine.execSmovi o s
  | .spopc o => Sys2Proof.Machine.execSpopc o s
  | .sffs o => Sys2Proof.Machine.execSffs o s
  | .smin o => Sys2Proof.Machine.execSmin o s
  | .smax o => Sys2Proof.Machine.execSmax o s
  | .scmp o => Sys2Proof.Machine.execScmp o s
  | .sld o => Sys2Proof.Machine.execSld o s
  | .sst o => Sys2Proof.Machine.execSst o s
  | .sread o => Sys2Proof.Machine.execSread o s
  | .swrite o => Sys2Proof.Machine.execSwrite o s
  | .ld o => Sys2Proof.Machine.execLd o s
  | .st o => Sys2Proof.Machine.execSt o s
  | .ldp o => Sys2Proof.Machine.execLdp o s
  | .stp o => Sys2Proof.Machine.execStp o s
  | .pref o => Sys2Proof.Machine.execPref o s
  | .cinv o => Sys2Proof.Machine.execCinv o s
  | .cwb o => Sys2Proof.Machine.execCwb o s
  | .lds o => Sys2Proof.Machine.execLds o s
  | .sts o => Sys2Proof.Machine.execSts o s
  | .tld o => Sys2Proof.Machine.execTld o s
  | .tst o => Sys2Proof.Machine.execTst o s
  | .tmov o => Sys2Proof.Machine.execTmov o s
  | .pdecl o => Sys2Proof.Machine.execPdecl o s
  | .penter o => Sys2Proof.Machine.execPenter o s
  | .pwait o => Sys2Proof.Machine.execPwait o s
  | .pleave o => Sys2Proof.Machine.execPleave o s
  | .pdrop o => Sys2Proof.Machine.execPdrop o s
  | .pqry o => Sys2Proof.Machine.execPqry o s
  | .atom o => Sys2Proof.Machine.execAtom o s
  | .acas o => Sys2Proof.Machine.execAcas o s
  | .red o => Sys2Proof.Machine.execRed o s
  | .acont o => Sys2Proof.Machine.execAcont o s
  | .fence o => Sys2Proof.Machine.execFence o s
  | .waitn o => Sys2Proof.Machine.execWaitn o s
  | .mma o => Sys2Proof.Machine.execMma o s
  | .mmas o => Sys2Proof.Machine.execMmas o s
  | .aclr o => Sys2Proof.Machine.execAclr o s
  | .amov o => Sys2Proof.Machine.execAmov o s
  | .aload o => Sys2Proof.Machine.execAload o s
  | .drain o => Sys2Proof.Machine.execDrain o s
  | .drepl o => Sys2Proof.Machine.execDrepl o s
  | .atbl o => Sys2Proof.Machine.execAtbl o s
  | .ckick o => Sys2Proof.Machine.execCkick o s
  | .gthr o => Sys2Proof.Machine.execGthr o s
  | .sctr o => Sys2Proof.Machine.execSctr o s
  | .coll o => Sys2Proof.Machine.execColl o s
  | .binit o => Sys2Proof.Machine.execBinit o s
  | .bexp o => Sys2Proof.Machine.execBexp o s
  | .bwait o => Sys2Proof.Machine.execBwait o s
  | .cstat o => Sys2Proof.Machine.execCstat o s
  | .bra o => Sys2Proof.Machine.execBra o s
  | .brc o => Sys2Proof.Machine.execBrc o s
  | .brs o => Sys2Proof.Machine.execBrs o s
  | .join o => Sys2Proof.Machine.execJoin o s
  | .brx o => Sys2Proof.Machine.execBrx o s
  | .call o => Sys2Proof.Machine.execCall o s
  | .callx o => Sys2Proof.Machine.execCallx o s
  | .ret o => Sys2Proof.Machine.execRet o s
  | .exit o => Sys2Proof.Machine.execExit o s
  | .nop o => Sys2Proof.Machine.execNop o s
  | .regroup o => Sys2Proof.Machine.execRegroup o s
  | .yield o => Sys2Proof.Machine.execYield o s
  | .barv o => Sys2Proof.Machine.execBarv o s
  | .bsyn o => Sys2Proof.Machine.execBsyn o s
  | .bphs o => Sys2Proof.Machine.execBphs o s
  | .qpush o => Sys2Proof.Machine.execQpush o s
  | .qpop o => Sys2Proof.Machine.execQpop o s
  | .qalw o => Sys2Proof.Machine.execQalw o s
  | .qalwInit o => Sys2Proof.Machine.execQalwInit o s
  | .qtryPush o => Sys2Proof.Machine.execQtryPush o s
  | .qtryPop o => Sys2Proof.Machine.execQtryPop o s
  | .gsync o => Sys2Proof.Machine.execGsync o s
  | .deq o => Sys2Proof.Machine.execDeq o s
  | .deqt o => Sys2Proof.Machine.execDeqt o s
  | .rpush o => Sys2Proof.Machine.execRpush o s
  | .rpass o => Sys2Proof.Machine.execRpass o s
  | .rrej o => Sys2Proof.Machine.execRrej o s
  | .lnch o => Sys2Proof.Machine.execLnch o s
  | .nodeqQry o => Sys2Proof.Machine.execNodeqQry o s
  | .nodeqSeal o => Sys2Proof.Machine.execNodeqSeal o s
  | .nodeqOpen o => Sys2Proof.Machine.execNodeqOpen o s
  | .rbind o => Sys2Proof.Machine.execRbind o s
  | .tstamp o => Sys2Proof.Machine.execTstamp o s
  | .cycles o => Sys2Proof.Machine.execCycles o s
  | .phint o => Sys2Proof.Machine.execPhint o s
  | .phints o => Sys2Proof.Machine.execPhints o s
  | .ostage o => Sys2Proof.Machine.execOstage o s
  | .trap o => Sys2Proof.Machine.execTrap o s
  | .bkpt o => Sys2Proof.Machine.execBkpt o s
  | .evrd o => Sys2Proof.Machine.execEvrd o s
  | .evcfg o => Sys2Proof.Machine.execEvcfg o s
  | .ophint o => Sys2Proof.Machine.execOphint o s
  | .iaddP x y => Sys2Proof.Machine.execIaddP x y s
  | .isubP x y => Sys2Proof.Machine.execIsubP x y s
  | .iminP x y => Sys2Proof.Machine.execIminP x y s
  | .imaxP x y => Sys2Proof.Machine.execImaxP x y s
  | .andP x y => Sys2Proof.Machine.execAndP x y s
  | .orP x y => Sys2Proof.Machine.execOrP x y s
  | .xorP x y => Sys2Proof.Machine.execXorP x y s
  | .shlP x y => Sys2Proof.Machine.execShlP x y s
  | .shrP x y => Sys2Proof.Machine.execShrP x y s
  | .sarP x y => Sys2Proof.Machine.execSarP x y s
  | .movP x y => Sys2Proof.Machine.execMovP x y s
  | .imulP x y => Sys2Proof.Machine.execImulP x y s
  | .faddP x y => Sys2Proof.Machine.execFaddP x y s
  | .fsubP x y => Sys2Proof.Machine.execFsubP x y s
  | .fmulP x y => Sys2Proof.Machine.execFmulP x y s
  | .fminP x y => Sys2Proof.Machine.execFminP x y s
  | .fmaxP x y => Sys2Proof.Machine.execFmaxP x y s
  | .hadd2P x y => Sys2Proof.Machine.execHadd2P x y s
  | .hmul2P x y => Sys2Proof.Machine.execHmul2P x y s
  | .saddP x y => Sys2Proof.Machine.execSaddP x y s
  | .ssubP x y => Sys2Proof.Machine.execSsubP x y s
  | .sandP x y => Sys2Proof.Machine.execSandP x y s
  | .sorP x y => Sys2Proof.Machine.execSorP x y s
  | .sxorP x y => Sys2Proof.Machine.execSxorP x y s
  | .smovP x y => Sys2Proof.Machine.execSmovP x y s
  | .sshlP x y => Sys2Proof.Machine.execSshlP x y s
  | .sshrP x y => Sys2Proof.Machine.execSshrP x y s
  | .ldsP x y => Sys2Proof.Machine.execLdsP x y s
  | .stsP x y => Sys2Proof.Machine.execStsP x y s
  | .nopP x y => Sys2Proof.Machine.execNopP x y s
  | .clauseStart h => Sys2Proof.Machine.execClauseStart h s
  | .clauseSkip h => Sys2Proof.Machine.execClauseSkip h s
  | .issueOpportunity core quad => Sys2Proof.Machine.execIssueOpportunity core quad s
  | .longLatencyComplete op => Sys2Proof.Machine.execLongLatencyComplete op s
  | .scrubPass core at_ found => Sys2Proof.Machine.execScrubPass core at_ found s
  | .sliceLoad op => Sys2Proof.Machine.execSliceLoad op s
  | .sliceStore op => Sys2Proof.Machine.execSliceStore op s
  | .sliceWriteback op => Sys2Proof.Machine.execSliceWriteback op s
  | .sliceAtomic op => Sys2Proof.Machine.execSliceAtomic op s
  | .sliceAddOnStore op => Sys2Proof.Machine.execSliceAddOnStore op s
  | .sliceAcont op => Sys2Proof.Machine.execSliceAcont op s
  | .replayFilterAck slice port tag => Sys2Proof.Machine.execReplayFilterAck slice port tag s
  | .walkComplete op => Sys2Proof.Machine.execWalkComplete op s
  | .memoryFillReturn op => Sys2Proof.Machine.execMemoryFillReturn op s
  | .l1FillReturn op => Sys2Proof.Machine.execL1FillReturn op s
  | .storeAccepted op => Sys2Proof.Machine.execStoreAccepted op s
  | .combineTimeout cluster entry => Sys2Proof.Machine.execCombineTimeout cluster entry s
  | .hptEpochEnd die => Sys2Proof.Machine.execHptEpochEnd die s
  | .hptSwapDone die => Sys2Proof.Machine.execHptSwapDone die s
  | .slqEntryPlace slice => Sys2Proof.Machine.execSlqEntryPlace slice s
  | .matrixTake core => Sys2Proof.Machine.execMatrixTake core s
  | .matrixOpComplete op => Sys2Proof.Machine.execMatrixOpComplete op s
  | .drainEntryTake core => Sys2Proof.Machine.execDrainEntryTake core s
  | .drainRowPerformed core entry row => Sys2Proof.Machine.execDrainRowPerformed core entry row s
  | .kickQueueTake core => Sys2Proof.Machine.execKickQueueTake core s
  | .copyBytePerformed op => Sys2Proof.Machine.execCopyBytePerformed op s
  | .gatherRowPerformed op lane => Sys2Proof.Machine.execGatherRowPerformed op lane s
  | .collectiveComplete op remote => Sys2Proof.Machine.execCollectiveComplete op remote s
  | .paletteLineFilled op => Sys2Proof.Machine.execPaletteLineFilled op s
  | .lqRecordTake ctx queue => Sys2Proof.Machine.execLqRecordTake ctx queue s
  | .depPoll grid => Sys2Proof.Machine.execDepPoll grid s
  | .recordAging grid => Sys2Proof.Machine.execRecordAging grid s
  | .recordChoice ctx die => Sys2Proof.Machine.execRecordChoice ctx die s
  | .teamPlace ctx die => Sys2Proof.Machine.execTeamPlace ctx die s
  | .reservationTimeout ctx die => Sys2Proof.Machine.execReservationTimeout ctx die s
  | .relockComplete cluster => Sys2Proof.Machine.execRelockComplete cluster s
  | .ophintDwellExpiry team => Sys2Proof.Machine.execOphintDwellExpiry team s
  | .gridComplete grid => Sys2Proof.Machine.execGridComplete grid s
  | .binTimerExpiry ctx die node => Sys2Proof.Machine.execBinTimerExpiry ctx die node s
  | .governorEval ctx die => Sys2Proof.Machine.execGovernorEval ctx die s
  | .deqtTimeout gid => Sys2Proof.Machine.execDeqtTimeout gid s
  | .routerEntry die router => Sys2Proof.Machine.execRouterEntry die router s
  | .routerRpass die router => Sys2Proof.Machine.execRouterRpass die router s
  | .routerRrej die router => Sys2Proof.Machine.execRouterRrej die router s
  | .remoteTailWrite push => Sys2Proof.Machine.execRemoteTailWrite push s
  | .remotePullComplete die record => Sys2Proof.Machine.execRemotePullComplete die record s
  | .pushAck op kind => Sys2Proof.Machine.execPushAck op kind s
  | .arbiterEpoch since => Sys2Proof.Machine.execArbiterEpoch since s
  | .budgetApply cluster => Sys2Proof.Machine.execBudgetApply cluster s
  | .deficitReport module deficit => Sys2Proof.Machine.execDeficitReport module deficit s
  | .droopAlarm cluster => Sys2Proof.Machine.execDroopAlarm cluster s
  | .droopHalvingEnd cluster => Sys2Proof.Machine.execDroopHalvingEnd cluster s
  | .thermalOverThreshold die temp => Sys2Proof.Machine.execThermalOverThreshold die temp s
  | .thermalRestore die temp => Sys2Proof.Machine.execThermalRestore die temp s
  | .stopRecordsComplete ctx => Sys2Proof.Machine.execStopRecordsComplete ctx s
  | .haltResume ctx w => Sys2Proof.Machine.execHaltResume ctx w s
  | .haltStep ctx w => Sys2Proof.Machine.execHaltStep ctx w s
  | .haltPreempt ctx w => Sys2Proof.Machine.execHaltPreempt ctx w s
  | .haltTerminate ctx w => Sys2Proof.Machine.execHaltTerminate ctx w s
  | .watchdogExpiry gid => Sys2Proof.Machine.execWatchdogExpiry gid s
  | .timeSliceExpiry ctx => Sys2Proof.Machine.execTimeSliceExpiry ctx s
  | .teamResume team => Sys2Proof.Machine.execTeamResume team s
  | .tcInvalidateS1 w => Sys2Proof.Machine.execTcInvalidateS1 w s
  | .tcInvalidateS2 w => Sys2Proof.Machine.execTcInvalidateS2 w s
  | .tcReloadContext w => Sys2Proof.Machine.execTcReloadContext w s
  | .tcReloadTask w => Sys2Proof.Machine.execTcReloadTask w s
  | .tcCommandDone => Sys2Proof.Machine.execTcCommandDone s
  | .dlEntryWriteLow w index value => Sys2Proof.Machine.execDlEntryWriteLow w index value s
  | .dlEntryWriteHigh w index value => Sys2Proof.Machine.execDlEntryWriteHigh w index value s
  | .dlRevoke w value => Sys2Proof.Machine.execDlRevoke w value s
  | .dlRevokeDone => Sys2Proof.Machine.execDlRevokeDone s
  | .rtRowWrite w row part value => Sys2Proof.Machine.execRtRowWrite w row part value s
  | .pwShareWrite w index value => Sys2Proof.Machine.execPwShareWrite w index value s
  | .bwShareWrite w die index value => Sys2Proof.Machine.execBwShareWrite w die index value s
  | .partitionTableWrite w entry field value => Sys2Proof.Machine.execPartitionTableWrite w entry field value s
  | .lkModuleWrite w value => Sys2Proof.Machine.execLkModuleWrite w value s
  | .pfSelWrite w slice index value => Sys2Proof.Machine.execPfSelWrite w slice index value s
  | .rmfEntryWrite w core index canon value => Sys2Proof.Machine.execRmfEntryWrite w core index canon value s
  | .hptCtlWrite w die value => Sys2Proof.Machine.execHptCtlWrite w die value s
  | .registerWrite w addr size value => Sys2Proof.Machine.execRegisterWrite w addr size value s
  | .firewallFlit f => Sys2Proof.Machine.execFirewallFlit f s
  | .flitCrcFail l => Sys2Proof.Machine.execFlitCrcFail l s
  | .linkDown port gid ctx addr => Sys2Proof.Machine.execLinkDown port gid ctx addr s
  | .peerDirectWrite addr part flit => Sys2Proof.Machine.execPeerDirectWrite addr part flit s
  | .rootPortDma function addr a bytes => Sys2Proof.Machine.execRootPortDma function addr a bytes s
  | .boot b => Sys2Proof.Machine.execBoot b s
  | .attestationRequest w part nonce => Sys2Proof.Machine.execAttestationRequest w part nonce s
  | .replyTimeout op again => Sys2Proof.Machine.execReplyTimeout op again s
  | .rdCtlWrite w ctx value => Sys2Proof.Machine.execRdCtlWrite w ctx value s

end Sys2Proof.Machine
end

