-- ==== Sys2Proof/Machine/Choices.lean ====
section
/-! DEFINITION. What may happen next (log 5): the events that the operations, units and timers of the module have
ready, the groups whose wait is over, and the cycle of each cluster. Which of them comes next the manual leaves open
(00 R2, R3); an event named here whose own condition fails changes nothing. -/

namespace Sys2Proof.Machine

/-- An event: what it does to the module. -/
abbrev Event := State → Host.Outcome State Fault Refusal

/-! ### Waits that are over -/

/-- Whether what a held or blocked group waits for has come (01 R25, 13 R355, 16 R308 WAIT). -/
def State.waitOver (s : State) (gid : Nat) (w : Wait) : Bool :=
  let g := s.group gid
  let t := s.team g.team
  let k := s.core (coreOf gid)
  match w.kind with
  | .release n => (tfind n s.holds).isNone && !s.outOfTurn gid w.cycle w.instr && (match w.instr with | .ckick _ => decide (k.kicks.length < 16) | .gthr _ | .sctr _ => decide (k.gathers.length < 8) | _ => true)
  | .table n => (match tfind n s.ops with | some o => o.parts == 0 | none => true)
  | .bar b ph => barPh (t.bar b) != ph
  | .bphs b p => barPh (t.bar b) != p
  | .qpush q _ => decide (0 < (t.queue q).alw) && (match s.firstWaiter g.team (pushOrder q) with | some x => x.1 == gid | none => false)
  | .qpop q _ => decide (0 < (t.queue q).count) && !s.outOfTurn gid w.cycle w.instr && (match s.firstWaiter g.team (popOrder q) with | some x => x.1 == gid | none => false)
  | .palette n => decide ((t.palette n).state = .entered)
  | .pdrop n => decide ((t.palette n).state ≠ .filling)
  | .object a p => t.phase a != p
  | .path p n => decide (g.counter p ≤ n)
  | .gridOp _ => false
  | .grid a gen => (match s.readCtx g.ctx (a + 8) 4 .atomic with | .ok v => v != gen | .error _ => false)
  | .regroup _ _ =>
    let ps := s.participants g.team g.role
    ps.headD gid == gid && ps.all (fun p => (s.group p).quiet && (match (s.group p).wait with | some x => (match x.kind with | .regroup _ _ => true | _ => false) | none => false))
  | .deq _ _ => (match g.bind.node with
    | none => true
    | some key => (match s.deqWaiters g.ctx key with | (_, x, _) :: _ => x == gid && (s.deqServe gid key w.slotB w.instr).isSome | [] => false))
  | .outbox _ => (s.freeOutbox g.ctx (dieOf gid)).isSome
  | .exit => !s.unfinished gid

/-- Whether a group may return from its wait: its context runs, or steps it, and a team that leaves only ends words
that hold their group (16 R302, R304, R311). -/
def State.mayReturn (s : State) (gid : Nat) (w : Wait) : Bool :=
  let g := s.group gid
  let hb := (s.context g.ctx).hb
  !hb.halt && (!hb.stepMode || hb.stepping.contains gid || hb.stepped.any (fun x => x.gid == gid) || decide (hb.stepBase ≤ (s.team g.team).grid)) && (!(s.team g.team).leaving || w.kind.finishes)

/-- The groups and slots that return to the word that holds them. -/
def State.wakes (s : State) : List Grant :=
  s.groups.flatMap (fun g => (g.2.waits.filter (fun w => s.mayReturn g.1 w && s.waitOver g.1 w)).map (fun w => ⟨g.1, w.slotB, true⟩))

/-! ### Events of requests and operations -/

/-- The next event of a line request. -/
def Req.nextEvent (n : Nat) (r : Req) : Option Event :=
  match r.stage, r.kind with
  | .behind _, _ | .held _, _ | .queued, _ | .pinned, _ => none
  | .walk, _ => some (execWalkComplete n)
  | .fetch, _ => some (execMemoryFillReturn n)
  | .toSlice, .load | .toSlice, .table | .toSlice, .palette _ _ | .toSlice, .prefetch | .toSlice, .check _ _ => some (execSliceLoad n)
  | .toSlice, .store | .toSlice, .outbox => some (execSliceStore n)
  | .toSlice, .writeback => some (execSliceWriteback n)
  | .toSlice, .atomic | .toSlice, .grid => some (execSliceAtomic n)
  | .toSlice, .addOnStore => some (execSliceAddOnStore n)
  | .toSlice, .acont => some (execSliceAcont n)
  | .reply, .load | .reply, .table | .reply, .prefetch => some (execL1FillReturn n)
  | .reply, .store => some (execStoreAccepted n)
  | .reply, .palette _ _ => some (execPaletteLineFilled n)
  | .reply, _ => none

/-- A request that waits at its core goes its way (13 R241). -/
def goQueued (n : Nat) (s : State) : Host.Outcome State Fault Refusal := .next (s.sendQueued n).settle

/-- The requests that wait at their cores and may go. -/
def State.queuedEvents (s : State) : List Event := s.reqs.filterMap (fun r => if s.mayGo r.2 then some (goQueued r.1) else none)

/-- The completion of an operation whose parts have all returned. -/
def Op.nextEvent (n : Nat) (o : Op) : Option Event :=
  if o.parts ≠ 0 then none
  else if o.path = some 3 then some (execMatrixOpComplete n)
  else if o.flag.isSome then some (execLongLatencyComplete n) else none

/-! ### Events of units -/

/-- The events of a core's kick queue, gather unit, matrix unit and drain buffer. -/
def State.coreEvents (s : State) (k : Nat) (c : Core) : List Event :=
  (match c.kicks with | x :: _ => if s.halted x.ctx then [] else [execKickQueueTake k] | [] => []) ++
  c.gathers.flatMap (fun x => if s.halted x.ctx then [] else (x.left.filter (fun L => !x.faults.any (fun f => f.1 == L))).map (fun L => execGatherRowPerformed x.op L)) ++
  (match s.nextMx k with | some x => (match x.work with | .drain _ _ _ _ _ _ _ _ _ _ => [execDrainEntryTake k] | _ => [execMatrixTake k]) | none => []) ++
  c.drain.flatMap (fun e => ((List.range 32).filter (fun i => !e.2.mask.testBit i && !e.2.faulted.any (fun x => x.1 == i))).map (fun i => execDrainRowPerformed k e.1 i))

/-- The event of a router's next report (14 R272). -/
def routerEvent (die idx : Nat) : RouterEvent → Event
  | .entry _ _ => execRouterEntry die idx
  | .pass _ _ _ _ _ => execRouterRpass die idx
  | .rej _ _ _ _ _ => execRouterRrej die idx

/-- The events of a die's engines, routers, pulls, acknowledgements and tracker. -/
def State.dieEvents (s : State) (k : Nat) (d : Die) : List Event :=
  d.pieces.filterMap (fun p => if s.halted p.2.copy.ctx || p.2.held.isSome then none else some (execCopyBytePerformed p.1)) ++
  d.colls.filterMap (fun c => if s.halted c.ctx || c.held.isSome then none else some (execCollectiveComplete c.op [])) ++
  d.routers.filterMap (fun r => if (s.context r.2.ctx).hb.halt then none else r.2.events.head?.map (routerEvent k r.1)) ++
  (match d.pulls with | (p, _) :: _ => if (s.ownPush p).isSome then [execRemotePullComplete k []] else [] | [] => []) ++
  d.acks.map (fun a => execPushAck a.1 (BitVec.ofNat 4 a.2)) ++
  (if d.swaps = [] then [] else [execHptSwapDone k]) ++
  (match d.bwSince with | some t => if t + 1000000 ≤ s.devTime then [execThermalRestore k (BitVec.ofNat 12 d.bwTemp)] else [] | none => []) ++
  (if d.hptCtl.testBit 0 && d.swaps = [] && decide (d.hptSince + 1000 * d.hptEpoch ≤ s.devTime) then [execHptEpochEnd k] else [])

/-- The events of a slice's launch queue and replay filter. -/
def State.sliceEvents (s : State) (k : Nat) (x : Slice) : List Event :=
  (if x.slq.any (fun e => e.record.isSome && !(s.context e.ctx).hb.halt) then [execSlqEntryPlace k] else []) ++
  x.replay.filterMap (fun e => if (match s.req e.op with | some r => decide (r.stage = .reply) | none => true) = true then some (execReplayFilterAck k e.port e.tag) else none)

/-- The quadrant cycle of a cluster; at the boundary of a window a new budget applies first, and the end of the
droop response with the last of its cycles (17 R316, R320). -/
def Cluster.cycleEvent (k : Nat) (c : Cluster) : Event :=
  if c.turn = 32 && c.picks ≠ [] then issuePick k
  else if c.turn = 32 && c.nextBudget.isSome && (c.cycles + 1) % 16 = 0 then execBudgetApply k
  else if c.turn = 32 && c.halving = 1 && c.stretch = 0 then execDroopHalvingEnd k
  else execIssueOpportunity (8 * k + c.next / 4) (c.next % 4)

/-- Whether a cluster has a group to issue or a count in cycles that runs. -/
def State.clusterRuns (s : State) (k : Nat) : Bool :=
  let c := s.cluster k
  c.picks ≠ [] || c.combine ≠ [] || c.nextBudget.isSome || c.alarm || 0 < c.stretch || 0 < c.halving || s.groups.any (fun g => clusterOfCore (coreOf g.1) == k)

/-- Device time goes on where no cluster has a cycle to go on with (00 R4). -/
def passTime (s : State) : Host.Outcome State Fault Refusal := .next { s with devTime := s.devTime + 1 }

/-- The events of the clusters: cycles, timers of the combining buffer, relocks. Where no cluster runs, or all that do
relock, device time goes on without them. -/
def State.clusterEvents (s : State) : List Event :=
  let ks := (s.groups.map (fun g => clusterOfCore (coreOf g.1)) ++ s.clusters.map (·.1)).foldl (fun (a : List Nat) k => if a.contains k then a else a ++ [k]) []
  let run := ks.filter (fun k => s.clusterRuns k && (s.cluster k).relock.isNone)
  (if run = [] then [passTime] else run.map (fun k => (s.cluster k).cycleEvent k)) ++
  s.clusters.flatMap (fun c => (if c.2.relock.isSome then [execRelockComplete c.1] else []) ++
    (c.2.combine.zipIdx.filter (fun e => decide (e.1.taken + 64 ≤ (c.2.cycles : Int)))).map (fun e => execCombineTimeout c.1 e.2))

/-! ### Events of contexts -/

/-- The outbox slots whose tail writes go to a task unit of this module (14 R268). -/
def State.tails (s : State) (c : Context) : List Event :=
  c.outbox.filterMap (fun x => if x.2.2.2 = some 0 && nbits x.2.2.1.toNat 18 13 == s.hub.module then some (execRemoteTailWrite { die := nbits x.2.2.1.toNat 13 5, tenant := BitVec.ofNat 16 c.tenant, handle := x.2.2.1, slot := x.1 % 256, port := x.1 / 256, tag := x.2.1 % 2 ^ 16 }) else none)

/-- The combining entries of a halted context are sent: they are operations that run to their end (16 R304). -/
def flushHalted (ctx : Nat) (s : State) : Host.Outcome State Fault Refusal := .next (s.flushContext ctx)

/-- The lines of a team's fills that an invalidation has removed are fetched again, and a fill that an ordinary access has
made complete ends (04 R80). -/
def refillTeam (team : Nat) (s : State) : Host.Outcome State Fault Refusal := .next ((s.refillLines team).palMove team 32)

/-- The events of a context's task units and scheduler, and its timers. -/
def State.contextEvents (s : State) (k : Nat) (c : Context) : List Event :=
  let now := s.ctxTime k
  let dies := (s.grids.filter (fun g => g.2.ctx == k)).foldl (fun (a : List Nat) g => if a.contains g.2.die then a else a ++ [g.2.die]) []
  let leaving := s.leavingTeams k
  if c.hb.halt then (if c.hb.stopped then [] else execStopRecordsComplete k :: c.hb.skid.map (fun x => stopGroup k x.1) ++ (if c.hb.engines then [stopEngines k] else [])) ++ (if s.clusters.any (fun x => x.2.combine.any (fun e => e.ctx == k)) then [flushHalted k] else []) ++ s.tails c
  else
    s.tails c ++
    c.queues.filterMap (fun q => if q.2.en && !s.waiting k q.1 then some (execLqRecordTake k q.1) else none) ++
    dies.flatMap (fun d => (if (s.readyGrids k d).any (fun g => !g.2.chosen) then [execRecordChoice k d] else []) ++ (if (s.serving k d).isSome then [execTeamPlace k d] else []) ++
      (match s.serving k d with | some g => if (tfind d c.reserved).isNone && decide (g.2.waitSince + 100000 ≤ now) then [execReservationTimeout k d] else [] | none => [])) ++
    (if c.hb.preempt then (if leaving = [] || leaving.any s.teamQuiet then [execTimeSliceExpiry k] else []) else if leaving.any s.teamQuiet then [execTeamPlace k (s.queueDie k)] else []) ++
    (if c.slice ≠ 0 && !c.hb.preempt && decide (c.sliceStart + 1000 * c.slice ≤ now) then [execTimeSliceExpiry k] else []) ++
    c.nodes.filterMap (fun n => match n.2.started with | some t => if n.2.timer ≠ 0 && !n.2.due && decide (t + 1000 * n.2.timer ≤ now) then some (execBinTimerExpiry k (n.1 / 4096) (n.1 % 4096)) else none | none => none) ++
    ((List.range 24).filter (fun d => c.nodes.any (fun n => n.1 / 4096 == d && n.2.ring.isSome) && decide (tget 0 d c.govAt + 10000 ≤ now))).map (fun d => execGovernorEval k d)

/-- The events of grids, teams and groups that time brings. -/
def State.workEvents (s : State) : List Event :=
  s.grids.flatMap (fun g => (if g.2.depOk then [] else [execDepPoll g.1]) ++ (if g.2.depOk && g.2.nextTeam = 0 && decide (g.2.eff < g.2.priority (s.ctxTime g.2.ctx)) then [execRecordAging g.1] else []) ++ (if g.2.launch.teams ≤ g.2.nextTeam && g.2.launch.teams ≤ g.2.retired then [execGridComplete g.1] else [])) ++
  s.teams.flatMap (fun t => (if t.2.saved.isSome then [execTeamResume t.1] else []) ++ (if s.unfilled t.1 = [] && !s.fillsDone t.1 then [] else [refillTeam t.1]) ++ (if t.2.opKept.isSome && decide (t.2.opTime + opDwell ≤ s.devTime) then [execOphintDwellExpiry t.1] else [])) ++
  s.groups.flatMap (fun g =>
    let c := s.context g.2.ctx
    (match g.2.wait with | some w => (match w.kind with | .deq _ (some d) => if decide (d ≤ s.ctxTime g.2.ctx) then [execDeqtTimeout g.1] else [] | _ => []) | none => []) ++
    (match s.watchedWait g.1 with | some x => if c.hb.wdt ≠ 0 && decide (1000 * c.hb.wdt ≤ s.ctxTime g.2.ctx - x.2) then [execWatchdogExpiry g.1] else [] | none => []))

/-- The events of the hub. -/
def State.hubEvents (s : State) : List Event :=
  (if s.hub.tcBusy && !(decide (s.hub.tcCmd ≤ 2) && s.tcPending) then [execTcCommandDone] else []) ++ (if s.hub.dlBusy then [execDlRevokeDone] else []) ++ s.hubReady.map execHubAccess

/-- The events whose time has come at the latest: an epoch of the arbiter, and the end of a relock (00 R2, 17 R316,
R319). Nothing else comes before them. -/
def State.dueNow (s : State) : List Event :=
  (if s.hub.epoch + epochLength ≤ s.devTime then [execArbiterEpoch s.hub.epoch] else []) ++
  s.clusters.filterMap (fun c => if c.2.relock.isSome && decide (c.2.relockStart + relockLimit ≤ s.devTime) then some (execRelockComplete c.1) else none)

/-- Every event that is ready. -/
def State.ready (s : State) : List Event :=
  s.clusterEvents ++ s.reqs.filterMap (fun r => r.2.nextEvent r.1) ++ s.queuedEvents ++ s.ops.filterMap (fun o => o.2.nextEvent o.1) ++
  s.cores.flatMap (fun k => s.coreEvents k.1 k.2) ++ s.dies.flatMap (fun d => s.dieEvents d.1 d.2) ++ s.slices.flatMap (fun x => s.sliceEvents x.1 x.2) ++
  s.contexts.flatMap (fun c => s.contextEvents c.1 c.2) ++ s.workEvents ++ s.hubEvents

/-- The events among which the next is chosen. -/
def State.events (s : State) : List Event := match s.dueNow with | [] => s.ready | es => es

/-! ### The end of a step command (16 R311) -/

/-- Whether a stepped group's word has returned and, with SE, what it waits for has come. -/
def State.stepOver (s : State) (se : Bool) (x : Stepped) : Bool :=
  if !s.resident x.gid then true
  else (s.group x.gid).waits.isEmpty && (!se || (match x.path with
    | 7 => true
    | 6 => s.grids.all (fun g => decide (g.1 < x.base) || !g.2.spawned || decide (0 < g.2.nextTeam))
    | p => decide ((s.group x.gid).counter p ≤ x.base)))

/-- Raises cause group 13, kind 1, for a stepped group, at the word that it issued; one whose word ended it leaves the
halt to its context. -/
def State.stepTrap (s : State) (ctx : Nat) (x : Stepped) : State :=
  s.raise ctx (fDebug 0 1) (if s.resident x.gid then { gid := some x.gid, slotB := x.slotB, pc := x.pc, precise := true } else { die := dieOf x.gid })

/-- Ends the step of a context once every stepped group's word is over. The others stay stopped: they do not skid. When
another fault halts the context first, the groups whose words are over trap as well. -/
def State.endStep (s : State) (ctx : Nat) : State :=
  let hb := (s.context ctx).hb
  let done := hb.stepped.filter (s.stepOver (hb.debugBits.testBit 0))
  if !hb.stepMode || hb.stopped || done = [] then s
  else if hb.halt then (done.foldl (fun (s : State) x => s.stepTrap ctx x) s).modContext ctx (fun c => { c with hb := { c.hb with stepped := c.hb.stepped.filter (fun x => !done.contains x) } })
  else if hb.stepping ≠ [] || done.length ≠ hb.stepped.length then s
  else (done.foldl (fun (s : State) x => s.stepTrap ctx x) s).modContext ctx (fun c => { c with hb := { c.hb with stepMode := false, stepped := [] } })

/-- Ends the steps that are over in every context. -/
def State.endSteps (s : State) : State := s.contexts.foldl (fun (s : State) c => if c.2.hb.stepMode then s.endStep c.1 else s) s

/-! ### Issuing the word that holds the opportunity -/

/-- The word that holds a slot, or its whole group. -/
def Group.heldAt (g : Group) (slotB : Bool) : Option Wait := (g.tables.find? (fun w => w.slotB == slotB)).orElse (fun _ => g.wait)

/-- The step that a granted group slot takes: the word it was held at, its next word, or the fault that it finds. -/
def State.granted (s : State) (g : Grant) : Except Flt (Option Instr) :=
  if !s.resident g.gid then .ok none
  else if g.again then .ok (((s.group g.gid).heldAt g.slotB).map (·.instr))
  else match s.nextWord g.gid g.slotB with
    | .error f => .error f
    | .ok i => .ok (some (stepOf i ((s.group g.gid).mask g.slotB)))

/-- Runs what a granted slot takes. -/
def State.runGrant (s : State) (g : Grant) : Host.Outcome State Fault Refusal :=
  match s.granted g with
  | .error f => .next ((s.logFetch g.gid ((s.group g.gid).slot g.slotB).pc f).takeTrap g.gid g.slotB ((s.group g.gid).slot g.slotB).pc f)
  | .ok none => .next { s with grant := none }
  | .ok (some i) => exec i s

/-- Runs one of the things that may happen: an event whose time has come, or else an input of the outside world, an event,
or a group's return. -/
def State.runChoice (s : State) : Host.Outcome State Fault Refusal :=
  let ins := if s.dueNow.isEmpty then s.inputs.take 1 else []
  let es := s.events
  let ws := if s.dueNow.isEmpty then s.wakes else []
  let r := s.choose (ins.length + es.length + ws.length)
  match (if r.1 < ins.length then ins.head? else none) with
  | some i => exec i { r.2 with inputs := s.inputs.drop 1 }
  | none => match es[r.1 - ins.length]? with
    | some e => e r.2
    | none => match ws[r.1 - ins.length - es.length]? with
      | some g => .next { r.2 with grant := some g }
      | none => .next r.2

/-! ### Placing a word where the next step fetches -/

/-- The clause that the first word of a started slot stands in: flags 0 and 1, one word left. -/
def lastOfClause : Clause := { sa := some 0, sb := some 1, left := 1 }

/-- The group that issues a placed word: every register allocated, all lanes active, its slot A running at 0. -/
def firstGroup (header : Bool) : Group :=
  { nv := 256, nt := 16, na := 8, s := [(0, BitVec.allOnes 32)], a := { pc := 0, st := .running, cl := if header then none else some lastOfClause } }

/-- The state with a word at address 0 of context 0, held by its home slice with EX, and the issue opportunity of
group slot 0 there. -/
def State.place (s : State) (bs : List Byte) : State :=
  let header := match decode bs with | .ok (i, _) => isHeader i | .error _ => false
  let l : L2Line := { tenant := 0, line := 0, rd := true, ex := true, dirty := bs.zipIdx.map (fun b => (b.2, b.1)), machine := 0 }
  let s1 := s.setGroup 0 (firstGroup header)
  { (s1.modSlice (s1.home 0 0).2 (fun x => x.putLine { l with tenant := (s1.context 0).tenant })) with grant := some ⟨0, false, false⟩ }

end Sys2Proof.Machine
end

