-- ==== Sys2Proof/Machine/Step.lean ====
section
/-! DEFINITION. One step of the module: the word of the group slot that holds the issue opportunity, else one of the
things that may happen; and the placing of a word for the next step. -/

namespace Sys2Proof.Machine

/-- One step. A module whose boot failed is held in reset (17 R341); after each step the step commands that are over
end (16 R311). -/
def step (s : State) : Host.Outcome State Fault Refusal :=
  if s.hub.failed.isSome then .fault .heldInReset
  else match (match s.grant with | some g => s.runGrant g | none => s.runChoice) with
    | .next t => .next t.endSteps
    | .fault f => .fault f
    | .refused r => .refused r

/-- `s` with the instruction `w` placed where the next step fetches (log 10). -/
def State.withFetchWord (s : State) (_nbits w : Nat) : State := s.place (bytesOfWord (BitVec.ofNat 64 w))

end Sys2Proof.Machine
end

