-- ==== Sys2Proof/Safety.lean ====
section
/-! DEFINITION. The terms in which claims are stated: when a word may issue, what a step leaves alone, what an
instruction that writes registers gives, and the invariant that every step keeps. -/

namespace Sys2Proof.Machine

/-! ### When a word may issue -/

/-- The word `i` may issue at the opportunity `gr`: it stands where it may in its clause (01 R27), a valid flag is
selected where it needs one (01 R25), its registers are allocated (02 R40) and not pending, but for an
accumulator that the matrix unit has marked and that a matrix instruction names (01 R26, 09 R169), it may read the
system register that it names (01 R17, 06 R112), and no word that it reads, that of its slot's mask among them, is poisoned or holds a lasting error of two
bits (06 R110). -/
structure Ready (i : Instr) (s : State) (gr : Grant) : Prop where
  granted : s.grant = some gr
  first : gr.again = false
  place : i.isTransfer = true → (s.issuer gr).cl.left = 1
  flag : ∀ sb, i.longLat = some sb → ((s.issuer gr).flag sb).isSome = true
  allocated : ∀ r ∈ i.regs.1 ++ i.regs.2, (s.group gr.gid).allocated r = true
  free : ∀ r ∈ i.regs.1 ++ i.regs.2, ∀ m, (s.group gr.gid).pending r.cls.code r.idx = some m → (i.isMatrix && m.mx && decide (r.cls = .acc)) = true
  right : sysRight s (s.issuer gr) i = none
  sound : ∀ r ∈ (s.issuer gr).sources i, ∀ w ∈ fileWordsOf (s.group gr.gid) gr.gid r, w ∉ (s.core (coreOf gr.gid)).poison ∧ (w, true) ∉ (s.core (coreOf gr.gid)).doubles

/-- What the word sees: its group and slot as they stand before it. -/
abbrev State.seen (s : State) (gr : Grant) : Iss := s.issuer gr

/-- The issuing group afterwards. -/
abbrev State.after (t : State) (gr : Grant) : Group := t.group gr.gid

/-! ### Frames -/

/-- Everything outside the issuing group is as before, but for the bookkeeping of the issue itself: the clusters'
charge, the cores' counters and read cycles, corrected errors and the log of those, the yield preference of other groups,
and the words that a step has let through. -/
structure Quiet (s t : State) (gid : Nat) : Prop where
  time : t.devTime = s.devTime
  memory : t.mem = s.mem
  teams : t.teams = s.teams
  grids : t.grids = s.grids
  slices : t.slices = s.slices
  dies : ∀ k, { t.die k with log := (s.die k).log } = s.die k
  hub : t.hub = s.hub
  ops : t.ops = s.ops
  reqs : t.reqs = s.reqs
  holds : t.holds = s.holds
  inputs : t.inputs = s.inputs
  draws : t.draws = s.draws
  opportunity : t.grant = none
  groups : ∀ k, k ≠ gid → { t.group k with yielded := (s.group k).yielded } = s.group k
  contexts : ∀ k, { t.context k with hb := { (t.context k).hb with stepping := (s.context k).hb.stepping, stepped := (s.context k).hb.stepped } } = s.context k
  cores : ∀ k, { t.core k with corr := (s.core k).corr, flips := (s.core k).flips, doubles := (s.core k).doubles, poison := (s.core k).poison, secondRead := (s.core k).secondRead, counters := (s.core k).counters } = s.core k
  clusters : ∀ k, { t.cluster k with now := (s.cluster k).now } = s.cluster k

/-- The issuing group keeps everything but the registers v, s and q (with the A latch), its slots and the marks of
the issue. -/
def Group.onlyRegs (g g' : Group) : Prop :=
  { g' with v := g.v, s := g.s, q := g.q, latch := g.latch, a := g.a, b := g.b, nextB := g.nextB, due := g.due, last := g.last, yielded := g.yielded } = g

/-- The slot goes on to the next word of its clause, or past its end (01 R23); the other slot stays. -/
def advanced (c : Iss) (g' : Group) : Prop :=
  g'.slot c.slotB = { c.g.slot c.slotB with pc := c.pc + 8, cl := if c.cl.left ≤ 1 then none else some { c.cl with left := c.cl.left - 1 } } ∧
  g'.slot (!c.slotB) = c.g.slot (!c.slotB)

/-! ### Results -/

/-- Registers written: by vector register and lane, by scalar register, by predicate. -/
structure Writes where
  v : Nat → Nat → Option Word := fun _ _ => none
  s : Nat → Option Word := fun _ => none
  q : Nat → Option Word := fun _ => none

/-- `i` completes: a next state in which the registers of `w` hold their new values, every other register its old
one, and nothing else has changed but the slot. -/
def Completes (i : Instr) (s : State) (gr : Grant) (w : Writes) : Prop :=
  ∃ t, exec i s = .next t ∧ Quiet s t gr.gid ∧ (s.group gr.gid).onlyRegs (t.after gr) ∧ advanced (s.seen gr) (t.after gr) ∧
    (∀ r L, L < 32 → (t.after gr).rv r L = (w.v r L).getD ((s.group gr.gid).rv r L)) ∧
    (∀ r, (t.after gr).rs r = (w.s r).getD ((s.group gr.gid).rs r)) ∧
    (∀ r, (t.after gr).rq r = (w.q r).getD ((s.group gr.gid).rq r))

/-- v[d] takes `f L` in the lanes of `m`. -/
def inLanes (d : Nat) (m : Word) (f : Nat → Word) : Nat → Nat → Option Word := fun r L => if r = d ∧ m.getLsbD L = true then some (f L) else none

/-- One register takes a value. -/
def only (d : Nat) (x : Word) : Nat → Option Word := fun r => if r = d then some x else none

/-- An even pair of scalar registers takes a 64-bit value (06 R120). -/
def onlyPair (d : Nat) (x : DWord) : Nat → Option Word := fun r => if r = d then some (loWord x) else if r = d + 1 then some (hiWord x) else none

/-- Registers D onwards take the words `f L` in the lanes of `m`. -/
def wordsAt (d : Nat) (m : Word) (f : Nat → List Nat) : Nat → Nat → Option Word :=
  fun r L => if m.getLsbD L = true ∧ d ≤ r then ((f L)[r - d]?).map (BitVec.ofNat 32) else none

/-- The lanes of `m` of a predicate take the bits `f`, the others keep those of `old`. -/
def inBits (old m : Word) (f : Nat → Bool) : Word := (old &&& ~~~m) ||| (maskOf f &&& m)

/-- B of the word `i` as it issues, by lane (01 R17). -/
def State.operandB (s : State) (gr : Grant) (i : Instr) (o : FOps) (L : Nat) : Word := (s.seen gr).b (s.begin (s.seen gr) i) o L

/-- B of the word `i` read once for the group (01 R17). -/
def State.operandBs (s : State) (gr : Grant) (i : Instr) (o : FOps) : Word := (s.seen gr).bs (s.begin (s.seen gr) i) o

/-- B of the word `i` as an element of a floating-point format (08 R141). -/
def State.operandF (s : State) (gr : Grant) (i : Instr) (o : FOps) (f : Fmt) (h L : Nat) : Nat := (s.seen gr).fb (s.begin (s.seen gr) i) o f h L

/-- A ready `i` writes `f L` to v[D] in the active lanes, and nothing else (08 R142). -/
def GivesLanes (i : Instr) (o : FOps) (s : State) (gr : Grant) (f : Nat → Word) : Prop :=
  Ready i s gr → Completes i s gr { v := inLanes o.d.toNat ((s.seen gr).active o.g) f }

/-- A ready `i` that finds no enabled exception in an active lane (07 R133) writes the words `f L` to v[D] onwards
in the active lanes, and nothing else; `f` gives the words and the exceptions found. -/
def GivesChecked (i : Instr) (o : FOps) (s : State) (gr : Grant) (f : Nat → List Nat × FFlags) : Prop :=
  Ready i s gr → (∀ L, L < 32 → ((s.seen gr).active o.g).getLsbD L = true → (f L).2.bits &&& (s.group gr.gid).fpx = 0) →
    Completes i s gr { v := wordsAt o.d.toNat ((s.seen gr).active o.g) (fun L => (f L).1) }

/-- The same, one word for each lane. -/
def GivesChecked1 (i : Instr) (o : FOps) (s : State) (gr : Grant) (f : Nat → Nat × FFlags) : Prop :=
  GivesChecked i o s gr (fun L => ([(f L).1], (f L).2))

/-- A ready `i` writes the bits `f L` of the active lanes to q[D], and nothing else (08 R142). -/
def GivesBits (i : Instr) (o : FOps) (s : State) (gr : Grant) (f : Nat → Bool) : Prop :=
  Ready i s gr → Completes i s gr { q := only o.d.toNat (inBits ((s.group gr.gid).rq o.d.toNat) ((s.seen gr).active o.g) f) }

/-- A ready `i` writes `x` to s[D], and nothing else (06 R119). -/
def GivesScalar (i : Instr) (o : FOps) (s : State) (gr : Grant) (x : Word) : Prop :=
  Ready i s gr → Completes i s gr { s := only o.d.toNat x }

/-! ### Operations started -/

/-- Every register of a group is as before. -/
def Group.sameRegs (g g' : Group) : Prop := g'.v = g.v ∧ g'.s = g.s ∧ g'.q = g.q ∧ g'.t = g.t ∧ g'.acc = g.acc

/-- The flag that a long-latency word carries (01 R25). -/
def Iss.carried (c : Iss) (i : Instr) : Option Nat := match i.longLat with | some sb => c.flag sb | none => none

/-- What the issue of a long-latency word does to its flag and its destinations (01 R25, R26). -/
def pendsOn (i : Instr) (c : Iss) (g' : Group) : Prop :=
  ∀ f, c.carried i = some f → g'.flagCount f = c.g.flagCount f + 1 ∧ ∀ r ∈ i.marks, ∃ m, g'.pending r.cls.code r.idx = some m ∧ m.flag = f

/-- `i` completes its issue by starting an operation with the given path and destination: the operation is new, it
carries the word's flag, it counts on its path, no register has changed, the slot has gone on, and the destinations of
a long-latency word are pending. Memory is as before where no access was issued under a race detector, which would write
its shadow (13 R254), and no release is in progress. -/
def Starts (i : Instr) (s : State) (gr : Grant) (path : Option Nat) (dest : Dest) : Prop :=
  ∃ t n x, exec i s = .next t ∧ s.nextId ≤ n ∧ t.op n = some x ∧ x.gid = gr.gid ∧ x.instr = i ∧ x.path = path ∧ x.flag = (s.seen gr).carried i ∧ x.dest = dest ∧
    (∀ p, path = some p → (⟨p, n, false⟩ : PathOp) ∈ (t.after gr).paths) ∧
    (s.group gr.gid).sameRegs (t.after gr) ∧ advanced (s.seen gr) (t.after gr) ∧ pendsOn i (s.seen gr) (t.after gr) ∧
    ((s.context (s.group gr.gid).ctx).rd.en = false → (∀ o ∈ s.ops, o.2.race = false) → s.holds = [] → t.mem = s.mem)

/-- `i` completes without writing a register: the slot has gone on, and nothing else outside the model's bookkeeping
is said. -/
def Passes (i : Instr) (s : State) (gr : Grant) (post : State → Prop) : Prop :=
  ∃ t, exec i s = .next t ∧ (s.group gr.gid).sameRegs (t.after gr) ∧ advanced (s.seen gr) (t.after gr) ∧ post t

/-- A precise fault (16 R304): the word has no effect, its group stops before it, and the halt line of its context
is raised with the fault. -/
def Traps (i : Instr) (s : State) (gr : Grant) (f : Flt) : Prop :=
  exec i s = .next (({ s with grant := none } : State).raise (s.group gr.gid).ctx f { gid := some gr.gid, slotB := gr.slotB, pc := (s.seen gr).pc, precise := true })

/-- As `Traps`, for a lasting error of a memory of the group's core (06 R110), which the error log of the die takes first
(16 R313). -/
def TrapsError (i : Instr) (s : State) (gr : Grant) (f : Flt) : Prop :=
  exec i s = .next ((s.logLasting (s.group gr.gid).ctx (dieOf gr.gid) (s.group gr.gid).tenant (coreOf gr.gid) f).takeTrap gr.gid gr.slotB (s.seen gr).pc f)

/-- Cores that differ at most in the errors and marks of their words. -/
def State.sameCores (t u : State) : Prop := ∀ k, { t.core k with flips := (u.core k).flips, doubles := (u.core k).doubles, poison := (u.core k).poison } = u.core k

/-- Addresses that are canonical and aligned (03 R62). -/
def goodAddrs (size : Nat) (l : List (Nat × Nat)) : Prop := ∀ x ∈ l, x.2 < 2 ^ 56 ∧ x.2 % size = 0

/-- The region store buffer takes the bytes of a store (02 R41): it commits first if they do not fit. -/
def Buffers (i : Instr) (s : State) (gr : Grant) (space : Space) (strong : Bool) (hint scope : Nat) (bs : List (Nat × Byte)) : Prop :=
  ∃ t n x, exec i s = .next t ∧ s.nextId ≤ n ∧ t.op n = some x ∧ x.gid = gr.gid ∧ x.instr = i ∧ x.path = some 1 ∧ (⟨1, n, false⟩ : PathOp) ∈ (t.after gr).paths ∧
    (t.after gr).buf = bufferStore space (s.group gr.gid).tenant n strong hint scope bs
      (if 64 < (s.group gr.gid).buf.length + (newSectors space bs (s.group gr.gid).buf).length then [] else (s.group gr.gid).buf) ∧
    (s.group gr.gid).sameRegs (t.after gr) ∧ advanced (s.seen gr) (t.after gr) ∧
    ((s.context (s.group gr.gid).ctx).rd.en = false → (∀ o ∈ s.ops, o.2.race = false) → s.holds = [] → t.mem = s.mem)

/-- No release or acquire of a group is in progress anywhere (13 R355). -/
def State.calm (s : State) : Prop := s.holds = [] ∧ ∀ r ∈ s.reqs, ∀ h, r.2.stage ≠ .behind h

/-- A transfer of control: as `Completes`, but the slot goes on at `pc` with a header (11 R213). -/
def Goes (i : Instr) (s : State) (gr : Grant) (pc : DWord) (w : Writes) : Prop :=
  ∃ t, exec i s = .next t ∧ Quiet s t gr.gid ∧ (s.group gr.gid).onlyRegs (t.after gr) ∧
    (t.after gr).slot gr.slotB = { (s.group gr.gid).slot gr.slotB with pc := pc, cl := none } ∧ (t.after gr).slot (!gr.slotB) = (s.group gr.gid).slot (!gr.slotB) ∧
    (∀ r L, L < 32 → (t.after gr).rv r L = (w.v r L).getD ((s.group gr.gid).rv r L)) ∧
    (∀ r, (t.after gr).rs r = (w.s r).getD ((s.group gr.gid).rs r)) ∧
    (∀ r, (t.after gr).rq r = (w.q r).getD ((s.group gr.gid).rq r))

/-- As `Passes`, and the group's registers change as `w` says. -/
def Gives (i : Instr) (s : State) (gr : Grant) (w : Writes) (post : State → Prop) : Prop :=
  ∃ t, exec i s = .next t ∧ advanced (s.seen gr) (t.after gr) ∧ (t.after gr).t = (s.group gr.gid).t ∧ (t.after gr).acc = (s.group gr.gid).acc ∧
    (∀ r L, L < 32 → (t.after gr).rv r L = (w.v r L).getD ((s.group gr.gid).rv r L)) ∧
    (∀ r, (t.after gr).rs r = (w.s r).getD ((s.group gr.gid).rs r)) ∧
    (∀ r, (t.after gr).rq r = (w.q r).getD ((s.group gr.gid).rq r)) ∧ post t

/-! ### Words that hold their group (01 R25, 13 R355) -/

/-- `i` has issued and holds its group for what `kind` says: no register has changed, and the group waits at the
word. -/
def Holds (i : Instr) (s : State) (gr : Grant) (kind : WaitKind → Prop) (post : State → Prop) : Prop :=
  ∃ t w, exec i s = .next t ∧ (t.after gr).wait = some w ∧ w.instr = i ∧ w.slotB = gr.slotB ∧ w.pc = (s.seen gr).pc ∧ w.cl = some (s.seen gr).cl ∧ kind w.kind ∧
    (s.group gr.gid).sameRegs (t.after gr) ∧ advanced (s.seen gr) (t.after gr) ∧ post t

/-- The opportunity `gr` returns a group to the word that holds it. -/
structure Returning (s : State) (gr : Grant) (w : Wait) : Prop where
  granted : s.grant = some gr
  again : gr.again = true
  waits : (s.group gr.gid).wait = some w

/-- The state of a group that has returned, before the rest of its word's effect. -/
def State.woken (s : State) (gr : Grant) : State := ({ s with grant := none } : State).setGroup gr.gid { s.group gr.gid with wait := none }

/-- What a returned word sees. -/
def State.back (s : State) (gr : Grant) (w : Wait) : Iss := ⟨gr.gid, w.slotB, w.pc, w.cl.getD {}, { s.group gr.gid with wait := none }⟩

/-- B of a returned word, read once for the group. -/
def State.backBs (s : State) (gr : Grant) (w : Wait) (o : FOps) : Word := (s.back gr w).bs (s.woken gr) o

/-- A returned word completes: its group waits no more, and `post` holds. -/
def Ends (i : Instr) (s : State) (gr : Grant) (post : State → Prop) : Prop :=
  ∃ t, exec i s = .next t ∧ t.grant = none ∧ (t.after gr).wait = none ∧ post t

/-- A returned word stops with a fault: its slot stands at the word again (12 R227, 14 R278). -/
def Stops (i : Instr) (s : State) (gr : Grant) (w : Wait) (f : Flt) : Prop := exec i s = .next ((s.woken gr).trapHeld gr.gid w f)

/-- `i` completes its issue by queueing `work` for the matrix unit of its core, behind what is queued there (09 R170):
an operation on MX; no register changes before the unit takes it. -/
def Queues (i : Instr) (s : State) (gr : Grant) (work : MxWork) (sp : Bool) (rows : List Nat) (post : State → Prop) : Prop :=
  ∃ t n x, exec i s = .next t ∧ s.nextId ≤ n ∧ t.op n = some x ∧ x.gid = gr.gid ∧ x.instr = i ∧ x.path = some 3 ∧ x.flag = (s.seen gr).carried i ∧
    (⟨3, n, false⟩ : PathOp) ∈ (t.after gr).paths ∧
    (t.core (coreOf gr.gid)).mx = (s.core (coreOf gr.gid)).mx ++ [{ op := n, gid := gr.gid, team := (s.group gr.gid).team, work := work, sp := sp, rows := rows }] ∧
    (s.group gr.gid).sameRegs (t.after gr) ∧ advanced (s.seen gr) (t.after gr) ∧ pendsOn i (s.seen gr) (t.after gr) ∧ post t

/-! ### The invariant -/

/-- What every step keeps: memory is in its canonical form. -/
def State.Inv (s : State) : Prop := Memory.wf s.mem = true

end Sys2Proof.Machine
end

