-- ==== Sys2Proof/Certificates/Slice0/Obligations.lean ====
section
/-! DEFINITION. The statements for the provers. -/

section

open Sys2Proof Sys2Proof.Machine

/-! ### Register-to-register instructions -/

/-- The integer group (08 R144 to R147): sums, differences, products, saturation, extrema, dot products and LEA, the
destination and nothing else written. IMADW and the carry chain (08 R145, R146): two registers, or a register and a predicate, are written. -/
def Obligations.IntegerResults : Prop :=
  (∀ (o : FOps) (s : State) (gr : Grant),
    let A := (s.seen gr).a o
    let B (i : Instr) (L : Nat) : Word := s.operandB gr i o L
    let C := (s.seen gr).c o
    let u := o.ox.getLsbD 0
    let lo : Int := if u then 0 else -2 ^ 31
    let hi : Int := if u then 2 ^ 32 - 1 else 2 ^ 31 - 1
    let dot (n : Nat) (L : Nat) (i : Instr) : Int := (C L).toInt + ((List.range n).map (fun k =>
      let e (uns : Bool) (x : Word) : Int := let y := x.extractLsb' (32 / n * k) (32 / n); if uns then y.toNat else y.toInt
      e u (A L) * e (o.ox.getLsbD 1) (B i L))).sum
    let narrow (x : Int) : Word := BitVec.ofInt 32 (if o.sat then max (-2 ^ 31) (min x (2 ^ 31 - 1)) else x)
    GivesLanes (.iadd o) o s gr (fun L => A L + B (.iadd o) L) ∧
    GivesLanes (.isub o) o s gr (fun L => A L - B (.isub o) L) ∧
    GivesLanes (.imul o) o s gr (fun L => A L * B (.imul o) L) ∧
    GivesLanes (.imulh o) o s gr (fun L => BitVec.ofInt 32 (asInt u (A L) * asInt u (B (.imulh o) L) / 2 ^ 32)) ∧
    GivesLanes (.imad o) o s gr (fun L => A L * B (.imad o) L + C L) ∧
    GivesLanes (.iabs o) o s gr (fun L => narrow ((A L).toInt.natAbs : Int)) ∧
    GivesLanes (.ineg o) o s gr (fun L => narrow (-(A L).toInt)) ∧
    GivesLanes (.imin o) o s gr (fun L => if asInt u (A L) ≤ asInt u (B (.imin o) L) then A L else B (.imin o) L) ∧
    GivesLanes (.imax o) o s gr (fun L => if asInt u (B (.imax o) L) ≤ asInt u (A L) then A L else B (.imax o) L) ∧
    GivesLanes (.iadds o) o s gr (fun L => BitVec.ofInt 32 (max lo (min (asInt u (A L) + asInt u (B (.iadds o) L)) hi))) ∧
    GivesLanes (.isubs o) o s gr (fun L => BitVec.ofInt 32 (max lo (min (asInt u (A L) - asInt u (B (.isubs o) L)) hi))) ∧
    GivesLanes (.idot4 o) o s gr (fun L => narrow (dot 4 L (.idot4 o))) ∧
    GivesLanes (.idot8 o) o s gr (fun L => narrow (dot 8 L (.idot8 o))) ∧
    GivesLanes (.lea o) o s gr (fun L => A L + B (.lea o) L <<< fld o.ox 0 5)) ∧
  (∀ (o : FOps) (s : State) (gr : Grant),
    let c := s.seen gr
    let m := c.active o.g
    let A := c.a o
    let B (i : Instr) (L : Nat) : Word := s.operandB gr i o L
    let p := fld o.ox 0 3
    let cin (L : Nat) : Nat := ((s.group gr.gid).rq p).getLsbD L |>.toNat
    let wide (L : Nat) : DWord := BitVec.ofInt 64 (asInt (o.ox.getLsbD 0) (A L) * asInt (o.ox.getLsbD 0) (B (.imadw o) L) + (pair (c.ck o 0 L) (c.ck o 1 L)).toNat)
    (Ready (.imadw o) s gr → Completes (.imadw o) s gr { v := fun r L => if m.getLsbD L = true then (if r = o.d.toNat then some (loWord (wide L)) else if r = o.d.toNat + 1 then some (hiWord (wide L)) else none) else none }) ∧
    (Ready (.iaddc o) s gr → Completes (.iaddc o) s gr { v := inLanes o.d.toNat m (fun L => BitVec.ofNat 32 ((A L).toNat + (B (.iaddc o) L).toNat + cin L)), q := only p (inBits ((s.group gr.gid).rq p) m (fun L => decide (2 ^ 32 ≤ (A L).toNat + (B (.iaddc o) L).toNat + cin L))) }) ∧
    (Ready (.isubb o) s gr → Completes (.isubb o) s gr { v := inLanes o.d.toNat m (fun L => A L - B (.isubb o) L - BitVec.ofNat 32 (cin L)), q := only p (inBits ((s.group gr.gid).rq p) m (fun L => decide ((A L).toNat < (B (.isubb o) L).toNat + cin L))) }))

/-- Moves and the logic and bit group (06 R113, R114; 08 R148 to R151). -/
def Obligations.MoveAndLogicResults : Prop :=
  ∀ (o : FOps) (k : Imm32Ops) (s : State) (gr : Grant),
    let c := s.seen gr
    let A := c.a o
    let B (i : Instr) (L : Nat) : Word := s.operandB gr i o L
    let C := c.c o
    let n (i : Instr) (L : Nat) : Nat := (B i L).toNat % 32
    let pos (i : Instr) (L : Nat) : Nat := (B i L).toNat % 32
    let len (i : Instr) (L : Nat) : Nat := min ((B i L).toNat / 256 % 64) (32 - pos i L)
    let field (i : Instr) (L : Nat) : Nat := (A L).toNat / 2 ^ pos i L % 2 ^ len i L
    let low (i : Instr) (L : Nat) : Word := BitVec.ofNat 32 (2 ^ len i L - 1)
    let byte (L k : Nat) : Nat := (pair (A L) (C L)).toNat / 256 ^ k % 256
    let sel (L k : Nat) : Nat := (B (.prmb o) L).toNat / 16 ^ k % 16
    GivesLanes (.mov o) o s gr (fun L => B (.mov o) L) ∧
    (Ready (.movi k) s gr → Completes (.movi k) s gr { v := inLanes k.d.toNat (c.active k.g) (fun _ => k.imm) }) ∧
    GivesLanes (.sel o) o s gr (fun L => if ((s.group gr.gid).rq (fld o.ox 0 3)).getLsbD L ≠ o.ox.getLsbD 3 then A L else B (.sel o) L) ∧
    GivesLanes (.and o) o s gr (fun L => A L &&& B (.and o) L) ∧
    GivesLanes (.or o) o s gr (fun L => A L ||| B (.or o) L) ∧
    GivesLanes (.xor o) o s gr (fun L => A L ^^^ B (.xor o) L) ∧
    GivesLanes (.not o) o s gr (fun L => ~~~(A L)) ∧
    GivesLanes (.tri o) o s gr (fun L => maskOf (fun j => o.ox.getLsbD (4 * ((A L).getLsbD j).toNat + 2 * ((B (.tri o) L).getLsbD j).toNat + ((C L).getLsbD j).toNat))) ∧
    GivesLanes (.shl o) o s gr (fun L => A L <<< n (.shl o) L) ∧
    GivesLanes (.shr o) o s gr (fun L => A L >>> n (.shr o) L) ∧
    GivesLanes (.sar o) o s gr (fun L => (A L).sshiftRight (n (.sar o) L)) ∧
    GivesLanes (.shf o) o s gr (fun L => ((A L ++ C L) >>> (if o.ox.getLsbD 0 then 32 - n (.shf o) L else n (.shf o) L)).setWidth 32) ∧
    GivesLanes (.popc o) o s gr (fun L => BitVec.ofNat 32 ((List.range 32).filter (fun j => (A L).getLsbD j)).length) ∧
    GivesLanes (.clz o) o s gr (fun L => BitVec.ofNat 32 (32 - (if A L = 0 then 0 else Nat.log2 (A L).toNat + 1))) ∧
    GivesLanes (.brev o) o s gr (fun L => maskOf (fun j => (A L).getLsbD (31 - j))) ∧
    GivesLanes (.bfe o) o s gr (fun L => if o.ox.getLsbD 0 = true ∧ 0 < len (.bfe o) L ∧ 2 ^ (len (.bfe o) L - 1) ≤ field (.bfe o) L then BitVec.ofNat 32 (field (.bfe o) L) - BitVec.ofNat 32 (2 ^ len (.bfe o) L) else BitVec.ofNat 32 (field (.bfe o) L)) ∧
    GivesLanes (.bfi o) o s gr (fun L => (C L &&& ~~~(low (.bfi o) L <<< pos (.bfi o) L)) ||| ((A L &&& low (.bfi o) L) <<< pos (.bfi o) L)) ∧
    GivesLanes (.prmb o) o s gr (fun L => BitVec.ofNat 32 (((List.range 4).map (fun j => (if 8 ≤ sel L j then 0 else byte L (sel L j)) * 256 ^ j)).sum))

/-- The FP32 group but for the special functions (08 R152, R153, R155): results rounded once in the mode of the
word, written where no enabled exception is found. The packed 16-bit group (08 R156, R157): each half by itself, in the format that OX[0] selects. -/
def Obligations.FloatResults : Prop :=
  (∀ (o : FOps) (s : State) (gr : Grant),
    let c := s.seen gr
    let A (L : Nat) : Nat := (c.a o L).toNat
    let B (i : Instr) (L : Nat) : Nat := s.operandF gr i o fp32 0 L
    GivesChecked1 (.fadd o) o s gr (fun L => fp32.add o.rm (A L) (B (.fadd o) L)) ∧
    GivesChecked1 (.fsub o) o s gr (fun L => fp32.sub o.rm (A L) (B (.fsub o) L)) ∧
    GivesChecked1 (.fmul o) o s gr (fun L => fp32.mul o.rm (A L) (B (.fmul o) L)) ∧
    GivesChecked1 (.ffma o) o s gr (fun L => fp32.fma o.rm (A L) (s.operandB gr (.ffma o) o L).toNat (c.c o L).toNat) ∧
    GivesChecked1 (.fmin o) o s gr (fun L => (fp32.minmax false (A L) (B (.fmin o) L), {})) ∧
    GivesChecked1 (.fmax o) o s gr (fun L => (fp32.minmax true (A L) (B (.fmax o) L), {})) ∧
    GivesLanes (.frnd o) o s gr (fun L => BitVec.ofNat 32 (frnd o.rm (A L))) ∧
    GivesLanes (.fclass o) o s gr (fun L => BitVec.ofNat 32 (fclass (A L))) ∧
    GivesChecked1 (.fscale o) o s gr (fun L => fscale o.rm (A L) (s.operandB gr (.fscale o) o L).toInt)) ∧
  (∀ (o : FOps) (s : State) (gr : Grant),
    let c := s.seen gr
    let F : Fmt := if o.ox.getLsbD 0 then bf16 else fp16
    let half (x : Word) (h : Nat) : Nat := x.toNat / 2 ^ (16 * h) % 2 ^ 16
    let A (L h : Nat) : Nat := half (c.a o L) h
    let B (i : Instr) (L h : Nat) : Nat := s.operandF gr i o F h L
    let W (i : Instr) (L h : Nat) : Nat := half (s.operandB gr i o L) h
    let C (L h : Nat) : Nat := half (c.c o L) h
    let both (f : Nat → Nat × FFlags) : Nat × FFlags := ((f 0).1 + 2 ^ 16 * (f 1).1, (f 0).2.or (f 1).2)
    GivesChecked1 (.hadd2 o) o s gr (fun L => both (fun h => F.add o.rm (A L h) (B (.hadd2 o) L h))) ∧
    GivesChecked1 (.hmul2 o) o s gr (fun L => both (fun h => F.mul o.rm (A L h) (B (.hmul2 o) L h))) ∧
    GivesChecked1 (.hfma2 o) o s gr (fun L => both (fun h => F.fma o.rm (A L h) (W (.hfma2 o) L h) (C L h))) ∧
    GivesChecked1 (.hmin2 o) o s gr (fun L => both (fun h => (F.minmax false (A L h) (B (.hmin2 o) L h), {}))) ∧
    GivesChecked1 (.hmax2 o) o s gr (fun L => both (fun h => (F.minmax true (A L h) (B (.hmax2 o) L h), {}))) ∧
    GivesChecked1 (.fdot2 o) o s gr (fun L => fdot2 F o.rm (A L 0) (W (.fdot2 o) L 0) (A L 1) (W (.fdot2 o) L 1) (c.c o L).toNat))

/-- The conversions between numbers (08 R158 to R160): element C[2:0] of A becomes element C[5:3] of D, the rest of D
stays; `.nx` needs the context's permission and checks no exception. The byte and Q4X conversions, order keys and scales (08 R161 to R165). -/
def Obligations.ConversionResults : Prop :=
  (∀ (o : FOps) (s : State) (gr : Grant),
    let c := s.seen gr
    let m := c.active o.g
    let old (L : Nat) : Word := (s.group gr.gid).rv o.d.toNat L
    let el (w L : Nat) : Nat := (c.a o L).toNat / 2 ^ (w * fld o.c 0 3) % 2 ^ w
    let into (w L x : Nat) : Word := setField (old L) (w * fld o.c 3 3) w x
    let quiet (f : Nat → Nat × FFlags) : Prop := (o.ox.getLsbD 6 = true ∧ (s.context (s.group gr.gid).ctx).nxok = true) ∨ (o.ox.getLsbD 6 = false ∧ ∀ L, L < 32 → m.getLsbD L = true → (f L).2.bits &&& (s.group gr.gid).fpx = 0)
    let gives (i : Instr) (w : Nat) (f : Nat → Nat × FFlags) : Prop := Ready i s gr → quiet f → Completes i s gr { v := inLanes o.d.toNat m (fun L => into w L (f L).1) }
    let src := fltFmt (fld o.ox 0 3)
    let dst := fltFmt (fld o.ox 3 3)
    let sw := (intWidth (fld o.ox 0 3)).getD 32
    let dw := (intWidth (fld o.ox 3 3)).getD 32
    let range := intRange (fld o.ox 3 3)
    gives (.cvtff o) dst.width (fun L => dst.round o.rm o.sat (src.decode (el src.width L))) ∧
    gives (.cvtfi o) dw (fun L => let r := toIntSat o.rm range.1 range.2 (src.decode (el src.width L)); (wrap r.1 dw, r.2)) ∧
    gives (.cvtif o) dst.width (fun L => dst.round o.rm o.sat (.ofInt (intVal (fld o.ox 0 3) (el sw L)))) ∧
    GivesLanes (.cvtii o) o s gr (fun L => let x := intVal (fld o.ox 0 3) (el sw L); into dw L (wrap (if o.sat then max range.1 (min x range.2) else x) dw))) ∧
  (∀ (o : FOps) (s : State) (gr : Grant),
    let c := s.seen gr
    let A (L : Nat) : Nat := (c.a o L).toNat
    let B (i : Instr) (L : Nat) : Nat := (s.operandB gr i o L).toNat
    let old (L : Nat) : Word := (s.group gr.gid).rv o.d.toNat L
    let F : Fmt := if o.ox.getLsbD 0 then bf16 else fp16
    let to8 (x : Nat) : Nat × FFlags := toByte (fld o.ox 0 2) o.rm o.sat x
    GivesChecked1 (.pack8 o) o s gr (fun L => ((setField (old L) (16 * fld o.c 0 1) 16 ((to8 (A L)).1 + 256 * (to8 (B (.pack8 o) L)).1)).toNat, (to8 (A L)).2.or (to8 (B (.pack8 o) L)).2)) ∧
    GivesLanes (.unpk8 o) o s gr (fun L => let x := A L / 2 ^ (8 * fld o.c 0 2) % 2 ^ 8; BitVec.ofNat 32 (if fld o.ox 0 2 = 0 then f8h.widen x else if fld o.ox 0 2 = 1 then f8w.widen x else (fp32.round .rne false (.ofInt (sext x 8))).1)) ∧
    GivesChecked (.packq o) o s gr (fun L => packq F o.rm o.sat (B (.packq o) L % 256) ((List.range 32).map (fun k => (((s.group gr.gid).rv (o.a.toNat + k / 2) L).toNat / 2 ^ (16 * (k % 2)) % 2 ^ 16)))) ∧
    GivesChecked (.unpkq o) o s gr (fun L => unpkq F o.rm o.sat (B (.unpkq o) L % 256) (A L)) ∧
    GivesLanes (.keyf o) o s gr (fun L => BitVec.ofNat 32 (if o.ox.getLsbD 3 then keyInverse (A L) else orderKey (o.ox.getLsbD 2) (if fld o.ox 0 2 = 0 then A L else fp16.widen (A L / 2 ^ (if fld o.ox 0 2 = 1 then 0 else 16) % 2 ^ 16)))) ∧
    GivesChecked1 (.qscl o) o s gr (fun L => ((setField (old L) (8 * fld o.c 0 2) 8 (qscl (qsclTarget (fld o.ox 0 3)) (A L)).1).toNat, (qscl (qsclTarget (fld o.ox 0 3)) (A L)).2)))

/-- An enabled exception found in an active lane (07 R133, 08 R143): the word has no effect, and its group stops
before it with cause group 4. Stated of every F-form word that raises flags: the FP32 sums, products and scaling, the special functions,
which find invalid and division by zero from their operands at issue (08 R154), so that FEXP2 and FTANH find none, the packed 16-bit
forms, where either half's exception counts, and the conversions, of which `.nx` checks none and stops its group where the context
does not permit it (08 R160).
Where it meets a choice of the model, it is this one: the order of the exceptions in one lane, which the detail shows (log 9). -/
def Obligations.ArithmeticTrap : Prop :=
  ∀ (o : FOps) (s : State) (gr : Grant),
    let c := s.seen gr
    let A (L : Nat) : Nat := (c.a o L).toNat
    let F : Fmt := if o.ox.getLsbD 0 then bf16 else fp16
    let half (x : Word) (h : Nat) : Nat := x.toNat / 2 ^ (16 * h) % 2 ^ 16
    let AH (L h : Nat) : Nat := half (c.a o L) h
    let BH (i : Instr) (L h : Nat) : Nat := s.operandF gr i o F h L
    let W (i : Instr) (L h : Nat) : Nat := half (s.operandB gr i o L) h
    let C (L h : Nat) : Nat := half (c.c o L) h
    let both (f : Nat → FFlags) : FFlags := (f 0).or (f 1)
    let el (w L : Nat) : Nat := A L / 2 ^ (w * fld o.c 0 3) % 2 ^ w
    let src := fltFmt (fld o.ox 0 3)
    let dst := fltFmt (fld o.ox 3 3)
    let range := intRange (fld o.ox 3 3)
    let to8 (x : Nat) : FFlags := (toByte (fld o.ox 0 2) o.rm o.sat x).2
    let B (i : Instr) (L : Nat) : Nat := (s.operandB gr i o L).toNat
    let traps (i : Instr) (f : Nat → FFlags) : Prop := Ready i s gr → (∃ L, L < 32 ∧ (c.active o.g).getLsbD L = true ∧ (f L).bits &&& (s.group gr.gid).fpx ≠ 0) →
      ∃ d, exec i s = .next (({ s with grant := none } : State).raise (s.group gr.gid).ctx ⟨4, d⟩ { gid := some gr.gid, slotB := gr.slotB, pc := c.pc, precise := true })
    traps (.fadd o) (fun L => (fp32.add o.rm (A L) (s.operandF gr (.fadd o) o fp32 0 L)).2) ∧
    traps (.fsub o) (fun L => (fp32.sub o.rm (A L) (s.operandF gr (.fsub o) o fp32 0 L)).2) ∧
    traps (.fmul o) (fun L => (fp32.mul o.rm (A L) (s.operandF gr (.fmul o) o fp32 0 L)).2) ∧
    traps (.ffma o) (fun L => (fp32.fma o.rm (A L) (s.operandB gr (.ffma o) o L).toNat (c.c o L).toNat).2) ∧
    traps (.fscale o) (fun L => (fscale o.rm (A L) (s.operandB gr (.fscale o) o L).toInt).2) ∧
    (∀ (i : Instr) (f : Special), (i, f) ∈ [(Instr.frcp o, Special.rcp), (.frsq o, .rsq), (.fsqrt o, .sqrt), (.flog2 o, .log2), (.fsinpi o, .sinpi), (.fcospi o, .cospi)] →
      traps i (fun L => (f.value (fp32.decode (A L))).2)) ∧
    (∀ v, (Special.exp2.value v).2.bits = 0 ∧ (Special.tanh.value v).2.bits = 0) ∧
    (∀ i, i ∈ [Instr.cvtff o, .cvtfi o, .cvtif o] → Ready i s gr → o.ox.getLsbD 6 = true → (s.context (s.group gr.gid).ctx).nxok = false → Traps i s gr (fRight (s.context (s.group gr.gid).ctx).level 8 0 i.opcNum)) ∧
    traps (.hadd2 o) (fun L => both (fun h => (F.add o.rm (AH L h) (BH (.hadd2 o) L h)).2)) ∧
    traps (.hmul2 o) (fun L => both (fun h => (F.mul o.rm (AH L h) (BH (.hmul2 o) L h)).2)) ∧
    traps (.hfma2 o) (fun L => both (fun h => (F.fma o.rm (AH L h) (W (.hfma2 o) L h) (C L h)).2)) ∧
    traps (.fdot2 o) (fun L => (fdot2 F o.rm (AH L 0) (W (.fdot2 o) L 0) (AH L 1) (W (.fdot2 o) L 1) (c.c o L).toNat).2) ∧
    (o.ox.getLsbD 6 = false →
      traps (.cvtff o) (fun L => (dst.round o.rm o.sat (src.decode (el src.width L))).2) ∧
      traps (.cvtfi o) (fun L => (toIntSat o.rm range.1 range.2 (src.decode (el src.width L))).2) ∧
      traps (.cvtif o) (fun L => (dst.round o.rm o.sat (.ofInt (intVal (fld o.ox 0 3) (el ((intWidth (fld o.ox 0 3)).getD 32) L)))).2)) ∧
    traps (.pack8 o) (fun L => (to8 (A L)).or (to8 (B (.pack8 o) L))) ∧
    traps (.packq o) (fun L => (packq F o.rm o.sat (B (.packq o) L % 256) ((List.range 32).map (fun k => (((s.group gr.gid).rv (o.a.toNat + k / 2) L).toNat / 2 ^ (16 * (k % 2)) % 2 ^ 16)))).2) ∧
    traps (.unpkq o) (fun L => (unpkq F o.rm o.sat (B (.unpkq o) L % 256) (A L)).2) ∧
    traps (.qscl o) (fun L => (qscl (qsclTarget (fld o.ox 0 3)) (A L)).2)

/-- Comparisons, predicate logic, lane exchange, votes and predicate moves (08 R166 to R168; 06 R115, R117, R118). -/
def Obligations.PredicateAndLaneResults : Prop :=
  ∀ (o : FOps) (s : State) (gr : Grant),
    let c := s.seen gr
    let g := s.group gr.gid
    let m := c.active o.g
    let A := c.a o
    let u := o.ox.getLsbD 3
    let rel (a b : Int) : Bool := match fld o.ox 0 3 with | 0 => a == b | 1 => a != b | 2 => decide (a < b) | 3 => decide (a ≤ b) | 4 => decide (b < a) | _ => decide (b ≤ a)
    let bit (r L : Nat) : Nat := ((g.rq r).getLsbD L).toNat
    let seg := 32 / 2 ^ fld o.ox 2 3
    let from_ (L : Nat) : Nat := let b := (s.operandB gr (.xch o) o L).toNat % 32; let i := L % seg
      match fld o.ox 0 2 with | 0 => L - i + b % seg | 1 => if b ≤ i then L - b else L | 2 => if i + b < seg then L + b else L | _ => L - i + (i ^^^ (b % seg))
    let x := if o.ox.getLsbD 2 then ~~~(g.rq o.a.toNat) else g.rq o.a.toNat
    GivesBits (.icmp o) o s gr (fun L => rel (asInt u (A L)) (asInt u (s.operandB gr (.icmp o) o L))) ∧
    GivesBits (.fcmp o) o s gr (fun L => fcond (fld o.ox 0 3) (A L).toNat (s.operandF gr (.fcmp o) o fp32 0 L)) ∧
    GivesBits (.plop o) o s gr (fun L => o.ox.getLsbD (4 * bit o.a.toNat L + 2 * bit o.b.toNat L + bit o.c.toNat L)) ∧
    GivesLanes (.xch o) o s gr (fun L => g.rv o.a.toNat (from_ L)) ∧
    (Ready (.vote o) s gr → Completes (.vote o) s gr { s := if m = 0 then fun _ => none else only o.d.toNat (match fld o.ox 0 2 with | 0 => m &&& x | 1 => if m &&& x ≠ 0 then 1 else 0 | 2 => if m &&& x = m then 1 else 0 | _ => if m &&& x = m ∨ m &&& x = 0 then 1 else 0) }) ∧
    (Ready (.pmov o) s gr → Completes (.pmov o) s gr (match fld o.ox 0 2 with
      | 0 => { s := if m = 0 then fun _ => none else only o.d.toNat (g.rq o.a.toNat) }
      | 1 => { q := only o.d.toNat (inBits (g.rq o.d.toNat) m (fun L => (g.rs o.a.toNat).getLsbD L)) }
      | 2 => { v := inLanes o.d.toNat m (fun L => if (g.rq o.a.toNat).getLsbD L then 0xFFFFFFFF else 0) }
      | _ => { q := only o.d.toNat (inBits (g.rq o.d.toNat) m (fun L => decide (A L ≠ 0))) }))

/-- The scalar group but for memory and system registers (06 R119, R120): one value for the group, `.d` forms on
pairs. -/
def Obligations.ScalarResults : Prop :=
  ∀ (o : FOps) (k : Imm32Ops) (s : State) (gr : Grant),
    let c := s.seen gr
    let A := (s.group gr.gid).rs o.a.toNat
    let AA := (s.group gr.gid).rpair o.a.toNat
    let B (i : Instr) : Word := s.operandBs gr i o
    let BB := c.bd o
    let d := o.ox.getLsbD 0
    let dual (i : Instr) (x : Word) (y : DWord) : Prop := Ready i s gr → Completes i s gr { s := if d then onlyPair o.d.toNat y else only o.d.toNat x }
    let rel (a b : Int) : Bool := match fld o.ox 0 3 with | 0 => a == b | 1 => a != b | 2 => decide (a < b) | 3 => decide (a ≤ b) | 4 => decide (b < a) | _ => decide (b ≤ a)
    dual (.sadd o) (A + B (.sadd o)) (AA + BB) ∧
    dual (.ssub o) (A - B (.ssub o)) (AA - BB) ∧
    dual (.sshl o) (A <<< ((B (.sshl o)).toNat % 32)) (AA <<< (BB.toNat % 64)) ∧
    dual (.sshr o) (if o.ox.getLsbD 1 then A.sshiftRight ((B (.sshr o)).toNat % 32) else A >>> ((B (.sshr o)).toNat % 32)) (if o.ox.getLsbD 1 then AA.sshiftRight (BB.toNat % 64) else AA >>> (BB.toNat % 64)) ∧
    dual (.smov o) (B (.smov o)) BB ∧
    (Ready (.smovi k) s gr → Completes (.smovi k) s gr { s := only k.d.toNat k.imm }) ∧
    GivesScalar (.smul o) o s gr (let b := B (.smul o); match fld o.ox 0 2 with | 0 => A * b | 1 => BitVec.ofNat 32 (A.toNat * b.toNat / 2 ^ 32) | _ => BitVec.ofInt 32 (A.toInt * b.toInt / 2 ^ 32)) ∧
    GivesScalar (.sand o) o s gr (A &&& B (.sand o)) ∧
    GivesScalar (.sor o) o s gr (A ||| B (.sor o)) ∧
    GivesScalar (.sxor o) o s gr (A ^^^ B (.sxor o)) ∧
    GivesScalar (.spopc o) o s gr (BitVec.ofNat 32 ((List.range 32).filter (fun j => (B (.spopc o)).getLsbD j)).length) ∧
    GivesScalar (.sffs o) o s gr (BitVec.ofNat 32 (((List.range 32).find? (fun j => (B (.sffs o)).getLsbD j)).getD 32)) ∧
    GivesScalar (.smin o) o s gr (if asInt d A ≤ asInt d (B (.smin o)) then A else B (.smin o)) ∧
    GivesScalar (.smax o) o s gr (if asInt d (B (.smax o)) ≤ asInt d A then A else B (.smax o)) ∧
    GivesScalar (.scmp o) o s gr (if rel (asInt (o.ox.getLsbD 3) A) (asInt (o.ox.getLsbD 3) (B (.scmp o))) then 1 else 0)

/-! ### Memory -/

/-- LD, SLD and LDP (03 R62 to R65; 06 R122): canonical and aligned addresses, or per-thread words within the area,
start a load of the active lanes on LD. The address checks of LD, ST, SLD and SST at issue (03 R62): the lowest lane whose address is not canonical, or
is not a multiple of the access size, stops the group before the word, the first check ahead of the second. LDP and STP with a word
outside the lane's per-thread area stop it too, with the first such word of the lowest such lane (03 R65).
Where it meets a choice of the model, it is this one: that alignment is checked after the canonical form (log 9). -/
def Obligations.LoadsStart : Prop :=
  (∀ (o : FOps) (s : State) (gr : Grant),
    let c := s.seen gr
    let size := accBytes o
    let m := c.active o.g
    let at_ (i : Instr) : List (Nat × Nat) := c.addrs (s.begin c i) o size m
    let one : List (Nat × Nat) := [(0, c.saddr (s.begin c (.sld o)) o size)]
    (Ready (.ld o) s gr → m ≠ 0 → goodAddrs size (at_ (.ld o)) → Starts (.ld o) s gr (some 0) (.load o.d.toNat (fld o.ox 5 3) (c.remapAll (s.begin c (.ld o)) (at_ (.ld o))))) ∧
    (Ready (.ld o) s gr → m = 0 → Starts (.ld o) s gr none .none) ∧
    (Ready (.sld o) s gr → goodAddrs size one → Starts (.sld o) s gr (some 0) (.sload o.d.toNat (fld o.ox 5 3) ((s.core (coreOf gr.gid)).remap (s.group gr.gid).tenant (c.saddr (s.begin c (.sld o)) o size)))) ∧
    (Ready (.ldp o) s gr → m ≠ 0 → ∀ l, c.ptmAddrs (s.begin c (.ldp o)) o 0 = .ok l → Starts (.ldp o) s gr (some 0) (.words o.d.toNat (l.flatMap (fun x => (List.range (ptmWords o)).map (fun j => (x.1, j, ((s.begin c (.ldp o)).core (coreOf gr.gid)).remap (s.group gr.gid).tenant (x.2 + 128 * j))))))) ∧
    (Ready (.ldp o) s gr → m = 0 → Starts (.ldp o) s gr none .none)) ∧
  (∀ (o : FOps) (s : State) (gr : Grant) (before after : List (Nat × Nat)) (L va : Nat),
    let c := s.seen gr
    let size := accBytes o
    let fault (acc : Nat) : Flt := if 2 ^ 56 ≤ va then fTranslation acc 3 0 3 va else fAlign 0 L (lg2 size) va
    let bad (l : List (Nat × Nat)) : Prop := l = before ++ (L, va) :: after ∧ goodAddrs size before ∧ (2 ^ 56 ≤ va ∨ va % size ≠ 0)
    (Ready (.ld o) s gr → bad (c.addrs (s.begin c (.ld o)) o size (c.active o.g)) → Traps (.ld o) s gr (fault 0)) ∧
    (Ready (.st o) s gr → bad (c.addrs (s.begin c (.st o)) o size (c.active o.g)) → Traps (.st o) s gr (fault 1)) ∧
    (Ready (.sld o) s gr → bad [(0, c.saddr (s.begin c (.sld o)) o size)] → Traps (.sld o) s gr (fault 0)) ∧
    (Ready (.sst o) s gr → bad [(0, c.saddr (s.begin c (.sst o)) o size)] → Traps (.sst o) s gr (fault 1))) ∧
  (∀ (o : FOps) (s : State) (gr : Grant) (L k acc : Nat) (i : Instr),
    let g := s.group gr.gid
    let m := (s.seen gr).active o.g
    let word (j n : Nat) : Int := (s.operandB gr i o j).toInt + n
    let within (j n : Nat) : Prop := 0 ≤ word j n ∧ word j n < g.ptmWords
    (i = .ldp o ∧ acc = 0) ∨ (i = .stp o ∧ acc = 1) → Ready i s gr → L < 32 → m.getLsbD L = true → k < ptmWords o → ¬ within L k →
      (∀ j, j < L → m.getLsbD j = true → ∀ n, n < ptmWords o → within j n) → (∀ n, n < k → within L n) →
      Traps i s gr (fTranslation acc 3 0 7 (wrap (g.ptmBase + word L k * 128 + L * 4) 56)))

/-- ST, SST, STP and STS (03 R64, R65; 04 R73; 06 R122): a store that is not a release enters the region store
buffer, its bytes in lane order; without an active lane it has no effect; a release form commits the region. A region store buffer whose entries are sectors reads back what a store has put into it (02 R41): the last byte
written at an address of a space, and every other byte as before; and its entries stay sectors.
Where it meets a choice of the model, it is this one: what becomes of a store that would make more than 64 entries (log 39). -/
def Obligations.StoresBuffer : Prop :=
  (∀ (o : FOps) (s : State) (gr : Grant),
    let c := s.seen gr
    let g := s.group gr.gid
    let size := accBytes o
    let m := c.active o.g
    let st := s.begin c (.st o)
    let lanes := c.addrs st o size m
    let one := c.saddr (s.begin c (.sst o)) o size
    let word (k L : Nat) : Word := g.rv (o.d.toNat + k) L
    let data (f : Nat → Nat → Word) (L : Nat) : Nat := ((List.range ((size + 3) / 4)).map (fun k => (f k L).toNat * 2 ^ (32 * k))).sum
    let noBytes (b : List BufEntry) : Prop := b = g.buf
    (Ready (.st o) s gr → m ≠ 0 → goodAddrs size lanes → ordKind o < 2 →
      Buffers (.st o) s gr .global (isStrong o) (hintOf o) (raceScope o) ((c.remapAll st lanes).flatMap (fun x => bytesAt x.2 (data word x.1) size))) ∧
    (Ready (.st o) s gr → m = 0 → ordKind o < 2 → Passes (.st o) s gr (fun t => t.mem = s.mem ∧ noBytes (t.after gr).buf)) ∧
    (Ready (.st o) s gr → goodAddrs size lanes → 2 ≤ ordKind o → Passes (.st o) s gr (fun t => (t.after gr).buf = [])) ∧
    (Ready (.sst o) s gr → goodAddrs size [(0, one)] → ordKind o < 2 →
      Buffers (.sst o) s gr .global (isStrong o) (hintOf o) (raceScope o) (bytesAt ((s.core (coreOf gr.gid)).remap g.tenant one) (data (fun k _ => g.rs (o.d.toNat + k)) 0) size)) ∧
    (Ready (.sst o) s gr → goodAddrs size [(0, one)] → 2 ≤ ordKind o → Passes (.sst o) s gr (fun t => (t.after gr).buf = [])) ∧
    (Ready (.stp o) s gr → m ≠ 0 → ∀ l, c.ptmAddrs (s.begin c (.stp o)) o 1 = .ok l →
      Buffers (.stp o) s gr .perThread false 0 0 (l.flatMap (fun x => (List.range (ptmWords o)).flatMap (fun j => bytesAt (((s.begin c (.stp o)).core (coreOf gr.gid)).remap g.tenant (x.2 + 128 * j)) (word j x.1).toNat 4)))) ∧
    (Ready (.stp o) s gr → m = 0 → Passes (.stp o) s gr (fun t => t.mem = s.mem ∧ noBytes (t.after gr).buf)) ∧
    (Ready (.sts o) s gr → m ≠ 0 → (∀ x ∈ c.spAddrs (s.begin c (.sts o)) o size m, x.2 % size = 0 ∧ x.2 + size ≤ (s.team g.team).scratchSize) →
      Buffers (.sts o) s gr .scratch false 0 0 ((c.spAddrs (s.begin c (.sts o)) o size m).flatMap (fun x => bytesAt x.2 (data word x.1) size))) ∧
    (Ready (.sts o) s gr → m = 0 → Passes (.sts o) s gr (fun t => t.mem = s.mem ∧ noBytes (t.after gr).buf))) ∧
  (∀ (g : Group) (space : Space) (tenant op hint scope : Nat) (strong : Bool) (bs : List (Nat × Byte)),
    let ok (buf : List BufEntry) : Prop := ∀ e ∈ buf, e.sector % 32 = 0 ∧ ∀ b ∈ e.bytes, b.1 < 32
    let after := bufferStore space tenant op strong hint scope bs g.buf
    ok g.buf → ok after ∧ ∀ (sp : Space) (a : Nat),
      tfind a (({ g with buf := after } : Group).ownBytes sp (a / 128)) =
        (if sp = space then (match (bs.reverse.find? (fun b => b.1 = a)).map (·.2) with | some b => some b | none => tfind a (g.ownBytes sp (a / 128))) else tfind a (g.ownBytes sp (a / 128))))

/-- PREF, CINV and CWB (03 R66): a prefetch of each canonical line that the L1 does not hold is on its way to the slice, behind what
the core has in flight to the line, and one of a palette line sends nothing (04 R81); CINV leaves no line that it has checked in
the L1 and CWB leaves it clean, palette lines excepted, where no earlier request to the line is in flight; `.all` does so for every
line of the tenant; without an active lane nothing happens. -/
def Obligations.Maintenance : Prop :=
  ∀ (o : FOps) (s : State) (gr : Grant),
    let c := s.seen gr
    let g := s.group gr.gid
    let k := coreOf gr.gid
    let m := c.active o.g
    let lineOf (i : Instr) (va : Nat) : Nat := ((s.begin c i).core k).remap g.tenant va / 128
    let unmet (i : Instr) : Prop := (s.cluster (clusterOfCore k)).combine = [] ∧ ∀ y ∈ c.byteAddrs (s.begin c i) o m, ∀ q ∈ s.reqs, q.2.tenant = g.tenant → q.2.line ≠ lineOf i y.2
    (Ready (.pref o) s gr → Passes (.pref o) s gr (fun t => ∀ x ∈ c.byteAddrs (s.begin c (.pref o)) o m, x.2 < 2 ^ 56 → (s.core k).line g.tenant (lineOf (.pref o) x.2) = none →
      ∃ n r, tfind n t.reqs = some r ∧ s.nextId ≤ n ∧ r.kind = .prefetch ∧ (r.stage = .toSlice ∨ r.stage = .queued) ∧ r.line = lineOf (.pref o) x.2)) ∧
    (Ready (.pref o) s gr → s.reqs = [] → (s.cluster (clusterOfCore k)).combine = [] → (∀ x ∈ c.byteAddrs (s.begin c (.pref o)) o m, x.2 < 2 ^ 56 → ∃ l, (s.core k).line g.tenant (lineOf (.pref o) x.2) = some l ∧ l.isPool = true) →
      Passes (.pref o) s gr (fun t => t.reqs = [])) ∧
    (Ready (.cinv o) s gr → m = 0 → Passes (.cinv o) s gr (fun t => t.reqs = s.reqs ∧ t.mem = s.mem)) ∧
    (Ready (.cwb o) s gr → m = 0 → Passes (.cwb o) s gr (fun t => t.reqs = s.reqs ∧ t.mem = s.mem)) ∧
    (Ready (.cinv o) s gr → m ≠ 0 → o.ox.getLsbD 1 = true → Passes (.cinv o) s gr (fun t => ∀ l x, (t.core k).line g.tenant l = some x → l < 2 ^ 49 → x.isPool = true)) ∧
    (Ready (.cwb o) s gr → m ≠ 0 → o.ox.getLsbD 1 = true → Passes (.cwb o) s gr (fun t => ∀ l x, (t.core k).line g.tenant l = some x → l < 2 ^ 49 → x.isPool = true ∨ x.dirty = [])) ∧
    (Ready (.cinv o) s gr → m ≠ 0 → o.ox.getLsbD 1 = false → goodAddrs 1 (c.byteAddrs (s.begin c (.cinv o)) o m) → unmet (.cinv o) →
      Passes (.cinv o) s gr (fun t => ∀ y ∈ c.byteAddrs (s.begin c (.cinv o)) o m, ∀ x, (t.core k).line g.tenant (lineOf (.cinv o) y.2) = some x → x.isPool = true ∨ x.rd = false ∨ x.valid = 0)) ∧
    (Ready (.cwb o) s gr → m ≠ 0 → o.ox.getLsbD 1 = false → goodAddrs 1 (c.byteAddrs (s.begin c (.cwb o)) o m) → unmet (.cwb o) →
      Passes (.cwb o) s gr (fun t => ∀ y ∈ c.byteAddrs (s.begin c (.cwb o)) o m, ∀ x, (t.core k).line g.tenant (lineOf (.cwb o) y.2) = some x → x.isPool = true ∨ x.rd = false ∨ x.valid = 0 ∨ x.dirty = []))

/-! ### The scratchpad and tiles -/

/-- LDS and the address checks of LDS and STS (04 R72, R73): aligned addresses within the team's scratchpad start a
load whose words are read at issue, the group's buffered bytes over the contents; else the lowest lane that fails
stops the group before the word, alignment ahead of the size. TLD, TST and TMOV (04 R74, R75): a tile's 32 columns of 16 words, at a stride of 64 bytes or, with `.col`, at the
stride of s[B], which is a decode error below 64 whatever the guard (01 R13); a tile that is loaded or moved is read at issue, and a
stored one enters the region store buffer; a misaligned base or stride, and a column past the scratchpad's size, stop the group.
Where it meets a choice of the model, it is this one: that a load of the scratchpad reads at issue (log 20), the order of its checks (log 9), and
that a TST with more than 64 sectors of its own is buffered whole (log 39). -/
def Obligations.ScratchAndTiles : Prop :=
  (∀ (o : FOps) (s : State) (gr : Grant),
    let c := s.seen gr
    let g := s.group gr.gid
    let size := accBytes o
    let m := c.active o.g
    let limit := (s.team g.team).scratchSize
    let at_ (i : Instr) : List (Nat × Nat) := c.spAddrs (s.begin c i) o size m
    let fits (x : Nat × Nat) : Prop := x.2 % size = 0 ∧ x.2 + size ≤ limit
    let words (x : Nat × Nat) : List (RCell × Word) := (loadWords (fld o.ox 5 3) (s.scratchNum c x.2 size)).zipIdx.map (fun w => (⟨0, 32 * (o.d.toNat + w.2) + x.1⟩, w.1))
    (Ready (.lds o) s gr → m ≠ 0 → (∀ x ∈ at_ (.lds o), fits x) → (s.begin c (.lds o)).spPoison g.team (spBytes size ((at_ (.lds o)).map (·.2))) = none →
      Starts (.lds o) s gr (some 0) (.cells ((at_ (.lds o)).flatMap words))) ∧
    (Ready (.lds o) s gr → m = 0 → Starts (.lds o) s gr none (.cells [])) ∧
    (∀ (before after : List (Nat × Nat)) (L a : Nat) (i : Instr), i = .lds o ∨ i = .sts o → Ready i s gr → at_ i = before ++ (L, a) :: after → (∀ x ∈ before, fits x) → ¬ fits (L, a) →
      Traps i s gr (if a % size ≠ 0 then fAlign 1 L (lg2 size) a else fScratch a))) ∧
  (∀ (o : FOps) (s : State) (gr : Grant),
    let c := s.seen gr
    let g := s.group gr.gid
    let m := c.active o.g
    let D := o.d.toNat
    let A := o.a.toNat
    let base := (g.rs A).toNat
    let stride := if o.ox.getLsbD 0 then (g.rs o.b.toNat).toNat else 64
    let wide : Prop := 64 ≤ stride
    let good : Prop := base % 16 = 0 ∧ stride % 16 = 0 ∧ wide ∧ base + 31 * stride + 64 ≤ (s.team g.team).scratchSize
    let tile (f : Nat → Nat → Word) : List (RCell × Word) := (List.range 32).flatMap (fun j => (List.range 16).map (fun k => ((⟨3, 512 * D + 16 * j + k⟩ : RCell), f j k)))
    let from_ (f : Nat → Nat → RCell × Word) : List (RCell × Word) := (lanesIn m).flatMap (fun j => (List.range 16).map (f j))
    (Ready (.tld o) s gr → m ≠ 0 → good → (s.begin c (.tld o)).spPoison g.team (spBytes 64 ((List.range 32).map (fun j => base + j * stride))) = none →
      Starts (.tld o) s gr (some 0) (.cells (tile (fun j k => BitVec.ofNat 32 (s.scratchNum c (base + j * stride + 4 * k) 4))))) ∧
    (Ready (.tld o) s gr → m = 0 → wide → Starts (.tld o) s gr none .none) ∧
    (Ready (.tst o) s gr → m ≠ 0 → good →
      Buffers (.tst o) s gr .scratch false 0 0 ((List.range 32).flatMap (fun j => (List.range 16).flatMap (fun k => bytesAt (base + j * stride + 4 * k) (g.rt D (16 * j + k)).toNat 4)))) ∧
    (Ready (.tst o) s gr → m = 0 → wide → Passes (.tst o) s gr (fun t => t.mem = s.mem ∧ (t.after gr).buf = g.buf)) ∧
    (∀ i, i = .tld o ∨ i = .tst o → Ready i s gr → m ≠ 0 → base % 16 ≠ 0 → Traps i s gr (fAlign 1 0 4 base)) ∧
    (∀ i, i = .tld o ∨ i = .tst o → Ready i s gr → m ≠ 0 → base % 16 = 0 → stride % 16 ≠ 0 → Traps i s gr (fAlign 1 0 4 (base + stride))) ∧
    (∀ i j, i = .tld o ∨ i = .tst o → Ready i s gr → m ≠ 0 → base % 16 = 0 → stride % 16 = 0 → wide → j < 32 → (s.team g.team).scratchSize < base + j * stride + 64 →
      (∀ k, k < j → base + k * stride + 64 ≤ (s.team g.team).scratchSize) → Traps i s gr (fScratch (base + j * stride))) ∧
    (∀ i, i = .tld o ∨ i = .tst o → Ready i s gr → ¬ wide → (m = 0 ∨ (base % 16 = 0 ∧ stride % 16 = 0)) → Traps i s gr (fEncoding false 3 i.wordOf)) ∧
    (Ready (.tmov o) s gr → Starts (.tmov o) s gr none (.cells (match fld o.ox 0 2 with
      | 0 => if m = 0 then [] else (List.range 512).map (fun w => (⟨3, 512 * D + w⟩, g.rt A w))
      | 1 => from_ (fun j k => (⟨3, 512 * D + 16 * j + k⟩, g.rv (A + k) j))
      | _ => from_ (fun j k => (⟨0, 32 * (D + k) + j⟩, g.rt A (16 * j + k)))))))

/-! ### Palettes -/

/-- PDECL and PQRY (04 R76, R77, R85): the answer in s[D], and the palette that a declaration makes; a handle that
is not valid stops every palette instruction that names one. PENTER, PWAIT, PLEAVE and PDROP (04 R78 to R80, R85) on a valid handle, each after the commit of the region.
Where it meets a choice of the model, it is this one: when the remap filter is applied (log 42), and that PENTER of a queued palette does not hold the group (log 62). -/
def Obligations.Palettes : Prop :=
  (∀ (o : FOps) (s : State) (gr : Grant),
    let c := s.seen gr
    let g := s.group gr.gid
    let team := s.team g.team
    let m := c.active o.g
    let shape := paletteShape (o.ox.getLsbD 0) (g.rpair o.a.toNat).toNat (g.rs o.b.toNat) (g.rs o.c.toNat)
    let free := (List.range 8).find? (fun k => (tfind k team.pals).isNone)
    let core := ((s.begin c (.pdecl o)).commitRegion gr.gid gr.slotB).core (coreOf gr.gid)
    let answers (x : Nat) (pals : Table Palette) : Prop := Gives (.pdecl o) s gr { s := only o.d.toNat (BitVec.ofNat 32 x) } (fun t => (t.team g.team).pals = pals ∧ (t.after gr).buf = [])
    let lines (vas : List Nat) : List Nat := (unionLines (vas.map (fun va => [core.remap g.tenant va / 128])))
    (Ready (.pdecl o) s gr → m = 0 → Gives (.pdecl o) s gr {} (fun t => (t.team g.team).pals = team.pals ∧ (t.after gr).buf = [])) ∧
    (Ready (.pdecl o) s gr → m ≠ 0 → shape = none → answers 0x300 team.pals) ∧
    (Ready (.pdecl o) s gr → m ≠ 0 → shape ≠ none → free = none → answers 0x100 team.pals) ∧
    (∀ vas k, Ready (.pdecl o) s gr → m ≠ 0 → shape = some vas → free = some k → team.palCap < (lines vas).length → answers 0x200 team.pals) ∧
    (∀ vas k, Ready (.pdecl o) s gr → m ≠ 0 → shape = some vas → free = some k → (lines vas).length ≤ team.palCap →
      answers (tget 0 k team.palGen * 2 ^ 16 + 2 ^ 7 + k) (tput k { lines := lines vas } team.pals)) ∧
    (∀ k, Ready (.pqry o) s gr → m ≠ 0 → team.handle (g.rs o.a.toNat) = some k →
      let p := team.palette k
      Completes (.pqry o) s gr { s := only o.d.toNat (BitVec.ofNat 32 ((match p.state with | .absent => 1 | .queued => 2 | .filling => 3 | .entered => 4 | .resident => 5) + p.entrants % 32 * 8 +
        (if p.state = .filling ∨ p.state = .entered ∨ p.state = .resident then 0 else (team.missingLines k).length) % 4096 * 2 ^ 8 + (team.palCap - team.usage) % 4096 * 2 ^ 20)) }) ∧
    (Ready (.pqry o) s gr → m = 0 → team.handle (g.rs o.a.toNat) ≠ none → Completes (.pqry o) s gr {}) ∧
    (∀ i, i = .penter o ∨ i = .pwait o ∨ i = .pleave o ∨ i = .pdrop o ∨ i = .pqry o → Ready i s gr → team.handle (g.rs o.a.toNat) = none → Traps i s gr (fPalette (g.rs o.a.toNat) 1))) ∧
  (∀ (o : FOps) (s : State) (gr : Grant) (k : Nat),
    let c := s.seen gr
    let g := s.group gr.gid
    let h := g.rs o.a.toNat
    let team := s.team g.team
    let p := team.palette k
    let new (t : State) : Palette := (t.team g.team).palette k
    let ready (i : Instr) : Prop := Ready i s gr ∧ team.handle h = some k
    let m := c.active o.g
    (∀ i, i = .penter o ∨ i = .pwait o ∨ i = .pleave o ∨ i = .pdrop o → ready i → m = 0 → Passes i s gr (fun t => (t.team g.team).pals = team.pals ∧ (t.after gr).buf = [])) ∧
    (ready (.penter o) → m ≠ 0 → g.pal = none → Passes (.penter o) s gr (fun t => (t.after gr).pal = some k ∧ (new t).entrants = p.entrants + 1 ∧ (p.state = .entered ∨ p.state = .resident → (new t).state = .entered) ∧ (t.after gr).buf = [])) ∧
    (ready (.penter o) → m ≠ 0 → g.pal ≠ none → Traps (.penter o) s gr (fPalette h 2)) ∧
    (ready (.pwait o) → m ≠ 0 → g.pal = some k → p.state = .entered → Passes (.pwait o) s gr (fun t => (t.after gr).wait = g.wait ∧ (t.after gr).buf = [])) ∧
    (ready (.pwait o) → m ≠ 0 → g.pal = some k → p.state ≠ .entered → Holds (.pwait o) s gr (fun w => w = .palette k) (fun t => (t.after gr).buf = [])) ∧
    (ready (.pleave o) → m ≠ 0 → g.pal = some k → Passes (.pleave o) s gr (fun t => (t.after gr).pal = none ∧ (new t).entrants = p.entrants - 1 ∧ (t.after gr).buf = [])) ∧
    (∀ i, i = .pwait o ∨ i = .pleave o → ready i → m ≠ 0 → g.pal ≠ some k → Traps i s gr (fPalette h 3)) ∧
    (ready (.pdrop o) → m ≠ 0 → p.entrants = 0 → p.state ≠ .filling → team.palQueue = [] → Passes (.pdrop o) s gr (fun t => tfind k (t.team g.team).pals = none ∧ tget 0 k (t.team g.team).palGen = (tget 0 k team.palGen + 1) % 2 ^ 16)) ∧
    (ready (.pdrop o) → m ≠ 0 → p.entrants = 0 → p.state = .filling → Holds (.pdrop o) s gr (fun w => w = .pdrop k) (fun t => (t.after gr).buf = [])))

/-! ### Atomics, fences and waits -/

/-- ATOM, ACAS, RED and ACONT (10 R195 to R203): the word completes its issue in every state where it may issue and its addresses, and
the handle of ACONT, are good: the region commits, each distinct address is sent, and the old values return to v[D] of the active
lanes; a RED of the combining kinds goes into the cluster's buffer; a bad address, or a bad handle of ACONT, stops the group before
the word.
Where it meets a choice of the model, it is this one: that the lanes of one address travel in one request (log 43). -/
def Obligations.AtomicsStart : Prop :=
  ∀ (o : FOps) (s : State) (gr : Grant),
    let c := s.seen gr
    let g := s.group gr.gid
    let size := 4 * tyWords o
    let m := c.active o.g
    let at_ (i : Instr) : List (Nat × Nat) := c.atomAddrs (s.begin c i) o m
    let old : Dest := .atomic o.d.toNat (tyWords o == 2) (lanesIn m)
    let h := g.rs (4 * acBlk o)
    let value (k L : Nat) : Nat := if tyWords o = 2 then (pair (c.ck o k L) (c.ck o (k + 1) L)).toNat else (c.ck o k L).toNat
    let buffered (e : Combine) : Nat × Nat × Nat × Nat × Nat := (e.addr, e.kind, e.ty, e.scope, e.value)
    (∀ i, i = .atom o ∨ i = .acas o → Ready i s gr → m ≠ 0 → goodAddrs size (at_ i) → Starts i s gr (some 1) old) ∧
    (∀ i, i = .atom o ∨ i = .acas o → Ready i s gr → m = 0 → Starts i s gr none .none) ∧
    (Ready (.red o) s gr → m ≠ 0 → goodAddrs size (at_ (.red o)) → Passes (.red o) s gr (fun t => (t.after gr).buf = [])) ∧
    (Ready (.red o) s gr → s.calm → m ≠ 0 → goodAddrs size (at_ (.red o)) → Starts (.red o) s gr (some 1) .none) ∧
    (Ready (.red o) s gr → m = 0 → Passes (.red o) s gr (fun t => (t.after gr).buf = [])) ∧
    (∀ addr, Ready (.red o) s gr → m ≠ 0 → atomKind o = 0 → fld o.ox 0 4 ∈ [0, 2, 3, 4, 5, 6] → goodAddrs size (at_ (.red o)) → (∀ x ∈ at_ (.red o), x.2 = addr) → (s.cluster (clusterOfCore (coreOf gr.gid))).combine = [] →
      Passes (.red o) s gr (fun t => (t.cluster (clusterOfCore (coreOf gr.gid))).combine.map buffered =
        [(((s.begin c (.red o)).core (coreOf gr.gid)).remap g.tenant addr, fld o.ox 0 4, fld o.ox 4 2, atomScope o, combineAll (fld o.ox 4 2) (fld o.ox 0 4) ((lanesIn m).map (value 0)))])) ∧
    (Ready (.acont o) s gr → m ≠ 0 → s.handleBad gr.gid h = false → goodAddrs size (at_ (.acont o)) → if acRet o then Starts (.acont o) s gr (some 1) old else Passes (.acont o) s gr (fun t => (t.after gr).buf = [])) ∧
    (Ready (.acont o) s gr → s.calm → m ≠ 0 → s.handleBad gr.gid h = false → goodAddrs size (at_ (.acont o)) → Starts (.acont o) s gr (some 1) (if acRet o then old else .none)) ∧
    (Ready (.acont o) s gr → m = 0 → s.handleBad gr.gid h = false → if acRet o then Starts (.acont o) s gr none .none else Passes (.acont o) s gr (fun t => (t.after gr).buf = [])) ∧
    (Ready (.acont o) s gr → s.handleBad gr.gid h = true → Traps (.acont o) s gr (fHandle 0 h)) ∧
    (∀ (before after : List (Nat × Nat)) (L va : Nat) (i : Instr), i = .atom o ∨ i = .acas o ∨ i = .red o ∨ (i = .acont o ∧ s.handleBad gr.gid h = false) → Ready i s gr →
      at_ i = before ++ (L, va) :: after → goodAddrs size before → (2 ^ 56 ≤ va ∨ va % size ≠ 0) → Traps i s gr (if 2 ^ 56 ≤ va then fTranslation 2 3 0 3 va else fAlign 0 L (lg2 size) va))

/-- FENCE and WAITN (10 R209, R210; 05 R90): a fence that does not release leaves the region open, one that releases
commits it; an acquire without loads outstanding leaves no ordinary line of the tenant in the L1 (04 R69); WAITN goes
on once its counter is at most n. -/
def Obligations.FenceAndWait : Prop :=
  ∀ (o : FOps) (s : State) (gr : Grant) (w : Wait),
    let c := s.seen gr
    let g := s.group gr.gid
    let k := coreOf gr.gid
    let p := fld o.ox 0 3
    let n := (s.operandBs gr (.waitn o) o).toNat
    let u := if p = 1 then ((s.begin c (.waitn o)).commitRegion gr.gid gr.slotB).flushCombine (clusterOfCore k) (fun e => e.by gr.gid) else s.begin c (.waitn o)
    let idle : Prop := g.pathOps 0 = [] ∧ ∀ op ∈ g.pathOps 1, ∀ x, s.op op = some x → x.dest = .none
    (Ready (.fence o) s gr → s.calm → atomKind o < 2 → Passes (.fence o) s gr (fun t => (t.after gr).buf = g.buf ∧ (t.after gr).region = g.region ∧ t.mem = s.mem)) ∧
    (Ready (.fence o) s gr → s.calm → atomKind o = 1 → 2 ≤ atomScope o → idle → Passes (.fence o) s gr (fun t => ∀ l x, (t.core k).line g.tenant l = some x → l < 2 ^ 49 → x.isPool = true ∨ t.isPtm k g.tenant l = true)) ∧
    (Ready (.fence o) s gr → 2 ≤ atomKind o → Passes (.fence o) s gr (fun t => (t.after gr).buf = [] ∧ (t.after gr).region.start = c.pc + 8)) ∧
    (Ready (.waitn o) s gr → (u.group gr.gid).counter p ≤ n → Passes (.waitn o) s gr (fun t => (t.after gr).engScope = 0 ∧ (t.after gr).wait = g.wait)) ∧
    (Ready (.waitn o) s gr → n < (u.group gr.gid).counter p → Holds (.waitn o) s gr (fun x => x = .path p n) (fun t => p = 1 → (t.after gr).buf = [])) ∧
    (Returning s gr w → Ends (.waitn o) s gr (fun t => (t.after gr).engScope = 0 ∧ g.sameRegs (t.after gr)))

/-! ### The matrix unit -/

/-- The matrix group at issue (09 R169 to R173, R179 to R185, R191): a converged word queues its work behind the work of
the core's other groups, with A, scales, command and bias as they stand at issue; MMA and MMAS leave A in the latch; DRAIN
commits the region; a word that is guarded or not issued with all 32 lanes stops the group with cause group 6. -/
def Obligations.MatrixIssue : Prop :=
  ∀ (o : FOps) (s : State) (gr : Grant),
    let c := s.seen gr
    let g := s.group gr.gid
    let limit := (s.team g.team).scratchSize
    let mask := g.mask gr.slotB
    let ready (i : Instr) : Prop := Ready i s gr ∧ o.g = .none ∧ mask = 0xFFFFFFFF
    let anything (_ : State) : Prop := True
    let A : List Word := (List.range 512).map (fun n => g.rv (o.a.toNat + n / 32) (n % 32))
    let col (r : Nat) : List Word := (List.range 32).map (fun i => g.rv r i)
    let latched (t : State) : Prop := (t.after gr).latch = some o.a.toNat
    let sp := o.ox.getLsbD 0
    let base := if sp then (g.rs o.a.toNat).toNat else (g.rpair o.a.toNat).toNat
    let load : MxWork := .aload o.d.toNat (o.ox.getLsbD 1) (o.ox.getLsbD 2)
    let rem (i : Instr) (va : Nat) : Nat := ((s.begin c i).core (coreOf gr.gid)).remap g.tenant va
    let dest := fld o.ox 0 2
    let cmd := (g.rs o.c.toNat).toNat
    let dbase := match dest with | 0 => (g.rs o.d.toNat).toNat | 1 => (g.rpair o.d.toNat).toNat | _ => o.d.toNat
    (ready (.mma o) → Queues (.mma o) s gr (.mma o.d.toNat (fld o.ox 0 4) (o.ox.getLsbD 4) o.sat A o.b.toNat none) false [] latched) ∧
    (ready (.mmas o) → Queues (.mmas o) s gr (.mma o.d.toNat (fld o.ox 0 4) (o.ox.getLsbD 4) false A o.b.toNat (some (col o.c.toNat, col (o.c.toNat + 1), fld o.ox 6 2))) false [] latched) ∧
    (ready (.aclr o) → Queues (.aclr o) s gr (.aclr o.d.toNat) false [] anything) ∧
    (ready (.amov o) → Queues (.amov o) s gr (.amov o.d.toNat o.a.toNat (fld o.c 0 5) (amovN o)) false [] anything) ∧
    (∀ rows, ready (.aload o) → aloadRows limit sp base (g.rs o.b.toNat).toInt = .ok rows → sp = true → (s.begin c (.aload o)).spPoison g.team (spBytes 128 rows) = none →
      Queues (.aload o) s gr load true ((List.range 1024).map (4 * ·)) anything) ∧
    (∀ rows, ready (.aload o) → aloadRows limit sp base (g.rs o.b.toNat).toInt = .ok rows → sp = false → Queues (.aload o) s gr load false (rows.flatMap (fun a => (List.range 32).map (fun j => rem (.aload o) (a + 4 * j)))) anything) ∧
    (ready (.drain o) → drainCheck c (s.begin c (.drain o)) o cmd dbase = none →
      Queues (.drain o) s gr (.drain o.a.toNat dest dbase (cmd / 2 ^ 16) (fld o.ox 2 3) (o.ox.getLsbD 5) (o.ox.getLsbD 6) cmd (g.rs (o.c.toNat + 1)) (if cmd % 2 = 1 then col o.b.toNat else [])) false [] (fun t => (t.after gr).buf = [])) ∧
    (ready (.drepl o) → s.ctxRight g.ctx 7 = true → Queues (.drepl o) s gr (.drepl (s.operandBs gr (.drepl o) o).toNat g.ctx) false [] anything) ∧
    (ready (.drepl o) → s.ctxRight g.ctx 7 = false → Traps (.drepl o) s gr (fRight (s.context g.ctx).level 7 0 0x286)) ∧
    (ready (.atbl o) → (g.rpair o.a.toNat).toNat + 528 ≤ 2 ^ 56 → (g.rpair o.a.toNat).toNat % 16 = 0 → Queues (.atbl o) s gr (.atbl (fld o.ox 0 1) (g.rpair o.a.toNat).toNat) false ((List.range 132).map (fun j => rem (.atbl o) ((g.rpair o.a.toNat).toNat + 4 * j))) anything) ∧
    (∀ i, i ∈ [Instr.mma o, .mmas o, .aclr o, .amov o, .aload o, .drain o, .drepl o, .atbl o] → Ready i s gr → ¬ (o.g = .none ∧ mask = 0xFFFFFFFF) → Traps i s gr (fConvergence i.opcNum false (decide (o.g ≠ .none)) mask))

/-! ### Results that return later -/

/-- The special functions, GRED, SREAD and SWRITE (08 R154; 07 R127; 06 R112, R116, R123): a result that is rounded once is
written when the operation completes; GRED reduces the active lanes as a tree in lane order.
Where it meets a choice of the model, it is this one: that the special functions are computed with 448 fraction bits before they are rounded (log 22). -/
def Obligations.LateResults : Prop :=
  ∀ (o : FOps) (s : State) (gr : Grant),
    let c := s.seen gr
    let g := s.group gr.gid
    let m := c.active o.g
    let A := c.a o
    (∀ (i : Instr) (f : Special), (i, f) ∈ [(Instr.frcp o, Special.rcp), (.frsq o, .rsq), (.fsqrt o, .sqrt), (.fexp2 o, .exp2), (.flog2 o, .log2), (.ftanh o, .tanh), (.fsinpi o, .sinpi), (.fcospi o, .cospi)] →
      Ready i s gr → (∀ L, L < 32 → m.getLsbD L = true → (f.value (fp32.decode (A L).toNat)).2.bits &&& g.fpx = 0) →
      Starts i s gr none (.cells ((lanesIn m).map (fun L => (⟨0, 32 * o.d.toNat + L⟩, BitVec.ofNat 32 (fp32.round o.rm false (f.value (fp32.decode (A L).toNat)).1).1))))) ∧
    (Ready (.gred o) s gr → m = 0 → Starts (.gred o) s gr none (.cells [])) ∧
    (∀ x, Ready (.gred o) s gr → gredTree (gredOp (fld o.ox 0 4) o.rm) 5 ((List.range 32).map (fun L => if m.getLsbD L = true then some (A L) else none)) = some x →
      Starts (.gred o) s gr none (.cells [(⟨1, o.d.toNat⟩, if 8 ≤ fld o.ox 0 4 ∧ (fp32.decode x.toNat).isNan = true then 0x7FC00000 else x)])) ∧
    (Ready (.gred o) s gr → m ≠ 0 → fld o.ox 0 4 = 0 → Starts (.gred o) s gr none (.cells [(⟨1, o.d.toNat⟩, ((lanesIn m).map A).foldl (· + ·) 0)])) ∧
    GivesScalar (.sread o) o s gr (s.operandBs gr (.sread o) o) ∧
    (s.grant = some gr → o.bk = .sys → o.b = 0x43 → (s.context g.ctx).level ≠ 0 → Traps (.sread o) s gr (fRight (s.context g.ctx).level 0xF 0x43 (Instr.sread o).opcNum)) ∧
    (Ready (.swrite o) s gr → (s.context g.ctx).level = 0 → Passes (.swrite o) s gr (fun t => (t.core (coreOf gr.gid)).scrubCtl = (g.rs o.a.toNat).getLsbD 0 ∧ t.mem = s.mem)) ∧
    (Ready (.swrite o) s gr → (s.context g.ctx).level ≠ 0 → Traps (.swrite o) s gr (fRight (s.context g.ctx).level 0xF o.b.toNat 0x192))

/-! ### Words that release first -/

/-- The kicks, barriers, queue operations and task instructions that carry a release (05 R91; 12 R228, R232, R236; 14 R278
to R282; 13 R355): where the word's own check passes, the region commits and the group is held at the word for a release at
the word's scope; else the group stops before it.
Where it meets a choice of the model, it is this one: that the words of the group wait behind a release that is held (log 41). -/
def Obligations.ReleaseFirst : Prop :=
  ∀ (o : FOps) (s : State) (gr : Grant) (i : Instr) (scope : Nat) (check : Option Flt),
    let c := s.seen gr
    let b (i : Instr) : State := s.begin c i
    let len := (c.g.rs o.c.toNat).toNat % 2 ^ 16
    let pitch := (c.g.rs o.c.toNat).toNat / 2 ^ 16
    let rows (scatter : Bool) : Option Flt := if len = 0 ∨ 4096 < len ∨ len % 4 ≠ 0 ∨ pitch % 4 ≠ 0 then some (fEngine true 1 0 7)
      else match gatherRows c o scatter (s.team c.g.team).scratchSize len pitch with | .ok _ => none | .error f => some f
    (i, scope, check) ∈ [
      (Instr.ckick o, fld o.ox 0 3, requestCheck (b (.ckick o)) o c), (.coll o, fld o.ox 0 3, requestCheck (b (.coll o)) o c),
      (.gthr o, fld o.ox 5 3, rows false), (.sctr o, fld o.ox 5 3, rows true),
      (.barv o, 1, countCheck (b (.barv o)) c o), (.bsyn o, 1, countCheck (b (.bsyn o)) c o), (.bphs o, 1, none),
      (.qpush o, 1, boundCheck (b (.qpush o)) o c), (.qalw o, 1, allowCheck (b (.qalw o)) o c), (.qalwInit o, 1, ringCheck (b (.qalwInit o)) o c),
      (.qtryPush o, 1, boundCheck (b (.qtryPush o)) o c), (.qtryPop o, 1, boundCheck (b (.qtryPop o)) o c),
      (.gsync o, 3, gridCheck (b (.gsync o)) o c), (.rpush o, 3, handleCheck s 1 o c), (.rpass o, 3, none), (.rrej o, 3, none),
      (.lnch o, 3, launchCheck s o c), (.nodeqSeal o, 3, nodeqCheck s o c), (.nodeqOpen o, 3, nodeqCheck s o c)] →
    Ready i s gr →
    match check with
    | some f => Traps i s gr f
    | none => ∃ n, s.nextId ≤ n ∧ Holds i s gr (fun k => k = .release n) (fun t => (t.after gr).buf = [] ∧ (t.after gr).region.start = c.pc + 8 ∧
        ∀ h, tfind n t.holds = some h → h.gid = gr.gid ∧ h.rel = true ∧ h.whole = true ∧ h.scope = scope)

/-- CKICK, GTHR, SCTR and COLL once their release is complete (05 R95 to R99, R102 to R104): a request that passes
validation is queued for its engine as an operation on its path; one that does not, and one that lies in a word of the scratchpad in
lasting error (06 R110), stop the group at the word; without an active lane nothing is queued.
Where it meets a choice of the model, it is this one: the order of the checks of a request (logs 9 and 48). -/
def Obligations.EngineKicks : Prop :=
  ∀ (o : FOps) (s : State) (gr : Grant) (w : Wait),
    let c := s.back gr w
    let g := s.group gr.gid
    let k := coreOf gr.gid
    let team := s.team g.team
    let a := (g.rs o.a.toNat).toNat
    let m := c.active o.g
    let copy := readCopy team a c (fld o.ox 0 3)
    let coll := readColl team a c (fld o.ox 0 3)
    let desc := (g.rs o.c.toNat).toNat
    let clean : Prop := (s.woken gr).spPoison g.team (spBytes 64 [a]) = none
    let rows (scatter : Bool) : Except Flt (List (Nat × Nat × Nat)) := gatherRows c o scatter team.scratchSize (desc % 2 ^ 16) (desc / 2 ^ 16)
    let gather (n : Nat) (scatter : Bool) (l : List (Nat × Nat × Nat)) : Gather := { op := n, gid := gr.gid, team := g.team, ctx := g.ctx, tenant := g.tenant, scope := fld o.ox 5 3, scatter := scatter, len := desc % 2 ^ 16, rows := l, left := l.map (·.1) }
    let started (t : State) (n path parts scope : Nat) (i : Instr) : Prop := s.nextId ≤ n ∧ (⟨path, n, false⟩ : PathOp) ∈ (t.after gr).paths ∧ ∃ x, t.op n = some x ∧ x.instr = i ∧ x.path = some path ∧ x.parts = parts ∧ x.scope = some scope ∧ x.dest = .none
    (Returning s gr w → m ≠ 0 → clean → (s.core k).kicks.length < 16 → copyBad team a copy = none → Ends (.ckick o) s gr (fun t => ∃ n, (t.core k).kicks = (s.core k).kicks ++ [{ copy with op := n }] ∧ started t n 2 (copy.x * copy.y * copy.z) (fld o.ox 0 3) (.ckick o))) ∧
    (∀ e, Returning s gr w → m ≠ 0 → clean → (s.core k).kicks.length < 16 → copyBad team a copy = some e → Stops (.ckick o) s gr w (fEngine true 0 a e)) ∧
    (Returning s gr w → m = 0 → Ends (.ckick o) s gr (fun t => t.cores = s.cores ∧ t.ops = s.ops)) ∧
    (∀ scatter l, let i := if scatter = true then Instr.sctr o else .gthr o
      Returning s gr w → rows scatter = .ok l → l ≠ [] → (s.core k).gathers.length < 8 → Ends i s gr (fun t => ∃ n, (t.core k).gathers = (s.core k).gathers ++ [gather n scatter l] ∧ started t n 4 l.length (fld o.ox 5 3) i)) ∧
    (∀ scatter, let i := if scatter = true then Instr.sctr o else .gthr o
      Returning s gr w → rows scatter = .ok [] → Ends i s gr (fun t => t.cores = s.cores ∧ t.ops = s.ops)) ∧
    (Returning s gr w → m ≠ 0 → clean → collBad team a coll = false → Ends (.coll o) s gr (fun t => ∃ n, (t.die (dieOf gr.gid)).colls = (s.die (dieOf gr.gid)).colls ++ [{ coll with op := n }] ∧ started t n 5 1 (fld o.ox 0 3) (.coll o))) ∧
    (Returning s gr w → m ≠ 0 → clean → collBad team a coll = true → Stops (.coll o) s gr w (fEngine true 2 a 8)) ∧
    (∀ i f, i = .ckick o ∨ i = .coll o → Returning s gr w → m ≠ 0 → (s.core k).kicks.length < 16 → (s.woken gr).spPoison g.team (spBytes 64 [a]) = some f → Stops i s gr w f) ∧
    (Returning s gr w → m = 0 → Ends (.coll o) s gr (fun t => t.dies = s.dies ∧ t.ops = s.ops))

/-- BINIT, BEXP, BWAIT and CSTAT (05 R92 to R94, R107): the object's 8 bytes after the commit of the region; REM counts
modulo 2^32 and PH flips where it becomes 0; BWAIT waits for the phase that it names; an overflow of REM, a misaligned
object, one outside the scratchpad and one that BEXP or BWAIT reads in lasting error (06 R110) stop the group.
Where it meets a choice of the model, it is this one: that BEXP and the byte counts wrap modulo 2^32 (log 48). -/
def Obligations.BarrierObjects : Prop :=
  ∀ (o : FOps) (s : State) (gr : Grant) (w : Wait),
    let c := s.seen gr
    let g := s.group gr.gid
    let T := g.team
    let a := (g.rs o.a.toNat).toNat
    let m := c.active o.g
    let size := (s.team T).scratchSize
    let sound : Prop := a % 8 = 0 ∧ a + 8 ≤ size
    let front (i : Instr) : State := (s.begin c i).commitRegion gr.gid gr.slotB
    let u (i : Instr) : Team := (front i).team T
    let clean (i : Instr) : Prop := (front i).spPoison T (spBytes 8 [a]) = none
    let x := (u (.bexp o)).rem a + (s.operandBs gr (.bexp o) o).toInt
    let p := (s.operandBs gr (.bwait o) o).getLsbD 0
    let z := fld o.ox 0 3
    (Ready (.binit o) s gr → sound → m ≠ 0 → Passes (.binit o) s gr (fun t => (t.team T).num a 8 = (s.operandBs gr (.binit o) o).toNat ∧ (t.after gr).buf = [])) ∧
    (Ready (.bexp o) s gr → sound → m ≠ 0 → clean (.bexp o) → x < 2 ^ 31 → Passes (.bexp o) s gr (fun t => (t.team T).num a 4 = (x % 2 ^ 32).toNat ∧ ((t.team T).phase a ≠ (u (.bexp o)).phase a ↔ x % 2 ^ 32 = 0) ∧ (t.after gr).buf = [])) ∧
    (Ready (.bexp o) s gr → sound → m ≠ 0 → clean (.bexp o) → 2 ^ 31 ≤ x → Traps (.bexp o) s gr (fSync a 0 0 0 4)) ∧
    (∀ i, i = .binit o ∨ i = .bexp o ∨ i = .bwait o → Ready i s gr → sound → m = 0 → Passes i s gr (fun t => t.team T = u i ∧ (t.after gr).buf = [])) ∧
    (∀ i f, i = .bexp o ∨ i = .bwait o → Ready i s gr → sound → m ≠ 0 → (front i).spPoison T (spBytes 8 [a]) = some f → TrapsError i s gr f) ∧
    (Ready (.bwait o) s gr → sound → m ≠ 0 → clean (.bwait o) → (u (.bwait o)).phase a ≠ p → Passes (.bwait o) s gr (fun t => (t.after gr).wait = g.wait ∧ (t.after gr).buf = [])) ∧
    (Ready (.bwait o) s gr → sound → m ≠ 0 → clean (.bwait o) → (u (.bwait o)).phase a = p → Holds (.bwait o) s gr (fun k => k = .object a p) (fun t => (t.after gr).buf = [])) ∧
    (∀ b q, Returning s gr w → w.kind = .object b q → Ends (.bwait o) s gr (fun t => g.sameRegs (t.after gr) ∧ t.team T = s.team T)) ∧
    (∀ i, i = .binit o ∨ i = .bexp o ∨ i = .bwait o → Ready i s gr → ¬ sound → Traps i s gr (if a % 8 ≠ 0 then fAlign 1 0 3 a else fScratch a)) ∧
    (Ready (.cstat o) s gr → Completes (.cstat o) s gr { s := if m = 0 then fun _ => none else only o.d.toNat (BitVec.ofNat 32 (if z < 6 then g.counter z else 16 - (s.core (coreOf gr.gid)).kicks.length)) })

/-! ### Team synchronisation -/

/-- BARV, BSYN and BPHS once their release is complete (12 R226 to R229): the arrival with count n sets the group's bit of
ARR; the arrival that makes n clears ARR and EXP, flips PH, and returns every group of the team that waits for it; a count
that differs from EXP, and a second arrival, stop the group. GSYNC once its release is complete, and at its last return (12 R236): the arrival goes to the barrier's home slice with
the number of groups; when the generation has ended, no ordinary line of the tenant is left in the L1, and the group goes
on. -/
def Obligations.Barriers : Prop :=
  (∀ (o : FOps) (s : State) (gr : Grant) (w : Wait),
    let g := s.group gr.gid
    let T := g.team
    let b := fld o.ox 0 4
    let word := (s.team T).bar b
    let ph := word.testBit 21
    let exp := word / 2 ^ 16 % 2 ^ 5
    let arr := word % 2 ^ 16
    let n := (s.backBs gr w o).toNat
    let p := (s.backBs gr w o).getLsbD 0
    let fresh : Prop := (exp = 0 ∨ exp = n) ∧ arr.testBit g.index = false ∧ g.index < 16 ∧ 1 ≤ n ∧ n ≤ 16
    let last : Prop := ((List.range 16).filter (fun k => (arr + 2 ^ g.index).testBit k)).length = n
    let open_ : Nat := ph.toNat * 2 ^ 21 + n * 2 ^ 16 + (arr + 2 ^ g.index)
    let shut : Nat := (!ph).toNat * 2 ^ 21
    let bars (t : State) (x : Nat) : Prop := (t.team T).bars = tset 0 b x (s.team T).bars
    let released (t : State) : Prop := ∀ k v, (s.group k).team = T → (s.group k).wait = some v → v.kind = .bar b ph ∨ v.kind = .bphs b ph → (t.group k).wait = none
    let arrives : Prop := Returning s gr w ∧ ∃ k, w.kind = .release k
    let value : Writes := { s := if o.ox.getLsbD 4 then only o.d.toNat (BitVec.ofNat 32 ph.toNat) else fun _ => none }
    (arrives → fresh → last → Ends (.barv o) s gr (fun t => bars t shut ∧ released t ∧ ∀ r, (t.after gr).rs r = (value.s r).getD (g.rs r))) ∧
    (arrives → fresh → ¬ last → Ends (.barv o) s gr (fun t => bars t open_ ∧ ∀ r, (t.after gr).rs r = (value.s r).getD (g.rs r))) ∧
    (arrives → fresh → last → Ends (.bsyn o) s gr (fun t => bars t shut ∧ released t)) ∧
    (arrives → fresh → ¬ last → ∃ t v, exec (.bsyn o) s = .next t ∧ (t.after gr).wait = some v ∧ v.kind = .bar b ph ∧ v.instr = .bsyn o ∧ bars t open_) ∧
    (∀ q, Returning s gr w → w.kind = .bar b q → Ends (.bsyn o) s gr (fun t => t.teams = s.teams ∧ g.sameRegs (t.after gr))) ∧
    (∀ i, i = .barv o ∨ i = .bsyn o → arrives → exp ≠ 0 ∧ exp ≠ n → Stops i s gr w (fSync 0 n exp b 1)) ∧
    (∀ i, i = .barv o ∨ i = .bsyn o → arrives → exp = 0 ∨ exp = n → arr.testBit g.index = true → Stops i s gr w (fSync 0 n exp b 2)) ∧
    (arrives → ph ≠ p → Ends (.bphs o) s gr (fun t => t.teams = s.teams ∧ g.sameRegs (t.after gr))) ∧
    (arrives → ph = p → ∃ t v, exec (.bphs o) s = .next t ∧ (t.after gr).wait = some v ∧ v.kind = .bphs b p ∧ v.instr = .bphs o ∧ t.teams = s.teams) ∧
    (∀ q, Returning s gr w → w.kind = .bphs b q → Ends (.bphs o) s gr (fun t => t.teams = s.teams ∧ g.sameRegs (t.after gr)))) ∧
  (∀ (o : FOps) (s : State) (gr : Grant) (w : Wait),
    let c := s.back gr w
    let g := s.group gr.gid
    let k := coreOf gr.gid
    let va := (s.core k).remap g.tenant (g.rpair o.a.toNat).toNat
    (∀ h, Returning s gr w → w.kind = .release h → ∃ t v n x q r, exec (.gsync o) s = .next t ∧ (t.after gr).wait = some v ∧ v.kind = .gridOp n ∧ v.pc = w.pc ∧ s.nextId ≤ n ∧
      t.op n = some x ∧ x.gid = gr.gid ∧ x.instr = .gsync o ∧ tfind q t.reqs = some r ∧ r.kind = .grid ∧ (r.stage = .toSlice ∨ r.stage = .queued) ∧ r.ops = [n] ∧ r.line = va / 128 ∧
      r.lanes.map (fun l => (l.off, l.x)) = [(va % 128, (c.bs (s.woken gr) o).toNat)] ∧ g.sameRegs (t.after gr)) ∧
    (∀ a b, Returning s gr w → w.kind = .grid a b → Ends (.gsync o) s gr (fun t => g.sameRegs (t.after gr) ∧ ∀ l x, (t.core k).line g.tenant l = some x → l < 2 ^ 49 → x.isPool = true ∨ t.isPtm k g.tenant l = true)))

/-- The scratchpad queues (12 R230 to R233), where no other group of the team is blocked on the queue: a push takes one
allowance and the ring's next place, a pop takes the oldest item; either blocks where it cannot be made, and the QTRY forms
answer 0 instead; QALW adds allowance, and QALW.init binds an empty ring; an allowance past the ring's capacity stops the group at
issue, and an item in lasting error (06 R110) stops the group that pops it and stays.
Where it meets a choice of the model, it is this one: that the check of QALW counts what other QALWs are about to add (log 23). -/
def Obligations.ScratchQueues : Prop :=
  ∀ (o : FOps) (s : State) (gr : Grant) (w : Wait),
    let c := s.seen gr
    let g := s.group gr.gid
    let T := g.team
    let i := fld o.ox 0 3
    let team := s.team T
    let q := team.queue i
    let place (j : Nat) : Nat := 8 * q.base + 4 * (j % 2 ^ q.logcap)
    let count := (q.tail + 128 - q.head) % 128
    let alone (u : State) : Prop := u.firstWaiter T (popOrder i) = none ∧ u.firstWaiter T (pushOrder i) = none
    let back : Prop := Returning s gr w ∧ alone (s.woken gr)
    let pushed (t : State) : Prop := (t.team T).queue i = { q with alw := q.alw - 1, tail := (q.tail + 1) % 128 } ∧ (t.team T).num (place q.tail) 4 = (g.rs o.a.toNat).toNat
    let front := (s.begin c (.qpop o)).commitRegion gr.gid gr.slotB
    let poison (u : State) : Option Flt := u.spPoison T ((u.team T).headItem i)
    let clean : Prop := poison (s.woken gr) = none
    let item (m : Team) : Word := BitVec.ofNat 32 (m.num (place q.head) 4)
    let popped (t : State) : Prop := (t.team T).queue i = { q with head := (q.head + 1) % 128 }
    let regs (t : State) (x : Nat → Option Word) : Prop := ∀ r, (t.after gr).rs r = (x r).getD (g.rs r)
    let n := (s.backBs gr w o).toNat
    (∀ k, back → w.kind = .release k → 0 < q.alw → Ends (.qpush o) s gr (fun t => pushed t ∧ g.sameRegs (t.after gr))) ∧
    (∀ k, back → w.kind = .release k → q.alw = 0 → ∃ t v k, exec (.qpush o) s = .next t ∧ (t.after gr).wait = some v ∧ v.kind = .qpush i k ∧ (t.team T).queue i = q) ∧
    (Ready (.qpop o) s gr → q.v = true → alone front → 0 < count → front.outOfTurn gr.gid (front.cycleOf gr.gid).2 (.qpop o) = false → poison front = none → Gives (.qpop o) s gr { s := only o.d.toNat (item (front.team T)) } popped) ∧
    (∀ f, Ready (.qpop o) s gr → q.v = true → alone front → 0 < count → front.outOfTurn gr.gid (front.cycleOf gr.gid).2 (.qpop o) = false → poison front = some f → TrapsError (.qpop o) s gr f) ∧
    (∀ j f, back → 0 < count → poison (s.woken gr) = some f → j = .qpop o ∨ j = .qtryPop o → Stops j s gr w f) ∧
    (Ready (.qpop o) s gr → q.v = true → count = 0 → Holds (.qpop o) s gr (fun k => ∃ n, k = .qpop i n) (fun t => (t.team T).queue i = q ∧ (t.after gr).buf = [])) ∧
    (Ready (.qpop o) s gr → q.v = false → Traps (.qpop o) s gr (fSync 0 0 0 i 5)) ∧
    (back → 0 < count → clean → Ends (.qpop o) s gr (fun t => popped t ∧ regs t (only o.d.toNat (item team)))) ∧
    (back → 0 < q.alw → Ends (.qtryPush o) s gr (fun t => pushed t ∧ regs t (only o.d.toNat 1))) ∧
    (back → q.alw = 0 → Ends (.qtryPush o) s gr (fun t => (t.team T).queue i = q ∧ regs t (only o.d.toNat 0))) ∧
    (back → 0 < count → clean → Ends (.qtryPop o) s gr (fun t => popped t ∧ regs t (fun r => if r = o.d.toNat then some (item team) else if r = o.d.toNat + 1 then some 1 else none))) ∧
    (back → count = 0 → Ends (.qtryPop o) s gr (fun t => (t.team T).queue i = q ∧ regs t (only (o.d.toNat + 1) 0))) ∧
    (back → q.alw + n < 2 ^ 8 → Ends (.qalw o) s gr (fun t => (t.team T).queue i = { q with alw := q.alw + n } ∧ g.sameRegs (t.after gr))) ∧
    (∀ z, z = (s.operandBs gr (.qalw o) o).toNat → Ready (.qalw o) s gr → (∀ x ∈ s.groups, x.2.team = T → x.2.wait = none) → q.v = true → 2 ^ q.logcap < q.alw + z + count → Traps (.qalw o) s gr (fSync 0 z (q.alw + count) i 6)) ∧
    (∀ j, let A := (g.rs o.a.toNat).toNat
      back → j ≤ 6 → n = 2 ^ j → A % 8 = 0 → A < 2 ^ 19 → Ends (.qalwInit o) s gr (fun t => (t.team T).queue i = ⟨0, 0, 0, true, j, A / 8⟩ ∧ g.sameRegs (t.after gr)))

/-! ### Control -/

/-- BRA, BRC, CALL, RET, NOP and YIELD (11 R213, R224): where the slot goes on, and what else is written. CLAUSE_START and CLAUSE_SKIP (01 R23, R26, R28): a header whose flags are clear starts its clause, or skips it; the marks
that carry a flag it waits on are gone; one whose flags are not clear changes nothing; one whose mask register is poisoned or in
lasting error stops its slot (06 R110). -/
def Obligations.TransfersAndClauses : Prop :=
  (∀ (k : ImmOps) (o : FOps) (s : State) (gr : Grant),
    let c := s.seen gr
    let g := s.group gr.gid
    let target : DWord := c.pc + BitVec.ofInt 64 (8 * k.imm.toInt)
    let a := (g.rs k.a.toNat).toInt
    let taken : Bool := match fld k.mods 0 3 with | 0 => a == 0 | 1 => a != 0 | 2 => decide (a < 0) | 3 => decide (a ≤ 0) | 4 => decide (0 < a) | _ => decide (0 ≤ a)
    (Ready (.bra k) s gr → Goes (.bra k) s gr target {}) ∧
    (Ready (.brc k) s gr → if taken then Goes (.brc k) s gr target {} else Completes (.brc k) s gr {}) ∧
    (Ready (.call k) s gr → Goes (.call k) s gr target { s := onlyPair k.d.toNat (c.pc + 8) }) ∧
    (Ready (.ret o) s gr → (g.rpair o.a.toNat).toNat % 8 = 0 → Goes (.ret o) s gr (g.rpair o.a.toNat) {}) ∧
    (Ready (.ret o) s gr → (g.rpair o.a.toNat).toNat % 8 ≠ 0 → Traps (.ret o) s gr (fAlign 0 0 3 (g.rpair o.a.toNat).toNat)) ∧
    (Ready (.nop o) s gr → Completes (.nop o) s gr {}) ∧
    (Ready (.yield o) s gr → ∃ t, exec (.yield o) s = .next t ∧ Quiet s t gr.gid ∧ g.sameRegs (t.after gr) ∧ ((t.after gr).slot gr.slotB).pc = c.pc + 8 ∧
      (c.cl.left ≤ 1 → (t.after gr).yielded = true ∧ ((t.after gr).slot gr.slotB).cl = none) ∧ (1 < c.cl.left → ((t.after gr).slot gr.slotB).cl = some { c.cl with left := c.cl.left - 1, yld := true }))) ∧
  (∀ (h : Header) (s : State) (gr : Grant),
    let g := s.group gr.gid
    let x := g.slot gr.slotB
    let clear : Prop := ∀ f, f < 12 → h.wait.getLsbD f = true → g.flagCount f = 0
    let mask : FileWord := ⟨.scalar, slotOf gr.gid * 64 + gr.slotB.toNat⟩
    let sound : Prop := mask ∉ (s.core (coreOf gr.gid)).poison ∧ (mask, true) ∉ (s.core (coreOf gr.gid)).doubles
    s.grant = some gr →
    (clear → ¬ sound → ∃ f, f.cause = 16 ∧ TrapsError (.clauseStart h) s gr f ∧ TrapsError (.clauseSkip h) s gr f) ∧
    (clear → sound → ∃ t, exec (.clauseStart h) s = .next t ∧ t.grant = some gr ∧
      (t.after gr).slot gr.slotB = { x with pc := x.pc + 8, cl := some { sa := h.sa.map BitVec.toNat, sb := h.sb.map BitVec.toNat, left := h.len.toNat + 1, yld := h.yld } } ∧ (t.after gr).slot (!gr.slotB) = g.slot (!gr.slotB) ∧
      g.sameRegs (t.after gr) ∧ (∀ m ∈ g.marks, (m ∈ (t.after gr).marks ↔ h.wait.getLsbD m.flag = false)) ∧ (∀ k, k ≠ gr.gid → t.group k = s.group k)) ∧
    (clear → sound → ∃ t, exec (.clauseSkip h) s = .next t ∧ t.grant = none ∧ t.issues = s.issues + 1 ∧ (t.after gr).last = s.issues + 1 ∧
      (t.after gr).slot gr.slotB = { x with pc := x.pc + 8 * (h.len.toNat + 2), cl := none } ∧ (t.after gr).slot (!gr.slotB) = g.slot (!gr.slotB) ∧ g.sameRegs (t.after gr)) ∧
    (¬ clear → exec (.clauseStart h) s = .next { s with grant := none } ∧ exec (.clauseSkip h) s = .next { s with grant := none }))

/-- BRS, JOIN, EXIT and REGROUP (11 R216 to R223): a branch that splits a slot gives the lanes that take it to the free slot,
or pushes them on the divergence stack; a JOIN exchanges with, or merges, the nearest live entry of its slot, merges the two
slots at J, parks, or goes on; an EXIT frees its slot, takes the nearest live entry, or retires the group once its register
writes are complete.
Where it meets a choice of the model, it is this one: what an EXIT waits for (log 46). -/
def Obligations.Divergence : Prop :=
  ∀ (k : ImmOps) (o : FOps) (s : State) (gr : Grant),
    let c := s.seen gr
    let g := s.group gr.gid
    let x := gr.slotB
    let m := g.mask x
    let y := g.slot (!x)
    let target : DWord := c.pc + BitVec.ofInt 64 (8 * k.imm.toInt)
    let J : DWord := c.pc + BitVec.ofInt 64 (8 * (k.d ++ k.a : BitVec 16).toInt)
    let q := g.rq (fld k.mods 0 3)
    let taken := m &&& (if k.mods.getLsbD 3 then ~~~q else q)
    let fall := m &&& ~~~taken
    let on (i : Instr) : State := (s.begin c i).commitRegion gr.gid x
    let sp := g.dsp.toNat
    let mine (e : SEntry) : Bool := e.live && e.owner == x
    let onJ : State := ((((s.begin c (.join k)).stackTook gr.gid ((s.begin c (.join k)).sought gr.gid mine sp g.depth))).commitRegion gr.gid x).reconverge gr.gid
    let push : SEntry := ⟨target, taken, 0, x, J⟩
    let entry (i : Instr) : Except Flt (Option (Nat × SEntry)) := (s.begin c i).stackNearest gr.gid mine sp g.depth
    let next (t : State) (pc : DWord) (st : SlotState) (mask : Word) : Prop := (t.after gr).slot x = { pc := pc, st := st, cl := none } ∧ (t.after gr).mask x = mask ∧ (t.after gr).v = g.v ∧ (t.after gr).q = g.q
    let gone (i : Instr) (post : State → Prop) : Prop := ∃ t, exec i s = .next t ∧ post t
    let running : Prop := (g.slot x).st = .running
    let miss : Prop := entry (.join k) = .ok none ∨ ∃ a e, entry (.join k) = .ok (some (a, e)) ∧ e.join ≠ target
    (Ready (.brs k) s gr → taken = 0 → Completes (.brs k) s gr {}) ∧
    (Ready (.brs k) s gr → taken ≠ 0 → fall = 0 → Goes (.brs k) s gr target {}) ∧
    (Ready (.brs k) s gr → running → taken ≠ 0 → fall ≠ 0 → y.st = .free → gone (.brs k) (fun t => next t (c.pc + 8) .running fall ∧ (t.after gr).slot (!x) = { pc := target, st := .running } ∧ (t.after gr).mask (!x) = taken ∧ (t.after gr).buf = [])) ∧
    (Ready (.brs k) s gr → taken ≠ 0 → fall ≠ 0 → y.st ≠ .free → g.dstkWords ≤ g.depth → Traps (.brs k) s gr (fRegister 0 0 0 0 4)) ∧
    (∀ u, Ready (.brs k) s gr → running → taken ≠ 0 → fall ≠ 0 → y.st ≠ .free → g.depth < g.dstkWords → (on (.brs k)).stackWrite gr.gid (sp - 128) push = .ok u →
      gone (.brs k) (fun t => next t (c.pc + 8) .running fall ∧ (t.after gr).slot (!x) = y ∧ (t.after gr).dsp = BitVec.ofNat 64 (sp - 128) ∧ t.mem = u.mem ∧ t.sameCores u ∧ t.slices = u.slices)) ∧
    (∀ f, Ready (.brs k) s gr → taken ≠ 0 → fall ≠ 0 → y.st ≠ .free → g.depth < g.dstkWords → (on (.brs k)).stackWrite gr.gid (sp - 128) push = .error f → f.cause ≠ 16 → Traps (.brs k) s gr f) ∧
    (∀ a e u, Ready (.join k) s gr → running → entry (.join k) = .ok (some (a, e)) → e.join = target → e.kind = 0 → onJ.stackWrite gr.gid a { e with kind := 1, mask := m, pc := 0 } = .ok u →
      gone (.join k) (fun t => next t e.pc .running e.mask ∧ (t.after gr).slot (!x) = y ∧ t.mem = u.mem ∧ t.sameCores u ∧ t.slices = u.slices)) ∧
    (∀ a e u v, Ready (.join k) s gr → running → entry (.join k) = .ok (some (a, e)) → e.join = target → e.kind ≠ 0 → onJ.stackWrite gr.gid a { e with kind := 2, pc := 0 } = .ok u → u.trimStack gr.gid g.depth = .ok v →
      gone (.join k) (fun t => next t target .running (m ||| e.mask) ∧ (t.after gr).slot (!x) = y ∧ t.mem = v.mem ∧ t.sameCores v ∧ t.slices = v.slices)) ∧
    (Ready (.join k) s gr → g.depth = 0 → y.st = .parked → y.pc = target → gone (.join k) (fun t => (t.after gr).a = { pc := target, st := .running } ∧ (t.after gr).b = {} ∧ (t.after gr).mask false = g.mask false ||| g.mask true ∧ (t.after gr).mask true = 0 ∧ (t.after gr).v = g.v ∧ (t.after gr).q = g.q ∧ (t.after gr).buf = [])) ∧
    (∀ f, Ready (.join k) s gr → entry (.join k) = .error f → f.cause ≠ 16 → Traps (.join k) s gr f) ∧
    (Ready (.join k) s gr → miss → y.st = .running → gone (.join k) (fun t => next t target .parked m ∧ (t.after gr).slot (!x) = y ∧ (t.after gr).buf = g.buf)) ∧
    (Ready (.join k) s gr → g.depth = 0 → ¬ (y.st = .parked ∧ y.pc = target) → y.st ≠ .running → Goes (.join k) s gr target {}) ∧
    (Ready (.join k) s gr → running → miss → ¬ (y.st = .parked ∧ y.pc = target) → y.st ≠ .running →
      gone (.join k) (fun t => next t target .running m ∧ (t.after gr).slot (!x) = y ∧ (t.after gr).s = g.s ∧ (t.after gr).buf = g.buf ∧ t.mem = s.mem)) ∧
    (Ready (.exit o) s gr → g.held ≠ [] → Traps (.exit o) s gr (fRegister 0 0 0 0 6)) ∧
    (Ready (.exit o) s gr → g.held = [] → g.depth = 0 → y.st ≠ .free → gone (.exit o) (fun t => (t.after gr).slot x = {} ∧ (t.after gr).mask x = 0 ∧ (t.after gr).slot (!x) = { y with st := .running } ∧ (t.after gr).mask (!x) = g.mask (!x) ∧ (t.after gr).buf = [])) ∧
    (Ready (.exit o) s gr → g.held = [] → g.depth = 0 → y.st = .free → s.unfinished gr.gid = true → Holds (.exit o) s gr (fun w => w = .exit) (fun t => (t.after gr).buf = g.buf)) ∧
    (Ready (.exit o) s gr → g.held = [] → g.depth = 0 → y.st = .free → s.unfinished gr.gid = false → gone (.exit o) (fun t => t.resident gr.gid = false)) ∧
    (∀ ds es a e u v, Ready (.exit o) s gr → g.held = [] → y.st = .free → (on (.exit o)).stack gr.gid = .ok ds → ds.any (fun z => z.2.live) = true → (s.begin c (.exit o)).freeSlot c = .ok u →
      u.stack gr.gid = .ok es → es.find? (fun z => z.2.live) = some (a, e) → u.takeEntry c = .ok v →
      gone (.exit o) (fun t => (t.after gr).a = { pc := if e.kind = 0 then e.pc else e.join, st := .running } ∧ (t.after gr).mask false = e.mask ∧ (t.after gr).mask true = 0 ∧ t.mem = v.mem)) ∧
    (Ready (.regroup o) s gr → x = false → g.b.st = .free → g.depth = 0 → Holds (.regroup o) s gr (fun w => w = .regroup o.a.toNat (o.c.toNat + 1)) (fun t => (t.after gr).buf = [])) ∧
    (Ready (.regroup o) s gr → x = true ∨ g.b.st ≠ .free → Traps (.regroup o) s gr (fConvergence 0x30A true false m))

/-- The return of a REGROUP whose participants agree (11 R223): lane L of the p-th of them takes registers A to A + C and all
predicates of the (32 p + L)-th live lane; its mask holds the lanes filled, and s[D] their number. -/
def Obligations.RegroupMoves : Prop :=
  ∀ (o : FOps) (s : State) (gr : Grant) (w : Wait),
    let g := s.group gr.gid
    let ps := (s.woken gr).participants g.team g.role
    let word (p : Nat) : Option Instr := if p = gr.gid then some w.instr else (s.group p).wait.map (·.instr)
    let live : List (Nat × Nat) := ps.flatMap (fun p => (lanesIn ((s.group p).mask false)).map (fun L => (p, L)))
    Returning s gr w → w.instr = .regroup o → gr.gid ∈ ps → ps.Nodup → (∀ p ∈ ps, ∃ o', word p = some (.regroup o') ∧ o'.a = o.a ∧ o'.c = o.c) →
    Ends (.regroup o) s gr (fun t => ∀ j p, ps[j]? = some p → ∀ o', word p = some (.regroup o') →
      let n := min (live.length - 32 * j) 32
      (t.group p).wait = none ∧ (t.group p).rs o'.d.toNat = BitVec.ofNat 32 n ∧ (o'.d ≠ 0 → (t.group p).mask false = BitVec.ofNat 32 (2 ^ n - 1)) ∧
      (∀ r, r ≠ 0 → r ≠ o'.d.toNat → (t.group p).rs r = (s.group p).rs r) ∧
      ∀ L, L < 32 → match live[32 * j + L]? with
        | some (p', L') => (∀ r, o.a.toNat ≤ r → r ≤ o.a.toNat + o.c.toNat → (t.group p).rv r L = (s.group p').rv r L') ∧ (∀ z, z < 8 → ((t.group p).rq z).getLsbD L = ((s.group p').rq z).getLsbD L') ∧
            (∀ r, r < o.a.toNat ∨ o.a.toNat + o.c.toNat < r → (t.group p).rv r L = (s.group p).rv r L)
        | none => (∀ r, (t.group p).rv r L = (s.group p).rv r L) ∧ (∀ z, ((t.group p).rq z).getLsbD L = ((s.group p).rq z).getLsbD L))

/-- BRX and CALLX (11 R214, R215): the reads of the table hold the slot of the word; once they have returned, an entry below COUNT of
a table that nobody may write is jumped to, CALLX leaving the return address in its pair. The word completes on these conditions
alone; a table that may be written, one with reserved bytes, an index from COUNT on, and a misaligned entry stop the group at the
word.
Where it meets a choice of the model, it is this one: that the word holds its slot from its issue until the table is there (log 45). -/
def Obligations.TableJumps : Prop :=
  ∀ (o : FOps) (s : State) (gr : Grant) (w : Wait),
    let c := s.seen gr
    let g := s.group gr.gid
    let base := (g.rpair o.a.toNat).toNat
    let at_ (i : Instr) : Nat := base + 16 + 8 * (s.operandBs gr i o).toNat
    let g1 : Group := { g with tables := g.tables.filter (fun y => y.slotB ≠ gr.slotB) }
    let s1 : State := ({ s with grant := none } : State).setGroup gr.gid g1
    let both (p : Instr → Option Nat → Prop) : Prop := p (.brx o) none ∧ p (.callx o) (some o.d.toNat)
    both (fun i link => Ready i s gr → base % 16 = 0 → base < 2 ^ 56 → at_ i + 8 ≤ 2 ^ 56 → ∃ t n v x a b, exec i s = .next t ∧ s.nextId ≤ n ∧
      (t.after gr).tables = g.tables ++ [v] ∧ v.instr = i ∧ v.kind = .table n ∧ v.slotB = gr.slotB ∧ v.pc = c.pc ∧ v.cl = some c.cl ∧ (t.after gr).wait = g.wait ∧
      t.op n = some x ∧ x.dest = .brx link b a ∧ x.gid = gr.gid ∧ g.sameRegs (t.after gr) ∧ advanced c (t.after gr)) ∧
    both (fun i _ => Ready i s gr → base % 16 ≠ 0 → Traps i s gr (fAlign 0 0 4 base)) ∧
    both (fun i _ => Ready i s gr → base % 16 = 0 → (2 ^ 56 ≤ base ∨ 2 ^ 56 < at_ i + 8) → Traps i s gr (fTranslation 3 3 0 3 (if 2 ^ 56 ≤ base then base else at_ i))) ∧
    both (fun i link => ∀ n x l a b, s.grant = some gr → gr.again = true → g.tables.find? (fun y => y.slotB == gr.slotB) = some w → w.kind = .table n → s.op n = some x → x.dest = .brx l b a →
      let u : State := { s1 with ops := tdel n s1.ops }
      let idx := ((⟨gr.gid, w.slotB, w.pc, w.cl.getD {}, g1⟩ : Iss).bs u o).toNat
      let pc := BitVec.ofNat 64 (x.returned a 8)
      let open_ : Prop := u.tableWritable g.ctx b = false
      let fits : Prop := x.returned (b + 4) 12 = 0 ∧ idx < x.returned b 4
      (u.tableWritable g.ctx b = true → exec i s = .next (s1.trapSlot gr.gid n w (fPermission 0 1 0 0 3 base))) ∧
      (open_ → fits → pc.toNat % 8 = 0 →
        ∃ t, exec i s = .next t ∧ t.grant = none ∧ (t.after gr).tables = g1.tables ∧ (t.after gr).slot w.slotB = { g.slot w.slotB with pc := pc, cl := none } ∧ (t.after gr).slot (!w.slotB) = g.slot (!w.slotB) ∧ (t.after gr).v = g.v ∧ (t.after gr).q = g.q ∧
          ∀ r, (t.after gr).rs r = (match link with | some d => (onlyPair d (w.pc + 8) r).getD (g.rs r) | none => g.rs r)) ∧
      (open_ → fits → pc.toNat % 8 ≠ 0 → exec i s = .next (s1.trapSlot gr.gid n w (fAlign 0 0 3 pc.toNat))) ∧
      (open_ → ¬ fits → exec i s = .next (s1.trapSlot gr.gid n w (fPermission idx 2 0 0 3 base))))

/-! ### Two halves -/

/-- The P-form (01 R20 to R22), for each of the 30 first halves, IADD_P to NOP_P, which `Instr.ofHalves` names, with each second half: both halves read before either writes, each under its own guard, with D as first source;
an LDS half starts a load whose words are read at issue, an STS half enters the region store buffer, and an enabled
exception in an active lane of a half stops the whole word.
Where it meets a choice of the model, it is this one: that an LDS half reads at issue (log 20). -/
def Obligations.PairResults : Prop :=
  ∀ (x y : PHalf) (s : State) (gr : Grant),
    let c := s.seen gr
    let g := s.group gr.gid
    let i := Instr.ofHalves x y
    let m (h : PHalf) : Word := g.mask gr.slotB &&& (match h.f.g with | some q => g.rq q.toNat | none => 0xFFFFFFFF)
    let old (h : PHalf) (L : Nat) : Word := g.rv h.f.d.toNat L
    let src (h : PHalf) (L : Nat) : Word := if h.f.imm then h.f.s.signExtend 32 else g.rv h.f.s.toNat L
    let rm (h : PHalf) : RMode := rmodeOf (h.f.sub.extractLsb' 0 2)
    let el (h : PHalf) (f : Fmt) (k L : Nat) : Nat := if h.f.imm then (f.round .rne false (.ofInt h.f.s.toInt)).1 else (g.rv h.f.s.toNat L).toNat / 2 ^ (f.width * k) % 2 ^ f.width
    let int (w : Word) : Option (Nat × FFlags) := some (w.toNat, {})
    let fp (f : RMode → Nat → Nat → Nat × FFlags) (h : PHalf) (L : Nat) : Option (Nat × FFlags) := some (f (rm h) (old h L).toNat (el h fp32 0 L))
    let two (f : RMode → Nat → Nat → Nat × FFlags) (h : PHalf) (L : Nat) : Option (Nat × FFlags) :=
      let e (k : Nat) : Nat × FFlags := f (rm h) ((old h L).toNat / 2 ^ (16 * k) % 2 ^ 16) (el h fp16 k L)
      some ((e 0).1 + 2 ^ 16 * (e 1).1, (e 0).2.or (e 1).2)
    let value (h : PHalf) (L : Nat) : Option (Nat × FFlags) := match h.op with
      | .iadd => int (old h L + src h L) | .isub => int (old h L - src h L) | .imul => int (old h L * src h L) | .mov => int (src h L)
      | .imin => int (if (old h L).toInt ≤ (src h L).toInt then old h L else src h L) | .imax => int (if (src h L).toInt ≤ (old h L).toInt then old h L else src h L)
      | .and => int (old h L &&& src h L) | .or => int (old h L ||| src h L) | .xor => int (old h L ^^^ src h L)
      | .shl => int (old h L <<< ((src h L).toNat % 32)) | .shr => int (old h L >>> ((src h L).toNat % 32)) | .sar => int ((old h L).sshiftRight ((src h L).toNat % 32))
      | .fadd => fp fp32.add h L | .fsub => fp fp32.sub h L | .fmul => fp fp32.mul h L
      | .fmin => fp (fun _ a b => (fp32.minmax false a b, {})) h L | .fmax => fp (fun _ a b => (fp32.minmax true a b, {})) h L
      | .hadd2 => two fp16.add h L | .hmul2 => two fp16.mul h L
      | _ => none
    let S (h : PHalf) : Word := g.rs h.f.d.toNat
    let T (h : PHalf) : Word := if h.f.imm then h.f.s.signExtend 32 else g.rs h.f.s.toNat
    let scalar (h : PHalf) : Option Word := match h.op with
      | .sadd => some (S h + T h) | .ssub => some (S h - T h) | .sand => some (S h &&& T h) | .sor => some (S h ||| T h) | .sxor => some (S h ^^^ T h)
      | .smov => some (T h) | .sshl => some (S h <<< ((T h).toNat % 32)) | .sshr => some (S h >>> ((T h).toNat % 32))
      | _ => none
    let v (h : PHalf) (r L : Nat) : Option Word := if r = h.f.d.toNat ∧ (m h).getLsbD L = true then (value h L).map (fun z => BitVec.ofNat 32 z.1) else none
    let w (h : PHalf) (r : Nat) : Option Word := if r = h.f.d.toNat then scalar h else none
    let writes : Writes := { v := fun r L => (v y r L).or (v x r L), s := fun r => (w y r).or (w x r) }
    let clean (h : PHalf) : Prop := ∀ L z, L < 32 → (m h).getLsbD L = true → value h L = some z → z.2.bits &&& g.fpx = 0
    let still (h : PHalf) : Prop := h.op ≠ .lds ∧ h.op ≠ .sts
    let code (h : PHalf) : Nat := if h.f.sub = 1 then 2 else if h.f.sub = 2 then 0 else 4
    let size (h : PHalf) : Nat := if h.f.sub = 1 then 2 else if h.f.sub = 2 then 1 else 4
    let at_ (h : PHalf) : List (Nat × Nat) := (lanesIn (m h)).map (fun L => (L, if h.f.imm then h.f.s.toNat * 4 else (g.rv h.f.s.toNat L).toNat))
    let fits (h : PHalf) : Prop := ∀ z ∈ at_ h, z.2 % size h = 0 ∧ z.2 + size h ≤ (s.team g.team).scratchSize
    let cells (h : PHalf) : List (RCell × Word) := (at_ h).flatMap (fun z => (loadWords (code h) (s.scratchNum c z.2 (size h))).zipIdx.map (fun u => (⟨0, 32 * (h.f.d.toNat + u.2) + z.1⟩, u.1)))
    let bytes (h : PHalf) : List (Nat × Byte) := (at_ h).flatMap (fun z => bytesAt z.2 (g.rv h.f.d.toNat z.1).toNat (size h))
    (Ready i s gr → still x → still y → clean x → clean y → Completes i s gr writes) ∧
    (Ready i s gr → still x → still y → ¬ (clean x ∧ clean y) → ∃ d, Traps i s gr ⟨4, d⟩) ∧
    (∀ a b, (a = x ∧ b = y) ∨ (a = y ∧ b = x) → Ready i s gr → a.op = .lds → still b → clean b → fits a → (s.begin c i).spPoison g.team (spBytes (size a) ((at_ a).map (·.2))) = none →
      Gives i s gr writes (fun t => pendsOn i c (t.after gr) ∧ ∃ n z, s.nextId ≤ n ∧ t.op n = some z ∧ z.gid = gr.gid ∧ z.instr = i ∧ z.flag = c.carried i ∧ z.dest = .cells (cells a) ∧ z.path = (if m a = 0 then none else some 0))) ∧
    (∀ a b, (a = x ∧ b = y) ∨ (a = y ∧ b = x) → Ready i s gr → a.op = .sts → still b → clean b → fits a → m a = 0 → Completes i s gr writes) ∧
    (∀ a b, (a = x ∧ b = y) ∨ (a = y ∧ b = x) → Ready i s gr → a.op = .sts → still b → clean b → fits a → m a ≠ 0 →
      Gives i s gr writes (fun t => ∃ n z, s.nextId ≤ n ∧ t.op n = some z ∧ z.gid = gr.gid ∧ z.instr = i ∧ z.path = some 1 ∧
        (t.after gr).buf = bufferStore .scratch g.tenant n false 0 0 (bytes a) (if 64 < g.buf.length + (newSectors .scratch (bytes a) g.buf).length then [] else g.buf)))

/-! ### The system group -/

/-- TSTAMP, CYCLES, EVRD, EVCFG, OPHINT and OSTAGE (06 R109; 17 R321, R322, R326, R327): the device time, the cluster's
cycles or the value of a counter that the context owns goes to a pair; EVCFG needs right CNT and a control word without
reserved bits; a hint takes effect at once, or is kept while the last change is younger than 200 microseconds. PHINT and PHINTS (16 R297, R300, R301): a hint commits the region, and the new region records the word that follows,
the slots as they stand and the live set of its quad, every register of which must be allocated; a scratchpad range is
declared, or with length 0 withdrawn, under one of four numbers.
Where it meets a choice of the model, it is this one: EVRD and EVCFG of a counter that is not there (log 63). -/
def Obligations.SystemWords : Prop :=
  (∀ (o : FOps) (s : State) (gr : Grant),
    let c := s.seen gr
    let g := s.group gr.gid
    let k := coreOf gr.gid
    let die := o.ox.getLsbD 0
    let limit := if die then 32 else 8
    let counters (t : State) : Table Counter := if die then (t.die (dieOf gr.gid)).counters else (t.core k).counters
    let at_ (i : Instr) : Nat := (s.operandBs gr i o).toNat
    let r := tget {} (at_ (.evrd o)) (counters (s.begin c (.evrd o)))
    let w := (g.rs o.a.toNat).toNat
    let src := w % 2 ^ 12
    let known : Prop := if die then src ∈ [0x100, 0x101, 0x102, 0x103, 0x110, 0x111, 0x120, 0x130, 0x131, 0x140] else src ∈ [0x001, 0x002, 0x003, 0x010, 0x011, 0x012, 0x020, 0x030]
    let m := s.team g.team
    let p := min (min (at_ (.ophint o)) 7) (s.context g.ctx).ceiling
    (Ready (.tstamp o) s gr → Completes (.tstamp o) s gr { s := onlyPair o.d.toNat (BitVec.ofNat 64 s.devTime) }) ∧
    (Ready (.cycles o) s gr → Completes (.cycles o) s gr { s := onlyPair o.d.toNat (BitVec.ofNat 64 (s.cluster (clusterOfCore k)).cycles) }) ∧
    (Ready (.evrd o) s gr → Completes (.evrd o) s gr { s := onlyPair o.d.toNat (BitVec.ofNat 64 (if at_ (.evrd o) < limit ∧ r.owner = some g.ctx then r.count else 0)) }) ∧
    (Ready (.evcfg o) s gr → s.ctxRight g.ctx 4 = false → Traps (.evcfg o) s gr (fRight (s.context g.ctx).level 4 0 (Instr.evcfg o).opcNum)) ∧
    (Ready (.evcfg o) s gr → s.ctxRight g.ctx 4 = true → (2 ^ 15 ≤ w ∨ w.testBit 12 = true) → Traps (.evcfg o) s gr (fEncoding false 2 (Instr.evcfg o).wordOf)) ∧
    (Ready (.evcfg o) s gr → s.ctxRight g.ctx 4 = true → w < 2 ^ 15 → w.testBit 12 = false → at_ (.evcfg o) < limit → Passes (.evcfg o) s gr (fun t => ∃ x, tfind (at_ (.evcfg o)) (counters t) = some x ∧
      x.owner = some g.ctx ∧ x.src = src ∧ (x.en = true ↔ w.testBit 13 = true ∧ known) ∧ (w.testBit 14 = true → x.count = 0) ∧ (w.testBit 14 = false → x.count = (tget {} (at_ (.evcfg o)) (counters (s.begin c (.evcfg o)))).count))) ∧
    (Ready (.evcfg o) s gr → s.ctxRight g.ctx 4 = true → w < 2 ^ 15 → w.testBit 12 = false → limit ≤ at_ (.evcfg o) → Passes (.evcfg o) s gr (fun t => counters t = counters (s.begin c (.evcfg o)))) ∧
    (Ready (.ophint o) s gr → (m.opTime = 0 ∨ m.opTime + 200000 ≤ s.devTime) → Passes (.ophint o) s gr (fun t => t.team g.team = { m with opReq := p, opTime := max 1 s.devTime, opKept := none })) ∧
    (Ready (.ophint o) s gr → m.opTime ≠ 0 → s.devTime < m.opTime + 200000 → Passes (.ophint o) s gr (fun t => t.team g.team = { m with opKept := some p })) ∧
    (Ready (.ostage o) s gr → Passes (.ostage o) s gr (fun t => (t.after gr).staged = some (o.a.toNat, o.c.toNat + 1) ∧ t.mem = s.mem))) ∧
  (∀ (o : FOps) (s : State) (gr : Grant),
    let c := s.seen gr
    let g := s.group gr.gid
    let A := o.a.toNat
    let z := g.rs (A + 3)
    let l : Live := ⟨g.rs A, g.rpair (A + 1), z.extractLsb' 0 8, z.extractLsb' 8 16, z.extractLsb' 24 8⟩
    let all := o.ox.getLsbD 0
    let there : Prop := (∀ k, k < 32 → l.v.getLsbD k = true → 8 * k < g.nv) ∧ (∀ k, k < 16 → l.t.getLsbD k = true → k < g.nt) ∧ (∀ k, k < 8 → l.a.getLsbD k = true → k < g.na)
    let off := (g.rs A).toNat
    let len := (g.rs (A + 1)).toNat
    let i := fld o.ox 0 2
    let size := (s.team g.team).scratchSize
    (Ready (.phint o) s gr → (all = true ∨ there) → Passes (.phint o) s gr (fun t => (t.after gr).buf = [] ∧ (t.after gr).region.start = c.pc + 8 ∧ (t.after gr).region.live = (if all then none else some l) ∧
      (t.after gr).region.a = ⟨(t.after gr).slotAtWord false, g.mask false⟩ ∧ (t.after gr).region.b = ⟨(t.after gr).slotAtWord true, g.mask true⟩)) ∧
    (Ready (.phint o) s gr → all = false → ¬ there → ∃ r, Traps (.phint o) s gr (fUnallocated r) ∧
      ((∃ k, r = ⟨.vec, 8 * k⟩ ∧ l.v.getLsbD k = true ∧ g.nv ≤ 8 * k) ∨ (∃ k, r = ⟨.tile, k⟩ ∧ l.t.getLsbD k = true ∧ g.nt ≤ k) ∨ (∃ k, r = ⟨.acc, k⟩ ∧ l.a.getLsbD k = true ∧ g.na ≤ k))) ∧
    (Ready (.phints o) s gr → off % 4 = 0 → len % 4 = 0 → off + len ≤ size → Passes (.phints o) s gr (fun t => tfind i (t.team g.team).ranges = (if len = 0 then none else some (off, len)) ∧ (∀ j, j ≠ i → tfind j (t.team g.team).ranges = tfind j (s.team g.team).ranges) ∧ t.mem = s.mem)) ∧
    (Ready (.phints o) s gr → off % 4 ≠ 0 → Traps (.phints o) s gr (fAlign 1 0 2 off)) ∧
    (Ready (.phints o) s gr → off % 4 = 0 → len % 4 ≠ 0 → Traps (.phints o) s gr (fAlign 1 0 2 len)) ∧
    (Ready (.phints o) s gr → off % 4 = 0 → len % 4 = 0 → size < off + len → Traps (.phints o) s gr (fScratch off)))

/-- TRAP and BKPT (16 R304 to R306, R310): with an active lane the word completes, and the group stops after it with cause
group 14 or 13: the halt line of its context rises, and the group's stop record takes the cause, the word and the code;
without one nothing happens.
Where it meets a choice of the model, it is this one: that faults of different clusters are not of one cycle (log 54). -/
def Obligations.TrapAndBreak : Prop :=
  ∀ (k : ImmOps) (s : State) (gr : Grant),
    let c := s.seen gr
    let g := s.group gr.gid
    let m := c.active k.g
    let code := k.imm.toNat % 2 ^ 16
    let x := s.context g.ctx
    let stops (i : Instr) (cause : Nat) (d : BitVec 96) : Prop := Ready i s gr → m ≠ 0 → g.stop.cause = 0 → Passes i s gr (fun t =>
      (t.context g.ctx).hb.halt = true ∧ t.mem = s.mem ∧ t.grant = none ∧
      (t.after gr).stop = { g.stop with cause := cause, precise := true, slotB := gr.slotB, held := false, fpc := c.pc, detail := d, drain := none, first := none, time := g.stop.time.orElse (fun _ => some s.devTime) } ∧
      (x.hb.halt = false → (t.context g.ctx).hb.first = dieOf gr.gid * 2 ^ 17 + coreOf gr.gid % 64 * 2 ^ 11 + slotOf gr.gid * 2 ^ 5 + cause ∧ (t.context g.ctx).hb.stopped = false ∧ (t.context g.ctx).haltAt = s.devTime) ∧
      (x.hb.halt = true → (x.hb.firstAt ≠ some (s.cycleOf gr.gid) → (t.context g.ctx).hb.first = x.hb.first) ∧ (t.context g.ctx).haltAt = x.haltAt))
    stops (.trap k) 14 (BitVec.ofNat 96 ((if k.mods.getLsbD 0 then g.rs k.a.toNat else 0).toNat * 2 ^ 16 + code)) ∧
    stops (.bkpt k) 13 (BitVec.ofNat 96 (code * 4)) ∧
    (Ready (.trap k) s gr → m = 0 → Completes (.trap k) s gr {}) ∧
    (Ready (.bkpt k) s gr → m = 0 → Completes (.bkpt k) s gr {})

/-! ### The grid barrier and the task instructions -/

/-- DEQ and DEQT (14 R277): a group that is bound to nothing stops; a batch or a node gives its oldest records to the lanes
without one, in lane order, with the ballot and the status word, those that leave the overflow ring as it holds them (14 R264); a sealed empty node ends; else the group is held for records,
or for B nanoseconds of its context's time; one that issues while its context is halted is held (16 R304).
Where it meets a choice of the model, it is this one: that a DEQ waits behind every DEQ that is blocked on its node (log 24). -/
def Obligations.TaskPops : Prop :=
  ∀ (o : FOps) (s : State) (gr : Grant) (i : Instr) (limit : Option Nat),
    let c := s.seen gr
    let g := s.group gr.gid
    let front := (s.begin c i).commitRegion gr.gid gr.slotB
    let free := (front.group gr.gid).freeLanes gr.slotB
    let m := free.length
    let changed := if g.bind.changed then 2 ^ 10 else 0
    let status (k bits : Nat) : Word := BitVec.ofNat 32 (k + bits + changed)
    let writes (recs : List (List Word)) (bits : Nat) : Writes := {
      v := fun r L => ((free.zip recs).find? (fun x => x.1 == L)).bind (fun x => if o.d.toNat ≤ r ∧ r < o.d.toNat + 4 * 2 ^ fld o.ox 0 2 then some (x.2.getD (r - o.d.toNat) 0) else none),
      s := fun r => if r = o.a.toNat + 1 then some (status (min m recs.length) bits) else if r = o.a.toNat then some (maskOf (fun L => (free.take recs.length).contains L)) else none }
    let batch := (front.grid (front.team g.team).grid).batch
    let handle (key : Nat) : Word := s.nodeHandle key
    ((i = .deq o ∧ limit = none) ∨ (i = .deqt o ∧ limit = some (s.operandBs gr i o).toNat)) → Ready i s gr →
    (g.bind.node = none → g.bind.batch = false → Traps i s gr (fNode 2 true 0 (dieOf gr.gid) 0 2)) ∧
    ((g.bind.node = none → g.bind.batch = true) → (∀ key, g.bind.node = some key → (s.node g.ctx key).v = true ∧ (s.node g.ctx key).en = true) → (front.context g.ctx).hb.halt = true → Holds i s gr (fun w => ∃ q, w = .deq q (limit.map (s.ctxTime g.ctx + ·))) (fun t => (t.after gr).buf = [])) ∧
    (g.bind.node = none → g.bind.batch = true → (front.context g.ctx).hb.halt = false → Gives i s gr (writes (batch.take (min batch.length m)) (if batch = [] then 2 ^ 8 + 2 ^ 11 else 2 ^ 11))
      (fun t => (t.grid (front.team g.team).grid).batch = batch.drop (min batch.length m) ∧ (t.after gr).held = (front.group gr.gid).held)) ∧
    (∀ key, g.bind.node = some key →
      let n := front.node g.ctx key
      let all := n.bin ++ n.ovf
      let idx := key % 4096 * 2 ^ 12
      let k := min all.length m
      let got := (front.fromRing g.ctx key k).node g.ctx key
      let recs := got.bin ++ got.ovf
      let alone : Prop := m = 0 ∨ front.deqWaiters g.ctx key = []
      let enough : Prop := m = 0 ∨ min n.count m ≤ all.length ∨ (all ≠ [] ∧ (n.due = true ∨ n.sealed = true))
      let ended : Prop := all = [] ∧ n.sealed = true
      ((s.node g.ctx key).v = false → Traps i s gr (fNode 2 true 0 (key / 4096) (handle key) 2)) ∧
      ((s.node g.ctx key).v = true → (s.node g.ctx key).en = false → Traps i s gr (fNode 2 true 0 (key / 4096) (handle key) 3)) ∧
      ((s.node g.ctx key).v = true → (s.node g.ctx key).en = true → (front.context g.ctx).hb.halt = false →
        (alone → ended → Gives i s gr (writes [] (2 ^ 8 + idx)) (fun t => t.node g.ctx key = n ∧ (t.after gr).buf = [])) ∧
        (alone → ¬ ended → enough → Gives i s gr (writes (recs.take k) idx) (fun t => (t.node g.ctx key).bin ++ (t.node g.ctx key).ovf = recs.drop k ∧
          (∀ r st, front.stageOf g.ctx key = some (r, st) → ∀ L x, (free.zip (recs.take k)).find? (fun z => z.1 == L) = some x → ∃ h, tfind L (t.after gr).held = some h ∧ h.router = r.set ∧ h.stage = st ∧ h.words = x.2))) ∧
        (¬ alone ∨ (¬ ended ∧ ¬ enough) → limit ≠ some 0 → Holds i s gr (fun w => ∃ q, w = .deq q (limit.map (s.ctxTime g.ctx + ·))) (fun t => t.node g.ctx key = n)) ∧
        (¬ alone ∨ (¬ ended ∧ ¬ enough) → limit = some 0 → Gives i s gr (writes [] (2 ^ 9 + idx)) (fun t => t.node g.ctx key = n))))

/-- RPUSH, RPASS, RREJ, LNCH, NODEQ and RBIND (14 R264, R265, R268, R278 to R283): a local push whose records fit adds them
at the end of the node's bin, one that does not stops the group; a remote push takes an outbox slot, and one to a module that no port
reaches stops the group (17 R357); a report goes to the router and
its lanes hold no record; a launch forms a batch, or makes the node due; NODEQ reads, seals and opens; RBIND commits and
binds.
Where it meets a choice of the model, it is this one: the kind of NODEQ for a handle of another module (log 25), and which port leads to a
module (log 82). -/
def Obligations.TaskWords : Prop :=
  ∀ (o : FOps) (s : State) (gr : Grant) (w : Wait),
    let c := s.seen gr
    let g := s.group gr.gid
    let ctx := g.ctx
    let h := g.rs o.a.toNat
    let key := nodeKey h
    let die := dieOf gr.gid
    let u := s.woken gr
    let n := s.node ctx key
    let m := (s.back gr w).active o.g
    let lanes := lanesIn m
    let all (x : Node) : List (List Word) := x.bin ++ x.ovf
    let here : Prop := (h.toNat / 2 ^ 18) % 2 ^ 13 = s.hub.module
    let record (L : Nat) : List Word := (List.range (4 * 2 ^ fld o.ox 0 2)).map (fun k => g.rv (o.d.toNat + k) L)
    let fitted (L : Nat) : List Word := (record L ++ List.replicate 32 0).take (4 * 2 ^ n.rsz)
    let back : Prop := Returning s gr w ∧ ∃ k, w.kind = .release k
    let quiet : Prop := u.deqWaiters ctx key = []
    let full : Prop := 256 + n.ovfCap < (all n).length + u.reserved ctx key + lanes.length
    let way : Option Flt := s.hub.noWay ((h.toNat / 2 ^ 18) % 2 ^ 13) h.toNat
    let got := (u.fromRing ctx key (min n.depth n.count)).node ctx key
    (back → lanes = [] → Ends (.rpush o) s gr (fun t => t.contexts = s.contexts)) ∧
    (back → lanes ≠ [] → here → key / 4096 = die → n.mode ≠ 0 → n.mode ≠ 2 → n.v = true → n.en = true → ¬ full → quiet → Ends (.rpush o) s gr (fun t => all (t.node ctx key) = all n ++ lanes.map fitted ∧ g.sameRegs (t.after gr))) ∧
    (back → lanes ≠ [] → here → key / 4096 = die → n.mode ≠ 2 → ∀ k, (n.v = false ∧ k = 2) ∨ (n.v = true ∧ n.en = false ∧ k = 3) ∨ (n.v = true ∧ n.en = true ∧ full ∧ k = 4) → Stops (.rpush o) s gr w (fNode 1 true 0 die h k)) ∧
    (∀ L k, back → lanes = [L] → (here ∧ key / 4096 ≠ die) ∨ (¬ here ∧ way = none) → u.freeOutbox ctx die = some k →
      Ends (.rpush o) s gr (fun t => ∃ q x, s.nextId ≤ q ∧ tfind (256 * die + k) (t.context ctx).outbox = some (q, h, none) ∧ t.op q = some x ∧ x.path = some 5 ∧ x.instr = .rpush o ∧ x.who = [(0, L)])) ∧
    (∀ f, back → lanes ≠ [] → ¬ here → way = some f → Stops (.rpush o) s gr w f) ∧
    (back → lanes ≠ [] → (here ∧ key / 4096 ≠ die) ∨ (¬ here ∧ way = none) → u.freeOutbox ctx die = none → ∃ t v, exec (.rpush o) s = .next t ∧ (t.after gr).wait = some v ∧ v.kind = .outbox lanes) ∧
    (∀ i, i = .rpass o ∨ i = .rrej o → back → Ends i s gr (fun t => ∀ L, L < 32 → tfind L (t.after gr).held = if m.getLsbD L then none else tfind L g.held)) ∧
    (∀ i L x d r z, i = .rpass o ∨ i = .rrej o → back → lanes = [L] → tfind L g.held = some x → u.routerOf ctx x.router = some (d, r, z) → Ends i s gr (fun t =>
      let cyc := min ((s.cluster (clusterOfCore (coreOf gr.gid))).cycles - x.since).toNat (2 ^ 24 - 1)
      let e : RouterEvent := if i = .rpass o then .pass (some g.serial) x.stage x.words (record L) cyc else .rej (some g.serial) x.stage x.words (record L) cyc
      (t.die d).routers = (s.die d).routers.map (fun y => if y.1 = r then (r, { y.2 with events := y.2.events ++ [e] }) else y))) ∧
    (∀ l, Returning s gr w → n.mode = 0 → n.template = some l → Ends (.lnch o) s gr (fun t => all (t.node ctx key) = (all got).drop n.count ∧
      ∃ q x, s.nextId ≤ q ∧ tfind q t.grids = some x ∧ x.ctx = ctx ∧ x.batch = (all got).take n.count ∧ x.batchNode = key ∧ x.spawned = true ∧ x.launch.arg = (if o.ox.getLsbD 0 then g.rpair o.c.toNat else l.arg))) ∧
    (Returning s gr w → n.mode ≠ 0 → quiet → Ends (.lnch o) s gr (fun t => t.node ctx key = { n with due := true })) ∧
    (s.handleBad gr.gid h = false → here → GivesScalar (.nodeqQry o) o s gr (BitVec.ofNat 32 (min ((s.begin c (.nodeqQry o)).nodeDepth ctx key) 65535 + n.v.toNat * 2 ^ 16 + n.en.toNat * 2 ^ 17 + n.sealed.toNat * 2 ^ 18 + n.mode % 4 * 2 ^ 19 + n.due.toNat * 2 ^ 21 +
      min ((s.begin c (.nodeqQry o)).boundGroups ctx key).length 1023 * 2 ^ 22))) ∧
    (∀ i src, (i, src) ∈ [(Instr.nodeqQry o, 5), (.rbind o, 6)] → Ready i s gr → (i = .rbind o → o.ox.getLsbD 1 = false) → s.handleBad gr.gid h = true → Traps i s gr (fHandle src h)) ∧
    (∀ i b x v, (i, b) = (Instr.nodeqSeal o, true) ∨ (i, b) = (Instr.nodeqOpen o, false) → Returning s gr w →
      let va := (s.context ctx).nodesAt + key / 4096 * 0x20000 + 32 * (key % 4096)
      u.readCtx ctx va 4 .engineRead (some (key / 4096)) = .ok x → (u.readRun ctx va 4 .engineRead (some (key / 4096))).2.writeCtx ctx va (x - x / 64 % 2 * 64 + b.toNat * 64) 4 .engineWrite (some (key / 4096)) = .ok v → (v.node ctx key).mode ≠ 0 → v.deqWaiters ctx key = [] →
      Ends i s gr (fun t => (t.node ctx key).sealed = b ∧ t.mem = v.mem)) ∧
    (Ready (.rbind o) s gr → o.ox.getLsbD 1 = true → Passes (.rbind o) s gr (fun t => (t.after gr).bind = { node := none, batch := false, time := s.ctxTime ctx, changed := true, governed := false } ∧ (t.after gr).buf = [])) ∧
    (Ready (.rbind o) s gr → o.ox.getLsbD 1 = false → s.handleBad gr.gid h = false → here → key / 4096 = die → n.mode = 1 → n.v = true →
      Passes (.rbind o) s gr (fun t => (t.after gr).bind = { node := some key, batch := false, time := s.ctxTime ctx, changed := true, governed := o.ox.getLsbD 0 } ∧ (t.after gr).buf = [])) ∧
    (Ready (.rbind o) s gr → o.ox.getLsbD 1 = false → s.handleBad gr.gid h = false → ¬ (here ∧ key / 4096 = die ∧ n.mode = 1 ∧ n.v = true) → Traps (.rbind o) s gr (fNode 6 true 0 (key / 4096) h 2))

/-! ### What comes back to a core -/

/-- L1_FILL_RETURN, STORE_ACCEPTED and PALETTE_LINE_FILLED (04 R68, R78, R80): a fill that may allocate leaves its sectors
valid with the bytes returned, and hands them to its operation; an accepted store is merged into a line held, or
allocates one with the sectors that it wrote whole, and counts as one part of its operation; a palette fill makes its
sectors valid, and the palette whose last line it was is Entered, or Resident where it has no entrants. LONG_LATENCY_COMPLETE (01 R26; 03 R64; 05 R89; 10 R198): an operation all of whose parts have returned writes its
results, the group's own bytes standing over those returned, and its flag counts it no longer. SCRUB_PASS (06 R110, R111; 16 R313): a word without error stays; one bit is corrected and counted; two bits are logged,
are corrected and counted where the second read shows one of them, and poison the word where they last; a scrubber that is off, or a word poisoned already, changes nothing; an error comes to be
without the scrubber.
Where it meets a choice of the model, it is this one: that errors come to be by the event of the scrubber (log 72). -/
def Obligations.ReturnsToCore : Prop :=
  (∀ (s : State) (n k : Nat) (r : Req) (o : Op),
    let line (t : State) : Option L1Line := (t.core r.core).line r.tenant r.line
    let back (kinds : ReqKind → Prop) : Prop := s.holds = [] ∧ s.req n = some r ∧ r.stage = .reply ∧ kinds r.kind
    let load (x : ReqKind) : Prop := x = .load ∨ x = .table ∨ x = .prefetch
    let of_ (i : Instr) (post : State → Prop) : Prop := ∃ t, exec i s = .next t ∧ t.req n = none ∧ post t
    let whole (i : Nat) : Prop := ∀ j, j < 32 → (tfind (32 * i + j) r.bytes).isSome = true
    (back load → line s = none → r.noAlloc = false → r.nl1 = false → of_ (.l1FillReturn n) (fun t => ∃ l, line t = some l ∧ l.rd = r.rd ∧ l.wr = r.wr ∧ l.dirty = [] ∧
      ∀ i, i < 4 → l.valid.testBit i = r.sectors.testBit i ∧ (r.sectors.testBit i = true → ∀ j, j < 32 → l.byte (32 * i + j) = tget 0 (32 * i + j) r.data))) ∧
    (back load → line s = none → (r.noAlloc = true ∨ r.nl1 = true) → of_ (.l1FillReturn n) (fun t => line t = none)) ∧
    (back load → r.ops = [k] → s.op k = some o → (o.flag ≠ none ∨ o.dest ≠ .none) → of_ (.l1FillReturn n) (fun t => ∃ x, t.op k = some x ∧ x.parts = o.parts - 1 ∧ (s.ptmOfOther o.gid r.tenant r.line = false → ∀ b ∈ r.data, tget 0 (128 * r.line + b.1) x.got = (match (line s).bind (fun l => tfind b.1 l.dirty) with | some d => d | none => tget 0 b.1 r.data).toNat))) ∧
    (∀ l, back load → line s = some l → r.noAlloc = false → r.nl1 = false → of_ (.l1FillReturn n) (fun t => ∃ l', line t = some l' ∧ l'.rd = r.rd ∧ l'.wr = r.wr ∧ l'.dirty = l.dirty ∧ l'.pool = l.pool ∧
      ∀ i, i < 4 → l'.valid.testBit i = (l.valid.testBit i || r.sectors.testBit i) ∧ ∀ j, j < 32 → (l.valid.testBit i = true → l'.byte (32 * i + j) = l.byte (32 * i + j)) ∧
        (l.valid.testBit i = false → r.sectors.testBit i = true → l'.byte (32 * i + j) = (tfind (32 * i + j) l.dirty).getD (tget 0 (32 * i + j) r.data)))) ∧
    (back (· = .store) → line s = none → r.noAlloc = false → r.nl1 = false → of_ (.storeAccepted n) (fun t => ∃ l, line t = some l ∧ l.rd = r.rd ∧ l.wr = r.wr ∧ l.dirty = [] ∧
      ∀ i, i < 4 → (l.valid.testBit i = true ↔ whole i) ∧ (whole i → ∀ j, j < 32 → l.byte (32 * i + j) = tget 0 (32 * i + j) r.bytes))) ∧
    (∀ l, back (· = .store) → line s = some l → r.noAlloc = false → (r.bytes.map (·.1)).Nodup → of_ (.storeAccepted n) (fun t => ∃ l', line t = some l' ∧ ∀ b ∈ r.bytes, b.1 < 128 →
      tfind b.1 l'.dirty = none ∧ (l.valid.testBit (b.1 / 32) = true ∨ whole (b.1 / 32) → l'.byte b.1 = b.2))) ∧
    (back (· = .store) → r.noAlloc = true → of_ (.storeAccepted n) (fun t => line t = line s)) ∧
    (back (· = .store) → r.ops = [k] → s.op k = some o → o.flag = none → o.dest = .none → of_ (.storeAccepted n) (fun t => (o.parts ≤ 1 → t.op k = none) ∧ (1 < o.parts → t.op k = some { o with parts := o.parts - 1 }))) ∧
    (∀ team slot l, back (· = .palette team slot) → (s.team team).palQueue = [] → line s = some l → of_ (.paletteLineFilled n) (fun t => ∃ l', line t = some l' ∧ l'.rd = r.rd ∧ l'.wr = r.wr ∧ l'.pool = l.pool ∧
      ∀ i, i < 4 → l'.valid.testBit i = (l.valid.testBit i || r.sectors.testBit i))) ∧
    (∀ team slot l p, back (· = .palette team slot) → line s = some l → r.core = (s.team team).core → r.tenant = (s.team team).tenant → (s.team team).palQueue = [] → (s.team team).pals = [(slot, p)] → p.state = .filling → p.lines = [r.line] →
      r.rd = true → l.valid < 16 → (∀ i, i < 4 → l.valid.testBit i = true ∨ r.sectors.testBit i = true) → of_ (.paletteLineFilled n) (fun t => ((t.team team).palette slot).state = if 0 < p.entrants then .entered else .resident))) ∧
  (∀ (s : State) (k f : Nat) (o : Op),
    let byte (va : Nat) : Nat := match tfind va o.laid with | some b => b.toNat | none => tget 0 va o.got
    let num (va n : Nat) : Nat := ((List.range n).map (fun j => byte (va + j) * 256 ^ j)).sum
    let res : List (RCell × Word) := match o.dest with
      | .cells ws => ws
      | .load d w lanes => lanes.flatMap (fun x => (loadWords w (num x.2 (widthBytes w))).zipIdx.map (fun y => (⟨0, 32 * (d + y.2) + x.1⟩, y.1)))
      | .words d ws => ws.map (fun x => (⟨0, 32 * (d + x.2.1) + x.1⟩, BitVec.ofNat 32 (num x.2.2 4)))
      | .sload d w va => (loadWords w (num va (widthBytes w))).zipIdx.map (fun y => (⟨1, d + y.2⟩, y.1))
      | .atomic d wide lanes => lanes.flatMap (fun L => (⟨0, 32 * d + L⟩, BitVec.ofNat 32 (tget 0 L o.got)) :: (if wide then [(⟨0, 32 * (d + 1) + L⟩, BitVec.ofNat 32 (tget 0 L o.got / 2 ^ 32))] else []))
      | .none | .brx _ _ _ => []
    let cell (g : Group) (c : RCell) : Word := match c.cls with | 0 => g.rv (c.key / 32) (c.key % 32) | 1 => g.rs c.key | 2 => g.rq c.key | 3 => tget 0 c.key g.t | _ => tget 0 c.key g.acc
    s.holds = [] → s.op k = some o → o.parts = 0 → o.flag = some f → o.path ≠ some 3 → (res.map (·.1)).Nodup → (∀ x ∈ res, x.1.cls < 5) →
    ∃ t, exec (.longLatencyComplete k) s = .next t ∧ t.op k = none ∧ (t.group o.gid).flagCount f = (s.group o.gid).flagCount f - 1 ∧
      (∀ x ∈ res, cell (t.group o.gid) x.1 = x.2) ∧ (∀ c, c.cls < 5 → c ∉ res.map (·.1) → cell (t.group o.gid) c = cell (s.group o.gid) c) ∧
      (∀ g, g ≠ o.gid → t.group g = s.group g) ∧ t.mem = s.mem ∧ t.sameCores s) ∧
  (∀ (s : State) (core : Nat) (w : FileWord),
    let k := s.core core
    let d := dieOfCore core
    let log (t : State) : ErrLog := (t.die d).log
    let old := (s.die d).log
    let on : Prop := k.scrubCtl = true ∧ w ∉ k.poison ∧ w.file ≠ .memory
    let finds (e : WordError) (f : WordError) : Prop := f = match k.doubles.find? (fun x => x.1 == w) with | some x => (if x.2 then .doubleLasting else if w ∈ k.flips then .doubleSingle else .doubleTransient) | none => if w ∈ k.flips then .single else e
    let rest (t : State) : Prop := t.groups = s.groups ∧ t.mem = s.mem ∧ t.contexts = s.contexts
    let mended (t : State) : Prop := (∀ x, x ∈ (t.core core).flips ↔ x ∈ k.flips ∧ x ≠ w) ∧ (∀ x, x ∈ (t.core core).doubles ↔ x ∈ k.doubles ∧ x.1 ≠ w) ∧ ∀ x ∈ k.poison, x ∈ (t.core core).poison
    (∀ e, ¬ on → exec (.scrubPass core w ⟨e, true⟩) s = .next s) ∧
    (∀ e, on → finds e .none → exec (.scrubPass core w ⟨e, true⟩) s = .next s) ∧
    (∀ e, on → finds e .single → ∃ t, exec (.scrubPass core w ⟨e, true⟩) s = .next t ∧ rest t ∧ (t.core core).scrub = (k.scrub + 1) % 2 ^ 32 ∧ mended t ∧ log t = old) ∧
    (∀ e, on → finds e .doubleTransient → ∃ t, exec (.scrubPass core w ⟨e, true⟩) s = .next t ∧ rest t ∧ mended t ∧ w ∉ (t.core core).poison ∧ (t.core core).scrub = k.scrub ∧ (log t).count = (old.count + 1) % 2 ^ 64 ∧ (log t).trans = (old.trans + 1) % 2 ^ 64 ∧ (log t).last = old.last) ∧
    (∀ e, on → finds e .doubleSingle → ∃ t, exec (.scrubPass core w ⟨e, true⟩) s = .next t ∧ rest t ∧ mended t ∧ w ∉ (t.core core).poison ∧ (t.core core).scrub = (k.scrub + 1) % 2 ^ 32 ∧ (log t).count = (old.count + 1) % 2 ^ 64 ∧ (log t).trans = (old.trans + 1) % 2 ^ 64 ∧ (log t).last = old.last) ∧
    (∀ e, on → finds e .doubleLasting → ∃ t, exec (.scrubPass core w ⟨e, true⟩) s = .next t ∧ rest t ∧ mended t ∧ w ∈ (t.core core).poison ∧ (log t).count = (old.count + 1) % 2 ^ 64 ∧ (log t).last = (old.last + 1) % 2 ^ 64 ∧ (log t).trans = old.trans) ∧
    (w.file ≠ .memory → w ∉ k.poison → ∀ e, e ≠ .none → ∃ t, exec (.scrubPass core w ⟨e, false⟩) s = .next t ∧ rest t ∧ log t = old ∧ (e = .single → w ∈ (t.core core).flips) ∧ (e = .doubleTransient → (w, false) ∈ (t.core core).doubles) ∧ (e = .doubleSingle → w ∈ (t.core core).flips ∧ (w, false) ∈ (t.core core).doubles) ∧ (e = .doubleLasting → (w, true) ∈ (t.core core).doubles)))

/-- ISSUE_OPPORTUNITY (15 R293 to R295; 17 R316, R320): the quadrants of a cluster decide in turn, a quadrant in its second read
cycle or taken by the droop response not at all; within the power budget the group that issued least recently among those that
may issue is decided, one whose due count has reached 48 ahead of all, and one of no charge always; the words decided in a cycle issue in
ascending order of core and quadrant (09 R170, 12 R227), and the next decision after the 32nd ends the cycle once they have.
Where it meets a choice of the model, it is this one: that the words of one cycle are decided before the first of them issues (log 24). -/
def Obligations.IssueOpportunities : Prop :=
  ∀ (s : State) (core quad : Nat),
    let cl := clusterOfCore core
    let c := s.cluster cl
    let turned : Prop := s.grant = none ∧ quad < 4 ∧ c.relock = none ∧ c.next = core % 8 * 4 + quad
    let half : Prop := c.stretch = 0 ∧ 0 < c.halving ∧ c.cycles % 2 = 1
    let free : Prop := turned ∧ c.turn < 32 ∧ quad ∉ (s.core core).secondRead ∧ ¬ half
    let u := s.modCluster cl (fun c => { c with turn := c.turn + 1 })
    let cands : List Cand := (u.quadGroups core quad).filterMap u.candidate
    let sum := c.window.foldl (· + ·) 0 + c.now + (c.picks.map (·.2.2)).foldl (· + ·) 0
    let none_ (t : State) : Prop := t.grant = none ∧ (t.cluster cl).picks = c.picks
    let gives (x : Cand) (t : State) : Prop := t.grant = none ∧ (t.cluster cl).picks = c.picks ++ [(x.gid, x.slotB, x.charge)]
    let before (x y : Cand) : Prop := x.last < y.last ∨ (x.last = y.last ∧ x.gid ≤ y.gid)
    let of_ (post : State → Prop) : Prop := ∃ t, exec (.issueOpportunity core quad) s = .next t ∧ post t
    (turned → c.turn < 32 → quad ∈ (s.core core).secondRead → of_ (fun t => none_ t ∧ (t.cluster cl).turn = c.turn + 1 ∧ quad ∉ (t.core core).secondRead ∧ t.groups = s.groups)) ∧
    (turned → c.turn < 32 → quad ∉ (s.core core).secondRead → half → of_ (fun t => none_ t ∧ (t.cluster cl).turn = c.turn + 1 ∧ t.groups = s.groups)) ∧
    (turned → 32 ≤ c.turn → c.picks ≠ [] → exec (.issueOpportunity core quad) s = .next s) ∧
    (turned → 32 ≤ c.turn → c.picks = [] → of_ (fun t => (t.cluster cl).turn = 1 ∧ (t.cluster cl).cycles = c.cycles + 1 ∧ t.devTime = s.devTime + (if 0 < c.stretch then 2 else 1) * Config.cycleTime (c.cycles * 192 + cl))) ∧
    (free → cands = [] → of_ (fun t => none_ t ∧ (t.cluster cl).turn = c.turn + 1)) ∧
    (free → cands ≠ [] → (∀ x ∈ cands, x.due < 48 ∧ x.yielded = false ∧ (x.charge = 0 ∨ sum + x.charge ≤ c.budget)) → of_ (fun t => ∃ x ∈ cands, gives x t)) ∧
    (free → cands ≠ [] → (∀ x ∈ cands, x.due < 48 ∧ x.yielded = false ∧ sum + x.charge ≤ c.budget) → of_ (fun t => ∃ x ∈ cands, gives x t ∧ ∀ y ∈ cands, before x y)) ∧
    (free → (∃ x ∈ cands, 48 ≤ x.due) → of_ (fun t => ∃ x ∈ cands, gives x t ∧ 48 ≤ x.due ∧ ∀ y ∈ cands, 48 ≤ y.due → before x y)) ∧
    (free → cands ≠ [] → (∀ x ∈ cands, x.due < 48 ∧ x.charge ≠ 0 ∧ c.budget < sum + x.charge) → of_ (fun t => none_ t ∧ (t.cluster cl).lost = true)) ∧
    (∀ x ∈ c.picks, (∀ y ∈ c.picks, x.1 < y.1 ∨ y = x) → s.grant = none → s.mayIssue x.1 = true → (s.slotReady x.1 x.2.1).isSome = true →
      ∃ t, issuePick cl s = .next t ∧ t.grant = some ⟨x.1, x.2.1, false⟩ ∧ (t.cluster cl).picks = c.picks.filter (· ≠ x) ∧ t.groups = s.groups ∧ t.mem = s.mem)

/-! ### Home slices -/

/-- SLICE_LOAD, SLICE_STORE and SLICE_WRITEBACK (03 R54): a request whose line the slice holds with what it needs reads the
slice's copy, or merges its bytes into it, and is answered; a write-back to a line held merges without a walk and is done;
a request whose line is not held goes to a walker. Stated of requests that have reached their slice and of lines that no
prefetch filled. REPLAY_FILTER_ACK, COMBINE_TIMEOUT and REPLY_TIMEOUT (10 R193, R198, R200, R208; 12 R236; 16 R308): an acknowledged atomic hands its
old values to its operation and frees its entry, one of GSYNC leaves its group waiting for the next generation; an entry of the
combining buffer is sent after 64 cycles; a request whose reply has not come is sent again, or is held with cause group 18.
Where it meets a choice of the model, it is this one: which requests are sent again after a lost reply, and that the port in the fault is free (log 29). -/
def Obligations.SliceServes : Prop :=
  (∀ (s : State) (n : Nat) (r : Req) (l : L2Line),
    let there : Prop := s.req n = some r ∧ r.stage = .toSlice ∧ r.seen = true ∧ s.swapStalls r.ctx (r.line * 128) = false ∧ s.inPort r = false
    let at_ (k : ReqKind → Prop) : Prop := there ∧ k r.kind
    let own : Prop := l.tenant = r.tenant ∧ l.line = r.line ∧ l.prefetched = false
    let hit : Prop := s.hitLine r = some l ∧ own ∧ r.race = false
    let held (t : State) : Option L2Line := (t.slice r.slice).line r.tenant r.line
    let merged (t : State) : Prop := ∃ l', held t = some l' ∧ ∀ o, t.lineByte l' o = (tfind o r.bytes).getD (s.lineByte l o)
    let once : Prop := (r.bytes.map (·.1)).Nodup
    let of_ (i : Instr) (post : State → Prop) : Prop := ∃ t, exec i s = .next t ∧ t.mem = s.mem ∧ t.groups = s.groups ∧ post t
    let load (k : ReqKind) : Prop := k = .load ∨ k = .table ∨ k = .prefetch ∨ ∃ team slot, k = .palette team slot
    (at_ load → hit → ¬ (r.kind = .prefetch ∧ r.nl1 = true) → of_ (.sliceLoad n) (fun t => (r.hint < 2 → t.slices = s.slices) ∧ ∃ x, t.req n = some x ∧ x.stage = .reply ∧ x.rd = l.rd ∧ x.wr = l.wr ∧ x.ops = r.ops ∧
      ∀ o, o < 128 → tfind o x.data = if r.sectors.testBit (o / 32) then some (s.lineByte l o) else none)) ∧
    (at_ load → s.hitLine r = none → of_ (.sliceLoad n) (fun t => t.req n = some { r with stage := .walk })) ∧
    (at_ (· = .store) → hit → once → of_ (.sliceStore n) (fun t => merged t ∧ t.req n = some { r with stage := .reply, rd := l.rd, wr := l.wr })) ∧
    (at_ (· = .store) → s.hitLine r = none → of_ (.sliceStore n) (fun t => t.req n = some { r with stage := .walk })) ∧
    (∀ slot h, at_ (· = .outbox) → hit → once → ∀ k, r.ops = [k] → tfind slot (s.context r.ctx).outbox = some (k, h, none) → ∃ t, exec (.sliceStore n) s = .next t ∧ merged t ∧ t.req n = none ∧ tfind slot (t.context r.ctx).outbox = some (k, h, some 0)) ∧
    (there → r.kind = .writeback → held s = some l → l.tenant = r.tenant → l.line = r.line → once → s.holds = [] → r.ops = [] → of_ (.sliceWriteback n) (fun t => merged t ∧ t.req n = none)) ∧
    (there → r.kind = .writeback → held s = none → of_ (.sliceWriteback n) (fun t => t.req n = some { r with stage := .walk }))) ∧
  (∀ (s : State) (slice port tag cl i n : Nat) (e : Replay) (r : Req) (o : Op) (k : Nat) (c : Combine),
    let replay (t : State) : List Replay := (t.slice slice).replay
    let acked : Prop := (replay s).find? (fun e => e.port == port && e.tag == tag) = some e ∧ s.req e.op = some r ∧ r.stage = .reply ∧ r.ops = [k] ∧ s.op k = some o
    let away : Prop := s.req n = some r ∧ dieOfCore r.core ≠ r.slice / 32 ∧ r.moving = true ∧ r.core ≠ noCore
    (acked → s.holds = [] → r.kind = .atomic ∨ r.kind = .acont → (o.flag ≠ none ∨ o.dest ≠ .none) → (r.lanes.map (·.lane)).Nodup → ∃ t x, exec (.replayFilterAck slice port tag) s = .next t ∧ t.req e.op = none ∧ replay t = (replay s).erase e ∧
      t.op k = some x ∧ x.parts = o.parts - 1 ∧ ∀ (j : Nat) (y : LaneOp) (v : Nat), (r.lanes : List LaneOp)[j]? = some y → e.reply[j]? = some v → tget 0 y.lane x.got = v) ∧
    (acked → s.holds = [] → o.flag = none → o.dest = .none → r.kind = .addOnStore ∨ r.kind = .atomic → o.parts ≤ 1 → ∃ t, exec (.replayFilterAck slice port tag) s = .next t ∧ t.req e.op = none ∧ replay t = (replay s).erase e ∧ t.op k = none) ∧
    (∀ y rest v, acked → r.kind = .grid → r.lanes = y :: rest → (s.group o.gid).wait = some v → v.kind = .gridOp k → s.resident o.gid = true → ∃ t, exec (.replayFilterAck slice port tag) s = .next t ∧ t.req e.op = none ∧ t.op k = none ∧ replay t = (replay s).erase e ∧
      (t.group o.gid).wait = some { v with kind := .grid (r.line * 128 + y.off) (e.reply.headD 0) }) ∧
    ((s.cluster cl).combine[i]? = some c → c.taken + 64 ≤ (s.cluster cl).cycles → ∃ t q x, exec (.combineTimeout cl i) s = .next t ∧ c ∉ (t.cluster cl).combine ∧ t.req q = some x ∧ x.kind = .atomic ∧ (x.stage = .toSlice ∨ x.stage = .queued) ∧ x.line = c.addr / 128 ∧
      x.lanes = [⟨0, c.addr % 128, c.value, 0⟩] ∧ x.atom.kind = c.kind ∧ x.atom.ty = c.ty ∧ x.ops = c.ops.map (·.2)) ∧
    ((s.cluster cl).combine[i]? = some c → ¬ c.taken + 64 ≤ (s.cluster cl).cycles → exec (.combineTimeout cl i) s = .next s) ∧
    (away → r.stage = .reply → r.kind = .atomic ∨ r.kind = .acont ∨ r.kind = .addOnStore ∨ r.kind = .grid ∨ r.kind = .load → exec (.replyTimeout n true) s = .next (s.putReq n { r with stage := .toSlice })) ∧
    (away → r.drain = none → r.kind = .atomic ∨ r.kind = .load ∨ r.kind = .store → r.ops = [k] → s.op k = some o → ∃ t p, exec (.replyTimeout n false) s = .next t ∧ p < 4 ∧ t.req n = some { r with stage := .held (fLink r.va 3 false p) } ∧ (t.context o.ctx).hb.halt = true))

/-- SLICE_ATOMIC, SLICE_ADD_ON_STORE and SLICE_ACONT (09 R189; 10 R197, R198, R203 to R205, R208; 12 R236): at a line that the slice
holds, the lanes of one address are applied in order, the old values kept for the reply; an add-on-store adds element by
element; a continuation that succeeds queues its record; GSYNC counts its arrival, the last one starting the next
generation. -/
def Obligations.SliceAtomics : Prop :=
  ∀ (s : State) (n : Nat) (r : Req) (l : L2Line) (x : LaneOp) (rest : List LaneOp),
    let held (t : State) : Option L2Line := (t.slice r.slice).line r.tenant r.line
    let room : Prop := s.replayOf r = none ∧ (s.slice r.slice).replay.length < 64
    let hit (k : ReqKind) : Prop := s.req n = some r ∧ r.stage = .toSlice ∧ r.seen = true ∧ s.swapStalls r.ctx (r.line * 128) = false ∧ s.inPort r = false ∧ r.kind = k ∧ s.hitLine r = some l ∧ l.tenant = r.tenant ∧ l.line = r.line ∧ l.prefetched = false ∧ r.race = false ∧ room
    let w := if 2 ≤ r.atom.ty then 64 else 32
    let sg (v : Nat) : Int := if r.atom.ty % 2 = 1 then (BitVec.ofNat w v).toInt else v
    let new (kind m b : Nat) : Nat := match kind with
      | 0 => (m + b) % 2 ^ w | 1 => (BitVec.ofNat w m - BitVec.ofNat w b).toNat | 2 => m &&& b | 3 => m ||| b | 4 => m ^^^ b
      | 5 => if sg m ≤ sg b then m else b | 6 => if sg b ≤ sg m then m else b | 7 => b | 8 => if b ≤ m then 0 else m + 1 | 9 => if m = 0 ∨ b < m then b else m - 1 | _ => (fp32.add .rne m b).1
    let next (m : Nat) (y : LaneOp) : Nat := if r.atom.cas then (if m = y.x then y.y else m) else new r.atom.kind m y.x
    let size := w / 8
    let num (t : State) (l : L2Line) (o k : Nat) : Nat := ((List.range k).map (fun j => (t.lineByte l (o + j)).toNat * 256 ^ j)).sum
    let old := num s l x.off size
    let cell (t : State) (p : L2Line → Prop) : Prop := ∃ l', held t = some l' ∧ p l'
    let others (t : State) (l' : L2Line) (k : Nat) : Prop := ∀ o, o < x.off ∨ x.off + k ≤ o → t.lineByte l' o = s.lineByte l o
    let entry (t : State) (reply : List Nat) : Prop := t.req n = some { r with stage := .reply } ∧ ∃ e ∈ (t.slice r.slice).replay, e.op = n ∧ e.port = r.port ∧ e.tag = r.tag ∧ e.reply = reply
    let of_ (i : Instr) (post : State → Prop) : Prop := ∃ t, exec i s = .next t ∧ t.mem = s.mem ∧ t.groups = s.groups ∧ post t
    (hit .atomic → r.lanes = x :: rest → of_ (.sliceAtomic n) (fun t => ∃ reply last, entry t reply ∧ reply.length = r.lanes.length ∧ reply[0]? = some old ∧
      (∀ k m y, reply[k]? = some m → r.lanes[k]? = some y → reply[k + 1]? = (if k + 1 < r.lanes.length then some (next m y) else none) ∧ (k + 1 = r.lanes.length → last = next m y)) ∧
      cell t (fun l' => num t l' x.off size = last % 2 ^ w ∧ others t l' size))) ∧
    (hit .addOnStore → (r.bytes.map (·.1)).Nodup → of_ (.sliceAddOnStore n) (fun t => entry t [] ∧ cell t (fun l' =>
      let k := drainWidth r.atom.ty / 8
      let el (f : Nat → Byte) (o : Nat) : Nat := ofBytes ((List.range k).map (fun j => f (o + j)))
      (∀ b ∈ r.bytes, t.lineByte l' b.1 = (toBytes (addOnStore r.atom.ty (el (s.lineByte l) (b.1 / k * k)) (el (fun o => tget 0 o r.bytes) (b.1 / k * k))) k).getD (b.1 % k) 0) ∧
      ∀ o, o ∉ r.bytes.map (·.1) → t.lineByte l' o = s.lineByte l o))) ∧
    (hit .acont → r.lanes = [x] → (s.slice r.slice).waiting = [] → (s.slice r.slice).slq.length < 32 → s.acontCheck r 1 = none → of_ (.sliceAcont n) (fun t => entry t [old] ∧
      let new' := if r.atom.kind = 0 then (if old = x.x then x.y else old) else if r.atom.kind = 1 then new 6 old x.x else if r.atom.kind = 2 then new 5 old x.x else new 0 old x.x
      let ok : Prop := if r.atom.kind = 0 then old = x.x else if r.atom.kind = 1 ∨ r.atom.kind = 2 then new' ≠ old else sg old < sg x.y ∧ sg x.y ≤ sg new'
      let lo (v : Nat) : Word := BitVec.ofNat 32 v
      let opnd := if r.atom.kind = 0 then x.y else x.x
      let record : List Word := [lo old, lo (old / 2 ^ 32), lo opnd, lo (opnd / 2 ^ 32), loWord r.atom.user, hiWord r.atom.user, lo (r.gid % 4096 + dieOf r.gid * 4096 + x.lane * 2 ^ 17), lo (r.atom.kind + (if 2 ≤ r.atom.ty then 4 else 0) + r.atom.tag * 2 ^ 16)]
      cell t (fun l' => num t l' x.off size = new' % 2 ^ w ∧ others t l' size) ∧
      (ok → (t.slice r.slice).slq = (s.slice r.slice).slq ++ [{ owner := n, port := r.port, tag := r.tag, ctx := r.ctx, handle := r.atom.handle, record := some record }]) ∧ (¬ ok → (t.slice r.slice).slq = (s.slice r.slice).slq))) ∧
    (hit .acont → r.lanes = x :: rest → 32 < (s.slice r.slice).slq.length + r.lanes.length → of_ (.sliceAcont n) (fun t => n ∈ (t.slice r.slice).waiting ∧ t.req n = some r ∧ held t = some l ∧ (t.slice r.slice).slq = (s.slice r.slice).slq ∧ (t.slice r.slice).replay = (s.slice r.slice).replay)) ∧
    (let arr := num s l x.off 4
     let exp := num s l (x.off + 4) 4
     let gen := num s l (x.off + 8) 4
     let res := num s l (x.off + 12) 4
     hit .grid → r.lanes = x :: rest → res = 0 → (exp = 0 ∨ (exp = x.x ∧ arr < exp)) → of_ (.sliceAtomic n) (fun t => entry t [gen] ∧ cell t (fun l' => others t l' 12 ∧
      if arr + 1 = x.x then num t l' x.off 4 = 0 ∧ num t l' (x.off + 4) 4 = 0 ∧ num t l' (x.off + 8) 4 = (gen + 1) % 2 ^ 32
      else num t l' x.off 4 = (arr + 1) % 2 ^ 32 ∧ num t l' (x.off + 4) 4 = x.x % 2 ^ 32 ∧ num t l' (x.off + 8) 4 = gen)))

/-- WALK_COMPLETE and MEMORY_FILL_RETURN (03 R54, R57 to R59, R67): a walk that succeeds keeps its translation, opens the line with the
permissions of both stages, and the access goes on, by way of memory where sectors are lacking; one that faults holds the
request with the fault and raises the halt line of its context; a fill makes the lacking sectors valid, but for one that a firewall
drops on its way from another die's memory (17 R332). Stated of a memory without errors.
Where it meets a choice of the model, it is this one: which dies a request passes (log 71), and which translation and which line a full list gives up, which is free (log 7). -/
def Obligations.SliceTranslates : Prop :=
  ∀ (s : State) (n : Nat) (r : Req),
    let x := r.needs
    let held (t : State) : Option L2Line := (t.slice r.slice).line r.tenant r.line
    let walks : Prop := s.req n = some r ∧ r.stage = .walk ∧ s.swapStalls r.ctx r.va = false
    let sound : Prop := ∀ d, (s.die d).errors = []
    let data : Prop := r.tenant = (s.context r.ctx).tenant ∧ ∀ inv l2, r.kind ≠ .check inv l2
    (∀ y rs l, walks → sound → data → s.translate r.ctx r.slice r.va r.local_ x.1 x.2 = .ok (y, rs) → held s = none ∨ held s = some l → ∃ t l', exec (.walkComplete n) s = .next t ∧ t.groups = s.groups ∧ y ∈ (t.slice r.slice).tlb ∧
      held t = some l' ∧ l'.rd = (y.perm1 &&& y.perm2).testBit 0 ∧ l'.wr = (y.perm1 &&& y.perm2).testBit 1 ∧ l'.ex = (y.perm1 &&& y.perm2).testBit 2 ∧ l'.machine = y.ma (r.line * 128) ∧
      (held s = none → l'.valid = 0 ∧ l'.dirty = []) ∧ (held s = some l → l'.valid = l.valid ∧ l'.dirty = l.dirty ∧ l'.data = l.data) ∧
      t.req n = some { r with stage := if r.wants &&& l'.valid = r.wants then .toSlice else .fetch }) ∧
    (∀ f k o, walks → s.translate r.ctx r.slice r.va r.local_ x.1 x.2 = .error f → r.kind = .load ∨ r.kind = .store ∨ r.kind = .atomic → r.drain = none → r.ops = [k] → s.op k = some o → ∃ t, exec (.walkComplete n) s = .next t ∧
      t.req n = some { r with stage := .held f } ∧ (t.context o.ctx).hb.halt = true ∧ t.mem = s.mem ∧ t.slices = s.slices) ∧
    (∀ l, s.req n = some r → r.stage = .fetch → s.swapStalls r.ctx r.va = false → sound → s.crossing (r.slice / 32) (placeOf l.machine).1 r.tenant (r.line * 128) (some l.machine) = none → held s = some l → l.tenant = r.tenant → l.line = r.line → l.valid < 16 → r.wants < 16 → ¬ (r.kind = .prefetch ∧ r.core = noCore) → ∃ t l', exec (.memoryFillReturn n) s = .next t ∧
      held t = some l' ∧ l'.valid = l.valid ||| r.wants ∧ l'.dirty = l.dirty ∧ t.req n = some { r with stage := .toSlice } ∧ t.mem = s.mem ∧ t.groups = s.groups ∧ ∀ o, o < 128 → t.lineByte l' o = s.lineByte l o) ∧
    (∀ l f k o, s.req n = some r → r.stage = .fetch → s.swapStalls r.ctx r.va = false → held s = some l → s.crossing (r.slice / 32) (placeOf l.machine).1 r.tenant (r.line * 128) (some l.machine) = some f → r.kind = .load ∨ r.kind = .store ∨ r.kind = .atomic → r.drain = none → r.ops = [k] → s.op k = some o →
      ∃ t, exec (.memoryFillReturn n) s = .next t ∧ t.req n = some { r with stage := .held f } ∧ (t.context o.ctx).hb.halt = true ∧ t.mem = s.mem ∧ t.slices = s.slices) ∧
    (s.req n = some r → r.stage = .fetch → s.swapStalls r.ctx r.va = false → held s = none → exec (.memoryFillReturn n) s = .next (s.putReq n { r with stage := .toSlice }))

/-! ### The matrix unit -/

/-- MATRIX_TAKE of MMA and MMAS (09 R171 to R177): the integer pairs add the exact sum of the products of a row of A and a column
of B to the accumulator, wrapping or saturating once; the pairs of floating-point and Q4X formats, and every pair of MMAS, whose
products are scaled by the two bytes of their 32 elements, round the exact sum of each block of K / 4
products with the accumulator, in order; every word of the accumulator is written, and nothing else. MATRIX_TAKE of the other instructions, and MATRIX_OP_COMPLETE (09 R170, R173, R179 to R182, R191): ACLR clears its accumulator, AMOV
takes the words that it will write, ALOAD and ATBL wait for their bytes, then load the accumulator or the table slot; DREPL sends the
faulted rows of an entry that it may replay; an operation that is complete writes its registers and leaves MX.
Where it meets a choice of the model, it is this one: that DREPL waits behind a waiting DRAIN (log 47). -/
def Obligations.MatrixUnit : Prop :=
  (∀ (s : State) (core : Nat) (x : MxOp) (o : Op) (d p tile : Nat) (z sat : Bool) (a : List Word) (sc : Option (List Word × List Word × Nat)),
    let g := s.group x.gid
    let K := if p < 2 then 32 else if p < 10 then 64 else 128
    let w := if p < 2 then 16 else if p < 10 then 8 else 4
    let e := 32 / w
    let bits (x : Word) (k : Nat) : Nat := x.toNat / 2 ^ (w * (k % e)) % 2 ^ w
    let A (i k : Nat) : Nat := bits (a.getD (32 * (k / e) + i) 0) k
    let B (j k : Nat) : Nat := bits (g.rt tile (16 * j + k / e)) k
    let int (signed : Bool) (v : Nat) : Int := if signed then (BitVec.ofNat w v).toInt else v
    let ia (i k : Nat) : Int := int (p ≠ 7 ∧ p ≠ 9) (A i k)
    let ib (j k : Nat) : Int := int (p ≠ 8 ∧ p ≠ 9) (B j k)
    let sum (i j : Nat) : Int := (if z then 0 else (g.racc d i j).toInt) + ((List.range K).map (fun k => ia i k * ib j k)).sum
    let fa : Fmt := if p = 0 then bf16 else if p = 1 then fp16 else if p = 2 ∨ p = 3 then f8h else f8w
    let fb : Fmt := if p = 0 then bf16 else if p = 1 then fp16 else if p = 2 ∨ p = 4 then f8h else f8w
    let quad (x : Word) (k : Nat) : Val := q4x (x.toNat / 2 ^ (16 * (k % 8 / 4)) % 2 ^ 16) (k % 4)
    let va (i k : Nat) : Val := if p < 6 then fa.decode (A i k) else if p = 11 ∨ p = 12 then quad (a.getD (32 * (k / e) + i) 0) k else .ofInt (ia i k)
    let vb (j k : Nat) : Val := if p < 6 then fb.decode (B j k) else if p = 11 ∨ p = 13 then quad (g.rt tile (16 * j + k / e)) k else .ofInt (ib j k)
    let scale (y : Word) (sel k : Nat) : Val := sc8 (y.toNat / 2 ^ (8 * ((sel + k / 32) % 4)) % 2 ^ 8)
    let product (i j k : Nat) : Val := let m := (mulVals (va i k) (vb j k)).1; match sc with | none => m | some (sa, sb, sel) => scaled (scaled m (scale (sa.getD i 0) sel k)) (scale (sb.getD j 0) sel k)
    let exact : Prop := sc = none ∧ 6 ≤ p ∧ p ≤ 10
    let kb := K / 4
    let block (i j n : Nat) : Val := (sumVals .rne ((List.range kb).map (fun k => product i j (n * kb + k)))).1
    let float (i j : Nat) : Nat := (List.range 4).foldl (fun acc n => (fp32.round .rne false (sumVals .rne [fp32.decode acc, block i j n]).1).1) (if z then 0 else (g.racc d i j).toNat)
    s.nextMx core = some x → s.op x.op = some o → x.work = .mma d p z sat a tile sc → p < 14 → o.gid = x.gid →
    ∃ t, exec (.matrixTake core) s = .next t ∧ (∀ y ∈ (t.core core).mx, y.op ≠ x.op) ∧ t.mem = s.mem ∧ (∀ k, k ≠ x.gid → t.group k = s.group k) ∧
      (t.group x.gid).v = g.v ∧ (t.group x.gid).s = g.s ∧ (t.group x.gid).q = g.q ∧ (t.group x.gid).t = g.t ∧
      (∀ i j, i < 32 → j < 32 → (exact → (t.group x.gid).racc d i j = BitVec.ofInt 32 (if sat then max (-2 ^ 31) (min (sum i j) (2 ^ 31 - 1)) else sum i j)) ∧ (¬ exact → (t.group x.gid).racc d i j = BitVec.ofNat 32 (float i j))) ∧
      (∀ b i j, b ≠ d → i < 32 → j < 32 → (t.group x.gid).racc b i j = g.racc b i j)) ∧
  (∀ (s : State) (core n : Nat) (x : MxOp) (o : Op),
    let g := s.group x.gid
    let word (va : Nat) : Word := BitVec.ofNat 32 (o.num va 4)
    let entry (j : Nat) : Word := word (x.rows.getD j 0)
    let left (t : State) : Prop := ∀ y ∈ (t.core core).mx, y.op ≠ x.op
    let taken (p : MxWork → Prop) : Prop := s.nextMx core = some x ∧ s.op x.op = some o ∧ p x.work
    let of_ (post : State → Prop) : Prop := ∃ t, exec (.matrixTake core) s = .next t ∧ t.mem = s.mem ∧ post t
    let acc (t : State) (b i j : Nat) : Word := (t.group x.gid).racc b i j
    (∀ d, taken (· = .aclr d) → of_ (fun t => left t ∧ (∀ i j, i < 32 → j < 32 → acc t d i j = 0) ∧ ∀ b i j, b ≠ d → i < 32 → j < 32 → acc t b i j = g.racc b i j)) ∧
    (∀ d a c0 k, taken (· = .amov d a c0 k) → o.flag ≠ none → of_ (fun t => left t ∧ t.groups = s.groups ∧ ∃ y, t.op x.op = some y ∧ y.parts = o.parts - 1 ∧
      y.dest = .cells ((List.range k).flatMap (fun c => (List.range 32).map (fun i => (⟨0, 32 * (d + c) + i⟩, g.racc a i (c0 + c))))))) ∧
    (∀ d add int, taken (· = .aload d add int) → o.parts = 1 → x.rows.length = 1024 → of_ (fun t => left t ∧ (∀ i j r, x.rows[32 * i + j]? = some r → j < 32 →
      acc t d i j = if add then (if int then g.racc d i j + word r else BitVec.ofNat 32 (fp32.add .rne (g.racc d i j).toNat (word r).toNat).1) else word r) ∧
      ∀ b i j, b ≠ d → i < 32 → j < 32 → acc t b i j = g.racc b i j)) ∧
    (∀ k base, taken (· = .atbl k base) → o.parts = 1 → (s.team x.team).gids.any (·.isSome) = true → of_ (fun t => left t ∧ ∃ y, tfind k (t.team x.team).act = some y ∧ y.base = base ∧ y.lo = entry 0 ∧ y.hi = entry 1 ∧
      y.seg = (List.range 64).map (fun j => (entry (4 + 2 * j), entry (5 + 2 * j))) ∧
      (y.valid = true ↔ (entry 0).toNat / 2 ^ 23 % 256 ≠ 255 ∧ (entry 1).toNat / 2 ^ 23 % 256 ≠ 255 ∧ (fp32.decode (entry 0).toNat).cmp (fp32.decode (entry 1).toNat) = .lt ∧ entry 2 = 0 ∧ entry 3 = 0))) ∧
    (taken (fun w => (∃ d add int, w = .aload d add int) ∨ ∃ k base, w = .atbl k base) → o.parts ≠ 1 → exec (.matrixTake core) s = .next s) ∧
    (∀ e ctx d, taken (· = .drepl e ctx) → tfind e (s.core core).drain = some d → d.pinned = false ∨ d.faulted = [] ∨ s.mayReplay ctx d = false → of_ (fun t => left t ∧ (t.core core).drain = (s.core core).drain)) ∧
    (∀ e ctx d i f, taken (· = .drepl e ctx) → s.holds = [] → tfind e (s.core core).drain = some d → d.pinned = true → d.faulted = [(i, f)] → i < 32 → s.mayReplay ctx d = true → ∃ t, exec (.matrixTake core) s = .next t ∧ left t ∧
      ∃ y, tfind e (t.core core).drain = some y ∧ y.faulted = [] ∧ y.replayer = some x.op ∧ y.mask = d.mask) ∧
    (s.op n = some o → o.parts = 0 → o.path = some 3 → s.holds = [] → (o.results.map (·.1)).Nodup → (∀ c ∈ o.results, c.1.cls = 0) → ∃ t, exec (.matrixOpComplete n) s = .next t ∧ t.op n = none ∧ (⟨3, n, false⟩ : PathOp) ∉ (t.group o.gid).paths ∧
      (∀ c ∈ o.results, (t.group o.gid).rv (c.1.key / 32) (c.1.key % 32) = c.2) ∧ ∀ r L, L < 32 → ⟨0, 32 * r + L⟩ ∉ o.results.map (·.1) → (t.group o.gid).rv r L = (s.group o.gid).rv r L))

/-- DRAIN_ENTRY_TAKE and DRAIN_ROW_PERFORMED (09 R184 to R191): a drain whose turn it is takes the lowest free entry with its rows as the
accumulator stands; a global row is sent to its slices, a scratchpad or register row is written in ascending order, behind every lower
row that has not faulted; an add-on-store that finds a lasting error pins the entry and stops its context; the entry is free, and the
operation complete, when all 32 rows are performed; a DREPL is complete once every row of its entry is performed or has faulted.
Where it meets a choice of the model, it is this one: that a halt leaves the queue running (log 47). -/
def Obligations.DrainBuffer : Prop :=
  ∀ (s : State) (core e i j n : Nat) (x : MxOp) (o z : Op) (d : Drain) (f : Flt) (acc dest base stride fmt cmd : Nat) (int add : Bool) (scale : Word) (bias : List Word),
    let k := s.core core
    let g := s.group x.gid
    let table := tget {} (cmd / 16 % 2) (s.team x.team).act
    let row (i : Nat) : List Word := g.drainRow acc int fmt cmd scale bias table i
    let taken : Prop := s.nextMx core = some x ∧ s.op x.op = some o ∧ x.work = .drain acc dest base stride fmt int add cmd scale bias ∧ e < 4 ∧ tfind e k.drain = none ∧ ∀ j, j < e → tfind j k.drain ≠ none
    let entry (t : State) (p : Drain → Prop) : Prop := ∃ y, tfind e (t.core core).drain = some y ∧ p y
    let fresh (y : Drain) : Prop := y.op = x.op ∧ y.gid = x.gid ∧ y.mask = 0 ∧ y.pinned = false ∧ y.dest = dest ∧ y.base = base ∧ y.stride = stride ∧ y.add = add ∧ y.rows = (List.range 32).map row
    let ready : Prop := tfind e k.drain = some d ∧ i < 32 ∧ (∀ f ∈ d.faulted, f.1 ≠ i) ∧ s.holds = []
    let next : Prop := d.mask = 2 ^ i - 1 ∧ d.replayer = none
    let bytes : List (Nat × Byte) := ((d.rows.getD i []).flatMap (fun w => toBytes w.toNat 4)).zipIdx.map (fun b => (d.base + i * d.stride + b.2, b.1))
    let of_ (ev : Instr) (post : State → Prop) : Prop := ∃ t, exec ev s = .next t ∧ t.mem = s.mem ∧ post t
    (taken → dest ≠ 1 → of_ (.drainEntryTake core) (fun t => entry t fresh ∧ (∀ y ∈ (t.core core).mx, y.op ≠ x.op) ∧ t.groups = s.groups ∧ t.reqs = s.reqs)) ∧
    (taken → dest = 1 → s.holds = [] → ∃ t, exec (.drainEntryTake core) s = .next t ∧ entry t fresh ∧ ∀ y ∈ (t.core core).mx, y.op ≠ x.op) ∧
    (ready → next → i < 31 → d.dest = 0 → d.add = false → of_ (.drainRowPerformed core e i) (fun t => entry t (fun y => y = { d with mask := 2 ^ (i + 1) - 1 }) ∧ t.groups = s.groups ∧
      (∀ b ∈ bytes, tget 0 b.1 (t.team d.team).scratch = b.2) ∧ ∀ a, a ∉ bytes.map (·.1) → tget 0 a (t.team d.team).scratch = tget 0 a (s.team d.team).scratch)) ∧
    (ready → next → i < 31 → 2 ≤ d.dest → of_ (.drainRowPerformed core e i) (fun t => entry t (fun y => y = { d with mask := 2 ^ (i + 1) - 1 }) ∧
      ∀ r L, L < 32 → (t.group d.gid).rv r L = if L = i ∧ d.base ≤ r then ((d.rows.getD i [])[r - d.base]?).getD ((s.group d.gid).rv r L) else (s.group d.gid).rv r L)) ∧
    (ready → d.dest = 1 → d.replayer = none → d.mask.testBit i = false → (∀ r ∈ s.reqs, ¬ (r.2.core = core ∧ r.2.drain = some (e, i))) → d.mask ||| 2 ^ i ≠ 2 ^ 32 - 1 → of_ (.drainRowPerformed core e i) (fun t => entry t (fun y => y = { d with mask := d.mask ||| 2 ^ i }) ∧ t.groups = s.groups)) ∧
    (ready → d.dest = 1 → d.mask.testBit i = false → (∀ r ∈ s.reqs, ¬ (r.2.core = core ∧ r.2.drain = some (e, i))) → (∀ j, j < 32 → j ≠ i → d.mask.testBit j = true ∨ ∃ f ∈ d.faulted, f.1 = j) → d.replayer = some n → n ≠ d.op → s.op n = some z → z.parts = 1 → z.flag = none → z.dest = .none →
      of_ (.drainRowPerformed core e i) (fun t => t.op n = none)) ∧
    (ready → d.dest = 1 → d.replayer = none → d.mask.testBit i = false → (∀ r ∈ s.reqs, ¬ (r.2.core = core ∧ r.2.drain = some (e, i))) → d.mask ||| 2 ^ i = 2 ^ 32 - 1 → (s.team d.team).gids.any (·.isSome) = true → of_ (.drainRowPerformed core e i) (fun t => tfind e (t.core core).drain = none ∧
      ∀ y, s.op d.op = some y → (y.parts ≤ 1 → y.flag = none → y.dest = .none → t.op d.op = none) ∧ (1 < y.parts → t.op d.op = some { y with parts := y.parts - 1 }))) ∧
    (ready → next → d.dest = 0 → d.add = true → s.spPoison d.team (bytes.map (·.1)) = some f → ∃ t, exec (.drainRowPerformed core e i) s = .next t ∧ (t.context d.ctx).hb.halt = true ∧ t.teams = s.teams ∧
      entry t (fun y => y.pinned = true ∧ (i, f) ∈ y.faulted ∧ y.mask = d.mask)) ∧
    (tfind e k.drain = some d → d.mask.testBit i = true ∨ (∃ f, (i, f) ∈ d.faulted) ∨ (d.dest ≠ 1 ∧ j < i ∧ d.mask.testBit j = false ∧ ∀ f ∈ d.faulted, f.1 ≠ j) → exec (.drainRowPerformed core e i) s = .next s)

/-! ### Engines -/

/-- KICK_QUEUE_TAKE and COPY_BYTE_PERFORMED (05 R97, R99, R100): a request is cut into pieces of 64 KiB, the first of them for the
engine with the fewest queued bytes; the next byte of a piece goes from its source to its destination and counts on CP; a
fault holds the piece at the byte and raises the halt line. GATHER_ROW_PERFORMED (05 R102, R103): a row of a gather goes from global memory to the scratchpad, one of a scatter the other way; the
operation leaves its unit with its last row. Stated of a row that no other row of the operation overlaps. COLLECTIVE_COMPLETE (05 R104 to R106): once every rank has supplied its input with the same shape, a rank writes its result: the
reduction, the root's input, or every input in rank order; a rank that has not arrived leaves all waiting, one of a module that no port
reaches (17 R357), and one whose shape differs, stops the request. Stated of a request whose other ranks are remote. Stated without a race detector and without L2 hints, which mark lines only.
Where it meets a choice of the model, it is this one: that the bytes of a piece move in rising order, and that a collective of one module completes in one event (log 48). -/
def Obligations.EngineWork : Prop :=
  (∀ (s : State) (core op die : Nat) (c : Copy) (rest : List Copy) (p : Piece) (d : Die) (b : Byte) (u : State) (f : Flt),
    let total := c.x * c.y * c.z
    let mine := dieOf c.gid
    let queued (e : Nat) : Nat := ((s.die mine).pieces.filter (fun x => x.2.engine == e)).foldl (fun n x => n + (x.2.stop - x.2.next)) 0
    let q := p.copy
    let k := p.next
    let src : Int := q.saddr + (k / (q.x * q.y) : Nat) * q.spz + (k / q.x % q.y : Nat) * q.spy + (k % q.x : Nat)
    let dst : Int := q.daddr + (k / (q.x * q.y) : Nat) * q.dpz + (k / q.x % q.y : Nat) * q.dpy + (k % q.x : Nat)
    let to_ : Nat := if q.dsp then dst.toNat else (BitVec.ofInt 64 dst).toNat
    let at_ (a : Int) : Nat := (BitVec.ofInt 64 a).toNat
    let once (t : State) (n : Nat) : Prop := ∀ y, t.op n = some y → y.race = false
    let piece : Prop := p.held = none ∧ s.dies.find? (fun d => (tfind op d.2.pieces).isSome) = some (die, d) ∧ s.die die = d ∧ tfind op d.pieces = some p
    let runs : Prop := (s.context q.ctx).hb.halt = false ∧ (q.ssp = false → s.swapStalls q.ctx (at_ src) = false) ∧ (q.dsp = false → s.swapStalls q.ctx (at_ dst) = false)
    ((s.core core).kicks = c :: rest → (s.context c.ctx).hb.halt = false → ∃ t, exec (.kickQueueTake core) s = .next t ∧ (t.core core).kicks = rest ∧ t.mem = s.mem ∧ t.groups = s.groups ∧
      (∀ i, i < (total + 65535) / 65536 → ∃ x, tfind (s.nextId + i) (t.die mine).pieces = some x ∧ x.copy = c ∧ x.next = 65536 * i ∧ x.stop = min total (65536 * (i + 1)) ∧ x.held = none ∧ x.engine < 4 ∧
        (i = 0 → ∀ e, e < 4 → queued x.engine < queued e ∨ (queued x.engine = queued e ∧ x.engine ≤ e)))) ∧
    ((s.core core).kicks = c :: rest → s.halted c.ctx = true → exec (.kickQueueTake core) s = .next s) ∧
    (piece → runs → s.engineByte q.team q.ctx q.ssp src = .ok b → s.engineWrite q.team q.ctx q.dsp [(to_, b)] = .ok u → once u q.op → q.hint < 2 → q.bar = none → (u.team q.team).gids.any (·.isSome) = true → (u.die die).pieces = d.pieces → ∃ t, exec (.copyBytePerformed op) s = .next t ∧
      t.mem = u.mem ∧ t.slices = (u.copyAccess q k).slices ∧ t.teams = u.teams ∧ tfind op (t.die die).pieces = (if k + 1 < p.stop then some { p with next := k + 1, held := none } else none) ∧
      ∀ y, u.op q.op = some y → (1 < y.parts → t.op q.op = some { y with parts := y.parts - 1 }) ∧ (y.parts ≤ 1 → y.flag = none → y.dest = .none → t.op q.op = none)) ∧
    (piece → runs → s.barPoison q.team q.bar = none → (s.engineByte q.team q.ctx q.ssp src = .error f ∨ (s.engineByte q.team q.ctx q.ssp src = .ok b ∧ s.engineWrite q.team q.ctx q.dsp [(to_, b)] = .error f)) → f.cause ≠ 16 → ∃ t, exec (.copyBytePerformed op) s = .next t ∧
      tfind op (t.die die).pieces = some { p with held := some f } ∧ (t.context q.ctx).hb.halt = true ∧ t.mem = s.mem ∧ t.teams = s.teams ∧ t.ops = s.ops)) ∧
  (∀ (s u : State) (op lane core g p : Nat) (k : Core) (x : Gather) (byte : Nat → Byte) (f : Flt),
    let unit : Prop := s.cores.find? (fun k => k.2.gathers.any (fun x => x.op == op)) = some (core, k) ∧ s.core core = k ∧ k.gathers.find? (fun x => x.op == op) = some x ∧ x.rows = [(lane, g, p)] ∧ x.left = [lane]
    let runs : Prop := (s.context x.ctx).hb.halt = false ∧ x.faults = [] ∧ (∀ y, s.op op = some y → y.race = false) ∧ s.swapStallsAt x.ctx g x.len = false ∧ (s.team x.team).gids.any (·.isSome) = true
    let gone (t : State) : Prop := ∀ y ∈ (t.core core).gathers, y.op ≠ op
    let counts (t : State) : Prop := ∀ y, s.op op = some y → (1 < y.parts → t.op op = some { y with parts := y.parts - 1 }) ∧ (y.parts ≤ 1 → y.flag = none → y.dest = .none → t.op op = none)
    (unit → runs → x.scatter = false → (∀ j, j < x.len → s.engineByte x.team x.ctx false (g + j : Nat) = .ok (byte j)) → ∃ t, exec (.gatherRowPerformed op lane) s = .next t ∧ t.mem = s.mem ∧ gone t ∧ counts t ∧
      (∀ j, j < x.len → tget 0 (p + j) (t.team x.team).scratch = byte j) ∧ ∀ a, a < p ∨ p + x.len ≤ a → tget 0 a (t.team x.team).scratch = tget 0 a (s.team x.team).scratch) ∧
    (unit → runs → x.scatter = true → (∀ j, j < x.len → s.engineByte x.team x.ctx true (p + j : Nat) = .ok (byte j)) → s.engineWrite x.team x.ctx false ((List.range x.len).map (fun j => (g + j, byte j))) = .ok u → u.contexts = s.contexts →
      u.cores = s.cores → u.teams = s.teams → u.ops = s.ops → ∃ t, exec (.gatherRowPerformed op lane) s = .next t ∧ t.mem = u.mem ∧ t.slices = u.slices ∧ gone t ∧ counts t) ∧
    (unit → runs → x.scatter = false → 0 < x.len → s.engineByte x.team x.ctx false (g : Nat) = .error f → f.cause ≠ 16 → ∃ t, exec (.gatherRowPerformed op lane) s = .next t ∧ t.mem = s.mem ∧ t.teams = s.teams ∧ (t.context x.ctx).hb.halt = true ∧
      ∃ y ∈ (t.core core).gathers, y.op = op ∧ y.left = [lane] ∧ y.faults = [(lane, f)])) ∧
  (∀ (s u : State) (op : Nat) (remote : List RankInput) (c : Collective) (ms : List (Nat × Nat)) (data : Nat → List Byte),
    let request : Prop := (s.dies.flatMap (fun d => d.2.colls)).find? (fun c => c.op == op) = some c ∧ c.op = op
    let runs : Prop := (s.context c.ctx).hb.halt = false ∧ c.held = none ∧ (s.peer c (dieOf c.gid) c.rank).map (·.op) = some op ∧ (∀ n y, s.op n = some y → y.race = false) ∧ s.commStalls c = false ∧ s.collStalls c ms.length c.rank = false ∧
      s.members c = .ok (some ms) ∧ c.rank < ms.length ∧ c.root < ms.length ∧ ms.length ≤ 65536
    let member (r : Nat) (m : Nat × Nat) : Member := s.memberOf c remote r m
    let took := (s.commTook c).inputsTook c (s.ownRanks ms)
    let way (m : Nat × Nat) : Option Flt := if m.1 = s.hub.module then none else s.hub.noWay m.1 c.comm
    let ins := (List.range ms.length).map data
    let arrived : Prop := ∀ r m, ms[r]? = some m → member r m = .input (data r) (if r = c.rank then some c else none)
    let result : Option (List Byte) := match c.kind with
      | 0 => some (collReduce c.opc c.type c.count ins)
      | 1 => if c.rank = c.root then some (collReduce c.opc c.type c.count ins) else none
      | 2 => some (data c.root)
      | _ => some ins.flatten
    let done (v t : State) : Prop := t.mem = v.mem ∧ t.slices = v.slices ∧ (∀ y ∈ (t.die (dieOf c.gid)).colls, y.op ≠ op) ∧ ∀ y, v.op op = some y → (1 < y.parts → t.op op = some { y with parts := y.parts - 1 }) ∧ (y.parts ≤ 1 → y.flag = none → y.dest = .none → t.op op = none)
    let sum (bs : List (List Byte)) (e : Nat) : Nat := (bs.map (fun b => ofBytes ((b.drop (4 * e)).take 4))).sum % 2 ^ 32
    (∀ bs, request → runs → arrived → c.bar = none → result = some bs → took.engineWrite c.team c.ctx false (bs.zipIdx.map (fun b => (c.out + b.2, b.1))) = .ok u → u.contexts = s.contexts → (u.team c.team).gids.any (·.isSome) = true → ∃ t, exec (.collectiveComplete op remote) s = .next t ∧ done u t) ∧
    (request → runs → arrived → c.bar = none → result = none → (s.team c.team).gids.any (·.isSome) = true → ∃ t, exec (.collectiveComplete op remote) s = .next t ∧ done took t) ∧
    (∀ r m, request → runs → ms[r]? = some m → member r m = .absent → (∀ r m, ms[r]? = some m → member r m = .absent ∨ ∃ b p, member r m = .input b p) → (∀ r m, ms[r]? = some m → member r m = .absent → way m = none) → exec (.collectiveComplete op remote) s = .next s) ∧
    (∀ r m, request → runs → ms[r]? = some m → member r m = .absent → way m ≠ none → (∀ r m, ms[r]? = some m → member r m = .absent ∨ ∃ b p, member r m = .input b p ∧ (p = none ∨ p = some c)) →
      ∃ t f, exec (.collectiveComplete op remote) s = .next t ∧ f.cause = 18 ∧ (∃ y ∈ (t.die (dieOf c.gid)).colls, y.op = op ∧ y.held = some f) ∧ (t.context c.ctx).hb.halt = true ∧ t.mem = s.mem ∧ t.ops = s.ops) ∧
    (∀ r m, request → runs → ms[r]? = some m → member r m = .mismatch → (∀ r m f, ms[r]? = some m → member r m ≠ .fault f) → ∃ t, exec (.collectiveComplete op remote) s = .next t ∧ (t.context c.ctx).hb.halt = true ∧ t.mem = s.mem ∧ t.ops = s.ops) ∧
    (∀ count bs, 0 < bs.length → collReduce 0 2 count bs = (List.range count).flatMap (fun e => toBytes (sum bs e) 4)))

/-! ### Task units and the scheduler -/

/-- LQ_RECORD_TAKE (14 R256 to R260; 17 R331): a posted record that is sound becomes a grid and its slot is cleared; one that is
not is answered with its kind and interrupts; HEAD moves on; an empty slot, a disabled queue, a halted context, or a record
of the queue still to be started changes nothing. DEP_POLL, RECORD_AGING, RECORD_CHOICE, RESERVATION_TIMEOUT and GRID_COMPLETE (13 R248; 14 R261; 15 R284, R286, R291): a dependence word that
has reached its value makes its record ready; the effective priority rises by one each 100 microseconds, to 3; the record
served is the first by its priority at the time, time, queue and age; a team that has waited 100 microseconds reserves the core on which
it lacks the fewest resources; a grid whose teams have retired is complete once its writes are performed and what its cores then write back has been accepted.
Where it meets a choice of the model, it is this one: that one record of a queue is copied at a time (log 61), the order of the checks of a record (log 9), and how lacking resources are counted (log 31). -/
def Obligations.LaunchRecords : Prop :=
  (∀ (s u v : State) (ctx queue x : Nat),
    let c := s.context ctx
    let q := tget {} queue c.queues
    let slot := q.base + 64 * (q.head % 2 ^ q.logn)
    let head := (q.head + 1) % 2 ^ 32
    let qd := c.queuesAt + 32 * queue + 0x10
    let die := some (s.queueDie ctx)
    let poll := s.readRun ctx (slot + 0x3C) 4 .engineRead die
    let copy := s.readRun ctx slot 64 .engineRead die
    let may : Prop := c.hb.halt = false ∧ q.en = true ∧ s.waiting ctx queue = false ∧ s.swapStalls ctx slot = false ∧ s.swapStalls ctx qd = false
    let posted : Prop := may ∧ poll.1 = .ok 1 ∧ copy.1 = .ok x
    let answer (w : Nat) : Prop := copy.2.writeCtx ctx (slot + 0x3C) w 4 .engineWrite die = .ok u ∧ u.writeCtx ctx qd head 4 .engineWrite die = .ok v
    let at_ (off n : Nat) : Nat := x / 2 ^ (8 * off) % 2 ^ (8 * n)
    let moved (t : State) : Prop := t.mem = v.mem ∧ t.slices = v.slices ∧ tfind queue (t.context ctx).queues = some { q with head := head }
    (posted → rejects x c = none → answer 0 → ∃ t g, exec (.lqRecordTake ctx queue) s = .next t ∧ moved t ∧ tfind v.nextId t.grids = some g ∧ g.ctx = ctx ∧ g.die = s.queueDie ctx ∧ g.queue = queue ∧ g.nextTeam = 0 ∧ g.retired = 0 ∧ g.spawned = false ∧ g.chosen = false ∧
      (g.depOk = true ↔ at_ 0x2E 1 / 32 % 2 = 0) ∧ g.eff = at_ 0x2E 1 % 4 ∧ g.launch.code.toNat = at_ 0 8 ∧ g.launch.arg.toNat = at_ 8 8 ∧ g.launch.gx = at_ 0x10 4 ∧ g.launch.gy = at_ 0x14 2 ∧ g.launch.gz = at_ 0x16 2 ∧ g.launch.grp = at_ 0x18 1 % 32 ∧ g.launch.pgrp = at_ 0x19 1 % 32 ∧ g.launch.mask.toNat = at_ 0x24 4) ∧
    (∀ k, posted → rejects x c = some k → answer (2 ^ 31 + k) → ∃ t, exec (.lqRecordTake ctx queue) s = .next t ∧ moved t ∧ t.grids = v.grids ∧ ∃ i, t.hub.interrupts = v.hub.interrupts ++ [i] ∧ i.row = 32) ∧
    (∀ w, may → poll.1 = .ok w → w ≠ 1 → exec (.lqRecordTake ctx queue) s = .next poll.2) ∧
    (¬ may → exec (.lqRecordTake ctx queue) s = .next s) ∧
    (∀ f, may → poll.1 = .error f → ∃ t, exec (.lqRecordTake ctx queue) s = .next t ∧ (t.context ctx).hb.halt = true ∧ t.grids = s.grids ∧ t.mem = s.mem)) ∧
  (∀ (s : State) (grid ctx die : Nat) (g : Grid),
    let now := s.ctxTime g.ctx
    let one : Prop := tfind grid s.grids = some g
    let word := s.readRun g.ctx g.launch.depa.toNat 4 .engineRead (some g.die)
    let c := s.context ctx
    let all := s.readyGrids ctx die
    let ended : Prop := g.launch.teams ≤ g.nextTeam ∧ g.launch.teams ≤ g.retired
    let sent (r : Req) : Prop := r.kind = .writeback ∧ r.tenant = (s.context g.ctx).tenant ∧ r.core ∈ g.cores
    let ahead (a b : Nat × Grid) : Prop := b.2.eff < a.2.eff ∨ (a.2.eff = b.2.eff ∧ (a.2.ready < b.2.ready ∨ (a.2.ready = b.2.ready ∧ (a.2.queue < b.2.queue ∨ (a.2.queue = b.2.queue ∧ a.1 < b.1)))))
    (∀ v, one → g.depOk = false → (s.context g.ctx).hb.halt = false → s.swapStalls g.ctx g.launch.depa.toNat = false → word.1 = .ok v → ∃ t, exec (.depPoll grid) s = .next t ∧ t.mem = s.mem ∧
      (g.launch.depv ≤ v → tfind grid t.grids = some { g with depOk := true, ready := now, waitSince := now }) ∧ (v < g.launch.depv → t = word.2)) ∧
    (∀ f, one → g.depOk = false → (s.context g.ctx).hb.halt = false → s.swapStalls g.ctx g.launch.depa.toNat = false → word.1 = .error f → ∃ t, exec (.depPoll grid) s = .next t ∧ (t.context g.ctx).hb.halt = true ∧ tfind grid t.grids = some g) ∧
    (one → g.depOk = true → g.nextTeam = 0 → ∃ t, exec (.recordAging grid) s = .next t ∧ tfind grid t.grids = some { g with eff := min 3 (g.launch.prio + (now - g.ready) / 100000) } ∧ t.teams = s.teams) ∧
    (c.hb.halt = false → (∀ x ∈ all, x.2.chosen = false) → all ≠ [] → (all.map (·.1)).Nodup → ∃ t x, exec (.recordChoice ctx die) s = .next t ∧ x ∈ all ∧ (∀ y ∈ all, y.1 ≠ x.1 → ahead x y) ∧ (t.grid x.1).chosen = true ∧ ∀ k, k ≠ x.1 → t.grid k = s.grid k) ∧
    (c.hb.halt = true ∨ all = [] → exec (.recordChoice ctx die) s = .next s) ∧
    (∀ x, c.hb.halt = false → s.serving ctx die = some x → tfind die c.reserved = none → x.2.waitSince + 100000 ≤ s.ctxTime ctx → s.coresOf ctx ≠ [] → ∃ t k, exec (.reservationTimeout ctx die) s = .next t ∧ tfind die (t.context ctx).reserved = some (x.1, k) ∧ k ∈ s.coresOf ctx ∧
      ∀ j ∈ s.coresOf ctx, s.lacks k x.2.launch.needs [] ≤ s.lacks j x.2.launch.needs []) ∧
    (one → ended → g.doneAt = none → ∃ t n, exec (.gridComplete grid) s = .next t ∧ s.nextId ≤ n ∧ tfind grid t.grids = some { g with doneAt := some n, batch := [] } ∧ t.mem = s.mem) ∧
    (∀ n, one → ended → g.doneAt = some n → s.gridWrites g n = true → exec (.gridComplete grid) s = .next s) ∧
    (∀ n, one → ended → g.doneAt = some n → s.gridWrites g n = false → g.complete = false → ∃ t, exec (.gridComplete grid) s = .next t ∧ tfind grid t.grids = some { g with complete := true } ∧ t.mem = s.mem) ∧
    (∀ n, one → ended → g.doneAt = some n → s.gridWrites g n = false → g.complete = true → (∃ r ∈ s.reqs, sent r.2) → exec (.gridComplete grid) s = .next s) ∧
    (∀ n, one → ended → g.doneAt = some n → s.gridWrites g n = false → g.complete = true → (∀ r ∈ s.reqs, ¬ sent r.2) → ∃ t, exec (.gridComplete grid) s = .next t ∧ tfind grid t.grids = none ∧ t.teams = s.teams) ∧
    (one → ¬ ended → exec (.gridComplete grid) s = .next s))

/-- TEAM_PLACE (02 R39, R40, R43; 15 R286 to R289): the next team of the record served starts on the core of its place: its groups take
free slots with the registers that the launch gives, the other registers reading zero, slot A at the code address with the
launch mask. Stated of a record without dependence, hint and per-thread memory.
Where it meets a choice of the model, it is this one: that the lowest free slots and granules are taken (log 18). -/
def Obligations.TeamStarts : Prop :=
  ∀ (s : State) (ctx die grid core : Nat) (g : Grid),
    let c := s.context ctx
    let l := g.launch
    let role (i : Nat) : Nat := if l.pgrp = 0 then 0 else if i < l.pgrp then 1 else 2
    let pick (i a b : Nat) : Nat := if role i = 2 then b else a
    let free := (List.range 64).filter (fun k => !s.resident (64 * core + k))
    s.leavingTeams ctx = [] → c.hb.halt = false → c.hb.preempt = false → c.sliceEnded = false → s.serving ctx die = some (grid, g) → tfind grid s.grids = some g → s.resumesFirst ctx g.eff = false → s.teamCore grid = some core →
    l.dep = false → g.fired = false → l.hint = 0 → l.ptm = 0 → l.grp ≤ free.length →
    ∃ t m, exec (.teamPlace ctx die) s = .next t ∧ tfind s.nextId t.teams = some m ∧ m.ctx = ctx ∧ m.grid = grid ∧ m.core = core ∧ m.index = g.nextTeam ∧ m.scratchSize = 8192 * l.scr ∧ m.palCap = l.pal ∧ m.heldClock = false ∧
      m.gids.length = l.grp ∧ (t.grid grid).nextTeam = g.nextTeam + 1 ∧ t.mem = s.mem ∧
      ∀ i x, m.gids[i]? = some x → ∃ gid, x = some gid ∧ gid / 64 = core ∧ s.resident gid = false ∧
        let y := t.group gid
        y.team = s.nextId ∧ y.index = i ∧ y.ctx = g.ctx ∧ y.tenant = c.tenant ∧ y.role = role i ∧ y.nv = 8 * pick i l.vg l.vgc ∧ y.nt = pick i l.tp l.tc ∧ y.na = pick i l.ap l.ac ∧ y.fpx = c.fpx ∧
        y.a = { pc := l.code, st := .running } ∧ y.b = {} ∧ y.wait = none ∧ y.buf = [] ∧ y.region.start = l.code ∧
        (∀ r, y.rs r = match r with | 0 => l.mask | 2 => loWord l.arg | 3 => hiWord l.arg | 4 => BitVec.ofNat 32 i | 5 => BitVec.ofNat 32 g.nextTeam | 6 => BitVec.ofNat 32 l.teams | 7 => BitVec.ofNat 32 (role i) | _ => 0) ∧
        (∀ r L, y.rv r L = 0) ∧ (∀ r, y.rq r = 0)

/-- BIN_TIMER_EXPIRY, GOVERNOR_EVAL, DEQT_TIMEOUT and SLQ_ENTRY_PLACE (10 R205, R207; 14 R264, R267, R277): a bin is due when its timer has run
since its first record; the governor moves the group bound longest from a shallow node to a deep one of its ring; a DEQT
whose deadline has passed returns TIMEOUT; a queued continuation record enters its node's bin. -/
def Obligations.TaskTimers : Prop :=
  ∀ (s : State) (ctx die node gid slice : Nat),
    let key := 4096 * die + node
    let n := s.node ctx key
    let c := s.context ctx
    let all (x : Node) : List (List Word) := x.bin ++ x.ovf
    let got := (s.modNode ctx key (fun x => { x with due := true })).fromRing ctx key n.depth
    let g := s.group gid
    (∀ t0, n.started = some t0 → n.timer ≠ 0 → n.due = false → all n ≠ [] → c.hb.halt = false → t0 + 1000 * n.timer ≤ s.ctxTime ctx → n.mode ≠ 0 → s.deqWaiters ctx key = [] → ∃ t, exec (.binTimerExpiry ctx die node) s = .next t ∧ t.node ctx key = { n with due := true }) ∧
    (∀ t0 l, n.started = some t0 → n.timer ≠ 0 → n.due = false → all n ≠ [] → (all n).length < n.count → c.hb.halt = false → t0 + 1000 * n.timer ≤ s.ctxTime ctx → n.mode = 0 → n.template = some l → ∃ t x, exec (.binTimerExpiry ctx die node) s = .next t ∧ all (t.node ctx key) = [] ∧ tfind got.nextId t.grids = some x ∧ x.batch = all (got.node ctx key) ∧ x.batchNode = key ∧ x.spawned = true) ∧
    (∀ t0, n.started = some t0 → (c.hb.halt = true ∨ s.ctxTime ctx < t0 + 1000 * n.timer) → exec (.binTimerExpiry ctx die node) s = .next s) ∧
    (∀ r h f tm, c.hb.halt = false → tget 0 die c.govAt + 10000 ≤ s.ctxTime ctx → r < 16 → (∀ q, q < 16 → q ≠ r → s.ringNodes ctx die q = []) → s.ringNodes ctx die r = [h, f] → h.2.hi < h.2.depth → f.2.depth < f.2.lo → s.movable ctx f.1 = [(tm, gid)] → g.wait = none → s.deqWaiters ctx h.1 = [] → (s.node ctx h.1).mode ≠ 0 →
      ∃ t, exec (.governorEval ctx die) s = .next t ∧ (t.group gid).bind = { g.bind with node := some h.1, time := s.ctxTime ctx, changed := true }) ∧
    ((c.hb.halt = true ∨ s.ctxTime ctx < tget 0 die c.govAt + 10000) → exec (.governorEval ctx die) s = .next s) ∧
    (∀ w q d k o, g.wait = some w → w.kind = .deq q (some d) → g.bind.node = some k → (s.context g.ctx).hb.halt = false → d ≤ s.ctxTime g.ctx → w.instr = .deqt o → ∃ t, exec (.deqtTimeout gid) s = .next t ∧ (t.group gid).wait = none ∧ (t.group gid).v = g.v ∧ (t.group gid).held = g.held ∧
      (t.group gid).rs o.a.toNat = 0 ∧ (t.group gid).rs (o.a.toNat + 1) = BitVec.ofNat 32 (2 ^ 9 + k % 4096 * 2 ^ 12 + if g.bind.changed then 2 ^ 10 else 0)) ∧
    (∀ e rec_, (s.slice slice).slq.find? (fun e => e.record.isSome && !(s.context e.ctx).hb.halt) = some e → e.record = some rec_ →
      let k := nodeKey e.handle
      let x := s.node e.ctx k
      x.mode ≠ 0 → x.mode ≠ 2 → s.deqWaiters e.ctx k = [] → ∃ t, exec (.slqEntryPlace slice) s = .next t ∧ (t.slice slice).slq = (s.slice slice).slq.erase e ∧ all (t.node e.ctx k) = all x ++ [(rec_ ++ List.replicate 32 0).take (4 * 2 ^ x.rsz)])

/-- ROUTER_ENTRY, ROUTER_RPASS and ROUTER_RREJ (14 R271 to R274): an entering record gets its manifest and goes to the stage of the greatest
weight; a record that has passed its last stage leaves by the exit node; a rejected one leaves by the reject node, or is
dropped; the counts rise.
Where it meets a choice of the model, it is this one: that a push to another module is refused with kind 1 (log 51); the upper word of a manifest at its entry is free (log 4). -/
def Obligations.RouterSteps : Prop :=
  ∀ (s : State) (die idx : Nat) (r : Router) (rest : List RouterEvent) (gid : Option Nat) (rec_ words : List Word) (st cyc : Nat),
    let all (x : Node) : List (List Word) := x.bin ++ x.ovf
    let fit (n : Node) (rec_ : List Word) : List Word := (rec_ ++ List.replicate 32 0).take (4 * 2 ^ n.rsz)
    let head (e : RouterEvent) : Prop := tfind idx (s.die die).routers = some r ∧ ((s.die die).routers.map (·.1)).Nodup ∧ (s.context r.ctx).hb.halt = false ∧ r.events = e :: rest
    let takes (h : Word) : Prop := h.getLsbD 31 = true ∧ h.toNat / 2 ^ 18 % 2 ^ 13 = s.hub.module ∧ nodeKey h % 4096 < (s.context r.ctx).ncount ∧ s.refuses r.ctx (nodeKey h) 1 = none ∧ (s.node r.ctx (nodeKey h)).mode ≠ 0 ∧ (s.node r.ctx (nodeKey h)).mode ≠ 2 ∧ s.deqWaiters r.ctx (nodeKey h) = []
    let into (h : Word) (rec_ : List Word) (t : State) : Prop := all (t.node r.ctx (nodeKey h)) = all (s.node r.ctx (nodeKey h)) ++ [fit (s.node r.ctx (nodeKey h)) rec_]
    let router (t : State) (ev : List RouterEvent) (p : Router → Prop) : Prop := ∃ x, tfind idx (t.die die).routers = some x ∧ x.events = ev ∧ p x
    let ring := (s.freeBits 32).2.entryFromRing die { r with events := rest }
    let w0 := (if (r.write.getD st 0).testBit 0 = true then words.headD 0 else rec_.headD 0).toNat
    let others : List Word := rec_.zipIdx.tail.map (fun x => if 2 ≤ x.2 ∧ (r.write.getD st 0).testBit x.2 = true then words.getD x.2 x.1 else x.1)
    let word (m passes flight : Nat) : Word := BitVec.ofNat 32 (w0 / 2 ^ 16 * 2 ^ 16 + flight * 2 ^ 12 + passes * 2 ^ 9 + m)
    let counted (x : Router) (pass : Bool) : Prop := tget 0 st x.arr = tget 0 st r.arr + 1 ∧ tget 0 st x.cyc = tget 0 st r.cyc + cyc ∧ tget 0 st x.pass = tget 0 st r.pass + pass.toNat
    (∀ e, head (.entry gid e) → 0 < r.stages → r.stages ≤ 8 → r.lottery = false → ∃ k, k < r.stages ∧ (∀ j, j < r.stages → r.weight.getD j 0 ≤ r.weight.getD k 0 ∧ (r.weight.getD j 0 = r.weight.getD k 0 → k ≤ j)) ∧
      let h := s.nodeHandle (4096 * die + r.entry + 1 + k)
      (takes h → ∃ t upper, exec (.routerEntry die idx) s = .next t ∧ into h (BitVec.ofNat 32 (r.origin % 2 ^ 16 * 2 ^ 16 + k * 2 ^ 12) :: upper :: e.drop 2) t ∧ router t ring.1.events (fun x => x.decisions = r.decisions + 1 ∧ x.origin = (r.origin + 1) % 2 ^ 16))) ∧
    (head (.pass gid st rec_ words cyc) → rec_ ≠ [] → st < 8 → w0 % 2 ^ 9 ||| 2 ^ st = 2 ^ r.stages - 1 → r.stages ≤ 8 → takes r.exitN → ∃ t, exec (.routerRpass die idx) s = .next t ∧ into r.exitN (word (2 ^ r.stages - 1) ((w0 / 2 ^ 9 % 8 + 1) % 8) 15 :: others) t ∧ router t rest (fun x => counted x true)) ∧
    (head (.rej gid st rec_ words cyc) → rec_ ≠ [] → r.rejv = true → takes r.reject → ∃ t, exec (.routerRrej die idx) s = .next t ∧ into r.reject (word (w0 % 2 ^ 8 + 2 ^ 8) (w0 / 2 ^ 9 % 8) 15 :: others) t ∧ router t rest (fun x => counted x false)) ∧
    (head (.rej gid st rec_ words cyc) → r.rejv = false → ∃ t, exec (.routerRrej die idx) s = .next t ∧ t.contexts = s.contexts ∧ router t rest (fun x => counted x false))

/-- REMOTE_TAIL_WRITE, REMOTE_PULL_COMPLETE and PUSH_ACK (14 R268): a tail write queues a pull, once; the pulled record enters the node, or
is refused, and is acknowledged, its tag being forgotten when it is refused or cannot be read; an acceptance frees the outbox slot, a refusal stops the pushing group.
Where it meets a choice of the model, it is this one: that a task unit keeps the last 64 tags (log 33). -/
def Obligations.RemotePushes : Prop :=
  ∀ (s : State) (die op : Nat) (p : RemotePush) (rest : List (RemotePush × Bool)) (data : List Word) (x : Nat × Nat × Nat),
    let all (x : Node) : List (List Word) := x.bin ++ x.ovf
    let d := s.die die
    let own := s.ownPush p
    let tag : Nat × Nat := (if own.isSome then p.port + 64 else p.port, p.tag)
    let key := nodeKey p.handle
    let ready (ctx : Nat) : Prop := (s.node ctx key).mode ≠ 0 ∧ (s.node ctx key).mode ≠ 2 ∧ s.deqWaiters ctx key = []
    let pulled (ctx : Nat) (rec_ : List Word) (t : State) : Prop := all (t.node ctx key) = all (s.node ctx key) ++ [(rec_ ++ List.replicate 32 0).take (4 * 2 ^ (s.node ctx key).rsz)]
    (tag ∉ (s.die p.die).tagsSeen → ∃ t, exec (.remoteTailWrite p) s = .next t ∧ (t.die p.die).pulls = (s.die p.die).pulls ++ [(p, own.isSome)] ∧ tag ∈ (t.die p.die).tagsSeen ∧ t.groups = s.groups) ∧
    (tag ∈ (s.die p.die).tagsSeen → exec (.remoteTailWrite p) s = .next s) ∧
    (∀ b rec_, d.pulls = (p, b) :: rest → own = some x → s.pullRecord die x.1 x.2.1 = .ok rec_ → s.remoteRefuses x.1 p.handle = none → ready x.1 → ∃ t, exec (.remotePullComplete die data) s = .next t ∧ (t.die die).pulls = rest ∧ (t.die die).acks = d.acks ++ [(x.2.2, 0)] ∧ pulled x.1 rec_ t) ∧
    (∀ b rec_ k, d.pulls = (p, b) :: rest → own = some x → s.pullRecord die x.1 x.2.1 = .ok rec_ → s.remoteRefuses x.1 p.handle = some k → ∃ t, exec (.remotePullComplete die data) s = .next t ∧ (t.die die).pulls = rest ∧ (t.die die).acks = d.acks ++ [(x.2.2, k)] ∧ tag ∉ (t.die die).tagsSeen ∧ t.contexts = s.contexts) ∧
    (∀ b f, d.pulls = (p, b) :: rest → own = some x → s.pullRecord die x.1 x.2.1 = .error f → ∃ t, exec (.remotePullComplete die data) s = .next t ∧ (t.die die).pulls = rest ∧ (t.die die).acks = d.acks ∧ tag ∉ (t.die die).tagsSeen ∧ (t.context x.1).hb.halt = true) ∧
    (∀ b ctx k, d.pulls = (p, b) :: rest → own = none → s.tenantContext p.tenant = some ctx → s.remoteRefuses ctx p.handle = some k → ∃ t, exec (.remotePullComplete die data) s = .next t ∧ (t.die die).pulls = rest ∧ tag ∉ (t.die die).tagsSeen ∧ t.contexts = s.contexts) ∧
    (∀ b ctx, d.pulls = (p, b) :: rest → own = none → s.tenantContext p.tenant = some ctx → s.remoteRefuses ctx p.handle = none → ready ctx → ∃ t, exec (.remotePullComplete die data) s = .next t ∧ (t.die die).pulls = rest ∧ pulled ctx data t) ∧
    (∀ ctx k h o, s.outboxOf op = some (ctx, k, h) → (∃ y ∈ s.dies, (op, 0) ∈ y.2.acks) → s.holds = [] → s.op op = some o → ∃ t, exec (.pushAck op 0) s = .next t ∧ tfind k (t.context ctx).outbox = none ∧ (1 < o.parts → t.op op = some { o with parts := o.parts - 1 }) ∧ (o.parts ≤ 1 → o.flag = none → o.dest = .none → t.op op = none)) ∧
    (∀ ctx k h o (kind : BitVec 4), s.outboxOf op = some (ctx, k, h) → (∃ y ∈ s.dies, (op, kind.toNat) ∈ y.2.acks) → kind ≠ 0 → s.op op = some o → s.resident o.gid = true → (s.group o.gid).ctx = ctx → o.path ≠ none → (s.group o.gid).stop.cause = 0 → ∃ t, exec (.pushAck op kind) s = .next t ∧
      (t.context ctx).hb.halt = true ∧ (t.group o.gid).stop.cause = 9 ∧ (t.group o.gid).stop.detail = (fNode 1 false 0 (nodeKey h / 4096) h kind.toNat).detail ∧ (t.group o.gid).stop.held = true)

/-! ### Clocks, power and heat -/

/-- RELOCK_COMPLETE, OPHINT_DWELL_EXPIRY, BUDGET_APPLY, DROOP_ALARM and DROOP_HALVING_END (15 R287; 17 R316, R319, R320, R322): a
relock ends at its point, the ages of combining entries and the due counts going on by its length at the nominal clock, and a team that
waited for its clusters is released; a kept request takes effect after 200 microseconds; a budget takes effect where a window begins; an
alarm is counted unless it is merged, off or in a relock; the halving ends with its last cycle. ARBITER_EPOCH, DEFICIT_REPORT, THERMAL_OVER_THRESHOLD and THERMAL_RESTORE (17 R316, R317, R323 to R325): where no tenant lends and
nothing is balanced an epoch gives each cluster the budget that its tenant's share is worth, and begins the next epoch; a demanding tenant
never gets less than its share; the module's own deficit, which is zero while nothing throttles it and else no less than the median extra episode time of
any of its communicators,
stands in pw.deficit and another's interrupts; a stack above its threshold is hot, which its partition is told once, and its shares
return after a millisecond below it.
Where it meets a choice of the model, it is this one: that merged alarms are not counted (log 16), that amounts for which the manual gives no rule are inputs or free (logs 21 and 35), and what counts as throttled and as extra time (log 81). -/
def Obligations.PowerAndClocks : Prop :=
  (∀ (s : State) (k team : Nat) (m : Team),
    let c := s.cluster k
    let same (t : State) : Prop := t.mem = s.mem ∧ t.groups = s.groups ∧ t.contexts = s.contexts
    (∀ p, c.relock = some p → s.requested k = some c.setPoint → ∃ t, exec (.relockComplete k) s = .next t ∧
      (let n := (s.devTime - c.relockStart) * pointClock p / 1000000
       t.cluster k = { c with relock := none, point := p, combine := c.combine.map (fun e => { e with taken := e.taken - n }) } ∧
       (∀ g, clusterOfCore (coreOf g) = k → t.group g = { s.group g with due := if 0 < (s.group g).due then (s.group g).due + n else 0 }) ∧ (∀ g, clusterOfCore (coreOf g) ≠ k → t.group g = s.group g)) ∧
      (∀ j, j ≠ k → t.cluster j = s.cluster j) ∧ t.mem = s.mem ∧
      (tfind team s.teams = some m → dieOfCore m.core = k / 8 → (∀ j, j < 8 → 8 * dieOfCore m.core + j ≠ k → (s.cluster (8 * dieOfCore m.core + j)).relock = none) → tfind team t.teams = some { m with heldClock := false })) ∧
    (c.relock = none → exec (.relockComplete k) s = .next s) ∧
    (∀ p, tfind team s.teams = some m → m.opKept = some p → m.opTime + 200000 ≤ s.devTime → ∃ t, exec (.ophintDwellExpiry team) s = .next t ∧ tfind team t.teams = some { m with opReq := p, opTime := max 1 s.devTime, opKept := none } ∧ same t) ∧
    (∀ p, tfind team s.teams = some m → m.opKept = some p → s.devTime < m.opTime + 200000 → exec (.ophintDwellExpiry team) s = .next s) ∧
    (∀ b, c.nextBudget = some b → c.turn = 0 → c.cycles % 16 = 0 → ∃ t, exec (.budgetApply k) s = .next t ∧ t.cluster k = { c with budget := b, nextBudget := none } ∧ (∀ j, j ≠ k → t.cluster j = s.cluster j) ∧ same t) ∧
    (∀ b, c.nextBudget = some b → 0 < c.turn → c.turn < 32 → exec (.budgetApply k) s = .next s) ∧
    (c.drpThr ≠ 0 → c.relock = none → c.stretch = 0 → c.alarm = false → ∃ t, exec (.droopAlarm k) s = .next t ∧ t.cluster k = { c with alarm := true, alarms := (c.alarms + 1) % 2 ^ 64 } ∧ same t) ∧
    ((c.drpThr = 0 ∨ c.relock ≠ none ∨ 0 < c.stretch ∨ c.alarm = true) → exec (.droopAlarm k) s = .next s) ∧
    (c.halving = 1 → c.stretch = 0 → 32 ≤ c.turn → ∃ t, exec (.droopHalvingEnd k) s = .next t ∧ t.cluster k = { c with halving := 0 } ∧ same t)) ∧
  (∀ (s : State) (since die : Nat) (temp : BitVec 12) (module : Nat) (x : BitVec 16),
    let d := s.die die
    let due : Prop := since = s.hub.epoch ∧ s.hub.epoch + 2000 ≤ s.devTime
    let worth (tenant share : Nat) : Nat := Config.moduleLimit * share / 1024 / max 1 (s.tenantClusters tenant).length
    let calm (t : State) : Prop := t.mem = s.mem ∧ t.groups = s.groups ∧ t.contexts = s.contexts
    (due → s.hub.meets = [] → (∀ c ∈ s.clusters, c.2.setting = none ∧ c.2.moved = [] ∧ c.2.chase = 0 ∧ c.2.full = none) → (∀ x ∈ s.tenantShares, s.demanding x.1 = true) → (∀ d ∈ s.dies, d.2.bwHot = false) → ∃ t, exec (.arbiterEpoch since) s = .next t ∧ t.hub = { s.hub with epoch := s.devTime, pwLent := 0 } ∧ calm t ∧
      (∀ k tenant share, (k, tenant, share) ∈ s.ruled → t.cluster k = { s.cluster k with nextBudget := if worth tenant share = (s.cluster k).budget then none else some (worth tenant share), lostWindows := [] }) ∧
      (∀ k, (∀ x ∈ s.ruled, x.1 ≠ k) → (t.cluster k).nextBudget = (s.cluster k).nextBudget)) ∧
    (due → ∃ t, exec (.arbiterEpoch since) s = .next t ∧ t.hub.epoch = s.devTime ∧ calm t ∧
      ∀ k tenant share, (k, tenant, share) ∈ s.ruled → s.demanding tenant = true → (s.die (k / 8)).bwHot = false → worth tenant share ≤ (t.cluster k).nextBudget.getD (t.cluster k).budget) ∧
    (∀ k tenant share, (k, tenant, share) ∈ s.ruled → s.clusterTenant k = some tenant ∧ (tenant, share) ∈ s.tenantShares) ∧
    (¬ due → exec (.arbiterEpoch since) s = .next s) ∧
    (module = s.hub.module → ∃ t, exec (.deficitReport module x) s = .next t ∧ t.hub = { s.hub with pwDeficit := s.ownDeficit } ∧ calm t) ∧
    (s.throttled = false → s.ownDeficit = 0) ∧
    (∀ m ∈ s.hub.meets, s.throttled = true → m.2.coll = true → min 0xFFFF (m.2.extra / 64) ≤ s.ownDeficit) ∧
    (module ≠ s.hub.module → ∃ t i, exec (.deficitReport module x) s = .next t ∧ t.hub.pwDeficit = s.hub.pwDeficit ∧ t.hub.interrupts = s.hub.interrupts ++ [i] ∧ i.row = 34 ∧ i.level = (s.handlerOf 34 0).1 ∧ i.vector = (s.handlerOf 34 0).2 ∧ calm t) ∧
    (d.bwThr < temp.toNat → ∃ t, exec (.thermalOverThreshold die temp) s = .next t ∧ (t.die die).bwHot = true ∧ (t.die die).bwTemp = temp.toNat ∧ (t.die die).bwScale ≤ 256 ∧ (t.die die).bwShare = d.bwShare ∧ calm t ∧
      (∀ p, d.bwHot = false → s.partitionOf die = some p → ∃ i, t.hub.interrupts = s.hub.interrupts ++ [i] ∧ i.row = 33 ∧ i.who = p ∧ i.level = (s.handlerOf 33 1).1 ∧ i.vector = (s.handlerOf 33 1).2) ∧
      (d.bwHot = true → t.hub = s.hub)) ∧
    (temp.toNat ≤ d.bwThr → ∃ t, exec (.thermalOverThreshold die temp) s = .next t ∧ t.die die = { d with bwTemp := temp.toNat, bwSince := if temp.toNat < d.bwThr ∧ d.bwHot = true then some (d.bwSince.getD s.devTime) else none } ∧ calm t ∧ t.hub = s.hub) ∧
    (¬ (temp.toNat < d.bwThr ∧ d.bwHot = true) → ∃ t, exec (.thermalRestore die temp) s = .next t ∧ t.die die = { d with bwTemp := temp.toNat, bwSince := none } ∧ calm t ∧ t.hub = s.hub) ∧
    (∀ t0, temp.toNat < d.bwThr → d.bwHot = true → d.bwSince = some t0 → t0 + 1000000 ≤ s.devTime → ∃ t, exec (.thermalRestore die temp) s = .next t ∧ t.die die = { d with bwTemp := temp.toNat, bwHot := false, bwSince := none, bwScale := 256 } ∧ calm t ∧ t.hub = s.hub) ∧
    (temp.toNat < d.bwThr → d.bwHot = true → d.bwSince = none → ∃ t, exec (.thermalRestore die temp) s = .next t ∧ t.die die = { d with bwTemp := temp.toNat, bwSince := some s.devTime } ∧ calm t ∧ t.hub = s.hub) ∧
    (∀ t0, temp.toNat < d.bwThr → d.bwHot = true → d.bwSince = some t0 → s.devTime < t0 + 1000000 → ∃ t, exec (.thermalRestore die temp) s = .next t ∧ t.die die = { d with bwTemp := temp.toNat } ∧ calm t ∧ t.hub = s.hub))

/-! ### Page migration -/

/-- HPT_EPOCH_END, HPT_SWAP_DONE and the write of hpt.ctl (03 R48 to R50): at the end of an epoch the unpinned LPDDR6 page of the greatest count
that reaches THR is paired with an unpinned HBM4E page of the least count of its partition, or every count is halved; a swap exchanges the
contents of the two pages and the addresses of their leaves; EN = 0 clears the tables and EN set anew starts an epoch.
Where it meets a choice of the model, it is this one: which access is the first one sampled (log 27), and the order of ties between partitions (log 32). -/
def Obligations.PageTracker : Prop :=
  ∀ (s : State) (die part p q : Nat) (w : Writer) (value : BitVec 32),
    let d := s.die die
    let most := nbits d.hptCtl 8 8
    let due : Prop := d.hptCtl.testBit 0 = true ∧ d.swaps = [] ∧ d.hptSince + 1000 * d.hptEpoch ≤ s.devTime
    let hot (x : (Nat × Nat) × Nat) : Prop := x ∈ d.hptSlow ∧ d.hptThr ≤ x.2 ∧ ∃ m, s.mapPage x.1.1 x.1.2 = some m ∧ (placeOf m.machine).2 = true ∧ isPinned m.leaf = false
    let cold (part page : Nat) : Prop := ∃ k ∈ s.mappedPages part, k.page = page ∧ (placeOf k.machine).2 = false ∧ isPinned k.leaf = false
    let count (part page : Nat) : Nat := pageCount d.hptFast (part, page)
    let halved (l : List ((Nat × Nat) × Nat)) : List ((Nat × Nat) × Nat) := l.map (fun x => (x.1, x.2 / 2))
    let v := value.toNat
    let may : Prop := w.level = 0 ∧ s.writerHolds w 14 = true ∧ die < 24
    (due → 0 < most → (∃ x, hot x) → (∀ x, hot x → ∃ y, cold x.1.1 y) → (∀ x ∈ d.hptSlow, x.2 < 2 ^ 64 ∧ x.1.1 < 2 ^ 8 ∧ x.1.2 < 2 ^ 40) → ∃ t x y, exec (.hptEpochEnd die) s = .next t ∧ hot x ∧ (∀ z, hot z → z.2 ≤ x.2 ∧ (z.2 = x.2 → x.1.2 ≤ z.1.2)) ∧ cold x.1.1 y ∧ (∀ z, cold x.1.1 z → count x.1.1 y ≤ count x.1.1 z) ∧
      (t.die die).swaps = [(x.1.1, x.1.2, y)] ∧ (t.die die).hptLast = some (x.1.1, y) ∧ (t.die die).hptMade = 1 ∧ (t.die die).hptSince = s.devTime ∧ (t.die die).hptSlow = d.hptSlow ∧ t.mem = s.mem) ∧
    (due → (most = 0 ∨ ∀ x, ¬ hot x) → ∃ t, exec (.hptEpochEnd die) s = .next t ∧ (t.die die).swaps = [] ∧ (t.die die).hptSlow = halved d.hptSlow ∧ (t.die die).hptFast = halved d.hptFast ∧ (t.die die).hptMade = 0 ∧ (t.die die).hptSince = s.devTime ∧ t.mem = s.mem) ∧
    (¬ due → exec (.hptEpochEnd die) s = .next s) ∧
    (∀ rest a b, s.Inv → d.swaps = (part, p, q) :: rest → s.mapPage part p = some a → s.mapPage part q = some b → a.machine % 2 ^ 16 = 0 → b.machine % 2 ^ 16 = 0 → a.machine ≠ b.machine → a.leafAt ≠ b.leafAt → a.leafAt % 8 = 0 → b.leafAt % 8 = 0 →
      (∀ z ∈ s.slices, ∀ l ∈ z.2.lines, l.2.part = part → l.2.machine / 2 ^ 16 ≠ a.machine / 2 ^ 16 ∧ l.2.machine / 2 ^ 16 ≠ b.machine / 2 ^ 16) → (∀ z, z = a.leafAt ∨ z = b.leafAt → z / 2 ^ 16 ≠ a.machine / 2 ^ 16 ∧ z / 2 ^ 16 ≠ b.machine / 2 ^ 16) →
      ∃ t, exec (.hptSwapDone die) s = .next t ∧ (∀ o, o < 2 ^ 16 → t.memByte (a.machine + o) = s.memByte (b.machine + o) ∧ t.memByte (b.machine + o) = s.memByte (a.machine + o)) ∧
        t.memNum a.leafAt 8 = retargetLeaf a.leaf b.machine % 2 ^ 64 ∧ t.memNum b.leafAt 8 = retargetLeaf b.leaf a.machine % 2 ^ 64 ∧
        (∀ z, z / 2 ^ 16 ≠ a.machine / 2 ^ 16 → z / 2 ^ 16 ≠ b.machine / 2 ^ 16 → z / 8 ≠ a.leafAt / 8 → z / 8 ≠ b.leafAt / 8 → t.memByte z = s.memByte z) ∧
        (∀ z ∈ t.slices, ∀ e ∈ z.2.tlb, e.part = part → e.bits = 16 → e.ppage ≠ p ∧ e.ppage ≠ q) ∧ (t.die die).hptSwaps = (d.hptSwaps + 1) % 2 ^ 64 ∧ t.groups = s.groups) ∧
    (d.swaps = [] → exec (.hptSwapDone die) s = .next s) ∧
    (may → v % 2 = 1 → ∃ t, exec (.hptCtlWrite w die value) s = .next t ∧ t.die die = { d with hptCtl := 1 + min 8 (v / 2 % 16) * 2 + v / 256 % 256 * 256, hptSince := if d.hptCtl.testBit 0 then d.hptSince else s.devTime, hptMade := if d.hptCtl.testBit 0 then d.hptMade else 0 }) ∧
    (may → v % 2 = 0 → ∃ t, exec (.hptCtlWrite w die value) s = .next t ∧ (t.die die).hptCtl = min 8 (v / 2 % 16) * 2 + v / 256 % 256 * 256 ∧ (t.die die).hptSlow = [] ∧ (t.die die).hptFast = [] ∧ (t.die die).hptLast = d.hptLast ∧ (t.die die).samplesFast = 0 ∧ (t.die die).samplesSlow = 0) ∧
    (¬ may → exec (.hptCtlWrite w die value) s = .next s)

/-! ### Halts -/

/-- Taking a fault and ending a halt (16 R304 to R307): the halt line is set and the context's time pauses; the first fault of a halt stands in
hb.first, of those in one cycle of a cluster the one of the lowest core and slot, and empties the engine records; a group that is going may issue for
at most 512 cycles more, one with a precise fault not at all; a resident group's record takes its first fault and keeps it, and the time at which the group stopped, which a precise fault is; nothing else changes; a halt that ends lets the
time run on and empties the records. STOP_RECORDS_COMPLETE and WATCHDOG_EXPIRY (16 R304, R306, R308, R312): once what a halted context has in flight has ended or is held, the record of each of
its groups is written to the stop area, with the PCs, the cause and the detail where R306 places them, STOPPED is set and the handler of the first
cause is interrupted; a watched wait that has lasted the watchdog's time raises cause group 17 with what is waited for.
Where it meets a choice of the model, it is this one: that the skid of each group is free within its bound, and that faults of different clusters are not of one cycle (log 54). -/
def Obligations.HaltsTaken : Prop :=
  (∀ (s : State) (ctx gid : Nat) (f : Flt) (slotB precise : Bool) (pc : DWord),
    let c := s.context ctx
    let g := s.group gid
    let t := s.raise ctx f { gid := some gid, slotB := slotB, pc := pc, precise := precise }
    let u := s.endHalt ctx
    let who := dieOf gid * 2 ^ 17 + coreOf gid % 64 * 2 ^ 11 + slotOf gid * 2 ^ 5
    let stay (l : List (Nat × Nat)) : List (Nat × Nat) := if precise then l.filter (fun x => x.1 ≠ gid) else l
    let stopped : Option Nat := if precise then some (g.stop.time.getD s.devTime) else g.stop.time
    (t.context ctx).hb.halt = true ∧ (∀ k, k ≠ ctx → t.context k = s.context k) ∧ (∀ k, k ≠ gid → t.group k = s.group k) ∧
    (c.hb.halt = false → t.context ctx = { c with haltAt := s.devTime, hb := { c.hb with halt := true, stopped := false, eovf := false, first := who + f.cause, nrec := 0, recs := [], engines := true, firstAt := if precise then some (s.cycleOf gid) else none, skid := stay (s.going ctx) } }) ∧
    (∀ x ∈ s.going ctx, (s.group x.1).wait = none ∧ x.2 = (s.cluster (coreOf x.1 / 8)).cycles + 512) ∧ (c.hb.halt = true → g.ctx = ctx → s.mayIssue gid = true → ∃ n, (gid, n) ∈ c.hb.skid ∧ (s.cluster (coreOf gid / 8)).cycles < n) ∧
    (c.hb.halt = true → t.context ctx = { c with hb := { c.hb with skid := stay c.hb.skid, first := if precise = true ∧ c.hb.firstAt = some (s.cycleOf gid) ∧ who < c.hb.first / 32 * 32 then who + f.cause else c.hb.first } }) ∧
    (s.resident gid = true → g.stop.cause = 0 → t.group gid = { g with stop := { g.stop with cause := f.cause, precise := precise, slotB := slotB, held := false, fpc := pc, detail := f.detail, drain := none, first := none, time := stopped } }) ∧
    (s.resident gid = true → g.stop.cause ≠ 0 → t.group gid = { g with stop := { g.stop with time := stopped } }) ∧
    t.mem = s.mem ∧ t.teams = s.teams ∧ t.hub = s.hub ∧ t.cores = s.cores ∧ t.dies = s.dies ∧ t.slices = s.slices ∧ t.ops = s.ops ∧ t.reqs = s.reqs ∧
    (u.context ctx).hb.halt = false ∧ (u.context ctx).hb.recs = [] ∧ (u.context ctx).haltSum = c.haltSum + (s.devTime - c.haltAt) ∧ (g.ctx = ctx → u.group gid = { g with stop := { saved := g.stop.saved } }) ∧ (g.ctx ≠ ctx → u.group gid = g) ∧ u.mem = s.mem) ∧
  (∀ (s : State) (ctx gid : Nat),
    let c := s.context ctx
    let g := s.group gid
    let x := g.stop
    let at_ (o n : Nat) : Nat := numAt ((s.stopBytes gid).map (·.2)) o n
    let handler := s.handlerOf (c.hb.first % 32) c.level
    (c.hb.halt = true → c.hb.stopped = false → s.settled ctx = true → s.contextGroups ctx = [gid] → s.savedNow ctx = [] → c.hb.recs = [] → s.heldWork ctx = [] → ∀ u, s.writeArea (dieOf gid) ctx (c.hb.stop + 128 * gid) (s.stopBytes gid) = .ok u →
      ∃ t, exec (.stopRecordsComplete ctx) s = .next t ∧ t.mem = u.mem ∧ t.slices = u.slices ∧ (t.context ctx).hb.stopped = true ∧ (t.context ctx).hb.halt = true ∧ (t.context ctx).hb.nrec = 0 ∧ t.groups = s.groups ∧
        t.hub.interrupts = s.hub.interrupts ++ [{ row := c.hb.first % 32, level := handler.1, vector := handler.2, who := ctx }]) ∧
    ((s.stopBytes gid).map (·.1) = List.range 128 ∧ at_ 0 8 = (g.recordPc false).toNat ∧ at_ 8 8 = (g.recordPc true).toNat ∧ at_ 0x10 8 = x.fpc.toNat ∧
      (x.cause < 32 → at_ 0x18 4 = x.cause + x.precise.toNat * 2 ^ 5 + x.slotB.toNat * 2 ^ 6 + x.held.toNat * 2 ^ 7 + 2 ^ 9 + (if g.wait = none ∧ g.tables = [] then 0 else 2 ^ 10)) ∧ at_ 0x1C 4 = 0 ∧ at_ 0x20 12 = x.detail.toNat ∧ (x.time.getD (s.context g.ctx).haltAt < 2 ^ 64 → at_ 0x40 8 = x.time.getD (s.context g.ctx).haltAt)) ∧
    ((c.hb.halt = false ∨ c.hb.stopped = true ∨ s.settled ctx = false) → exec (.stopRecordsComplete ctx) s = .next s) ∧
    (∀ w, let k := s.context g.ctx
      let since := s.ctxTime g.ctx - w.since
      let what : Option (Nat × Nat × Nat) := match w.kind with | .bar b _ => some (0, b, 0) | .bphs b _ => some (1, b, 0) | .qpush q _ => some (2, q, 0) | .qpop q _ => some (3, q, 0) | .palette k => some (4, k, 0) | .object a _ => some (5, 0, a) | .path p _ => some (6, p, 0) | .grid a _ => some (7, 0, a) | .regroup _ _ => some (8, 0, 0) | _ => none
      g.wait = some w →
      (∀ kind number addr, what = some (kind, number, addr) → k.hb.halt = false → k.hb.wdt ≠ 0 → 1000 * k.hb.wdt ≤ since → exec (.watchdogExpiry gid) s = .next (s.raise g.ctx (fWatchdog (since / 1000) addr number kind) { gid := some gid, slotB := w.slotB, pc := w.pc })) ∧
      ((what = none ∨ k.hb.halt = true ∨ k.hb.wdt = 0 ∨ since < 1000 * k.hb.wdt) → exec (.watchdogExpiry gid) s = .next s)) ∧
    (∀ n since, let k := s.context g.ctx
      let waited := s.ctxTime g.ctx - since
      g.wait = none → g.pal = some n → g.palSince = some since → ((s.team g.team).palette n).state = .queued →
      (k.hb.halt = false → k.hb.wdt ≠ 0 → 1000 * k.hb.wdt ≤ waited → exec (.watchdogExpiry gid) s = .next (s.raise g.ctx (fWatchdog (waited / 1000) 0 n 4) { gid := some gid })) ∧
      ((k.hb.halt = true ∨ k.hb.wdt = 0 ∨ waited < 1000 * k.hb.wdt) → exec (.watchdogExpiry gid) s = .next s)))

/-- HALT_RESUME, HALT_STEP, HALT_PREEMPT and HALT_TERMINATE (16 R305, R307, R311; 17 R328), for a context whose halt holds no work: a command that its writer may not give changes nothing, one that comes
before STOPPED only hb.cmd; a resume ends the halt with the PCs that the handler left, skips the faulting word where SKIP says so, and
faults again on a bad CTL; a step lets only the groups that ask for it issue; a pre-emption, which asks PRE too, makes every team leave, and is refused
while work is held; a terminate discards every group, team, grid and operation of the context.
Where it meets a choice of the model, it is this one: which writers may command a halt (log 12), and that a bad record halts again before any group goes on (log 14). -/
def Obligations.HaltCommands : Prop :=
  ∀ (s : State) (ctx gid : Nat) (w : Writer),
    let c := s.context ctx
    let g := s.group gid
    let x := g.stop
    let idle : Prop := s.holds = [] ∧ s.reqs = [] ∧ c.nodes = [] ∧ (∀ m ∈ s.teams, m.2.palQueue = [] ∧ ∀ p ∈ m.2.pals, p.2.state ≠ .filling) ∧ (∀ w q d, g.wait = some w → w.kind = .deq q d → g.bind.node ≠ none) ∧ c.outbox = [] ∧ (∀ d ∈ s.dies, ∀ r ∈ d.2.routers, r.2.ctx ≠ ctx) ∧ (∀ k ∈ s.cores, ∀ e ∈ k.2.drain, e.2.pinned = false)
    let one : Prop := s.commands w ctx = true ∧ idle ∧ s.contextGroups ctx = [gid] ∧ g.ctx = ctx ∧ s.savedNow ctx = [] ∧ x.cause ≠ 17
    let sent (n : Nat) : State := s.modContext ctx (fun c => { c with hb := { c.hb with cmd := n } })
    let commands : List (Instr × Nat) := [(.haltResume ctx w, 1), (.haltStep ctx w, 2), (.haltPreempt ctx w, 3), (.haltTerminate ctx w, 4)]
    let record (n ctl : Nat) : Prop := (sent n).readStop ctx gid = (g.recordPc false, g.recordPc true, ctl)
    let ended (t : State) : Prop := (t.context ctx).hb.halt = false ∧ (t.context ctx).hb.stopped = false ∧ (t.context ctx).haltSum = c.haltSum + (s.devTime - c.haltAt)
    let fresh : Group := { g with stop := { saved := x.saved } }
    let past (y : Slot) : Slot := { y with pc := y.pc + 8, cl := match y.cl with | some k => if k.left ≤ 1 then none else some { k with left := k.left - 1 } | none => none }
    (∀ i n, (i, n) ∈ commands → s.ownsHalt w ctx = false → exec i s = .next s) ∧
    (∀ i n, (i, n) ∈ commands → s.ownsHalt w ctx = true → c.hb.stopped = false → exec i s = .next (sent n)) ∧
    (s.commands w ctx = true ↔ c.hb.stopped = true ∧ s.ownsHalt w ctx = true) ∧
    (s.ownsHalt w ctx = true → s.holdsOver w ctx 11 = true ∧ (c.hb.halt = true → w.level ≤ (s.handlerOf (c.hb.first % 32) c.level).1)) ∧
    (one → record 1 0 → ∃ t, exec (.haltResume ctx w) s = .next t ∧ ended t ∧ t.group gid = fresh ∧ ∀ k, t.team k = if (s.team k).ctx = ctx ∧ (s.team k).saved.isSome = true then (s.team k).endStops else s.team k) ∧
    (one → record 1 1 → x.cause = 13 ∨ x.cause = 14 → ∃ t, exec (.haltResume ctx w) s = .next t ∧ ended t ∧ t.group gid = fresh) ∧
    (one → record 1 1 → x.cause ≠ 0 → x.cause ≠ 13 → x.cause ≠ 14 → x.precise = true → (g.slot x.slotB).pc = x.fpc → ∃ t, exec (.haltResume ctx w) s = .next t ∧ ended t ∧ t.group gid = { (g.modSlot x.slotB past) with stop := { saved := x.saved } }) ∧
    (∀ pc b, one → (sent 1).readStop ctx gid = ((if b then g.recordPc false else pc), (if b then pc else g.recordPc true), 0) → pc ≠ g.recordPc b → ((sent 1).clearValid ctx).entryBad gid pc = none →
      ∃ t, exec (.haltResume ctx w) s = .next t ∧ ended t ∧ (t.group gid).slot b = { g.slot b with pc := pc, cl := none } ∧ (t.group gid).slot (!b) = g.slot (!b) ∧ (t.group gid).wait = (match g.wait with | some w => if w.slotB = b then none else some w | none => none)) ∧
    (∀ ctl, one → 4 ≤ ctl → record 1 ctl → s.resident gid = true → ∃ t, exec (.haltResume ctx w) s = .next t ∧ (t.context ctx).hb.halt = true ∧ (t.context ctx).hb.first % 32 = 7 ∧ (t.group gid).stop.cause = 7 ∧ (t.group gid).a = g.a ∧ (t.group gid).b = g.b) ∧
    (∀ ctl, one → ctl = 0 ∨ ctl = 2 → record 2 ctl → ∃ t, exec (.haltStep ctx w) s = .next t ∧ ended t ∧ (t.context ctx).hb.stepMode = true ∧ (t.context ctx).hb.stepping = (if ctl = 2 then [gid] else []) ∧ t.group gid = fresh) ∧
    (s.commands w ctx = true → s.holdsOver w ctx 3 = false → exec (.haltPreempt ctx w) s = .next (sent 3)) ∧
    (s.commands w ctx = true → s.holdsOver w ctx 3 = true → s.holdsWork ctx = true → ∃ t, exec (.haltPreempt ctx w) s = .next t ∧ (t.context ctx).hb.refused = true ∧ (t.context ctx).hb.halt = c.hb.halt ∧ t.groups = s.groups ∧ t.teams = s.teams ∧ t.mem = s.mem) ∧
    (s.commands w ctx = true → s.holdsOver w ctx 3 = true → s.holdsWork ctx = false → idle → ∃ t, exec (.haltPreempt ctx w) s = .next t ∧ (t.context ctx).hb.refused = false ∧ (t.context ctx).haltSum = c.haltSum + (s.devTime - c.haltAt) ∧ ∀ k m, tfind k s.teams = some m → m.ctx = ctx → m.isResident = true → (t.team k).leaving = true ∨ (t.team k).saved ≠ none) ∧
    (s.commands w ctx = true → ∃ t, exec (.haltTerminate ctx w) s = .next t ∧ ((∀ k ∈ s.cores, k.2.sound = true) → ended t) ∧ (∀ y ∈ t.groups, y.2.ctx ≠ ctx) ∧ (∀ y ∈ t.teams, y.2.ctx ≠ ctx) ∧ (∀ y ∈ t.grids, y.2.ctx ≠ ctx) ∧ (∀ y ∈ t.ops, y.2.ctx ≠ ctx) ∧ (t.context ctx).outbox = [])

/-- TIME_SLICE_EXPIRY and TEAM_RESUME (16 R302, R303, R314; 02 R45): at the end of its slice every team of a context leaves; a saved group that comes back has the live scalars
and predicates, the PCs, the slot states and the stack pointer that its save area holds, and zero in what was not live.
Where it meets a choice of the model, it is this one: that a restored slot takes back the clause of its saved PC (log 8). -/
def Obligations.TeamsLeaveAndReturn : Prop :=
  ∀ (s : State) (ctx team : Nat),
    let c := s.context ctx
    let m := s.team team
    let k := s.context m.ctx
    let behind : Bool := (s.partDies k.part).any (fun d => match s.serving m.ctx d with | some g => decide (s.effOf (s.grid m.grid) < g.2.eff) | none => false)
    (c.hb.halt = false → c.hb.preempt = false → c.slice ≠ 0 → c.sliceStart + 1000 * c.slice ≤ s.ctxTime ctx → ∃ t, exec (.timeSliceExpiry ctx) s = .next t ∧ ∀ j n, tfind j s.teams = some n → n.ctx = ctx → n.isResident = true → (t.team j).leaving = true ∨ (t.team j).saved ≠ none) ∧
    ((c.hb.halt = true ∨ (c.hb.preempt = false ∧ (c.slice = 0 ∨ s.ctxTime ctx < c.sliceStart + 1000 * c.slice))) → exec (.timeSliceExpiry ctx) s = .next s) ∧
    (∀ old kept core u hd, let calm := (s.takeScratch core (m.scratchSize / 8192)).2
      tfind team s.teams = some m → m.saved = some [some (old, kept)] → k.hb.halt = false → k.hb.preempt = false → k.sliceEnded = false → behind = false → s.coreFor m.ctx none (s.effOf (s.grid m.grid)) (m.needs [kept]) = some core → m.pals = [] → m.palQueue = [] →
      calm.slicePeeks m.ctx { rd := true } .saveArea (k.saveAt old) 0x240 (some (dieOf (calm.nextSlot core))) = .ok hd → s.resumeOn team core [some (old, kept)] = .ok u →
      ∃ t gid, exec (.teamResume team) s = .next t ∧ (t.team team).saved = none ∧ (t.team team).core = core ∧ (t.team team).gids = [some gid] ∧ coreOf gid = core ∧
        let y := t.group gid
        let word (o : Nat) : Word := BitVec.ofNat 32 (numAt hd o 4)
        y.a.pc = BitVec.ofNat 64 (numAt hd 0 8) ∧ y.b.pc = BitVec.ofNat 64 (numAt hd 8 8) ∧ y.a.st = slotState (numAt hd 0x18 4 % 4) ∧ y.b.st = slotState (numAt hd 0x18 4 / 4 % 4) ∧ y.dsp = BitVec.ofNat 64 (numAt hd 0x48 8) ∧ y.team = team ∧
        (∀ i, i < 64 → y.rs i = if i < 2 ∨ (numAt hd 0x38 8).testBit i = true then word (0x100 + 4 * i) else 0) ∧ (∀ i, i < 8 → y.rq i = if (numAt hd 0x40 1).testBit i = true then word (0x200 + 4 * i) else 0)) ∧
    (∀ saved, m.saved = some saved → (k.hb.halt = true ∨ k.hb.preempt = true ∨ k.sliceEnded = true ∨ behind = true) → tfind team s.teams = some m → exec (.teamResume team) s = .next s) ∧
    (∀ saved core f, tfind team s.teams = some m → m.saved = some saved → k.hb.halt = false → k.hb.preempt = false → k.sliceEnded = false → behind = false → s.coreFor m.ctx none (s.effOf (s.grid m.grid)) (m.needs (saved.filterMap (fun x => x.map (·.2)))) = some core → s.resumeOn team core saved = .error f →
      ∃ t r, exec (.teamResume team) s = .next t ∧ (t.context m.ctx).hb.halt = true ∧ (t.context m.ctx).hb.recs = [r] ∧ r.kind = 3 ∧ r.cause = f.cause ∧ r.detail = f.detail ∧ t.teams = s.teams)

/-! ### Translation control and reloads -/

/-- TC_INVALIDATE_S1, TC_INVALIDATE_S2, TC_RELOAD_CONTEXT, TC_RELOAD_TASK and TC_COMMAND_DONE (17 R335, R337; 03 R60; 14 R257): a command given while
another runs changes nothing, one that its writer may not give sets ERR; an invalidation writes back what the L1s hold dirty of its range, ends once the slices have accepted that,
and leaves no line and no translation of its range;
a reloaded context has the fields of its descriptor; at the end of a task reload the launch queues are loaded (stated of descriptors whose reads leave nothing behind, as where the slices hold their lines).
Where it meets a choice of the model, it is this one: that the descriptor of a reload is read at a machine address (log 19), and that TC_INVALIDATE_S2 takes its range in every partition (log 36). -/
def Obligations.TranslationControl : Prop :=
  ∀ (s : State) (w : Writer),
    let h := s.hub
    let tenant := h.tcArg0 % 2 ^ 16
    let first := h.tcArg1 % 2 ^ 40
    let pages := h.tcArg1 / 2 ^ 40 % 2 ^ 24
    let inside (line : Nat) : Prop := line < 2 ^ 49 ∧ first ≤ line / 512 ∧ line / 512 < first + pages
    let runTenant := h.tcRun0 % 2 ^ 16
    let runFirst := h.tcRun1 % 2 ^ 40
    let named (tn line pa : Nat) : Prop := line < 2 ^ 49 ∧ ((h.tcCmd = 1 ∧ tn = runTenant ∧ runFirst ≤ line / 512 ∧ line / 512 < runFirst + h.tcRun1 / 2 ^ 40 % 2 ^ 24) ∨ (h.tcCmd = 2 ∧ h.tcRun0 ≤ pa ∧ pa < h.tcRun0 + h.tcRun1))
    let cleared : Prop := h.tcBusy = true ∧ (h.tcCmd = 1 ∨ h.tcCmd = 2) ∧ s.tcPending = false
    let sorted : Prop := ∀ x ∈ s.slices, ∀ l ∈ x.2.lines, l.1 = lineKey l.2.tenant l.2.line ∧ l.2.line < 2 ^ 49
    let runs (t : State) (cmd : Nat) : Prop := t.hub.tcBusy = true ∧ t.hub.tcCmd = cmd
    let refused (i : Instr) : Prop := exec i s = .next { s with hub := { h with tcErr := true } }
    let desc := h.tcArg0
    let read := if desc % 512 = 0 ∧ backed desc = true then s.devAccess desc 512 else s
    let turned (i : Instr) : Prop := exec i s = .next { read with hub := { h with tcErr := true } }
    let clean : Prop := ∀ k ∈ s.cores, k.2.sound = true
    let f := numAt (s.devBytes desc 512)
    let level := f 0 4 / 2 ^ 28 % 4
    let flags := f 4 4
    let old (part : Nat) : Context := s.context (4096 * part + f 0 4 / 2 ^ 16 % 2 ^ 12)
    let above (grant : Nat) : Prop := w.level = 0 ∨ ∃ ch, s.chain grant = some ch ∧ w.entry ∈ ch
    let mine (c : Nat × Context) : Bool := c.2.num == nbits h.tcArg0 0 12 && s.holdsOver w c.1 12
    (∀ i, i = .tcInvalidateS1 w ∨ i = .tcInvalidateS2 w ∨ i = .tcReloadContext w ∨ i = .tcReloadTask w → h.tcBusy = true → exec i s = .next s) ∧
    (h.tcBusy = false → (pages = 0 ∨ s.writerHolds w 0 = false ∨ s.ownTenant w tenant = false) → refused (.tcInvalidateS1 w)) ∧
    (h.tcBusy = false → pages ≠ 0 → s.writerHolds w 0 = true → s.ownTenant w tenant = true → ∃ t, exec (.tcInvalidateS1 w) s = .next t ∧ runs t 1 ∧ t.hub.tcErr = false ∧ t.groups = s.groups ∧ (clean → t.contexts = s.contexts) ∧ t.slices = s.slices ∧
      ∀ line, inside line → ∀ k l, (t.core k).line tenant line = some l → l.dirty = []) ∧
    (h.tcBusy = false → (h.tcArg0 % 2 ^ 16 ≠ 0 ∨ w.level ≠ 0 ∨ s.writerHolds w 1 = false) → refused (.tcInvalidateS2 w)) ∧
    (h.tcBusy = false → h.tcArg0 % 2 ^ 16 = 0 → w.level = 0 → s.writerHolds w 1 = true → ∃ t, exec (.tcInvalidateS2 w) s = .next t ∧ runs t 2 ∧ t.hub.tcErr = false ∧ t.groups = s.groups ∧ (clean → t.contexts = s.contexts) ∧ t.slices = s.slices ∧
      ∀ k tn line l, line < 2 ^ 49 → (t.core k).line tn line = some l → h.tcArg0 ≤ l.pa → l.pa < h.tcArg0 + h.tcArg1 → l.dirty = []) ∧
    (h.tcBusy = false → (desc % 512 ≠ 0 ∨ backed desc = false ∨ contextBad (s.devBytes desc 512) = true ∨ s.writerHolds w 5 = false ∨ s.chainPartition (f 8 4) = none ∨ (w.level ≠ 0 ∧ level ≤ w.level) ∨ ¬ above (f 8 4) ∨ (flags.testBit 6 = true ∧ s.writerHolds w 8 = false)) → turned (.tcReloadContext w)) ∧
    (∀ part, h.tcBusy = false → s.chainPartition (f 8 4) = some part → ((tget {} part h.pt).v = false ∨ ((old part).ceiling < flags / 2 ^ 8 % 8 ∧ s.writerHolds w 9 = false) ∨ ((old part).slice ≠ f 0xC 4 ∧ s.writerHolds w 3 = false)) → turned (.tcReloadContext w)) ∧
    (∀ part, h.tcBusy = false → desc % 512 = 0 → backed desc = true → contextBad (s.devBytes desc 512) = false → s.writerHolds w 5 = true → s.chainPartition (f 8 4) = some part → (tget {} part h.pt).v = true → (w.level = 0 ∨ w.level < level) → above (f 8 4) →
      (flags.testBit 6 = true → s.writerHolds w 8 = true) → ((old part).ceiling < flags / 2 ^ 8 % 8 → s.writerHolds w 9 = true) → ((old part).slice ≠ f 0xC 4 → s.writerHolds w 3 = true) →
      ∃ t, exec (.tcReloadContext w) s = .next t ∧ runs t 3 ∧
        let x := t.context (4096 * part + f 0 4 / 2 ^ 16 % 2 ^ 12)
        x.part = part ∧ x.num = f 0 4 / 2 ^ 16 % 2 ^ 12 ∧ x.tenant = f 0 4 % 2 ^ 16 ∧ x.level = level ∧ x.fpx = flags % 2 ^ 5 ∧ x.pfen = flags.testBit 5 ∧ x.nxok = flags.testBit 6 ∧ x.ceiling = flags / 2 ^ 8 % 8 ∧ x.grant = f 8 4 ∧ x.slice = f 0xC 4 ∧ x.s1root = f 0x10 8 ∧
        x.save = f 0x18 8 ∧ x.tsave = f 0x20 8 ∧ x.haltb = f 0x28 8 ∧ x.raceb = f 0x30 8 ∧ x.queuesAt = f 0x38 8 ∧ x.nodesAt = f 0x40 8 ∧ x.routersAt = f 0x48 8 ∧ x.outboxAt = f 0x50 8 ∧ x.ncount = f 0x58 4 ∧ x.ptmw = f 0x5C 4 ∧ x.ptmb = f 0x60 8 ∧ x.ptmn = f 0x68 4) ∧
    (h.tcBusy = false → s.contexts.find? mine = none → refused (.tcReloadTask w)) ∧
    (∀ c, h.tcBusy = false → s.contexts.find? mine = some c → exec (.tcReloadTask w) s = .next { s with hub := { h with tcCmd := 4, tcBusy := true, tcErr := false, tcRun0 := h.tcArg0, tcRun1 := h.tcArg1, tcCtx := c.1 } }) ∧
    (cleared → (∃ x ∈ s.tcLines, x.2.2.2.dirty ≠ []) → ∃ t, exec .tcCommandDone s = .next t ∧ (clean → t.hub = h) ∧ t.hub.tcBusy = true ∧ t.slices = s.slices ∧ t.groups = s.groups ∧ ∀ k tn line l, (t.core k).line tn line = some l → named tn line l.pa → l.dirty = []) ∧
    (cleared → (∀ x ∈ s.tcLines, x.2.2.2.dirty = []) → sorted → ∃ t, exec .tcCommandDone s = .next t ∧ t.hub.tcBusy = false ∧ t.hub.tcErr = false ∧ t.groups = s.groups ∧ ((∀ x ∈ s.slices, ∀ l ∈ x.2.lines, named l.2.tenant l.2.line l.2.pa → l.2.dirty ≠ [] → s.crossing (x.1 / 32) (placeOf l.2.machine).1 l.2.tenant (l.2.line * 128) (some l.2.machine) = none) → t.contexts = s.contexts) ∧
      (∀ k tn line l, (t.core k).line tn line = some l → named tn line l.pa → l.isPool = true ∧ l.valid = 0) ∧ (∀ k tn line l, (t.slice k).line tn line = some l → ¬ named tn line l.pa) ∧
      (∀ x ∈ t.slices, x.2.walks = [] ∧ ∀ e ∈ x.2.tlb, h.tcCmd = 1 ∧ e.tenant ≠ runTenant) ∧
      (∀ x ∈ t.reqs, named x.2.tenant x.2.line x.2.pa → x.2.noAlloc = true ∨ ∃ a b, x.2.kind = .palette a b ∧ x.2.stage ≠ .reply)) ∧
    (h.tcBusy = true → (h.tcCmd = 1 ∨ h.tcCmd = 2) → s.tcPending = true → exec .tcCommandDone s = .next s) ∧
    (∀ n r, s.tcPending = false → (h.tcCmd = 1 ∨ h.tcCmd = 2) → (n, r) ∈ s.reqs → r.kind = .writeback → named r.tenant r.line r.pa → r.moving = false) ∧
    (h.tcBusy = true → h.tcCmd ≠ 1 → h.tcCmd ≠ 2 → h.tcCmd ≠ 4 → exec .tcCommandDone s = .next { s with hub := { h with tcBusy := false } }) ∧
    (h.tcBusy = true → h.tcCmd = 4 → (s.context h.tcCtx).ncount = 0 → ∃ t, exec .tcCommandDone s = .next t ∧ t.hub.tcBusy = false ∧
      ∀ q bs, q < 16 → (∀ j, j < 16 → ∃ y, s.peekRun h.tcCtx { rd := true } .engineRead ((s.context h.tcCtx).queuesAt + 32 * j) 32 (some (s.queueDie h.tcCtx)) = (.ok y, s)) → s.slicePeeks h.tcCtx { rd := true } .engineRead ((s.context h.tcCtx).queuesAt + 32 * q) 32 (some (s.queueDie h.tcCtx)) = .ok bs → tfind q (t.context h.tcCtx).queues = some (
        let g := numAt bs
        if g 8 4 / 2 ^ 5 ≠ 0 ∨ g 0x14 12 ≠ 0 ∨ 12 < g 8 4 % 16 ∨ g 0 8 % (64 * 2 ^ (g 8 4 % 16)) ≠ 0 then {} else { base := g 0 8, logn := g 8 4 % 16, en := (g 8 4).testBit 4, head := g 0x10 4 })) ∧
    (h.tcBusy = false → exec .tcCommandDone s = .next s)

/-! ### Control registers -/

/-- DL_ENTRY_WRITE_LOW, DL_ENTRY_WRITE_HIGH, DL_REVOKE, DL_REVOKE_DONE and RT_ROW_WRITE (17 R328 to R331): a low doubleword is staged; a high one makes the entry if the writer may delegate it,
else ERR is set and the entry stays; a revocation raises the generation, after which no entry below is effective; a routing cell changes only where the writer's level allows.
Where it meets a choice of the model, it is this one: which writes with reserved bits are dropped whole (log 57). -/
def Obligations.DelegationAndRouting : Prop :=
  ∀ (s : State) (w : Writer) (index row : Nat) (value : BitVec 64) (word : BitVec 32),
    let h := s.hub
    let low := tget 0 index h.dlLow
    let hi := value.toNat
    let parent := tget {} w.entry h.dl
    let e : Delegation := { gen := hi / 2 ^ 32 % 2 ^ 16, pgen := hi / 2 ^ 16 % 2 ^ 16, parent := hi / 2 ^ 8 % 2 ^ 8, grantee := hi % 2 ^ 8 * 256 + low / 2 ^ 56 % 2 ^ 8, level := low / 2 ^ 54 % 4, v := low.testBit 53, mask := low % 2 ^ 16 }
    let good : Prop := 2 ≤ index ∧ index < 256 ∧ hi / 2 ^ 48 = 0 ∧ low / 2 ^ 16 % 2 ^ 37 = 0 ∧ e.mask.testBit 15 = false ∧ e.parent = w.entry ∧ s.writerHolds w 5 = true ∧ e.mask &&& parent.mask = e.mask ∧ e.level = w.level + 1 ∧ e.level ≤ 2 ∧ ∀ x ∈ h.dl, x.2.v = true → x.2.parent = index → x.1 = index ∨ x.1 < 2
    let i := word.toNat % 256
    let old : Delegation := tget {} i h.dl
    let takes : Prop := 2 ≤ i ∧ h.dlBusy = false ∧ old.parent = w.entry ∧ s.writerHolds w 5 = true
    let cell (t : State) (l : Nat) : Nat := tget 0 row t.hub.rt / 2 ^ (16 * l) % 2 ^ 16
    let field (x l : Nat) : Nat := x / 2 ^ (16 * l) % 2 ^ 16
    let levels (p : RowPart) : List Nat := match p with | .all => [0, 1, 2] | .low => [0, 1] | .high => [2]
    let given (p : RowPart) : Nat := match p with | .high => hi % 2 ^ 32 * 2 ^ 32 | _ => hi
    let plain (p : RowPart) : Prop := ∀ l ∈ levels p, field (given p) l / 8 % 2 ^ 5 = 0
    let may : Prop := row < 48 ∧ s.writerHolds w 6 = true
    (index < 256 → exec (.dlEntryWriteLow w index value) s = .next { s with hub := { h with dlLow := tset 0 index value.toNat h.dlLow } }) ∧
    (256 ≤ index → exec (.dlEntryWriteLow w index value) s = .next s) ∧
    (good → exec (.dlEntryWriteHigh w index value) s = .next { s with hub := { h with dl := tput index e h.dl, dlLow := tdel index h.dlLow, dlErr := false } }) ∧
    (¬ good → exec (.dlEntryWriteHigh w index value) s = .next { s with hub := { h with dlErr := true, dlLow := tdel index h.dlLow } }) ∧
    (takes → exec (.dlRevoke w word) s = .next { s with hub := { h with dl := tput i { old with gen := (old.gen + 1) % 2 ^ 16 } h.dl, dlBusy := true, dlErr := false } }) ∧
    (¬ takes → exec (.dlRevoke w word) s = .next { s with hub := { h with dlErr := true } }) ∧
    exec .dlRevokeDone s = .next { s with hub := { h with dlBusy := false } } ∧
    (∀ k, 2 ≤ k → (tget {} k h.dl).pgen ≠ (tget {} (tget {} k h.dl).parent h.dl).gen → s.chain k = none) ∧
    (∀ p, may → plain p → ∃ t, exec (.rtRowWrite w row p value) s = .next t ∧ (∀ l, l < 3 → cell t l = if l ∈ levels p ∧ w.level ≤ l ∧ field (given p) l % 4 ≤ w.level then field (given p) l else cell s l) ∧ (∀ k, k ≠ row → tget 0 k t.hub.rt = tget 0 k h.rt)) ∧
    (∀ p, ¬ may ∨ ¬ plain p → exec (.rtRowWrite w row p value) s = .next s)

/-- PW_SHARE_WRITE, BW_SHARE_WRITE, PARTITION_TABLE_WRITE and LK_MODULE_WRITE (17 R317, R325, R333, R357): a share is taken from a writer that holds PWR for a tenant of its own, in an entry of its own,
while the valid shares sum to the whole or less; a partition is defined over dies that no other holds, changed only while undefined, and undefined only
without resident contexts; the module number changes only without any.
Where it meets a choice of the model, it is this one: that a context counts as resident while it has a team or a grid (log 56). -/
def Obligations.SharesAndPartitions : Prop :=
  ∀ (s : State) (w : Writer) (index die entry : Nat) (value : BitVec 32) (x : BitVec 64),
    let h := s.hub
    let at_ (y lo n : Nat) : Nat := y / 2 ^ lo % 2 ^ n
    let v := value.toNat
    let share := v &&& 0x8FFFF7FF
    let old := tget 0 index h.pwShare
    let sum (l : List Nat) : Nat := l.foldl (· + ·) 0
    let others := sum ((h.pwShare.filter (fun y => y.1 ≠ index && y.2.testBit 31 && y.2 / 2 ^ 32 == w.level)).map (fun y => at_ y.2 0 11))
    let own (y : Nat) : Prop := w.level = 0 ∨ s.ownTenant w (at_ y 12 16) = true
    let power : Prop := index < 256 ∧ w.level ≤ 1 ∧ s.writerHolds w 2 = true ∧ own share ∧ (w.level = 0 ∨ old.testBit 31 = false ∨ (old / 2 ^ 32 = 1 ∧ own old)) ∧ (share.testBit 31 = true → others + at_ share 0 11 ≤ 1024)
    let band := v &&& 0x80FFFFFF
    let was := tget 0 index (s.die die).bwShare
    let rest := sum (((s.die die).bwShare.filter (fun y => y.1 ≠ index && y.2.testBit 31)).map (fun y => at_ y.2 0 8))
    let memory : Prop := die < 24 ∧ index < 64 ∧ ((w.level = 0 ∧ s.atLevel w = true) ∨ (w.level = 1 ∧ s.writerHolds w 2 = true ∧ s.ownTenant w (at_ band 8 16) = true ∧ (was.testBit 31 = false ∨ s.ownTenant w (at_ was 8 16) = true))) ∧ (band.testBit 31 = true → rest + at_ band 0 8 ≤ 256)
    let p : Partition := tget {} entry h.pt
    let table : Prop := entry < 24 ∧ w.level = 0 ∧ s.writerHolds w 1 = true
    let free : Prop := p.dies ≠ 0 ∧ ∀ y ∈ h.pt, y.1 ≠ entry → y.2.v = true → y.2.dies &&& p.dies = 0
    let empty : Prop := ∀ c ∈ s.contexts, c.2.part = entry → s.ctxResident c.1 = false
    let stays (f : PartField) : Prop := exec (.partitionTableWrite w entry f x) s = .next s
    let becomes (f : PartField) (q : Partition) : Prop := exec (.partitionTableWrite w entry f x) s = .next { s with hub := { h with pt := tput entry q h.pt } }
    (power → exec (.pwShareWrite w index value) s = .next { s with hub := { h with pwShare := tset 0 index (share + w.level * 2 ^ 32) h.pwShare } }) ∧
    (¬ power → exec (.pwShareWrite w index value) s = .next s) ∧
    (memory → ∃ t, exec (.bwShareWrite w die index value) s = .next t ∧ t.die die = { s.die die with bwShare := tset 0 index band (s.die die).bwShare } ∧ ∀ k, k ≠ die → t.die k = s.die k) ∧
    (¬ memory → exec (.bwShareWrite w die index value) s = .next s) ∧
    (table → x = 1 → free → becomes .ctl { p with v := true }) ∧ (table → x = 1 → ¬ free → stays .ctl) ∧
    (table → x = 0 → p.v = true → empty → ∃ t, exec (.partitionTableWrite w entry .ctl x) s = .next t ∧ tget {} entry t.hub.pt = { p with v := false } ∧ (∀ c ∈ t.contexts, c.2.part ≠ entry) ∧ ∀ c ∈ s.contexts, c.2.part ≠ entry → c ∈ t.contexts) ∧
    (table → x = 0 → p.v = true → ¬ empty → stays .ctl) ∧ (table → x = 0 → p.v = false → becomes .ctl p) ∧
    (table → p.v = false → x.toNat < 2 ^ 24 → becomes .dies { p with dies := x.toNat }) ∧ (table → p.v = false → x.toNat % 2 ^ 16 = 0 → x.toNat < 2 ^ 52 → becomes .s2root { p with s2root := x.toNat }) ∧
    (p.v = true → x.toNat ≠ p.dies → stays .dies) ∧ (p.v = true → x.toNat ≠ p.s2root → stays .s2root) ∧ (∀ f, p.v = true → f = .dies ∨ f = .s2root → ∃ t, exec (.partitionTableWrite w entry f x) s = .next t ∧ tget {} entry t.hub.pt = p ∧ t.contexts = s.contexts) ∧ stays .reserved ∧ (∀ f, ¬ table → stays f) ∧
    (w.level = 0 → s.writerHolds w 14 = true → (∀ c ∈ s.contexts, s.ctxResident c.1 = false) → exec (.lkModuleWrite w value) s = .next { s with hub := { h with module := v % 2 ^ 13 } }) ∧
    ((w.level ≠ 0 ∨ s.writerHolds w 14 = false ∨ ∃ c ∈ s.contexts, s.ctxResident c.1 = true) → exec (.lkModuleWrite w value) s = .next s)

/-- PF_SEL_WRITE, RMF_ENTRY_WRITE, RD_CTL_WRITE and REGISTER_WRITE (00 R9; 03 R50, R55, R61; 13 R254; 16 R305; 17 R315, R320, R325, R332, R337): what a write to a control register stores, with the
bits that are reserved left out; a write that its writer may not make changes nothing; the registers of the other blocks are written by address as by name; what a read gives, and that one whose rights do not reach the block gives 0.
Where it meets a choice of the model, it is this one: how reserved bits are dropped (log 57), who owns a halt block (log 69), who may claim a remap entry (log 70), where a read's value stands (log 37), and which right a read asks, and that one without it gives 0 (log 80). -/
def Obligations.ControlRegisters : Prop :=
  ∀ (s : State) (w : Writer) (slice core index ctx die : Nat) (value : BitVec 32) (entry : BitVec 64),
    let v := value.toNat
    let e := entry.toNat
    let x := s.slice slice
    let c := s.context ctx
    let reg (a : BitVec 52) : Instr := .registerWrite w a 4 (value.setWidth 64)
    let hub (o : Nat) : BitVec 52 := BitVec.ofNat 52 (0xFFF0000000000 + o)
    let dieReg (o : Nat) : BitVec 52 := BitVec.ofNat 52 (0xF000000000000 + die * 0x1000000 + o)
    let filter : Prop := slice < 768 ∧ index < 8 ∧ w.level ≤ 1 ∧ s.atLevel w = true
    let stored (canon : Bool) : Nat := if canon then e % 2 ^ 40 else e % 2 ^ 56 + e / 2 ^ 63 * 2 ^ 63
    let own (y : Nat) : Prop := y % 2 ^ 16 = w.tenant.toNat
    let prev := tget 0 index (s.core core).alias_
    let remap (canon : Bool) : Prop := core < 1536 ∧ index < 64 ∧ s.writerHolds w 13 = true ∧ (w.level ≤ 1 ∨ (if canon then own prev else (prev = 0 ∨ own prev) ∧ own (stored false)))
    let outside (a : Nat) : Prop := ∀ k ∈ s.contexts, ¬ (k.2.haltb ≤ a ∧ a < k.2.haltb + 0x20) ∧ ¬ (k.2.raceb ≤ a ∧ a < k.2.raceb + 0x38)
    let halt (o : Nat) : BitVec 52 := BitVec.ofNat 52 (c.haltb + o)
    let found (a : Nat) : Prop := s.contexts.find? (fun k => decide (k.2.haltb ≤ a) && decide (a < k.2.haltb + 0x20)) = some (ctx, c) ∧ c.haltb + 0x20 ≤ 2 ^ 52 ∧ c.haltb % 32 = 0
    let block (f : HaltBlock → HaltBlock) (t : State) : Prop := t.context ctx = { c with hb := f c.hb } ∧ t.hub = s.hub ∧ t.dies = s.dies
    let die1 (f : Die → Die) (t : State) : Prop := t.die die = f (s.die die) ∧ t.contexts = s.contexts ∧ t.hub = s.hub
    let trk : Prop := w.level = 0 ∧ s.writerHolds w 14 = true ∧ die < 24
    let reads (a : BitVec 52) (y : Nat) : Prop := ∀ f bs, ∃ t, exec (.rootPortDma f (a.setWidth 64) (.register w 4) bs) s = .next t ∧ t.hub.answer = toBytes y 4 ∧ t.groups = s.groups ∧ t.contexts = s.contexts ∧ t.mem = s.mem
    let hall : Prop := w.level = 0 ∧ s.writerHolds w 14 = true
    let same (a : BitVec 52) (i : Instr) : Prop := outside a.toNat → exec (reg a) s = exec i s
    let same8 (a : BitVec 52) (i : Instr) : Prop := outside a.toNat → exec (.registerWrite w a 8 entry) s = exec i s
    (filter → ∃ t, exec (.pfSelWrite w slice index value) s = .next t ∧ t.slice slice = { x with sel := tset 0 index (v % 2 ^ 17) x.sel, pf := [0, 1, 2, 3].foldl (fun t k => tset 0 (9 * k + index) 0 t) x.pf } ∧ ∀ k, k ≠ slice → t.slice k = s.slice k) ∧
    (¬ filter → exec (.pfSelWrite w slice index value) s = .next s) ∧
    (remap false → ∃ t, exec (.rmfEntryWrite w core index false entry) s = .next t ∧ t.core core = { s.core core with alias_ := tset 0 index (stored false) (s.core core).alias_ }) ∧
    (remap true → ∃ t, exec (.rmfEntryWrite w core index true entry) s = .next t ∧ t.core core = { s.core core with canon := tset 0 index (stored true) (s.core core).canon }) ∧
    (∀ b, ¬ remap b → exec (.rmfEntryWrite w core index b entry) s = .next s) ∧
    (s.holdsOver w ctx 10 = true → ∃ t, exec (.rdCtlWrite w ctx value) s = .next t ∧ t.context ctx = { c with rd := { c.rd with en := value.getLsbD 0, mode := value.getLsbD 1, logwr := if value.getLsbD 0 = true ∧ c.rd.en = false then 0 else c.rd.logwr } }) ∧
    (s.holdsOver w ctx 10 = false → exec (.rdCtlWrite w ctx value) s = .next s) ∧
    (∀ o f, (o, f) ∈ [(0x18, fun b => { b with wdt := v % 2 ^ 24 }), (0x1C, fun b => { b with debugBits := v % 2 }), (0x14, fun b => { b with stop := b.stop % 2 ^ 32 / 2 ^ 12 * 2 ^ 12 + v * 2 ^ 32 })] → found (c.haltb + o) → s.ownsHalt w ctx = true → ∃ t, exec (reg (halt o)) s = .next t ∧ block f t) ∧
    (found (c.haltb + 4) → s.ownsHalt w ctx = true → v % 8 = 0 ∨ 4 < v % 8 → ∃ t, exec (reg (halt 4)) s = .next t ∧ block (fun b => { b with cmd := v % 8 }) t) ∧
    (∀ i, found (c.haltb + 4) → (v % 8, i) ∈ [(1, Instr.haltResume ctx w), (2, .haltStep ctx w), (3, .haltPreempt ctx w), (4, .haltTerminate ctx w)] → exec (reg (halt 4)) s = exec i s) ∧
    (∀ o, o < 0x20 → o % 4 = 0 → found (c.haltb + o) → s.ownsHalt w ctx = false → exec (reg (halt o)) s = .next s) ∧
    (∀ o y, (o, y) ∈ [(4, c.hb.cmd), (8, c.hb.first), (0x18, c.hb.wdt)] → found (c.haltb + o) → reads (halt o) (if s.holdsOver w ctx 11 = true then y else 0)) ∧
    (∀ a y, outside a.toNat → (a, y) ∈ [(dieReg 4, (s.die die).hptEpoch), (dieReg 8, (s.die die).hptThr), (hub 0x60000, s.hub.module)] → die < 24 → (hall → reads a y) ∧ (¬ hall → reads a 0)) ∧
    (outside (dieReg 0xC0108).toNat → die < 24 → reads (dieReg 0xC0108) (if s.atLevel w = true ∧ (w.level = 0 ∨ s.writerHolds w 2 = true) then (s.die die).bwThr else 0)) ∧
    (∀ f bs (a : BitVec 52) n, n ≠ 4 → n ≠ 8 → ∃ t, exec (.rootPortDma f (a.setWidth 64) (.register w n) bs) s = .next t ∧ t.hub.answer = toBytes 0 n) ∧
    (∀ o f, (o, f) ∈ [(0x40008, fun h => { h with tcArg0 := h.tcArg0 / 2 ^ 32 * 2 ^ 32 + v }), (0x4000C, fun h => { h with tcArg0 := h.tcArg0 % 2 ^ 32 + v * 2 ^ 32 }), (0x40010, fun h => { h with tcArg1 := h.tcArg1 / 2 ^ 32 * 2 ^ 32 + v }), (0x40014, fun h => { h with tcArg1 := h.tcArg1 % 2 ^ 32 + v * 2 ^ 32 })] →
      outside (0xFFF0000000000 + o) → s.atLevel w = true → exec (reg (hub o)) s = .next { s with hub := f s.hub }) ∧
    (∀ o f, (o, f) ∈ [(0x04, fun d => { d with hptEpoch := max 1 (v % 2 ^ 16) }), (0x08, fun d => { d with hptThr := v % 2 ^ 16 })] → outside (0xF000000000000 + die * 0x1000000 + o) → trk → ∃ t, exec (reg (dieReg o)) s = .next t ∧ die1 f t) ∧
    (outside (0xF000000000000 + die * 0x1000000 + 0x90000) → trk → ∃ t, exec (reg (dieReg 0x90000)) s = .next t ∧ tget {} 0 (t.die die).fw = { tget {} 0 (s.die die).fw with ctl := v % 4 } ∧ t.contexts = s.contexts) ∧
    (outside (0xF000000000000 + die * 0x1000000 + 0xC0108) → w.level = 0 → s.atLevel w = true → die < 24 → ∃ t, exec (reg (dieReg 0xC0108)) s = .next t ∧ die1 (fun d => { d with bwThr := v % 2 ^ 12 }) t) ∧
    (∀ k, k < 8 → outside (0xF000000000000 + die * 0x1000000 + 0x80000 + k * 0x1000) → w.level = 0 → s.atLevel w = true → die < 24 → ∃ t, exec (reg (dieReg (0x80000 + k * 0x1000))) s = .next t ∧ t.cluster (8 * die + k) = { s.cluster (8 * die + k) with drpThr := v % 2 ^ 8 } ∧ t.contexts = s.contexts) ∧
    (∀ o, o < 0xF0000 → ¬ (0x10000 ≤ o ∧ o < 0x30000) → ¬ (0x40000 ≤ o ∧ o < 0x80000) → ¬ (0xC0000 ≤ o ∧ o < 0xC0100) → outside (0xF000000000000 + die * 0x1000000 + o) → w.level ≠ 0 → die < 24 → exec (reg (dieReg o)) s = .next s) ∧
    (die < 24 → same (dieReg 0) (.hptCtlWrite w die value)) ∧ (∀ k i, die < 24 → k < 32 → i < 8 → same (dieReg (0x10000 + 0x1000 * k + 4 * i)) (.pfSelWrite w (32 * die + k) i value)) ∧
    (∀ k i, die < 24 → k < 64 → i < 64 → same8 (dieReg (0x40000 + 0x1000 * k + 16 * i)) (.rmfEntryWrite w (64 * die + k) i false entry) ∧ same8 (dieReg (0x40000 + 0x1000 * k + 16 * i + 8)) (.rmfEntryWrite w (64 * die + k) i true entry)) ∧
    (∀ i, die < 24 → i < 64 → same (dieReg (0xC0000 + 4 * i)) (.bwShareWrite w die i value)) ∧ (∀ i, i < 256 → same (hub (0x10000 + 4 * i)) (.pwShareWrite w i value)) ∧
    (∀ i, i < 256 → same8 (hub (0x20000 + 16 * i)) (.dlEntryWriteLow w i entry) ∧ same8 (hub (0x20000 + 16 * i + 8)) (.dlEntryWriteHigh w i entry)) ∧ same (hub 0x21000) (.dlRevoke w value) ∧
    (∀ i, i < 48 → same8 (hub (0x30000 + 8 * i)) (.rtRowWrite w i .all entry)) ∧ same (hub 0x60000) (.lkModuleWrite w value) ∧
    (∀ i, i < 24 → same (hub (0x50000 + 32 * i)) (.partitionTableWrite w i .ctl (value.setWidth 64)) ∧ same (hub (0x50000 + 32 * i + 4)) (.partitionTableWrite w i .dies (value.setWidth 64)) ∧ same8 (hub (0x50000 + 32 * i + 8)) (.partitionTableWrite w i .s2root entry)) ∧
    (∀ i, (v, i) ∈ [(1, Instr.tcInvalidateS1 w), (2, .tcInvalidateS2 w), (3, .tcReloadContext w), (4, .tcReloadTask w)] → same (hub 0x40000) i) ∧
    (∀ a n y, n ≠ 4 → n ≠ 8 → exec (.registerWrite w a n y) s = .next s) ∧ (∀ a n y, a.toNat % n ≠ 0 → exec (.registerWrite w a n y) s = .next s)

/-! ### Links, the host and boot -/

/-- FIREWALL_FLIT, FLIT_CRC_FAIL and LINK_DOWN (16 R308, R313; 17 R332, R339): a packet that a port's firewall lets through changes nothing, one that it refuses is held or halts its context with the
reason; a CRC failure that the link-level replay mends leaves no trace, one that needs the retry is logged, and one that outlasts it faults; a
group that meets a port that is down halts with its context.
Where it meets a choice of the model, it is this one: that a packet without a request halts its context without a record (log 60). -/
def Obligations.LinkFaults : Prop :=
  ∀ (s : State) (f : Flit) (l : CrcFail) (port gid ctx : Nat) (addr : BitVec 56),
    let fw : Firewall := tget {} f.port (s.die f.die).fw
    let a := f.addr.toNat
    let why : Option Nat := if fw.ctl % 2 = 0 then some 1 else if fw.ctl / 2 % 2 = 1 ∧ ¬ (fw.base ≤ a ∧ a < fw.limit) then some 2 else if (∃ t ∈ fw.ten, t.2.testBit 16 = true) ∧ ∀ t ∈ fw.ten, t.2 ≠ 2 ^ 16 + f.tenant.toNat then some 3 else none
    let moving (n : Nat) (r : Req) : Prop := s.req n = some r ∧ r.moving = true ∧ r.ctx = f.ctx
    let seq := (if l.chipToChip then s.hub.log.count else (s.die l.die).log.count) + 1
    let unit := if l.chipToChip then 10 else 9
    let log (t : State) : ErrLog := if l.chipToChip then t.hub.log else (t.die l.die).log
    (why = none → exec (.firewallFlit f) s = .next s) ∧
    (∀ k n r, why = some k → f.req = some n → moving n r → exec (.firewallFlit f) s = .next (s.sliceFault n r (fFirewall k f.tenant.toNat a f.inbound f.port f.die))) ∧
    (∀ k, why = some k → f.req = none → (tfind f.ctx s.contexts).isSome = true → exec (.firewallFlit f) s = .next (s.raise f.ctx (fFirewall k f.tenant.toNat a f.inbound f.port f.die) { die := f.die })) ∧
    (l.replayFails = false → exec (.flitCrcFail l) s = .next s) ∧
    (l.replayFails = true → l.retryFails = false → ∃ t e, exec (.flitCrcFail l) s = .next t ∧ (log t).count = seq % 2 ^ 64 ∧ (log t).trans = ((log s).trans + 1) % 2 ^ 64 ∧ (log t).last = (log s).last ∧ tfind (seq % 2 ^ 64 % 32) (log t).entries = some e ∧ e.seq = seq % 2 ^ 64 ∧ e.time = s.devTime ∧ e.addr = l.addr.toNat ∧ e.info / 2 ^ 8 % 16 = unit ∧ e.info / 2 ^ 12 % 2 = 0 ∧ t.contexts = s.contexts ∧ t.groups = s.groups) ∧
    (l.replayFails = true → l.retryFails = true → l.req = none → (tfind l.ctx s.contexts).isSome = true → (s.context l.ctx).hb.halt = false → ∃ t, exec (.flitCrcFail l) s = .next t ∧ (log t).last = ((log s).last + 1) % 2 ^ 64 ∧ (log t).trans = (log s).trans ∧ (t.context l.ctx).hb.halt = true ∧ (t.context l.ctx).hb.first = (if l.chipToChip then 0 else l.die * 2 ^ 17) + 16) ∧
    (s.resident gid = true → (s.group gid).ctx = ctx → ∃ t, exec (.linkDown port (some gid) ctx addr) s = .next t ∧ port ∈ t.hub.linkDown ∧ (∀ p ∈ s.hub.linkDown, p ∈ t.hub.linkDown) ∧ (t.context ctx).hb.halt = true ∧ ((s.group gid).stop.cause = 0 → (t.group gid).stop.cause = 18 ∧ (t.group gid).stop.detail = (fLink addr.toNat 1 true port).detail))

/-- PEER_DIRECT_WRITE, ROOT_PORT_DMA, BOOT and ATTESTATION_REQUEST (17 R338, R339, R341, R342; 10 R193, R208): an access that reaches a line of one that waits, or finds the filter full or a page in a swap, waits; a peer writes only into pinned pages, once; the root port reads and writes as the context assigned to its function may; an application core loads, stores and does atomics on device memory; boot
verifies each stage and the configuration in order, then writes the measurements, the root entries and the partitions, and a failure holds the module in reset;
a report covers the configuration of the requester's partition, the nonce and the boot counter.
Where it meets a choice of the model, it is this one: the filter that a peer's access passes, and how a function is assigned (log 73), that nothing of a failed transfer lands (log 59), for which partition level 0 may ask (log 38), how a failed boot is logged (log 58), and that boot brings the link map (log 82); the digests and signatures are opaque (log 3). -/
def Obligations.HostAndBoot : Prop :=
  ∀ (s : State) (p : PeerAccess) (w : Writer) (part ctx fn : Nat) (va : BitVec 64) (bytes nonce : List (BitVec 8)) (b : BootImage),
    let addr := va.toNat % 2 ^ 52
    let at_ (k : Nat) : Option Nat := match s.stage2 p.part hubWalker (p.addr.toNat + k) with | .ok (h, _) => if h.entry.testBit 59 then some h.out else none | .error _ => none
    let size := opSize p.op
    let pinned : Prop := 0 < size ∧ (∀ k, k < size → at_ k ≠ none) ∧ (∀ j k, j < size → k < size → at_ j = at_ k → j = k)
    let cells := (List.range size).filterMap at_
    let run (ty kind : Nat) (cas : Bool) (x y : Nat) (cells : List Nat) : List Nat × Nat := atomRun { ty := ty, kind := kind, cas := cas } [⟨0, 0, x, y⟩] (ofBytes (cells.map s.memByte))
    let after (op : PeerOp) (cells : List Nat) : List Byte := match op with | .write bs => bs | .atomic ty kind cas x y => toBytes (run ty kind cas x y cells).2 (tyBits ty / 8)
    let filter := (s.slice (inboundSlice (cells.headD 0))).replay
    let known (e : Replay) : Prop := e.port = linkPort p.port ∧ e.tag = p.tag.toNat
    let plain : List Nat := (List.range bytes.length).map (fun k => addr + k)
    let stored (t : State) (cells : List Nat) (bs : List Byte) : Prop := (∀ (k ma : Nat) (x : Byte), cells[k]? = some ma → bs[k]? = some x → t.memByte ma = x) ∧ (∀ z, z ∉ cells → t.memByte z = s.memByte z) ∧ t.groups = s.groups
    let uncached : Prop := ∀ x ∈ s.slices, x.2.lines = []
    let there : Prop := (tfind ctx s.contexts).isSome = true
    let assigned : Prop := tfind fn s.hub.functions = some ctx
    let asks : Prop := s.atLevel w = true ∧ (w.level = 0 ∨ s.chainPartition w.entry = some part)
    let spread : Table (Table Byte) := byLine (bytes.zipIdx.map (fun x => ((va.toNat + x.2) % 2 ^ 56, x.1)))
    let sound (x : List (BitVec 8) × List (BitVec 8)) : Prop := Config.verifies (Config.shake256 x.1) x.2 = true
    let config : Prop := sound (b.config, b.configSig) ∧ b.configKey = Config.identityKey
    let start : Prop := s.hub.booted = false ∧ s.hub.failed = none
    let h := s.hub
    let free (x : HubAccess) : Prop := ∀ y ∈ h.waits, s.hubConflict y x = false
    let clear (x : HubAccess) : Prop := free x ∧ s.hubStalls x = false
    let host (a : HostAccess) : HubAccess := .host fn va a bytes
    let met (n : Nat) := (s.peekRun ctx { rd := true } .engineRead va.toNat n).2
    (uncached → pinned → free (.peer p) → (∀ e ∈ filter, ¬ known e) → filter.length < 64 → ∃ t e, exec (.peerDirectWrite p.addr p.part p.toPeerFlit) s = .next t ∧ stored t cells (after p.op cells) ∧ t.hub = h ∧ (t.slice (inboundSlice (cells.headD 0))).replay = filter ++ [e] ∧ known e ∧
      e.reply = (match p.op with | .write _ => [] | .atomic ty kind cas x y => (run ty kind cas x y cells).1)) ∧
    (pinned → free (.peer p) → (∃ e ∈ filter, known e) → exec (.peerDirectWrite p.addr p.part p.toPeerFlit) s = .next s) ∧
    (pinned → (∀ e ∈ filter, ¬ known e) → 64 ≤ filter.length → exec (.peerDirectWrite p.addr p.part p.toPeerFlit) s = .next { s with hub := { h with waits := h.waits ++ [.peer p] } }) ∧
    (¬ clear (.peer p) → exec (.peerDirectWrite p.addr p.part p.toPeerFlit) s = .next { s with hub := { h with waits := h.waits ++ [.peer p] } }) ∧
    (∀ a n, a = .dmaRead n ∨ a = .dmaWrite ∨ a = .load n ∨ a = .store ∨ (∃ ty kind cas x y, a = .atomic ty kind cas x y) → ¬ clear (host a) → exec (.rootPortDma fn va a bytes) s = .next { s with hub := { h with waits := h.waits ++ [host a] } }) ∧
    ((∃ k, k < size ∧ at_ k = none) → ∃ t, exec (.peerDirectWrite p.addr p.part p.toPeerFlit) s = .next t ∧ t.mem = s.mem ∧ t.slices = s.slices ∧ t.hub.interrupts = h.interrupts ++ [{ row := 19, level := 0, vector := tget 0 19 h.rt / 2 ^ 8 % 2 ^ 8, who := p.part, detail := (fFirewall 2 0 p.addr.toNat true 0 0).detail }]) ∧
    (w.level ≤ 1 → s.holdsOver w ctx 5 = true → there → ∃ t, exec (.rootPortDma fn va (.assign w ctx) bytes) s = .next t ∧ t.hub = { h with functions := tput fn ctx h.functions }) ∧
    (1 < w.level ∨ s.holdsOver w ctx 5 = false ∨ ¬ there → exec (.rootPortDma fn va (.assign w ctx) bytes) s = .next s) ∧
    (∀ u, assigned → there → clear (host .dmaWrite) → s.slicePokes ctx { wr := true } .engineWrite spread = .ok u → exec (.rootPortDma fn va .dmaWrite bytes) s = .next u) ∧
    (∀ e, assigned → there → clear (host .dmaWrite) → s.slicePokes ctx { wr := true } .engineWrite spread = .error e → exec (.rootPortDma fn va .dmaWrite bytes) s = .next ((s.pokesMet ctx { wr := true } .engineWrite spread).raise ctx e { die := s.faultDie ctx e })) ∧
    (∀ n bs, assigned → there → clear (host (.dmaRead n)) → s.slicePeeks ctx { rd := true } .engineRead va.toNat n = .ok bs → ∃ t, exec (.rootPortDma fn va (.dmaRead n) bytes) s = .next t ∧ t.hub = { (met n).hub with answer := bs } ∧ t.mem = s.mem ∧ t.groups = s.groups) ∧
    (∀ n e, assigned → there → clear (host (.dmaRead n)) → s.slicePeeks ctx { rd := true } .engineRead va.toNat n = .error e → exec (.rootPortDma fn va (.dmaRead n) bytes) s = .next ((met n).raise ctx e { die := s.faultDie ctx e })) ∧
    (∀ n, tfind fn h.functions = none → exec (.rootPortDma fn va .dmaWrite bytes) s = .next s ∧ exec (.rootPortDma fn va (.dmaRead n) bytes) s = .next s) ∧
    (∀ n, uncached → clear (host (.load n)) → 0 < n → (∀ k, k < n → backed (addr + k) = true) → ∃ t, exec (.rootPortDma fn va (.load n) bytes) s = .next t ∧ t.hub = { h with answer := (List.range n).map (fun k => s.memByte (addr + k)) } ∧ t.mem = s.mem ∧ t.groups = s.groups) ∧
    (uncached → clear (host .store) → bytes ≠ [] → (∀ z ∈ plain, backed z = true) → ∃ t, exec (.rootPortDma fn va .store bytes) s = .next t ∧ stored t plain bytes ∧ t.hub = h) ∧
    (∀ ty kind cas x y, let cells := (List.range (tyBits ty / 8)).map (fun k => addr + k)
      uncached → clear (host (.atomic ty kind cas x y)) → cells ≠ [] → (∀ z ∈ cells, backed z = true) → addr % (tyBits ty / 8) = 0 → ∃ t, exec (.rootPortDma fn va (.atomic ty kind cas x y) bytes) s = .next t ∧ stored t cells (after (.atomic ty kind cas x y) cells) ∧ t.hub.answer = toBytes ((run ty kind cas x y cells).1.headD 0) (tyBits ty / 8)) ∧
    (∀ k n, (clear (host .store) ∧ k < bytes.length ∧ backed (addr + k) = false → exec (.rootPortDma fn va .store bytes) s = .next s) ∧ (clear (host (.load n)) ∧ k < n ∧ backed (addr + k) = false → exec (.rootPortDma fn va (.load n) bytes) s = .next s)) ∧
    (start → (∀ x ∈ b.stages, sound x) → config → h.pt = [] → (∀ k p q, b.partitions[k]? = some p → k < 24 → p.1 ≠ 0 ∧ p.2.toNat % 2 ^ 16 = 0 ∧ (∀ j, j ≠ k → b.partitions[j]? = some q → p.1 &&& q.1 = 0)) →
      ∃ t, exec (.boot b) s = .next t ∧ t.hub.booted = true ∧ t.hub.failed = none ∧ t.hub.bootCount = (h.bootCount + 1) % 2 ^ 64 ∧ t.hub.measurements = b.stages.map (fun x => Config.shake256 x.1) ∧ t.hub.module = b.module.toNat ∧ t.hub.links = b.links ∧ t.mem = s.mem ∧
        (∀ i, i < 2 → tget {} i t.hub.dl = { gen := 0, pgen := 0, parent := i, grantee := 0, level := 0, v := true, mask := (if i = 0 then b.rootMask0 else b.rootMask1).toNat % 2 ^ 15 }) ∧
        (∀ k p, b.partitions[k]? = some p → k < 24 → tget {} k t.hub.pt = { v := true, dies := p.1.toNat, s2root := p.2.toNat })) ∧
    (∀ k x, start → b.stages[k]? = some x → ¬ sound x → (∀ j y, j < k → b.stages[j]? = some y → sound y) → ∃ t, exec (.boot b) s = .next t ∧ t.hub.failed = some k ∧ t.hub.booted = false ∧ step t = .fault .heldInReset) ∧
    (start → (∀ x ∈ b.stages, sound x) → ¬ config → ∃ t, exec (.boot b) s = .next t ∧ t.hub.failed = some b.stages.length ∧ t.hub.booted = false ∧ step t = .fault .heldInReset) ∧
    (¬ start → exec (.boot b) s = .next s) ∧
    (h.booted = true → asks → (tget {} part h.pt).v = true → nonce.length = 32 → ∃ r, exec (.attestationRequest w part nonce) s = .next { s with hub := { h with reports := h.reports ++ [r] } } ∧ r.measurements = h.measurements ∧ r.nonce = nonce ∧ r.counter = h.bootCount ∧ r.config = Config.shake256 (s.configBytes part) ∧
      r.signature = Config.signs (Config.shake256 (h.measurements.flatten ++ r.config ++ nonce ++ toBytes h.bootCount 8))) ∧
    ((h.booted = false ∨ ¬ asks ∨ (tget {} part h.pt).v = false ∨ nonce.length ≠ 32) → exec (.attestationRequest w part nonce) s = .next s)

/-! ### The whole machine -/

/-- The values that the manual gives for reset (02 R40; 03 R50; 16 R305; 17 R315 to R320, R325, R331, R333, R341): nothing is resident, nothing is in flight, no error is logged, no partition and no
delegation entry is valid, no routing cell is valid, boot has not run; the operating point of every cluster is 4. -/
def Obligations.ResetState : Prop :=
  let s := State.reset
  s.hub.booted = false ∧ s.hub.failed = none ∧ s.groups = [] ∧ s.teams = [] ∧ s.grids = [] ∧ s.contexts = [] ∧ s.ops = [] ∧ s.reqs = [] ∧ s.hub.interrupts = [] ∧ s.hub.log = {} ∧
  (∀ k, (tget {} k s.hub.pt).v = false ∧ (tget {} k s.hub.dl).v = false ∧ tget 0 k s.hub.rt = 0 ∧ tget 0 k s.hub.pwShare = 0 ∧ s.chain k = none) ∧
  s.hub.tcBusy = false ∧ s.hub.dlBusy = false ∧
  (∀ d, (s.die d).hptCtl = 0 ∧ (s.die d).hptEpoch = 0x64 ∧ (s.die d).hptThr = 0x40 ∧ (s.die d).hptSwaps = 0 ∧ (s.die d).hptPinskip = 0 ∧ (s.die d).log = {} ∧ (s.die d).bwThr = 0x2A8 ∧ (s.die d).bwScale = 0x100) ∧
  (∀ k, (s.cluster k).point = 4 ∧ (s.cluster k).relock = none ∧ (s.cluster k).drpThr = 0x28 ∧ (s.cluster k).alarms = 0) ∧
  (∀ c, (s.context c).hb.halt = false ∧ (s.context c).hb.stopped = false ∧ (s.context c).hb.wdt = 0x2710 ∧ (s.context c).rd.en = false)

/-- The invariant holds at reset.
Where it meets a choice of the model, it is this one: the canonical form of memory, and that memory lists nothing at reset (log 1). -/
def Obligations.InvariantAtReset : Prop := State.reset.Inv

/-- Every step keeps the invariant: memory stays in its canonical form, so that equal memories are equal states.
Where it meets a choice of the model, it is this one: the canonical form of memory (log 1). -/
def Obligations.InvariantKept : Prop := ∀ s t : State, s.Inv → step s = .next t → t.Inv

/-- Decoding and encoding agree (01 R13 to R23): the word of every well-formed instruction decodes to it, a skip's to the header it shares with a start; a word that
decodes at all decodes to a well-formed instruction, whose word it is. -/
def Obligations.EncodingAgrees : Prop :=
  (∀ (i : Instr) (w : DWord), i.WF → encode i = some w → decode (bytesOfWord w) = .ok (match i with | .clauseSkip h => .clauseStart h | i => i, [])) ∧
  (∀ (w : DWord) (i : Instr) (rest : List Byte), decode (bytesOfWord w) = .ok (i, rest) → rest = [] ∧ i.WF ∧ encode i = some w)

/-- A step runs the instruction at the PC (01 R13, R24, R28; 16 R304, R311, R341): where the bytes at the PC of the slot that holds the opportunity decode to `i`, the step is `exec` of `i`, or of the skip where the
mask is zero, with the step commands that are over ended after it; a group that returns runs the word that holds it; bytes that do not decode trap with the reason, and a header inside a clause, or
another word outside one, traps; a module held in reset does not step.
Where it meets a choice of the model, it is this one: that a step grants or runs one opportunity (log 5), and how a slot keeps its clause (log 8). -/
def Obligations.StepRunsDecoded : Prop :=
  ∀ (s : State) (gr : Grant) (i : Instr) (bs : List Byte),
    let g := s.group gr.gid
    let x := g.slot gr.slotB
    let closed (o : Host.Outcome State Fault Refusal) : Host.Outcome State Fault Refusal := match o with | .next t => .next t.endSteps | .fault f => .fault f | .refused r => .refused r
    let live : Prop := s.hub.failed = none ∧ s.grant = some gr ∧ s.resident gr.gid = true
    let there : Prop := gr.again = false ∧ x.pc.toNat < 2 ^ 56 ∧ x.pc.toNat % 8 = 0 ∧ s.slicePeeks g.ctx { ex := true } .fetch x.pc.toNat 8 (some (dieOf gr.gid)) = .ok bs
    let header : Prop := ∃ h, i = .clauseStart h
    let traps (f : Flt) : Prop := step s = .next (s.takeTrap gr.gid gr.slotB x.pc f).endSteps
    (live → there → decode bs = .ok (i, []) → (header ↔ x.cl = none) → step s = closed (exec (match i with | .clauseStart h => if g.mask gr.slotB = 0 then .clauseSkip h else .clauseStart h | i => i) s)) ∧
    (∀ w, live → gr.again = true → (g.tables.find? (fun y => y.slotB == gr.slotB) = some w ∨ ((∀ y ∈ g.tables, y.slotB ≠ gr.slotB) ∧ g.wait = some w)) → step s = closed (exec w.instr s)) ∧
    (∀ e, live → there → decode bs = .error (.enc e) → traps (fEncoding e.half e.reason.code (BitVec.ofNat 64 (wordOfBytes bs)))) ∧
    (live → there → decode bs = .ok (i, []) → ¬ (header ↔ x.cl = none) → traps (fEncoding false 5 (BitVec.ofNat 64 (wordOfBytes bs)))) ∧
    (live → gr.again = false → x.pc.toNat < 2 ^ 56 → x.pc.toNat % 8 ≠ 0 → traps (fAlign 0 0 3 x.pc.toNat)) ∧
    (∀ f, live → gr.again = false → x.pc.toNat < 2 ^ 56 → x.pc.toNat % 8 = 0 → s.slicePeeks g.ctx { ex := true } .fetch x.pc.toNat 8 (some (dieOf gr.gid)) = .error f → step s = .next ((s.logFetch gr.gid x.pc f).takeTrap gr.gid gr.slotB x.pc f).endSteps) ∧
    ((∀ c ∈ s.contexts, c.2.hb.stepMode = false) → s.endSteps = s) ∧
    (s.hub.failed ≠ none → step s = .fault .heldInReset)

/-- The form field (01 R12): a word of form 0b00 is one full instruction of its opcode, one of form 0b01 two halves, one of form 0b10 a clause header, and one of form 0b11 is illegal; and words
that the manual writes out in its chapters decode to what they stand for there (01 R14 to R23, R30). -/
def Obligations.WordForms : Prop :=
  let o : FOps := { g := .none, d := 0, a := 0, b := 0, c := 0, bk := .vec, fs := false, ck := false, rm := .rne, sat := false, ox := 0 }
  let half (d s : BitVec 8) : PFields := { g := none, d := d, s := s, imm := false, sub := 0 }
  let reads (w : DWord) (i : Instr) : Prop := decode (bytesOfWord w) = .ok (i, [])
  reads 0x8022402000000000 (.clauseStart { wait := 0b1000, sa := some 2, sb := none, len := 2, yld := false }) ∧
  reads 0x480040481200D0E0 (.faddP (half 8 9) ⟨.fmul, half 13 14⟩) ∧
  reads 0x0809820283000000 (.fadd { o with g := .on false 3, d := 4, a := 5, b := 6 }) ∧
  reads 0x0860050200000000 (.frcp { o with d := 10, a := 4 }) ∧
  reads 0x1C00040201080090 (.ld { o with d := 8, a := 4, b := 2, c := 16, ox := 0x90 }) ∧
  reads 0x2000040481020090 (.lds { o with d := 8, a := 9, b := 2, c := 4, ox := 0x90 }) ∧
  reads 0x2C40000485002000 (.binit { o with a := 9, b := 10, bk := .sca }) ∧
  reads 0x012002003F800000 (.movi { g := .none, d := 4, mods := 0, imm := 0x3F800000 }) ∧
  reads 0x1440048400084003 (.xch { o with d := 9, a := 8, c := 16, bk := .imm, ox := 3 }) ∧
  reads 0x1910048005006000 (.sread { o with d := 9, b := 0x0A, bk := .sys }) ∧
  reads 0x0830020283038400 (.ffma { o with d := 4, a := 5, b := 6, c := 7, rm := .rup }) ∧
  reads 0x1000050580080218 (.cvtff { o with d := 10, a := 11, c := 0x10, rm := .rtz, ox := 0x18 }) ∧
  reads 0x1400010400324002 (.icmp { o with d := 2, a := 8, c := 100, bk := .imm, ox := 2 }) ∧
  reads 0x2800009001800000 (.mma { o with d := 1, a := 32, b := 3 }) ∧
  reads 0x24000201008400C0 (.atom { o with d := 4, a := 2, b := 1, c := 8, ox := 0xC0 }) ∧
  reads 0x302000070080000B (.brs { g := .none, d := 0, a := 14, mods := 1, imm := 11 }) ∧
  reads 0x3400000000024001 (.barv { o with c := 4, bk := .imm, ox := 1 }) ∧
  reads 0x3800080A00000001 (.deq { o with d := 16, a := 20, ox := 1 }) ∧
  reads 0x3C68800000000005 (.bkpt { g := .on false 1, d := 0, a := 0, mods := 0, imm := 5 }) ∧
  reads 0x3C00050000000000 (.tstamp { o with d := 10 }) ∧
  decode (bytesOfWord 0x0140000000000000) = .error (.enc ⟨.opcode, false⟩) ∧
  (∀ (w : DWord) (i : Instr), reads w i → (w.extractLsb' 62 2 = 0 → i.opc = some (w.extractLsb' 52 10)) ∧ (w.extractLsb' 62 2 = 1 → ∃ x y, i = .ofHalves x y) ∧ (w.extractLsb' 62 2 = 2 → ∃ h, i = .clauseStart h)) ∧
  (∀ w : DWord, w.extractLsb' 62 2 = 3 → decode (bytesOfWord w) = .error (.enc ⟨.form, false⟩))

end
end

