-- ==== Sys2Proof/Laws/Exec.lean ====
section
/-! SUPPORT. The meaning that each instruction has, one law per constructor. -/

namespace Sys2Proof.Machine

theorem exec_iadd (o : FOps) (s : State) : exec (.iadd o) s = execIadd o s := rfl
theorem exec_isub (o : FOps) (s : State) : exec (.isub o) s = execIsub o s := rfl
theorem exec_imul (o : FOps) (s : State) : exec (.imul o) s = execImul o s := rfl
theorem exec_imulh (o : FOps) (s : State) : exec (.imulh o) s = execImulh o s := rfl
theorem exec_imad (o : FOps) (s : State) : exec (.imad o) s = execImad o s := rfl
theorem exec_imadw (o : FOps) (s : State) : exec (.imadw o) s = execImadw o s := rfl
theorem exec_iaddc (o : FOps) (s : State) : exec (.iaddc o) s = execIaddc o s := rfl
theorem exec_isubb (o : FOps) (s : State) : exec (.isubb o) s = execIsubb o s := rfl
theorem exec_iabs (o : FOps) (s : State) : exec (.iabs o) s = execIabs o s := rfl
theorem exec_ineg (o : FOps) (s : State) : exec (.ineg o) s = execIneg o s := rfl
theorem exec_imin (o : FOps) (s : State) : exec (.imin o) s = execImin o s := rfl
theorem exec_imax (o : FOps) (s : State) : exec (.imax o) s = execImax o s := rfl
theorem exec_iadds (o : FOps) (s : State) : exec (.iadds o) s = execIadds o s := rfl
theorem exec_isubs (o : FOps) (s : State) : exec (.isubs o) s = execIsubs o s := rfl
theorem exec_idot4 (o : FOps) (s : State) : exec (.idot4 o) s = execIdot4 o s := rfl
theorem exec_idot8 (o : FOps) (s : State) : exec (.idot8 o) s = execIdot8 o s := rfl
theorem exec_lea (o : FOps) (s : State) : exec (.lea o) s = execLea o s := rfl
theorem exec_mov (o : FOps) (s : State) : exec (.mov o) s = execMov o s := rfl
theorem exec_movi (o : Imm32Ops) (s : State) : exec (.movi o) s = execMovi o s := rfl
theorem exec_sel (o : FOps) (s : State) : exec (.sel o) s = execSel o s := rfl
theorem exec_and (o : FOps) (s : State) : exec (.and o) s = execAnd o s := rfl
theorem exec_or (o : FOps) (s : State) : exec (.or o) s = execOr o s := rfl
theorem exec_xor (o : FOps) (s : State) : exec (.xor o) s = execXor o s := rfl
theorem exec_not (o : FOps) (s : State) : exec (.not o) s = execNot o s := rfl
theorem exec_tri (o : FOps) (s : State) : exec (.tri o) s = execTri o s := rfl
theorem exec_shl (o : FOps) (s : State) : exec (.shl o) s = execShl o s := rfl
theorem exec_shr (o : FOps) (s : State) : exec (.shr o) s = execShr o s := rfl
theorem exec_sar (o : FOps) (s : State) : exec (.sar o) s = execSar o s := rfl
theorem exec_shf (o : FOps) (s : State) : exec (.shf o) s = execShf o s := rfl
theorem exec_popc (o : FOps) (s : State) : exec (.popc o) s = execPopc o s := rfl
theorem exec_clz (o : FOps) (s : State) : exec (.clz o) s = execClz o s := rfl
theorem exec_brev (o : FOps) (s : State) : exec (.brev o) s = execBrev o s := rfl
theorem exec_bfe (o : FOps) (s : State) : exec (.bfe o) s = execBfe o s := rfl
theorem exec_bfi (o : FOps) (s : State) : exec (.bfi o) s = execBfi o s := rfl
theorem exec_prmb (o : FOps) (s : State) : exec (.prmb o) s = execPrmb o s := rfl
theorem exec_fadd (o : FOps) (s : State) : exec (.fadd o) s = execFadd o s := rfl
theorem exec_fsub (o : FOps) (s : State) : exec (.fsub o) s = execFsub o s := rfl
theorem exec_fmul (o : FOps) (s : State) : exec (.fmul o) s = execFmul o s := rfl
theorem exec_ffma (o : FOps) (s : State) : exec (.ffma o) s = execFfma o s := rfl
theorem exec_fmin (o : FOps) (s : State) : exec (.fmin o) s = execFmin o s := rfl
theorem exec_fmax (o : FOps) (s : State) : exec (.fmax o) s = execFmax o s := rfl
theorem exec_frcp (o : FOps) (s : State) : exec (.frcp o) s = execFrcp o s := rfl
theorem exec_frsq (o : FOps) (s : State) : exec (.frsq o) s = execFrsq o s := rfl
theorem exec_fsqrt (o : FOps) (s : State) : exec (.fsqrt o) s = execFsqrt o s := rfl
theorem exec_fexp2 (o : FOps) (s : State) : exec (.fexp2 o) s = execFexp2 o s := rfl
theorem exec_flog2 (o : FOps) (s : State) : exec (.flog2 o) s = execFlog2 o s := rfl
theorem exec_ftanh (o : FOps) (s : State) : exec (.ftanh o) s = execFtanh o s := rfl
theorem exec_fsinpi (o : FOps) (s : State) : exec (.fsinpi o) s = execFsinpi o s := rfl
theorem exec_fcospi (o : FOps) (s : State) : exec (.fcospi o) s = execFcospi o s := rfl
theorem exec_frnd (o : FOps) (s : State) : exec (.frnd o) s = execFrnd o s := rfl
theorem exec_fclass (o : FOps) (s : State) : exec (.fclass o) s = execFclass o s := rfl
theorem exec_fscale (o : FOps) (s : State) : exec (.fscale o) s = execFscale o s := rfl
theorem exec_hadd2 (o : FOps) (s : State) : exec (.hadd2 o) s = execHadd2 o s := rfl
theorem exec_hmul2 (o : FOps) (s : State) : exec (.hmul2 o) s = execHmul2 o s := rfl
theorem exec_hfma2 (o : FOps) (s : State) : exec (.hfma2 o) s = execHfma2 o s := rfl
theorem exec_hmin2 (o : FOps) (s : State) : exec (.hmin2 o) s = execHmin2 o s := rfl
theorem exec_hmax2 (o : FOps) (s : State) : exec (.hmax2 o) s = execHmax2 o s := rfl
theorem exec_fdot2 (o : FOps) (s : State) : exec (.fdot2 o) s = execFdot2 o s := rfl
theorem exec_cvtff (o : FOps) (s : State) : exec (.cvtff o) s = execCvtff o s := rfl
theorem exec_cvtfi (o : FOps) (s : State) : exec (.cvtfi o) s = execCvtfi o s := rfl
theorem exec_cvtif (o : FOps) (s : State) : exec (.cvtif o) s = execCvtif o s := rfl
theorem exec_cvtii (o : FOps) (s : State) : exec (.cvtii o) s = execCvtii o s := rfl
theorem exec_pack8 (o : FOps) (s : State) : exec (.pack8 o) s = execPack8 o s := rfl
theorem exec_unpk8 (o : FOps) (s : State) : exec (.unpk8 o) s = execUnpk8 o s := rfl
theorem exec_packq (o : FOps) (s : State) : exec (.packq o) s = execPackq o s := rfl
theorem exec_unpkq (o : FOps) (s : State) : exec (.unpkq o) s = execUnpkq o s := rfl
theorem exec_keyf (o : FOps) (s : State) : exec (.keyf o) s = execKeyf o s := rfl
theorem exec_qscl (o : FOps) (s : State) : exec (.qscl o) s = execQscl o s := rfl
theorem exec_icmp (o : FOps) (s : State) : exec (.icmp o) s = execIcmp o s := rfl
theorem exec_fcmp (o : FOps) (s : State) : exec (.fcmp o) s = execFcmp o s := rfl
theorem exec_plop (o : FOps) (s : State) : exec (.plop o) s = execPlop o s := rfl
theorem exec_vote (o : FOps) (s : State) : exec (.vote o) s = execVote o s := rfl
theorem exec_xch (o : FOps) (s : State) : exec (.xch o) s = execXch o s := rfl
theorem exec_gred (o : FOps) (s : State) : exec (.gred o) s = execGred o s := rfl
theorem exec_pmov (o : FOps) (s : State) : exec (.pmov o) s = execPmov o s := rfl
theorem exec_sadd (o : FOps) (s : State) : exec (.sadd o) s = execSadd o s := rfl
theorem exec_ssub (o : FOps) (s : State) : exec (.ssub o) s = execSsub o s := rfl
theorem exec_smul (o : FOps) (s : State) : exec (.smul o) s = execSmul o s := rfl
theorem exec_sand (o : FOps) (s : State) : exec (.sand o) s = execSand o s := rfl
theorem exec_sor (o : FOps) (s : State) : exec (.sor o) s = execSor o s := rfl
theorem exec_sxor (o : FOps) (s : State) : exec (.sxor o) s = execSxor o s := rfl
theorem exec_sshl (o : FOps) (s : State) : exec (.sshl o) s = execSshl o s := rfl
theorem exec_sshr (o : FOps) (s : State) : exec (.sshr o) s = execSshr o s := rfl
theorem exec_smov (o : FOps) (s : State) : exec (.smov o) s = execSmov o s := rfl
theorem exec_smovi (o : Imm32Ops) (s : State) : exec (.smovi o) s = execSmovi o s := rfl
theorem exec_spopc (o : FOps) (s : State) : exec (.spopc o) s = execSpopc o s := rfl
theorem exec_sffs (o : FOps) (s : State) : exec (.sffs o) s = execSffs o s := rfl
theorem exec_smin (o : FOps) (s : State) : exec (.smin o) s = execSmin o s := rfl
theorem exec_smax (o : FOps) (s : State) : exec (.smax o) s = execSmax o s := rfl
theorem exec_scmp (o : FOps) (s : State) : exec (.scmp o) s = execScmp o s := rfl
theorem exec_sld (o : FOps) (s : State) : exec (.sld o) s = execSld o s := rfl
theorem exec_sst (o : FOps) (s : State) : exec (.sst o) s = execSst o s := rfl
theorem exec_sread (o : FOps) (s : State) : exec (.sread o) s = execSread o s := rfl
theorem exec_swrite (o : FOps) (s : State) : exec (.swrite o) s = execSwrite o s := rfl
theorem exec_ld (o : FOps) (s : State) : exec (.ld o) s = execLd o s := rfl
theorem exec_st (o : FOps) (s : State) : exec (.st o) s = execSt o s := rfl
theorem exec_ldp (o : FOps) (s : State) : exec (.ldp o) s = execLdp o s := rfl
theorem exec_stp (o : FOps) (s : State) : exec (.stp o) s = execStp o s := rfl
theorem exec_pref (o : FOps) (s : State) : exec (.pref o) s = execPref o s := rfl
theorem exec_cinv (o : FOps) (s : State) : exec (.cinv o) s = execCinv o s := rfl
theorem exec_cwb (o : FOps) (s : State) : exec (.cwb o) s = execCwb o s := rfl
theorem exec_lds (o : FOps) (s : State) : exec (.lds o) s = execLds o s := rfl
theorem exec_sts (o : FOps) (s : State) : exec (.sts o) s = execSts o s := rfl
theorem exec_tld (o : FOps) (s : State) : exec (.tld o) s = execTld o s := rfl
theorem exec_tst (o : FOps) (s : State) : exec (.tst o) s = execTst o s := rfl
theorem exec_tmov (o : FOps) (s : State) : exec (.tmov o) s = execTmov o s := rfl
theorem exec_pdecl (o : FOps) (s : State) : exec (.pdecl o) s = execPdecl o s := rfl
theorem exec_penter (o : FOps) (s : State) : exec (.penter o) s = execPenter o s := rfl
theorem exec_pwait (o : FOps) (s : State) : exec (.pwait o) s = execPwait o s := rfl
theorem exec_pleave (o : FOps) (s : State) : exec (.pleave o) s = execPleave o s := rfl
theorem exec_pdrop (o : FOps) (s : State) : exec (.pdrop o) s = execPdrop o s := rfl
theorem exec_pqry (o : FOps) (s : State) : exec (.pqry o) s = execPqry o s := rfl
theorem exec_atom (o : FOps) (s : State) : exec (.atom o) s = execAtom o s := rfl
theorem exec_acas (o : FOps) (s : State) : exec (.acas o) s = execAcas o s := rfl
theorem exec_red (o : FOps) (s : State) : exec (.red o) s = execRed o s := rfl
theorem exec_acont (o : FOps) (s : State) : exec (.acont o) s = execAcont o s := rfl
theorem exec_fence (o : FOps) (s : State) : exec (.fence o) s = execFence o s := rfl
theorem exec_waitn (o : FOps) (s : State) : exec (.waitn o) s = execWaitn o s := rfl
theorem exec_mma (o : FOps) (s : State) : exec (.mma o) s = execMma o s := rfl
theorem exec_mmas (o : FOps) (s : State) : exec (.mmas o) s = execMmas o s := rfl
theorem exec_aclr (o : FOps) (s : State) : exec (.aclr o) s = execAclr o s := rfl
theorem exec_amov (o : FOps) (s : State) : exec (.amov o) s = execAmov o s := rfl
theorem exec_aload (o : FOps) (s : State) : exec (.aload o) s = execAload o s := rfl
theorem exec_drain (o : FOps) (s : State) : exec (.drain o) s = execDrain o s := rfl
theorem exec_drepl (o : FOps) (s : State) : exec (.drepl o) s = execDrepl o s := rfl
theorem exec_atbl (o : FOps) (s : State) : exec (.atbl o) s = execAtbl o s := rfl
theorem exec_ckick (o : FOps) (s : State) : exec (.ckick o) s = execCkick o s := rfl
theorem exec_gthr (o : FOps) (s : State) : exec (.gthr o) s = execGthr o s := rfl
theorem exec_sctr (o : FOps) (s : State) : exec (.sctr o) s = execSctr o s := rfl
theorem exec_coll (o : FOps) (s : State) : exec (.coll o) s = execColl o s := rfl
theorem exec_binit (o : FOps) (s : State) : exec (.binit o) s = execBinit o s := rfl
theorem exec_bexp (o : FOps) (s : State) : exec (.bexp o) s = execBexp o s := rfl
theorem exec_bwait (o : FOps) (s : State) : exec (.bwait o) s = execBwait o s := rfl
theorem exec_cstat (o : FOps) (s : State) : exec (.cstat o) s = execCstat o s := rfl
theorem exec_bra (o : ImmOps) (s : State) : exec (.bra o) s = execBra o s := rfl
theorem exec_brc (o : ImmOps) (s : State) : exec (.brc o) s = execBrc o s := rfl
theorem exec_brs (o : ImmOps) (s : State) : exec (.brs o) s = execBrs o s := rfl
theorem exec_join (o : ImmOps) (s : State) : exec (.join o) s = execJoin o s := rfl
theorem exec_brx (o : FOps) (s : State) : exec (.brx o) s = execBrx o s := rfl
theorem exec_call (o : ImmOps) (s : State) : exec (.call o) s = execCall o s := rfl
theorem exec_callx (o : FOps) (s : State) : exec (.callx o) s = execCallx o s := rfl
theorem exec_ret (o : FOps) (s : State) : exec (.ret o) s = execRet o s := rfl
theorem exec_exit (o : FOps) (s : State) : exec (.exit o) s = execExit o s := rfl
theorem exec_nop (o : FOps) (s : State) : exec (.nop o) s = execNop o s := rfl
theorem exec_regroup (o : FOps) (s : State) : exec (.regroup o) s = execRegroup o s := rfl
theorem exec_yield (o : FOps) (s : State) : exec (.yield o) s = execYield o s := rfl
theorem exec_barv (o : FOps) (s : State) : exec (.barv o) s = execBarv o s := rfl
theorem exec_bsyn (o : FOps) (s : State) : exec (.bsyn o) s = execBsyn o s := rfl
theorem exec_bphs (o : FOps) (s : State) : exec (.bphs o) s = execBphs o s := rfl
theorem exec_qpush (o : FOps) (s : State) : exec (.qpush o) s = execQpush o s := rfl
theorem exec_qpop (o : FOps) (s : State) : exec (.qpop o) s = execQpop o s := rfl
theorem exec_qalw (o : FOps) (s : State) : exec (.qalw o) s = execQalw o s := rfl
theorem exec_qalwInit (o : FOps) (s : State) : exec (.qalwInit o) s = execQalwInit o s := rfl
theorem exec_qtryPush (o : FOps) (s : State) : exec (.qtryPush o) s = execQtryPush o s := rfl
theorem exec_qtryPop (o : FOps) (s : State) : exec (.qtryPop o) s = execQtryPop o s := rfl
theorem exec_gsync (o : FOps) (s : State) : exec (.gsync o) s = execGsync o s := rfl
theorem exec_deq (o : FOps) (s : State) : exec (.deq o) s = execDeq o s := rfl
theorem exec_deqt (o : FOps) (s : State) : exec (.deqt o) s = execDeqt o s := rfl
theorem exec_rpush (o : FOps) (s : State) : exec (.rpush o) s = execRpush o s := rfl
theorem exec_rpass (o : FOps) (s : State) : exec (.rpass o) s = execRpass o s := rfl
theorem exec_rrej (o : FOps) (s : State) : exec (.rrej o) s = execRrej o s := rfl
theorem exec_lnch (o : FOps) (s : State) : exec (.lnch o) s = execLnch o s := rfl
theorem exec_nodeqQry (o : FOps) (s : State) : exec (.nodeqQry o) s = execNodeqQry o s := rfl
theorem exec_nodeqSeal (o : FOps) (s : State) : exec (.nodeqSeal o) s = execNodeqSeal o s := rfl
theorem exec_nodeqOpen (o : FOps) (s : State) : exec (.nodeqOpen o) s = execNodeqOpen o s := rfl
theorem exec_rbind (o : FOps) (s : State) : exec (.rbind o) s = execRbind o s := rfl
theorem exec_tstamp (o : FOps) (s : State) : exec (.tstamp o) s = execTstamp o s := rfl
theorem exec_cycles (o : FOps) (s : State) : exec (.cycles o) s = execCycles o s := rfl
theorem exec_phint (o : FOps) (s : State) : exec (.phint o) s = execPhint o s := rfl
theorem exec_phints (o : FOps) (s : State) : exec (.phints o) s = execPhints o s := rfl
theorem exec_ostage (o : FOps) (s : State) : exec (.ostage o) s = execOstage o s := rfl
theorem exec_trap (o : ImmOps) (s : State) : exec (.trap o) s = execTrap o s := rfl
theorem exec_bkpt (o : ImmOps) (s : State) : exec (.bkpt o) s = execBkpt o s := rfl
theorem exec_evrd (o : FOps) (s : State) : exec (.evrd o) s = execEvrd o s := rfl
theorem exec_evcfg (o : FOps) (s : State) : exec (.evcfg o) s = execEvcfg o s := rfl
theorem exec_ophint (o : FOps) (s : State) : exec (.ophint o) s = execOphint o s := rfl
theorem exec_iaddP (x : PFields) (y : PHalf) (s : State) : exec (.iaddP x y) s = execIaddP x y s := rfl
theorem exec_isubP (x : PFields) (y : PHalf) (s : State) : exec (.isubP x y) s = execIsubP x y s := rfl
theorem exec_iminP (x : PFields) (y : PHalf) (s : State) : exec (.iminP x y) s = execIminP x y s := rfl
theorem exec_imaxP (x : PFields) (y : PHalf) (s : State) : exec (.imaxP x y) s = execImaxP x y s := rfl
theorem exec_andP (x : PFields) (y : PHalf) (s : State) : exec (.andP x y) s = execAndP x y s := rfl
theorem exec_orP (x : PFields) (y : PHalf) (s : State) : exec (.orP x y) s = execOrP x y s := rfl
theorem exec_xorP (x : PFields) (y : PHalf) (s : State) : exec (.xorP x y) s = execXorP x y s := rfl
theorem exec_shlP (x : PFields) (y : PHalf) (s : State) : exec (.shlP x y) s = execShlP x y s := rfl
theorem exec_shrP (x : PFields) (y : PHalf) (s : State) : exec (.shrP x y) s = execShrP x y s := rfl
theorem exec_sarP (x : PFields) (y : PHalf) (s : State) : exec (.sarP x y) s = execSarP x y s := rfl
theorem exec_movP (x : PFields) (y : PHalf) (s : State) : exec (.movP x y) s = execMovP x y s := rfl
theorem exec_imulP (x : PFields) (y : PHalf) (s : State) : exec (.imulP x y) s = execImulP x y s := rfl
theorem exec_faddP (x : PFields) (y : PHalf) (s : State) : exec (.faddP x y) s = execFaddP x y s := rfl
theorem exec_fsubP (x : PFields) (y : PHalf) (s : State) : exec (.fsubP x y) s = execFsubP x y s := rfl
theorem exec_fmulP (x : PFields) (y : PHalf) (s : State) : exec (.fmulP x y) s = execFmulP x y s := rfl
theorem exec_fminP (x : PFields) (y : PHalf) (s : State) : exec (.fminP x y) s = execFminP x y s := rfl
theorem exec_fmaxP (x : PFields) (y : PHalf) (s : State) : exec (.fmaxP x y) s = execFmaxP x y s := rfl
theorem exec_hadd2P (x : PFields) (y : PHalf) (s : State) : exec (.hadd2P x y) s = execHadd2P x y s := rfl
theorem exec_hmul2P (x : PFields) (y : PHalf) (s : State) : exec (.hmul2P x y) s = execHmul2P x y s := rfl
theorem exec_saddP (x : PFields) (y : PHalf) (s : State) : exec (.saddP x y) s = execSaddP x y s := rfl
theorem exec_ssubP (x : PFields) (y : PHalf) (s : State) : exec (.ssubP x y) s = execSsubP x y s := rfl
theorem exec_sandP (x : PFields) (y : PHalf) (s : State) : exec (.sandP x y) s = execSandP x y s := rfl
theorem exec_sorP (x : PFields) (y : PHalf) (s : State) : exec (.sorP x y) s = execSorP x y s := rfl
theorem exec_sxorP (x : PFields) (y : PHalf) (s : State) : exec (.sxorP x y) s = execSxorP x y s := rfl
theorem exec_smovP (x : PFields) (y : PHalf) (s : State) : exec (.smovP x y) s = execSmovP x y s := rfl
theorem exec_sshlP (x : PFields) (y : PHalf) (s : State) : exec (.sshlP x y) s = execSshlP x y s := rfl
theorem exec_sshrP (x : PFields) (y : PHalf) (s : State) : exec (.sshrP x y) s = execSshrP x y s := rfl
theorem exec_ldsP (x : PFields) (y : PHalf) (s : State) : exec (.ldsP x y) s = execLdsP x y s := rfl
theorem exec_stsP (x : PFields) (y : PHalf) (s : State) : exec (.stsP x y) s = execStsP x y s := rfl
theorem exec_nopP (x : PFields) (y : PHalf) (s : State) : exec (.nopP x y) s = execNopP x y s := rfl
theorem exec_clauseStart (h : Header) (s : State) : exec (.clauseStart h) s = execClauseStart h s := rfl
theorem exec_clauseSkip (h : Header) (s : State) : exec (.clauseSkip h) s = execClauseSkip h s := rfl
theorem exec_issueOpportunity (core quad : Nat) (s : State) : exec (.issueOpportunity core quad) s = execIssueOpportunity core quad s := rfl
theorem exec_longLatencyComplete (op : Nat) (s : State) : exec (.longLatencyComplete op) s = execLongLatencyComplete op s := rfl
theorem exec_scrubPass (core : Nat) (at_ : FileWord) (found : Finding) (s : State) : exec (.scrubPass core at_ found) s = execScrubPass core at_ found s := rfl
theorem exec_sliceLoad (op : Nat) (s : State) : exec (.sliceLoad op) s = execSliceLoad op s := rfl
theorem exec_sliceStore (op : Nat) (s : State) : exec (.sliceStore op) s = execSliceStore op s := rfl
theorem exec_sliceWriteback (op : Nat) (s : State) : exec (.sliceWriteback op) s = execSliceWriteback op s := rfl
theorem exec_sliceAtomic (op : Nat) (s : State) : exec (.sliceAtomic op) s = execSliceAtomic op s := rfl
theorem exec_sliceAddOnStore (op : Nat) (s : State) : exec (.sliceAddOnStore op) s = execSliceAddOnStore op s := rfl
theorem exec_sliceAcont (op : Nat) (s : State) : exec (.sliceAcont op) s = execSliceAcont op s := rfl
theorem exec_replayFilterAck (slice port tag : Nat) (s : State) : exec (.replayFilterAck slice port tag) s = execReplayFilterAck slice port tag s := rfl
theorem exec_walkComplete (op : Nat) (s : State) : exec (.walkComplete op) s = execWalkComplete op s := rfl
theorem exec_memoryFillReturn (op : Nat) (s : State) : exec (.memoryFillReturn op) s = execMemoryFillReturn op s := rfl
theorem exec_l1FillReturn (op : Nat) (s : State) : exec (.l1FillReturn op) s = execL1FillReturn op s := rfl
theorem exec_storeAccepted (op : Nat) (s : State) : exec (.storeAccepted op) s = execStoreAccepted op s := rfl
theorem exec_combineTimeout (cluster entry : Nat) (s : State) : exec (.combineTimeout cluster entry) s = execCombineTimeout cluster entry s := rfl
theorem exec_hptEpochEnd (die : Nat) (s : State) : exec (.hptEpochEnd die) s = execHptEpochEnd die s := rfl
theorem exec_hptSwapDone (die : Nat) (s : State) : exec (.hptSwapDone die) s = execHptSwapDone die s := rfl
theorem exec_slqEntryPlace (slice : Nat) (s : State) : exec (.slqEntryPlace slice) s = execSlqEntryPlace slice s := rfl
theorem exec_matrixTake (core : Nat) (s : State) : exec (.matrixTake core) s = execMatrixTake core s := rfl
theorem exec_matrixOpComplete (op : Nat) (s : State) : exec (.matrixOpComplete op) s = execMatrixOpComplete op s := rfl
theorem exec_drainEntryTake (core : Nat) (s : State) : exec (.drainEntryTake core) s = execDrainEntryTake core s := rfl
theorem exec_drainRowPerformed (core entry row : Nat) (s : State) : exec (.drainRowPerformed core entry row) s = execDrainRowPerformed core entry row s := rfl
theorem exec_kickQueueTake (core : Nat) (s : State) : exec (.kickQueueTake core) s = execKickQueueTake core s := rfl
theorem exec_copyBytePerformed (op : Nat) (s : State) : exec (.copyBytePerformed op) s = execCopyBytePerformed op s := rfl
theorem exec_gatherRowPerformed (op lane : Nat) (s : State) : exec (.gatherRowPerformed op lane) s = execGatherRowPerformed op lane s := rfl
theorem exec_collectiveComplete (op : Nat) (remote : List RankInput) (s : State) : exec (.collectiveComplete op remote) s = execCollectiveComplete op remote s := rfl
theorem exec_paletteLineFilled (op : Nat) (s : State) : exec (.paletteLineFilled op) s = execPaletteLineFilled op s := rfl
theorem exec_lqRecordTake (ctx queue : Nat) (s : State) : exec (.lqRecordTake ctx queue) s = execLqRecordTake ctx queue s := rfl
theorem exec_depPoll (grid : Nat) (s : State) : exec (.depPoll grid) s = execDepPoll grid s := rfl
theorem exec_recordAging (grid : Nat) (s : State) : exec (.recordAging grid) s = execRecordAging grid s := rfl
theorem exec_recordChoice (ctx die : Nat) (s : State) : exec (.recordChoice ctx die) s = execRecordChoice ctx die s := rfl
theorem exec_teamPlace (ctx die : Nat) (s : State) : exec (.teamPlace ctx die) s = execTeamPlace ctx die s := rfl
theorem exec_reservationTimeout (ctx die : Nat) (s : State) : exec (.reservationTimeout ctx die) s = execReservationTimeout ctx die s := rfl
theorem exec_relockComplete (cluster : Nat) (s : State) : exec (.relockComplete cluster) s = execRelockComplete cluster s := rfl
theorem exec_ophintDwellExpiry (team : Nat) (s : State) : exec (.ophintDwellExpiry team) s = execOphintDwellExpiry team s := rfl
theorem exec_gridComplete (grid : Nat) (s : State) : exec (.gridComplete grid) s = execGridComplete grid s := rfl
theorem exec_binTimerExpiry (ctx die node : Nat) (s : State) : exec (.binTimerExpiry ctx die node) s = execBinTimerExpiry ctx die node s := rfl
theorem exec_governorEval (ctx die : Nat) (s : State) : exec (.governorEval ctx die) s = execGovernorEval ctx die s := rfl
theorem exec_deqtTimeout (gid : Nat) (s : State) : exec (.deqtTimeout gid) s = execDeqtTimeout gid s := rfl
theorem exec_routerEntry (die router : Nat) (s : State) : exec (.routerEntry die router) s = execRouterEntry die router s := rfl
theorem exec_routerRpass (die router : Nat) (s : State) : exec (.routerRpass die router) s = execRouterRpass die router s := rfl
theorem exec_routerRrej (die router : Nat) (s : State) : exec (.routerRrej die router) s = execRouterRrej die router s := rfl
theorem exec_remoteTailWrite (push : RemotePush) (s : State) : exec (.remoteTailWrite push) s = execRemoteTailWrite push s := rfl
theorem exec_remotePullComplete (die : Nat) (record : List (BitVec 32)) (s : State) : exec (.remotePullComplete die record) s = execRemotePullComplete die record s := rfl
theorem exec_pushAck (op : Nat) (kind : BitVec 4) (s : State) : exec (.pushAck op kind) s = execPushAck op kind s := rfl
theorem exec_arbiterEpoch (since : Nat) (s : State) : exec (.arbiterEpoch since) s = execArbiterEpoch since s := rfl
theorem exec_budgetApply (cluster : Nat) (s : State) : exec (.budgetApply cluster) s = execBudgetApply cluster s := rfl
theorem exec_deficitReport (module : Nat) (deficit : BitVec 16) (s : State) : exec (.deficitReport module deficit) s = execDeficitReport module deficit s := rfl
theorem exec_droopAlarm (cluster : Nat) (s : State) : exec (.droopAlarm cluster) s = execDroopAlarm cluster s := rfl
theorem exec_droopHalvingEnd (cluster : Nat) (s : State) : exec (.droopHalvingEnd cluster) s = execDroopHalvingEnd cluster s := rfl
theorem exec_thermalOverThreshold (die : Nat) (temp : BitVec 12) (s : State) : exec (.thermalOverThreshold die temp) s = execThermalOverThreshold die temp s := rfl
theorem exec_thermalRestore (die : Nat) (temp : BitVec 12) (s : State) : exec (.thermalRestore die temp) s = execThermalRestore die temp s := rfl
theorem exec_stopRecordsComplete (ctx : Nat) (s : State) : exec (.stopRecordsComplete ctx) s = execStopRecordsComplete ctx s := rfl
theorem exec_haltResume (ctx : Nat) (w : Writer) (s : State) : exec (.haltResume ctx w) s = execHaltResume ctx w s := rfl
theorem exec_haltStep (ctx : Nat) (w : Writer) (s : State) : exec (.haltStep ctx w) s = execHaltStep ctx w s := rfl
theorem exec_haltPreempt (ctx : Nat) (w : Writer) (s : State) : exec (.haltPreempt ctx w) s = execHaltPreempt ctx w s := rfl
theorem exec_haltTerminate (ctx : Nat) (w : Writer) (s : State) : exec (.haltTerminate ctx w) s = execHaltTerminate ctx w s := rfl
theorem exec_watchdogExpiry (gid : Nat) (s : State) : exec (.watchdogExpiry gid) s = execWatchdogExpiry gid s := rfl
theorem exec_timeSliceExpiry (ctx : Nat) (s : State) : exec (.timeSliceExpiry ctx) s = execTimeSliceExpiry ctx s := rfl
theorem exec_teamResume (team : Nat) (s : State) : exec (.teamResume team) s = execTeamResume team s := rfl
theorem exec_tcInvalidateS1 (w : Writer) (s : State) : exec (.tcInvalidateS1 w) s = execTcInvalidateS1 w s := rfl
theorem exec_tcInvalidateS2 (w : Writer) (s : State) : exec (.tcInvalidateS2 w) s = execTcInvalidateS2 w s := rfl
theorem exec_tcReloadContext (w : Writer) (s : State) : exec (.tcReloadContext w) s = execTcReloadContext w s := rfl
theorem exec_tcReloadTask (w : Writer) (s : State) : exec (.tcReloadTask w) s = execTcReloadTask w s := rfl
theorem exec_tcCommandDone (s : State) : exec (.tcCommandDone) s = execTcCommandDone s := rfl
theorem exec_dlEntryWriteLow (w : Writer) (index : Nat) (value : BitVec 64) (s : State) : exec (.dlEntryWriteLow w index value) s = execDlEntryWriteLow w index value s := rfl
theorem exec_dlEntryWriteHigh (w : Writer) (index : Nat) (value : BitVec 64) (s : State) : exec (.dlEntryWriteHigh w index value) s = execDlEntryWriteHigh w index value s := rfl
theorem exec_dlRevoke (w : Writer) (value : BitVec 32) (s : State) : exec (.dlRevoke w value) s = execDlRevoke w value s := rfl
theorem exec_dlRevokeDone (s : State) : exec (.dlRevokeDone) s = execDlRevokeDone s := rfl
theorem exec_rtRowWrite (w : Writer) (row : Nat) (part : RowPart) (value : BitVec 64) (s : State) : exec (.rtRowWrite w row part value) s = execRtRowWrite w row part value s := rfl
theorem exec_pwShareWrite (w : Writer) (index : Nat) (value : BitVec 32) (s : State) : exec (.pwShareWrite w index value) s = execPwShareWrite w index value s := rfl
theorem exec_bwShareWrite (w : Writer) (die index : Nat) (value : BitVec 32) (s : State) : exec (.bwShareWrite w die index value) s = execBwShareWrite w die index value s := rfl
theorem exec_partitionTableWrite (w : Writer) (entry : Nat) (field : PartField) (value : BitVec 64) (s : State) : exec (.partitionTableWrite w entry field value) s = execPartitionTableWrite w entry field value s := rfl
theorem exec_lkModuleWrite (w : Writer) (value : BitVec 32) (s : State) : exec (.lkModuleWrite w value) s = execLkModuleWrite w value s := rfl
theorem exec_pfSelWrite (w : Writer) (slice index : Nat) (value : BitVec 32) (s : State) : exec (.pfSelWrite w slice index value) s = execPfSelWrite w slice index value s := rfl
theorem exec_rmfEntryWrite (w : Writer) (core index : Nat) (canon : Bool) (value : BitVec 64) (s : State) : exec (.rmfEntryWrite w core index canon value) s = execRmfEntryWrite w core index canon value s := rfl
theorem exec_hptCtlWrite (w : Writer) (die : Nat) (value : BitVec 32) (s : State) : exec (.hptCtlWrite w die value) s = execHptCtlWrite w die value s := rfl
theorem exec_registerWrite (w : Writer) (addr : BitVec 52) (size : Nat) (value : BitVec 64) (s : State) : exec (.registerWrite w addr size value) s = execRegisterWrite w addr size value s := rfl
theorem exec_firewallFlit (f : Flit) (s : State) : exec (.firewallFlit f) s = execFirewallFlit f s := rfl
theorem exec_flitCrcFail (l : CrcFail) (s : State) : exec (.flitCrcFail l) s = execFlitCrcFail l s := rfl
theorem exec_linkDown (port : Nat) (gid : Option Nat) (ctx : Nat) (addr : BitVec 56) (s : State) : exec (.linkDown port gid ctx addr) s = execLinkDown port gid ctx addr s := rfl
theorem exec_peerDirectWrite (addr : BitVec 52) (part : Nat) (flit : PeerFlit) (s : State) : exec (.peerDirectWrite addr part flit) s = execPeerDirectWrite addr part flit s := rfl
theorem exec_rootPortDma (function : Nat) (addr : BitVec 64) (a : HostAccess) (bytes : List (BitVec 8)) (s : State) : exec (.rootPortDma function addr a bytes) s = execRootPortDma function addr a bytes s := rfl
theorem exec_boot (b : BootImage) (s : State) : exec (.boot b) s = execBoot b s := rfl
theorem exec_attestationRequest (w : Writer) (part : Nat) (nonce : List (BitVec 8)) (s : State) : exec (.attestationRequest w part nonce) s = execAttestationRequest w part nonce s := rfl
theorem exec_replyTimeout (op : Nat) (again : Bool) (s : State) : exec (.replyTimeout op again) s = execReplyTimeout op again s := rfl
theorem exec_rdCtlWrite (w : Writer) (ctx : Nat) (value : BitVec 32) (s : State) : exec (.rdCtlWrite w ctx value) s = execRdCtlWrite w ctx value s := rfl

end Sys2Proof.Machine
end

