-- ==== Sys2Proof/Laws/Table.lean ====
section
/-! SUPPORT. The laws of sparse storage: what a write leaves to read, and that writes keep the canonical
form. -/

namespace Sys2Proof.Machine

variable {β : Type}

@[simp] theorem tget_nil (d : β) (k : Nat) : tget d k [] = d := rfl
@[simp] theorem tfind_nil (k : Nat) : tfind k ([] : Table β) = none := rfl

theorem tget_cons (d : β) (k k' : Nat) (v : β) (t : Table β) : tget d k ((k', v) :: t) = if k = k' then v else tget d k t := rfl
theorem tfind_cons (k k' : Nat) (v : β) (t : Table β) : tfind k ((k', v) :: t) = if k = k' then some v else tfind k t := rfl

/-- A default read is the listed value, or the default. -/
theorem tget_eq_tfind (d : β) (k : Nat) (t : Table β) : tget d k t = (tfind k t).getD d := by
  induction t with
  | nil => rfl
  | cons x t ih => obtain ⟨k', v⟩ := x; by_cases h : k = k' <;> simp [tget_cons, tfind_cons, h, ih]

@[simp] theorem tfind_tput_self (k : Nat) (v : β) (t : Table β) : tfind k (tput k v t) = some v := by
  induction t with
  | nil => simp [tput, tfind_cons]
  | cons x t ih =>
    obtain ⟨k', v'⟩ := x
    simp only [tput]
    split
    · simp [tfind_cons]
    · split <;> simp_all [tfind_cons]

theorem tfind_tput_ne {k j : Nat} (h : j ≠ k) (v : β) (t : Table β) : tfind j (tput k v t) = tfind j t := by
  induction t with
  | nil => simp [tput, tfind_cons, h]
  | cons x t ih =>
    obtain ⟨k', v'⟩ := x
    simp only [tput]
    split
    · subst_vars; simp [tfind_cons, h]
    · split <;> simp [tfind_cons, h, ih]

@[simp] theorem tget_tput_self (d : β) (k : Nat) (v : β) (t : Table β) : tget d k (tput k v t) = v := by simp [tget_eq_tfind]
theorem tget_tput_ne (d : β) {k j : Nat} (h : j ≠ k) (v : β) (t : Table β) : tget d j (tput k v t) = tget d j t := by simp [tget_eq_tfind, tfind_tput_ne h]
theorem tget_tput (d : β) (k j : Nat) (v : β) (t : Table β) : tget d j (tput k v t) = if j = k then v else tget d j t := by
  by_cases h : j = k
  · subst h; simp
  · simp [h, tget_tput_ne d h]

@[simp] theorem tfind_tdel_self (k : Nat) (t : Table β) : tfind k (tdel k t) = none := by
  induction t with
  | nil => rfl
  | cons x t ih => 
    obtain ⟨k', v⟩ := x
    by_cases h : k = k'
    · subst h; simpa [tdel] using ih
    · simp [tdel, tfind_cons, h, ih]

theorem tfind_tdel_ne {k j : Nat} (h : j ≠ k) (t : Table β) : tfind j (tdel k t) = tfind j t := by
  induction t with
  | nil => rfl
  | cons x t ih =>
    obtain ⟨k', v⟩ := x
    by_cases hk : k = k'
    · subst hk; simp [tdel, tfind_cons, h, ih]
    · simp [tdel, tfind_cons, hk, ih]

@[simp] theorem tget_tdel_self (d : β) (k : Nat) (t : Table β) : tget d k (tdel k t) = d := by simp [tget_eq_tfind]
theorem tget_tdel_ne (d : β) {k j : Nat} (h : j ≠ k) (t : Table β) : tget d j (tdel k t) = tget d j t := by simp [tget_eq_tfind, tfind_tdel_ne h]

variable [DecidableEq β]

/-- A read after a write to the same key gives the value written. -/
@[simp] theorem tget_tset_self (d : β) (k : Nat) (v : β) (t : Table β) : tget d k (tset d k v t) = v := by
  unfold tset; split <;> simp_all
/-- A write leaves every other key alone. -/
theorem tget_tset_ne (d : β) {k j : Nat} (h : j ≠ k) (v : β) (t : Table β) : tget d j (tset d k v t) = tget d j t := by
  unfold tset; split
  · exact tget_tdel_ne d h t
  · exact tget_tput_ne d h v t
theorem tget_tset (d : β) (k j : Nat) (v : β) (t : Table β) : tget d j (tset d k v t) = if j = k then v else tget d j t := by
  by_cases h : j = k
  · subst h; simp
  · simp [h, tget_tset_ne d h]

omit [DecidableEq β] in
/-- Reading through a function that keeps every key and fixes the default. -/
theorem tget_map {γ : Type} (f : Nat → β → γ) (d : β) (e : γ) (k : Nat) (t : Table β) (h : ∀ j, f j d = e) :
    tget e k (t.map (fun x => (x.1, f x.1 x.2))) = f k (tget d k t) := by
  induction t with
  | nil => simp [h]
  | cons x t ih =>
    obtain ⟨k', v⟩ := x
    rw [List.map_cons, tget_cons, tget_cons, ih]
    split <;> simp_all

omit [DecidableEq β] in
/-- Reading through a function that changes the values of some keys and fixes the default. -/
theorem tget_mapIf (f : β → β) (p : Nat → Bool) (d : β) (k : Nat) (t : Table β) (hf : f d = d) :
    tget d k (t.map (fun x => if p x.1 then (x.1, f x.2) else x)) = if p k then f (tget d k t) else tget d k t := by
  induction t with
  | nil => simp [hf]
  | cons x t ih =>
    obtain ⟨j, g⟩ := x
    rw [List.map_cons]
    by_cases hj : k = j
    · subst hj; by_cases hp : p k <;> simp [hp, tget_cons]
    · by_cases hp : p j <;> simp [hp, tget_cons, hj, ih]

/-! ### The canonical form -/

theorem tcanon_cons (d : β) (lo k : Nat) (v : β) (t : Table β) : tcanon d lo ((k, v) :: t) = true ↔ lo ≤ k ∧ v ≠ d ∧ tcanon d (k + 1) t = true := by
  simp [tcanon, and_assoc]

theorem tcanon_mono (d : β) {lo lo' : Nat} (h : lo' ≤ lo) (t : Table β) (ht : tcanon d lo t = true) : tcanon d lo' t = true := by
  cases t with
  | nil => rfl
  | cons x t => obtain ⟨k, v⟩ := x; rw [tcanon_cons] at *; exact ⟨h.trans ht.1, ht.2⟩

theorem tcanon_tput (d : β) {lo k : Nat} {v : β} (hk : lo ≤ k) (hv : v ≠ d) (t : Table β) (ht : tcanon d lo t = true) : tcanon d lo (tput k v t) = true := by
  induction t generalizing lo with
  | nil => simp [tput, tcanon, hk, hv]
  | cons x t ih =>
    obtain ⟨k', v'⟩ := x
    rw [tcanon_cons] at ht
    simp only [tput]
    split
    · subst_vars; rw [tcanon_cons]; exact ⟨hk, hv, ht.2.2⟩
    · split
      · rw [tcanon_cons, tcanon_cons]; exact ⟨hk, hv, by omega, ht.2.1, ht.2.2⟩
      · rw [tcanon_cons]; exact ⟨ht.1, ht.2.1, ih (by omega) ht.2.2⟩

theorem tcanon_tdel (d : β) {lo : Nat} (k : Nat) (t : Table β) (ht : tcanon d lo t = true) : tcanon d lo (tdel k t) = true := by
  induction t generalizing lo with
  | nil => rfl
  | cons x t ih =>
    obtain ⟨k', v'⟩ := x
    rw [tcanon_cons] at ht
    simp only [tdel]
    split
    · exact ih (tcanon_mono d (by omega) t ht.2.2)
    · rw [tcanon_cons]; exact ⟨ht.1, ht.2.1, ih ht.2.2⟩

/-- A write keeps the canonical form. -/
theorem tcanon_tset (d : β) {lo k : Nat} (v : β) (hk : lo ≤ k) (t : Table β) (ht : tcanon d lo t = true) : tcanon d lo (tset d k v t) = true := by
  unfold tset; split
  · exact tcanon_tdel d k t ht
  · exact tcanon_tput d hk (by assumption) t ht

/-- Many writes keep the canonical form. -/
theorem tcanon_tsetAll (d : β) (ws : List (Nat × β)) (t : Table β) (ht : tcanon d 0 t = true) : tcanon d 0 (tsetAll d ws t) = true := by
  induction ws generalizing t with
  | nil => exact ht
  | cons w ws ih => exact ih _ (tcanon_tset d w.2 (Nat.zero_le _) t ht)

end Sys2Proof.Machine
end

