-- ==== Sys2Proof/Laws/State.lean ====
section
/-! SUPPORT. One law per field per update of the state, and what a unit reads as after an update of it or of
another. -/

namespace Sys2Proof.Machine

variable (s : State)

@[simp] theorem State.setGroup_devTime (k : Nat) (g : Group) : (s.setGroup k g).devTime = s.devTime := rfl
@[simp] theorem State.setGroup_mem (k : Nat) (g : Group) : (s.setGroup k g).mem = s.mem := rfl
@[simp] theorem State.setGroup_teams (k : Nat) (g : Group) : (s.setGroup k g).teams = s.teams := rfl
@[simp] theorem State.setGroup_grids (k : Nat) (g : Group) : (s.setGroup k g).grids = s.grids := rfl
@[simp] theorem State.setGroup_contexts (k : Nat) (g : Group) : (s.setGroup k g).contexts = s.contexts := rfl
@[simp] theorem State.setGroup_cores (k : Nat) (g : Group) : (s.setGroup k g).cores = s.cores := rfl
@[simp] theorem State.setGroup_clusters (k : Nat) (g : Group) : (s.setGroup k g).clusters = s.clusters := rfl
@[simp] theorem State.setGroup_slices (k : Nat) (g : Group) : (s.setGroup k g).slices = s.slices := rfl
@[simp] theorem State.setGroup_dies (k : Nat) (g : Group) : (s.setGroup k g).dies = s.dies := rfl
@[simp] theorem State.setGroup_hub (k : Nat) (g : Group) : (s.setGroup k g).hub = s.hub := rfl
@[simp] theorem State.setGroup_ops (k : Nat) (g : Group) : (s.setGroup k g).ops = s.ops := rfl
@[simp] theorem State.setGroup_reqs (k : Nat) (g : Group) : (s.setGroup k g).reqs = s.reqs := rfl
@[simp] theorem State.setGroup_holds (k : Nat) (g : Group) : (s.setGroup k g).holds = s.holds := rfl
@[simp] theorem State.setGroup_nextId (k : Nat) (g : Group) : (s.setGroup k g).nextId = s.nextId := rfl
@[simp] theorem State.setGroup_issues (k : Nat) (g : Group) : (s.setGroup k g).issues = s.issues := rfl
@[simp] theorem State.setGroup_grant (k : Nat) (g : Group) : (s.setGroup k g).grant = s.grant := rfl
@[simp] theorem State.setGroup_inputs (k : Nat) (g : Group) : (s.setGroup k g).inputs = s.inputs := rfl
@[simp] theorem State.setGroup_draws (k : Nat) (g : Group) : (s.setGroup k g).draws = s.draws := rfl

@[simp] theorem State.modGroup_devTime (k : Nat) (f : Group → Group) : (s.modGroup k f).devTime = s.devTime := rfl
@[simp] theorem State.modGroup_mem (k : Nat) (f : Group → Group) : (s.modGroup k f).mem = s.mem := rfl
@[simp] theorem State.modGroup_teams (k : Nat) (f : Group → Group) : (s.modGroup k f).teams = s.teams := rfl
@[simp] theorem State.modGroup_grids (k : Nat) (f : Group → Group) : (s.modGroup k f).grids = s.grids := rfl
@[simp] theorem State.modGroup_contexts (k : Nat) (f : Group → Group) : (s.modGroup k f).contexts = s.contexts := rfl
@[simp] theorem State.modGroup_cores (k : Nat) (f : Group → Group) : (s.modGroup k f).cores = s.cores := rfl
@[simp] theorem State.modGroup_clusters (k : Nat) (f : Group → Group) : (s.modGroup k f).clusters = s.clusters := rfl
@[simp] theorem State.modGroup_slices (k : Nat) (f : Group → Group) : (s.modGroup k f).slices = s.slices := rfl
@[simp] theorem State.modGroup_dies (k : Nat) (f : Group → Group) : (s.modGroup k f).dies = s.dies := rfl
@[simp] theorem State.modGroup_hub (k : Nat) (f : Group → Group) : (s.modGroup k f).hub = s.hub := rfl
@[simp] theorem State.modGroup_ops (k : Nat) (f : Group → Group) : (s.modGroup k f).ops = s.ops := rfl
@[simp] theorem State.modGroup_reqs (k : Nat) (f : Group → Group) : (s.modGroup k f).reqs = s.reqs := rfl
@[simp] theorem State.modGroup_holds (k : Nat) (f : Group → Group) : (s.modGroup k f).holds = s.holds := rfl
@[simp] theorem State.modGroup_nextId (k : Nat) (f : Group → Group) : (s.modGroup k f).nextId = s.nextId := rfl
@[simp] theorem State.modGroup_issues (k : Nat) (f : Group → Group) : (s.modGroup k f).issues = s.issues := rfl
@[simp] theorem State.modGroup_grant (k : Nat) (f : Group → Group) : (s.modGroup k f).grant = s.grant := rfl
@[simp] theorem State.modGroup_inputs (k : Nat) (f : Group → Group) : (s.modGroup k f).inputs = s.inputs := rfl
@[simp] theorem State.modGroup_draws (k : Nat) (f : Group → Group) : (s.modGroup k f).draws = s.draws := rfl

@[simp] theorem State.modTeam_devTime (k : Nat) (f : Team → Team) : (s.modTeam k f).devTime = s.devTime := rfl
@[simp] theorem State.modTeam_mem (k : Nat) (f : Team → Team) : (s.modTeam k f).mem = s.mem := rfl
@[simp] theorem State.modTeam_groups (k : Nat) (f : Team → Team) : (s.modTeam k f).groups = s.groups := rfl
@[simp] theorem State.modTeam_grids (k : Nat) (f : Team → Team) : (s.modTeam k f).grids = s.grids := rfl
@[simp] theorem State.modTeam_contexts (k : Nat) (f : Team → Team) : (s.modTeam k f).contexts = s.contexts := rfl
@[simp] theorem State.modTeam_cores (k : Nat) (f : Team → Team) : (s.modTeam k f).cores = s.cores := rfl
@[simp] theorem State.modTeam_clusters (k : Nat) (f : Team → Team) : (s.modTeam k f).clusters = s.clusters := rfl
@[simp] theorem State.modTeam_slices (k : Nat) (f : Team → Team) : (s.modTeam k f).slices = s.slices := rfl
@[simp] theorem State.modTeam_dies (k : Nat) (f : Team → Team) : (s.modTeam k f).dies = s.dies := rfl
@[simp] theorem State.modTeam_hub (k : Nat) (f : Team → Team) : (s.modTeam k f).hub = s.hub := rfl
@[simp] theorem State.modTeam_ops (k : Nat) (f : Team → Team) : (s.modTeam k f).ops = s.ops := rfl
@[simp] theorem State.modTeam_reqs (k : Nat) (f : Team → Team) : (s.modTeam k f).reqs = s.reqs := rfl
@[simp] theorem State.modTeam_holds (k : Nat) (f : Team → Team) : (s.modTeam k f).holds = s.holds := rfl
@[simp] theorem State.modTeam_nextId (k : Nat) (f : Team → Team) : (s.modTeam k f).nextId = s.nextId := rfl
@[simp] theorem State.modTeam_issues (k : Nat) (f : Team → Team) : (s.modTeam k f).issues = s.issues := rfl
@[simp] theorem State.modTeam_grant (k : Nat) (f : Team → Team) : (s.modTeam k f).grant = s.grant := rfl
@[simp] theorem State.modTeam_inputs (k : Nat) (f : Team → Team) : (s.modTeam k f).inputs = s.inputs := rfl
@[simp] theorem State.modTeam_draws (k : Nat) (f : Team → Team) : (s.modTeam k f).draws = s.draws := rfl

@[simp] theorem State.modGrid_devTime (k : Nat) (f : Grid → Grid) : (s.modGrid k f).devTime = s.devTime := rfl
@[simp] theorem State.modGrid_mem (k : Nat) (f : Grid → Grid) : (s.modGrid k f).mem = s.mem := rfl
@[simp] theorem State.modGrid_groups (k : Nat) (f : Grid → Grid) : (s.modGrid k f).groups = s.groups := rfl
@[simp] theorem State.modGrid_teams (k : Nat) (f : Grid → Grid) : (s.modGrid k f).teams = s.teams := rfl
@[simp] theorem State.modGrid_contexts (k : Nat) (f : Grid → Grid) : (s.modGrid k f).contexts = s.contexts := rfl
@[simp] theorem State.modGrid_cores (k : Nat) (f : Grid → Grid) : (s.modGrid k f).cores = s.cores := rfl
@[simp] theorem State.modGrid_clusters (k : Nat) (f : Grid → Grid) : (s.modGrid k f).clusters = s.clusters := rfl
@[simp] theorem State.modGrid_slices (k : Nat) (f : Grid → Grid) : (s.modGrid k f).slices = s.slices := rfl
@[simp] theorem State.modGrid_dies (k : Nat) (f : Grid → Grid) : (s.modGrid k f).dies = s.dies := rfl
@[simp] theorem State.modGrid_hub (k : Nat) (f : Grid → Grid) : (s.modGrid k f).hub = s.hub := rfl
@[simp] theorem State.modGrid_ops (k : Nat) (f : Grid → Grid) : (s.modGrid k f).ops = s.ops := rfl
@[simp] theorem State.modGrid_reqs (k : Nat) (f : Grid → Grid) : (s.modGrid k f).reqs = s.reqs := rfl
@[simp] theorem State.modGrid_holds (k : Nat) (f : Grid → Grid) : (s.modGrid k f).holds = s.holds := rfl
@[simp] theorem State.modGrid_nextId (k : Nat) (f : Grid → Grid) : (s.modGrid k f).nextId = s.nextId := rfl
@[simp] theorem State.modGrid_issues (k : Nat) (f : Grid → Grid) : (s.modGrid k f).issues = s.issues := rfl
@[simp] theorem State.modGrid_grant (k : Nat) (f : Grid → Grid) : (s.modGrid k f).grant = s.grant := rfl
@[simp] theorem State.modGrid_inputs (k : Nat) (f : Grid → Grid) : (s.modGrid k f).inputs = s.inputs := rfl
@[simp] theorem State.modGrid_draws (k : Nat) (f : Grid → Grid) : (s.modGrid k f).draws = s.draws := rfl

@[simp] theorem State.modContext_devTime (k : Nat) (f : Context → Context) : (s.modContext k f).devTime = s.devTime := rfl
@[simp] theorem State.modContext_mem (k : Nat) (f : Context → Context) : (s.modContext k f).mem = s.mem := rfl
@[simp] theorem State.modContext_groups (k : Nat) (f : Context → Context) : (s.modContext k f).groups = s.groups := rfl
@[simp] theorem State.modContext_teams (k : Nat) (f : Context → Context) : (s.modContext k f).teams = s.teams := rfl
@[simp] theorem State.modContext_grids (k : Nat) (f : Context → Context) : (s.modContext k f).grids = s.grids := rfl
@[simp] theorem State.modContext_cores (k : Nat) (f : Context → Context) : (s.modContext k f).cores = s.cores := rfl
@[simp] theorem State.modContext_clusters (k : Nat) (f : Context → Context) : (s.modContext k f).clusters = s.clusters := rfl
@[simp] theorem State.modContext_slices (k : Nat) (f : Context → Context) : (s.modContext k f).slices = s.slices := rfl
@[simp] theorem State.modContext_dies (k : Nat) (f : Context → Context) : (s.modContext k f).dies = s.dies := rfl
@[simp] theorem State.modContext_hub (k : Nat) (f : Context → Context) : (s.modContext k f).hub = s.hub := rfl
@[simp] theorem State.modContext_ops (k : Nat) (f : Context → Context) : (s.modContext k f).ops = s.ops := rfl
@[simp] theorem State.modContext_reqs (k : Nat) (f : Context → Context) : (s.modContext k f).reqs = s.reqs := rfl
@[simp] theorem State.modContext_holds (k : Nat) (f : Context → Context) : (s.modContext k f).holds = s.holds := rfl
@[simp] theorem State.modContext_nextId (k : Nat) (f : Context → Context) : (s.modContext k f).nextId = s.nextId := rfl
@[simp] theorem State.modContext_issues (k : Nat) (f : Context → Context) : (s.modContext k f).issues = s.issues := rfl
@[simp] theorem State.modContext_grant (k : Nat) (f : Context → Context) : (s.modContext k f).grant = s.grant := rfl
@[simp] theorem State.modContext_inputs (k : Nat) (f : Context → Context) : (s.modContext k f).inputs = s.inputs := rfl
@[simp] theorem State.modContext_draws (k : Nat) (f : Context → Context) : (s.modContext k f).draws = s.draws := rfl

@[simp] theorem State.modCore_devTime (k : Nat) (f : Core → Core) : (s.modCore k f).devTime = s.devTime := rfl
@[simp] theorem State.modCore_mem (k : Nat) (f : Core → Core) : (s.modCore k f).mem = s.mem := rfl
@[simp] theorem State.modCore_groups (k : Nat) (f : Core → Core) : (s.modCore k f).groups = s.groups := rfl
@[simp] theorem State.modCore_teams (k : Nat) (f : Core → Core) : (s.modCore k f).teams = s.teams := rfl
@[simp] theorem State.modCore_grids (k : Nat) (f : Core → Core) : (s.modCore k f).grids = s.grids := rfl
@[simp] theorem State.modCore_contexts (k : Nat) (f : Core → Core) : (s.modCore k f).contexts = s.contexts := rfl
@[simp] theorem State.modCore_clusters (k : Nat) (f : Core → Core) : (s.modCore k f).clusters = s.clusters := rfl
@[simp] theorem State.modCore_slices (k : Nat) (f : Core → Core) : (s.modCore k f).slices = s.slices := rfl
@[simp] theorem State.modCore_dies (k : Nat) (f : Core → Core) : (s.modCore k f).dies = s.dies := rfl
@[simp] theorem State.modCore_hub (k : Nat) (f : Core → Core) : (s.modCore k f).hub = s.hub := rfl
@[simp] theorem State.modCore_ops (k : Nat) (f : Core → Core) : (s.modCore k f).ops = s.ops := rfl
@[simp] theorem State.modCore_reqs (k : Nat) (f : Core → Core) : (s.modCore k f).reqs = s.reqs := rfl
@[simp] theorem State.modCore_holds (k : Nat) (f : Core → Core) : (s.modCore k f).holds = s.holds := rfl
@[simp] theorem State.modCore_nextId (k : Nat) (f : Core → Core) : (s.modCore k f).nextId = s.nextId := rfl
@[simp] theorem State.modCore_issues (k : Nat) (f : Core → Core) : (s.modCore k f).issues = s.issues := rfl
@[simp] theorem State.modCore_grant (k : Nat) (f : Core → Core) : (s.modCore k f).grant = s.grant := rfl
@[simp] theorem State.modCore_inputs (k : Nat) (f : Core → Core) : (s.modCore k f).inputs = s.inputs := rfl
@[simp] theorem State.modCore_draws (k : Nat) (f : Core → Core) : (s.modCore k f).draws = s.draws := rfl

@[simp] theorem State.modCluster_devTime (k : Nat) (f : Cluster → Cluster) : (s.modCluster k f).devTime = s.devTime := rfl
@[simp] theorem State.modCluster_mem (k : Nat) (f : Cluster → Cluster) : (s.modCluster k f).mem = s.mem := rfl
@[simp] theorem State.modCluster_groups (k : Nat) (f : Cluster → Cluster) : (s.modCluster k f).groups = s.groups := rfl
@[simp] theorem State.modCluster_teams (k : Nat) (f : Cluster → Cluster) : (s.modCluster k f).teams = s.teams := rfl
@[simp] theorem State.modCluster_grids (k : Nat) (f : Cluster → Cluster) : (s.modCluster k f).grids = s.grids := rfl
@[simp] theorem State.modCluster_contexts (k : Nat) (f : Cluster → Cluster) : (s.modCluster k f).contexts = s.contexts := rfl
@[simp] theorem State.modCluster_cores (k : Nat) (f : Cluster → Cluster) : (s.modCluster k f).cores = s.cores := rfl
@[simp] theorem State.modCluster_slices (k : Nat) (f : Cluster → Cluster) : (s.modCluster k f).slices = s.slices := rfl
@[simp] theorem State.modCluster_dies (k : Nat) (f : Cluster → Cluster) : (s.modCluster k f).dies = s.dies := rfl
@[simp] theorem State.modCluster_hub (k : Nat) (f : Cluster → Cluster) : (s.modCluster k f).hub = s.hub := rfl
@[simp] theorem State.modCluster_ops (k : Nat) (f : Cluster → Cluster) : (s.modCluster k f).ops = s.ops := rfl
@[simp] theorem State.modCluster_reqs (k : Nat) (f : Cluster → Cluster) : (s.modCluster k f).reqs = s.reqs := rfl
@[simp] theorem State.modCluster_holds (k : Nat) (f : Cluster → Cluster) : (s.modCluster k f).holds = s.holds := rfl
@[simp] theorem State.modCluster_nextId (k : Nat) (f : Cluster → Cluster) : (s.modCluster k f).nextId = s.nextId := rfl
@[simp] theorem State.modCluster_issues (k : Nat) (f : Cluster → Cluster) : (s.modCluster k f).issues = s.issues := rfl
@[simp] theorem State.modCluster_grant (k : Nat) (f : Cluster → Cluster) : (s.modCluster k f).grant = s.grant := rfl
@[simp] theorem State.modCluster_inputs (k : Nat) (f : Cluster → Cluster) : (s.modCluster k f).inputs = s.inputs := rfl
@[simp] theorem State.modCluster_draws (k : Nat) (f : Cluster → Cluster) : (s.modCluster k f).draws = s.draws := rfl

@[simp] theorem State.modSlice_devTime (k : Nat) (f : Slice → Slice) : (s.modSlice k f).devTime = s.devTime := rfl
@[simp] theorem State.modSlice_mem (k : Nat) (f : Slice → Slice) : (s.modSlice k f).mem = s.mem := rfl
@[simp] theorem State.modSlice_groups (k : Nat) (f : Slice → Slice) : (s.modSlice k f).groups = s.groups := rfl
@[simp] theorem State.modSlice_teams (k : Nat) (f : Slice → Slice) : (s.modSlice k f).teams = s.teams := rfl
@[simp] theorem State.modSlice_grids (k : Nat) (f : Slice → Slice) : (s.modSlice k f).grids = s.grids := rfl
@[simp] theorem State.modSlice_contexts (k : Nat) (f : Slice → Slice) : (s.modSlice k f).contexts = s.contexts := rfl
@[simp] theorem State.modSlice_cores (k : Nat) (f : Slice → Slice) : (s.modSlice k f).cores = s.cores := rfl
@[simp] theorem State.modSlice_clusters (k : Nat) (f : Slice → Slice) : (s.modSlice k f).clusters = s.clusters := rfl
@[simp] theorem State.modSlice_dies (k : Nat) (f : Slice → Slice) : (s.modSlice k f).dies = s.dies := rfl
@[simp] theorem State.modSlice_hub (k : Nat) (f : Slice → Slice) : (s.modSlice k f).hub = s.hub := rfl
@[simp] theorem State.modSlice_ops (k : Nat) (f : Slice → Slice) : (s.modSlice k f).ops = s.ops := rfl
@[simp] theorem State.modSlice_reqs (k : Nat) (f : Slice → Slice) : (s.modSlice k f).reqs = s.reqs := rfl
@[simp] theorem State.modSlice_holds (k : Nat) (f : Slice → Slice) : (s.modSlice k f).holds = s.holds := rfl
@[simp] theorem State.modSlice_nextId (k : Nat) (f : Slice → Slice) : (s.modSlice k f).nextId = s.nextId := rfl
@[simp] theorem State.modSlice_issues (k : Nat) (f : Slice → Slice) : (s.modSlice k f).issues = s.issues := rfl
@[simp] theorem State.modSlice_grant (k : Nat) (f : Slice → Slice) : (s.modSlice k f).grant = s.grant := rfl
@[simp] theorem State.modSlice_inputs (k : Nat) (f : Slice → Slice) : (s.modSlice k f).inputs = s.inputs := rfl
@[simp] theorem State.modSlice_draws (k : Nat) (f : Slice → Slice) : (s.modSlice k f).draws = s.draws := rfl

@[simp] theorem State.modDie_devTime (k : Nat) (f : Die → Die) : (s.modDie k f).devTime = s.devTime := rfl
@[simp] theorem State.modDie_mem (k : Nat) (f : Die → Die) : (s.modDie k f).mem = s.mem := rfl
@[simp] theorem State.modDie_groups (k : Nat) (f : Die → Die) : (s.modDie k f).groups = s.groups := rfl
@[simp] theorem State.modDie_teams (k : Nat) (f : Die → Die) : (s.modDie k f).teams = s.teams := rfl
@[simp] theorem State.modDie_grids (k : Nat) (f : Die → Die) : (s.modDie k f).grids = s.grids := rfl
@[simp] theorem State.modDie_contexts (k : Nat) (f : Die → Die) : (s.modDie k f).contexts = s.contexts := rfl
@[simp] theorem State.modDie_cores (k : Nat) (f : Die → Die) : (s.modDie k f).cores = s.cores := rfl
@[simp] theorem State.modDie_clusters (k : Nat) (f : Die → Die) : (s.modDie k f).clusters = s.clusters := rfl
@[simp] theorem State.modDie_slices (k : Nat) (f : Die → Die) : (s.modDie k f).slices = s.slices := rfl
@[simp] theorem State.modDie_hub (k : Nat) (f : Die → Die) : (s.modDie k f).hub = s.hub := rfl
@[simp] theorem State.modDie_ops (k : Nat) (f : Die → Die) : (s.modDie k f).ops = s.ops := rfl
@[simp] theorem State.modDie_reqs (k : Nat) (f : Die → Die) : (s.modDie k f).reqs = s.reqs := rfl
@[simp] theorem State.modDie_holds (k : Nat) (f : Die → Die) : (s.modDie k f).holds = s.holds := rfl
@[simp] theorem State.modDie_nextId (k : Nat) (f : Die → Die) : (s.modDie k f).nextId = s.nextId := rfl
@[simp] theorem State.modDie_issues (k : Nat) (f : Die → Die) : (s.modDie k f).issues = s.issues := rfl
@[simp] theorem State.modDie_grant (k : Nat) (f : Die → Die) : (s.modDie k f).grant = s.grant := rfl
@[simp] theorem State.modDie_inputs (k : Nat) (f : Die → Die) : (s.modDie k f).inputs = s.inputs := rfl
@[simp] theorem State.modDie_draws (k : Nat) (f : Die → Die) : (s.modDie k f).draws = s.draws := rfl

@[simp] theorem State.modHub_devTime (f : Hub → Hub) : (s.modHub f).devTime = s.devTime := rfl
@[simp] theorem State.modHub_mem (f : Hub → Hub) : (s.modHub f).mem = s.mem := rfl
@[simp] theorem State.modHub_groups (f : Hub → Hub) : (s.modHub f).groups = s.groups := rfl
@[simp] theorem State.modHub_teams (f : Hub → Hub) : (s.modHub f).teams = s.teams := rfl
@[simp] theorem State.modHub_grids (f : Hub → Hub) : (s.modHub f).grids = s.grids := rfl
@[simp] theorem State.modHub_contexts (f : Hub → Hub) : (s.modHub f).contexts = s.contexts := rfl
@[simp] theorem State.modHub_cores (f : Hub → Hub) : (s.modHub f).cores = s.cores := rfl
@[simp] theorem State.modHub_clusters (f : Hub → Hub) : (s.modHub f).clusters = s.clusters := rfl
@[simp] theorem State.modHub_slices (f : Hub → Hub) : (s.modHub f).slices = s.slices := rfl
@[simp] theorem State.modHub_dies (f : Hub → Hub) : (s.modHub f).dies = s.dies := rfl
@[simp] theorem State.modHub_ops (f : Hub → Hub) : (s.modHub f).ops = s.ops := rfl
@[simp] theorem State.modHub_reqs (f : Hub → Hub) : (s.modHub f).reqs = s.reqs := rfl
@[simp] theorem State.modHub_holds (f : Hub → Hub) : (s.modHub f).holds = s.holds := rfl
@[simp] theorem State.modHub_nextId (f : Hub → Hub) : (s.modHub f).nextId = s.nextId := rfl
@[simp] theorem State.modHub_issues (f : Hub → Hub) : (s.modHub f).issues = s.issues := rfl
@[simp] theorem State.modHub_grant (f : Hub → Hub) : (s.modHub f).grant = s.grant := rfl
@[simp] theorem State.modHub_inputs (f : Hub → Hub) : (s.modHub f).inputs = s.inputs := rfl
@[simp] theorem State.modHub_draws (f : Hub → Hub) : (s.modHub f).draws = s.draws := rfl

/-! ### Reading a unit back -/

@[simp] theorem State.group_modGroup_self (k : Nat) (f : Group → Group) : (s.modGroup k f).group k = f (s.group k) := tget_tput_self ..
theorem State.group_modGroup_ne (k j : Nat) (f : Group → Group) (h : j ≠ k) : (s.modGroup k f).group j = s.group j := tget_tput_ne _ h _ _
@[simp] theorem State.group_modTeam (j : Nat) (k : Nat) (f : Team → Team) : (s.modTeam k f).group j = s.group j := rfl
@[simp] theorem State.group_modGrid (j : Nat) (k : Nat) (f : Grid → Grid) : (s.modGrid k f).group j = s.group j := rfl
@[simp] theorem State.group_modContext (j : Nat) (k : Nat) (f : Context → Context) : (s.modContext k f).group j = s.group j := rfl
@[simp] theorem State.group_modCore (j : Nat) (k : Nat) (f : Core → Core) : (s.modCore k f).group j = s.group j := rfl
@[simp] theorem State.group_modCluster (j : Nat) (k : Nat) (f : Cluster → Cluster) : (s.modCluster k f).group j = s.group j := rfl
@[simp] theorem State.group_modSlice (j : Nat) (k : Nat) (f : Slice → Slice) : (s.modSlice k f).group j = s.group j := rfl
@[simp] theorem State.group_modDie (j : Nat) (k : Nat) (f : Die → Die) : (s.modDie k f).group j = s.group j := rfl
@[simp] theorem State.group_modHub (j : Nat) (f : Hub → Hub) : (s.modHub f).group j = s.group j := rfl

@[simp] theorem State.team_modTeam_self (k : Nat) (f : Team → Team) : (s.modTeam k f).team k = f (s.team k) := tget_tput_self ..
theorem State.team_modTeam_ne (k j : Nat) (f : Team → Team) (h : j ≠ k) : (s.modTeam k f).team j = s.team j := tget_tput_ne _ h _ _
@[simp] theorem State.team_setGroup (j : Nat) (k : Nat) (g : Group) : (s.setGroup k g).team j = s.team j := rfl
@[simp] theorem State.team_modGroup (j : Nat) (k : Nat) (f : Group → Group) : (s.modGroup k f).team j = s.team j := rfl
@[simp] theorem State.team_modGrid (j : Nat) (k : Nat) (f : Grid → Grid) : (s.modGrid k f).team j = s.team j := rfl
@[simp] theorem State.team_modContext (j : Nat) (k : Nat) (f : Context → Context) : (s.modContext k f).team j = s.team j := rfl
@[simp] theorem State.team_modCore (j : Nat) (k : Nat) (f : Core → Core) : (s.modCore k f).team j = s.team j := rfl
@[simp] theorem State.team_modCluster (j : Nat) (k : Nat) (f : Cluster → Cluster) : (s.modCluster k f).team j = s.team j := rfl
@[simp] theorem State.team_modSlice (j : Nat) (k : Nat) (f : Slice → Slice) : (s.modSlice k f).team j = s.team j := rfl
@[simp] theorem State.team_modDie (j : Nat) (k : Nat) (f : Die → Die) : (s.modDie k f).team j = s.team j := rfl
@[simp] theorem State.team_modHub (j : Nat) (f : Hub → Hub) : (s.modHub f).team j = s.team j := rfl

@[simp] theorem State.grid_modGrid_self (k : Nat) (f : Grid → Grid) : (s.modGrid k f).grid k = f (s.grid k) := tget_tput_self ..
theorem State.grid_modGrid_ne (k j : Nat) (f : Grid → Grid) (h : j ≠ k) : (s.modGrid k f).grid j = s.grid j := tget_tput_ne _ h _ _
@[simp] theorem State.grid_setGroup (j : Nat) (k : Nat) (g : Group) : (s.setGroup k g).grid j = s.grid j := rfl
@[simp] theorem State.grid_modGroup (j : Nat) (k : Nat) (f : Group → Group) : (s.modGroup k f).grid j = s.grid j := rfl
@[simp] theorem State.grid_modTeam (j : Nat) (k : Nat) (f : Team → Team) : (s.modTeam k f).grid j = s.grid j := rfl
@[simp] theorem State.grid_modContext (j : Nat) (k : Nat) (f : Context → Context) : (s.modContext k f).grid j = s.grid j := rfl
@[simp] theorem State.grid_modCore (j : Nat) (k : Nat) (f : Core → Core) : (s.modCore k f).grid j = s.grid j := rfl
@[simp] theorem State.grid_modCluster (j : Nat) (k : Nat) (f : Cluster → Cluster) : (s.modCluster k f).grid j = s.grid j := rfl
@[simp] theorem State.grid_modSlice (j : Nat) (k : Nat) (f : Slice → Slice) : (s.modSlice k f).grid j = s.grid j := rfl
@[simp] theorem State.grid_modDie (j : Nat) (k : Nat) (f : Die → Die) : (s.modDie k f).grid j = s.grid j := rfl
@[simp] theorem State.grid_modHub (j : Nat) (f : Hub → Hub) : (s.modHub f).grid j = s.grid j := rfl

@[simp] theorem State.context_modContext_self (k : Nat) (f : Context → Context) : (s.modContext k f).context k = f (s.context k) := tget_tput_self ..
theorem State.context_modContext_ne (k j : Nat) (f : Context → Context) (h : j ≠ k) : (s.modContext k f).context j = s.context j := tget_tput_ne _ h _ _
@[simp] theorem State.context_setGroup (j : Nat) (k : Nat) (g : Group) : (s.setGroup k g).context j = s.context j := rfl
@[simp] theorem State.context_modGroup (j : Nat) (k : Nat) (f : Group → Group) : (s.modGroup k f).context j = s.context j := rfl
@[simp] theorem State.context_modTeam (j : Nat) (k : Nat) (f : Team → Team) : (s.modTeam k f).context j = s.context j := rfl
@[simp] theorem State.context_modGrid (j : Nat) (k : Nat) (f : Grid → Grid) : (s.modGrid k f).context j = s.context j := rfl
@[simp] theorem State.context_modCore (j : Nat) (k : Nat) (f : Core → Core) : (s.modCore k f).context j = s.context j := rfl
@[simp] theorem State.context_modCluster (j : Nat) (k : Nat) (f : Cluster → Cluster) : (s.modCluster k f).context j = s.context j := rfl
@[simp] theorem State.context_modSlice (j : Nat) (k : Nat) (f : Slice → Slice) : (s.modSlice k f).context j = s.context j := rfl
@[simp] theorem State.context_modDie (j : Nat) (k : Nat) (f : Die → Die) : (s.modDie k f).context j = s.context j := rfl
@[simp] theorem State.context_modHub (j : Nat) (f : Hub → Hub) : (s.modHub f).context j = s.context j := rfl

@[simp] theorem State.core_modCore_self (k : Nat) (f : Core → Core) : (s.modCore k f).core k = f (s.core k) := tget_tput_self ..
theorem State.core_modCore_ne (k j : Nat) (f : Core → Core) (h : j ≠ k) : (s.modCore k f).core j = s.core j := tget_tput_ne _ h _ _
@[simp] theorem State.core_setGroup (j : Nat) (k : Nat) (g : Group) : (s.setGroup k g).core j = s.core j := rfl
@[simp] theorem State.core_modGroup (j : Nat) (k : Nat) (f : Group → Group) : (s.modGroup k f).core j = s.core j := rfl
@[simp] theorem State.core_modTeam (j : Nat) (k : Nat) (f : Team → Team) : (s.modTeam k f).core j = s.core j := rfl
@[simp] theorem State.core_modGrid (j : Nat) (k : Nat) (f : Grid → Grid) : (s.modGrid k f).core j = s.core j := rfl
@[simp] theorem State.core_modContext (j : Nat) (k : Nat) (f : Context → Context) : (s.modContext k f).core j = s.core j := rfl
@[simp] theorem State.core_modCluster (j : Nat) (k : Nat) (f : Cluster → Cluster) : (s.modCluster k f).core j = s.core j := rfl
@[simp] theorem State.core_modSlice (j : Nat) (k : Nat) (f : Slice → Slice) : (s.modSlice k f).core j = s.core j := rfl
@[simp] theorem State.core_modDie (j : Nat) (k : Nat) (f : Die → Die) : (s.modDie k f).core j = s.core j := rfl
@[simp] theorem State.core_modHub (j : Nat) (f : Hub → Hub) : (s.modHub f).core j = s.core j := rfl

@[simp] theorem State.cluster_modCluster_self (k : Nat) (f : Cluster → Cluster) : (s.modCluster k f).cluster k = f (s.cluster k) := tget_tput_self ..
theorem State.cluster_modCluster_ne (k j : Nat) (f : Cluster → Cluster) (h : j ≠ k) : (s.modCluster k f).cluster j = s.cluster j := tget_tput_ne _ h _ _
@[simp] theorem State.cluster_setGroup (j : Nat) (k : Nat) (g : Group) : (s.setGroup k g).cluster j = s.cluster j := rfl
@[simp] theorem State.cluster_modGroup (j : Nat) (k : Nat) (f : Group → Group) : (s.modGroup k f).cluster j = s.cluster j := rfl
@[simp] theorem State.cluster_modTeam (j : Nat) (k : Nat) (f : Team → Team) : (s.modTeam k f).cluster j = s.cluster j := rfl
@[simp] theorem State.cluster_modGrid (j : Nat) (k : Nat) (f : Grid → Grid) : (s.modGrid k f).cluster j = s.cluster j := rfl
@[simp] theorem State.cluster_modContext (j : Nat) (k : Nat) (f : Context → Context) : (s.modContext k f).cluster j = s.cluster j := rfl
@[simp] theorem State.cluster_modCore (j : Nat) (k : Nat) (f : Core → Core) : (s.modCore k f).cluster j = s.cluster j := rfl
@[simp] theorem State.cluster_modSlice (j : Nat) (k : Nat) (f : Slice → Slice) : (s.modSlice k f).cluster j = s.cluster j := rfl
@[simp] theorem State.cluster_modDie (j : Nat) (k : Nat) (f : Die → Die) : (s.modDie k f).cluster j = s.cluster j := rfl
@[simp] theorem State.cluster_modHub (j : Nat) (f : Hub → Hub) : (s.modHub f).cluster j = s.cluster j := rfl

@[simp] theorem State.slice_modSlice_self (k : Nat) (f : Slice → Slice) : (s.modSlice k f).slice k = f (s.slice k) := tget_tput_self ..
theorem State.slice_modSlice_ne (k j : Nat) (f : Slice → Slice) (h : j ≠ k) : (s.modSlice k f).slice j = s.slice j := tget_tput_ne _ h _ _
@[simp] theorem State.slice_setGroup (j : Nat) (k : Nat) (g : Group) : (s.setGroup k g).slice j = s.slice j := rfl
@[simp] theorem State.slice_modGroup (j : Nat) (k : Nat) (f : Group → Group) : (s.modGroup k f).slice j = s.slice j := rfl
@[simp] theorem State.slice_modTeam (j : Nat) (k : Nat) (f : Team → Team) : (s.modTeam k f).slice j = s.slice j := rfl
@[simp] theorem State.slice_modGrid (j : Nat) (k : Nat) (f : Grid → Grid) : (s.modGrid k f).slice j = s.slice j := rfl
@[simp] theorem State.slice_modContext (j : Nat) (k : Nat) (f : Context → Context) : (s.modContext k f).slice j = s.slice j := rfl
@[simp] theorem State.slice_modCore (j : Nat) (k : Nat) (f : Core → Core) : (s.modCore k f).slice j = s.slice j := rfl
@[simp] theorem State.slice_modCluster (j : Nat) (k : Nat) (f : Cluster → Cluster) : (s.modCluster k f).slice j = s.slice j := rfl
@[simp] theorem State.slice_modDie (j : Nat) (k : Nat) (f : Die → Die) : (s.modDie k f).slice j = s.slice j := rfl
@[simp] theorem State.slice_modHub (j : Nat) (f : Hub → Hub) : (s.modHub f).slice j = s.slice j := rfl

@[simp] theorem State.die_modDie_self (k : Nat) (f : Die → Die) : (s.modDie k f).die k = f (s.die k) := tget_tput_self ..
theorem State.die_modDie_ne (k j : Nat) (f : Die → Die) (h : j ≠ k) : (s.modDie k f).die j = s.die j := tget_tput_ne _ h _ _
@[simp] theorem State.die_setGroup (j : Nat) (k : Nat) (g : Group) : (s.setGroup k g).die j = s.die j := rfl
@[simp] theorem State.die_modGroup (j : Nat) (k : Nat) (f : Group → Group) : (s.modGroup k f).die j = s.die j := rfl
@[simp] theorem State.die_modTeam (j : Nat) (k : Nat) (f : Team → Team) : (s.modTeam k f).die j = s.die j := rfl
@[simp] theorem State.die_modGrid (j : Nat) (k : Nat) (f : Grid → Grid) : (s.modGrid k f).die j = s.die j := rfl
@[simp] theorem State.die_modContext (j : Nat) (k : Nat) (f : Context → Context) : (s.modContext k f).die j = s.die j := rfl
@[simp] theorem State.die_modCore (j : Nat) (k : Nat) (f : Core → Core) : (s.modCore k f).die j = s.die j := rfl
@[simp] theorem State.die_modCluster (j : Nat) (k : Nat) (f : Cluster → Cluster) : (s.modCluster k f).die j = s.die j := rfl
@[simp] theorem State.die_modSlice (j : Nat) (k : Nat) (f : Slice → Slice) : (s.modSlice k f).die j = s.die j := rfl
@[simp] theorem State.die_modHub (j : Nat) (f : Hub → Hub) : (s.modHub f).die j = s.die j := rfl

@[simp] theorem State.group_setGroup_self (k : Nat) (g : Group) : (s.setGroup k g).group k = g := tget_tput_self ..
theorem State.group_setGroup_ne (k j : Nat) (g : Group) (h : j ≠ k) : (s.setGroup k g).group j = s.group j := tget_tput_ne _ h _ _
@[simp] theorem State.modHub_hub (f : Hub → Hub) : (s.modHub f).hub = f s.hub := rfl
@[simp] theorem State.resident_setGroup_self (k : Nat) (g : Group) : (s.setGroup k g).resident k = true := by simp [State.resident, State.setGroup]
@[simp] theorem State.resident_modGroup_self (k : Nat) (f : Group → Group) : (s.modGroup k f).resident k = true := by simp [State.modGroup]

end Sys2Proof.Machine
end

