-- ==== Sys2Proof/Laws/Issue.lean ====
section
/-! SUPPORT. What the issue of a word can do: the checks of a ready word pass, what the issue leaves alone, and
the whole of a word whose meaning ends with its issue. -/

namespace Sys2Proof.Machine

/-! ### The checks -/

theorem find?_none_of {α : Type} {p : α → Bool} {l : List α} (h : ∀ x ∈ l, p x = false) : l.find? p = none := by
  rw [List.find?_eq_none]; intro x hx; simp [h x hx]

theorem firstUnallocated_none {g : Group} {rs : List Reg} (h : ∀ r ∈ rs, g.allocated r = true) : firstUnallocated g rs = none := by
  simp [firstUnallocated, find?_none_of (l := rs) (p := fun r => !g.allocated r) (fun r hr => by simp [h r hr])]

theorem firstPending_none {g : Group} {mx : Bool} {rs : List Reg}
    (h : ∀ r ∈ rs, ∀ m, g.pending r.cls.code r.idx = some m → (mx && m.mx && decide (r.cls = .acc)) = true) : firstPending g mx rs = none := by
  unfold firstPending
  rw [find?_none_of]
  intro r hr
  cases hp : g.pending r.cls.code r.idx with
  | none => rfl
  | some m => simp [h r hr m hp]

theorem frontCheck_none {i : Instr} {s : State} {gr : Grant} (h : Ready i s gr) : frontCheck i (s.issuer gr) none = none := by
  have hlater : frontCheck.later i (s.issuer gr) none i.regs = none := by
    simp only [frontCheck.later]
    show (match firstUnallocated (s.group gr.gid) (i.regs.1 ++ i.regs.2) with | some f => some f | none => firstPending (s.group gr.gid) i.isMatrix (i.regs.1 ++ i.regs.2)) = none
    rw [firstUnallocated_none h.allocated]; exact firstPending_none h.free
  have hplace : (i.isTransfer && decide ((s.issuer gr).cl.left ≠ 1)) = false := by
    cases ht : i.isTransfer with
    | false => rfl
    | true => simp [h.place ht]
  unfold frontCheck
  simp only [hplace]
  cases hf : i.longLat with
  | none => simpa using hlater
  | some sb =>
    have := h.flag sb hf
    cases hg : (s.issuer gr).flag sb with
    | none => simp [hg] at this
    | some n => simpa [hg] using hlater

theorem poisonFault_none {i : Instr} {s : State} {gr : Grant} (h : Ready i s gr) : poisonFault s (s.issuer gr) ((s.issuer gr).sources i) = none := by
  unfold poisonFault
  split
  · rfl
  · unfold State.errorFault
    dsimp only
    split
    · rfl
    · rw [Option.map_eq_none_iff, List.find?_eq_none]
      intro x hx
      obtain ⟨r, hr, hx⟩ := List.mem_flatMap.mp hx
      obtain ⟨w, hw, rfl⟩ := List.mem_map.mp hx
      have hs := h.sound r hr w hw
      simp [State.issuer, hs.1, hs.2]

/-- A ready word whose own check passes has its effect, or the fault that the effect finds. -/
theorem issue_ready {i : Instr} {s : State} {gr : Grant} (h : Ready i s gr) (pre : Iss → Option Flt) (hp : pre (s.issuer gr) = none) (eff : Iss → State → Except Flt State) :
    issue i s pre eff = (match eff (s.issuer gr) (s.begin (s.issuer gr) i) with | .error f => .next (s.trapAt (s.issuer gr) f) | .ok t => .next (t.written (s.issuer gr) i)) := by
  unfold issue
  rw [h.granted]
  simp only [h.right, Option.orElse, hp, frontCheck_none h, poisonFault_none h]
  all_goals rfl

/-! ### What the issue leaves alone -/

theorem State.group_endYields (s : State) (gid k : Nat) :
    (s.endYields gid).group k = if k ≠ gid ∧ k / 16 = gid / 16 then { s.group k with yielded := false } else s.group k := by
  have h := tget_mapIf (fun g : Group => { g with yielded := false }) (fun k => decide (k ≠ gid ∧ k / 16 = gid / 16)) {} k s.groups rfl
  simp only [decide_eq_true_eq] at h
  exact h

/-- A change of one unit, or none. -/
theorem State.core_countCore (s : State) (core ctx src n k : Nat) :
    { (s.countCore core ctx src n).core k with counters := (s.core k).counters } = s.core k := by
  unfold State.countCore
  split
  · split
    · rfl
    · by_cases h : k = core
      · subst h; simp
      · rw [State.core_modCore_ne _ _ _ _ h]
  · rfl

theorem State.countCore_eq (s : State) (core ctx src n : Nat) : ∃ x, s.countCore core ctx src n = { s with cores := x } := by
  unfold State.countCore; split
  · split
    · exact ⟨s.cores, rfl⟩
    · exact ⟨_, rfl⟩
  · exact ⟨s.cores, rfl⟩


/-- `t` differs from `s` in the bookkeeping of an issue at most. -/
structure Book (s t : State) : Prop where
  rest : t = { s with cores := t.cores, clusters := t.clusters, contexts := t.contexts, dies := t.dies }
  cores : ∀ k, { t.core k with corr := (s.core k).corr, flips := (s.core k).flips, doubles := (s.core k).doubles, poison := (s.core k).poison, secondRead := (s.core k).secondRead, counters := (s.core k).counters } = s.core k
  clusters : ∀ k, { t.cluster k with now := (s.cluster k).now } = s.cluster k
  contexts : ∀ k, { t.context k with hb := { (t.context k).hb with stepping := (s.context k).hb.stepping, stepped := (s.context k).hb.stepped } } = s.context k
  dies : ∀ k, { t.die k with log := (s.die k).log } = s.die k

theorem Book.refl (s : State) : Book s s := ⟨rfl, fun _ => rfl, fun _ => rfl, fun _ => rfl, fun _ => rfl⟩

theorem Book.trans {s t u : State} (h : Book s t) (k : Book t u) : Book s u := by
  refine ⟨?_, fun n => ?_, fun n => ?_, fun n => ?_, fun n => ?_⟩
  · rw [k.rest, h.rest]
  · have a := h.cores n; have b := k.cores n; rw [← a, ← b]
  · have a := h.clusters n; have b := k.clusters n; rw [← a, ← b]
  · have a := h.contexts n; have b := k.contexts n; rw [← a, ← b]
  · have a := h.dies n; have b := k.dies n; rw [← a, ← b]

theorem Book.ite {s t u : State} {p : Prop} [Decidable p] (ht : Book s t) (hu : Book s u) : Book s (if p then t else u) := by split <;> assumption

theorem Book.countCore (s : State) (core ctx src n : Nat) : Book s (s.countCore core ctx src n) := by
  obtain ⟨x, hx⟩ := s.countCore_eq core ctx src n
  refine ⟨by rw [hx], fun k => ?_, fun k => by rw [hx]; rfl, fun k => by rw [hx]; rfl, fun k => by rw [hx]; rfl⟩
  have h := s.core_countCore core ctx src n k
  rw [← h]

/-- A change of what a core shows of bit errors. -/
theorem Book.errors (s : State) (core : Nat) (f : Core → Core) (h : ∀ k, ∃ a b c d, f k = { k with corr := a, flips := b, doubles := c, poison := d }) : Book s (s.modCore core f) := by
  refine ⟨rfl, fun j => ?_, fun _ => rfl, fun _ => rfl, fun _ => rfl⟩
  by_cases hj : j = core
  · subst hj
    obtain ⟨a, b, c, d, e⟩ := h (s.core j)
    simp [e]
  · rw [State.core_modCore_ne _ _ _ _ hj]

theorem Book.logDie (s : State) (d : Nat) (lasting : Bool) (info ctx addr : Nat) : Book s (s.logDie d lasting info ctx addr) := by
  refine ⟨rfl, fun _ => rfl, fun _ => rfl, fun _ => rfl, fun j => ?_⟩
  unfold State.logDie
  by_cases hj : j = d
  · subst hj; simp
  · rw [State.die_modDie_ne _ _ _ _ hj]

theorem Book.foldl {α : Type} (f : State → α → State) (h : ∀ s a, Book s (f s a)) (l : List α) (s : State) : Book s (l.foldl f s) := by
  induction l generalizing s with
  | nil => exact Book.refl s
  | cons a l ih => exact (h s a).trans (ih _)

/-- A program read of words changes what the core shows of errors, and the log of its die (06 R110). -/
theorem Book.readWords (s : State) (core ctx unit : Nat) (ws : List (FileWord × Nat)) : Book s (s.readWords core ctx unit ws) := by
  unfold State.readWords
  dsimp only
  split
  · exact Book.refl s
  · exact (Book.errors s core _ (fun k => ⟨_, _, _, k.poison, rfl⟩)).trans (Book.foldl _ (fun s w => Book.logDie ..) _ _)

theorem Core.mend_eq (k : Core) (p : FileWord → Bool) : ∃ a b c d, k.mend p = { k with corr := a, flips := b, doubles := c, poison := d } := by
  unfold Core.mend
  split
  · exact ⟨k.corr, k.flips, k.doubles, k.poison, rfl⟩
  · exact ⟨k.corr, _, _, _, rfl⟩

theorem Book.correct (s : State) (c : Iss) (r : List Reg) : Book s (s.correct c r) := by
  unfold State.correct
  split
  · exact Book.refl s
  · exact Book.readWords ..

/-- The words that a word has written lose their errors: the rest of the state stays. -/
theorem Book.written (s : State) (c : Iss) (i : Instr) : Book s (s.written c i) := by
  unfold State.written
  exact Book.ite (Book.refl s) (Book.ite (Book.refl s) (Book.errors _ _ _ (fun k => k.mend_eq _)))

@[simp] theorem State.groups_written (s : State) (c : Iss) (i : Instr) : (s.written c i).groups = s.groups := by rw [(Book.written s c i).rest]

@[simp] theorem State.group_written (s : State) (c : Iss) (i : Instr) (k : Nat) : (s.written c i).group k = s.group k := by simp only [State.group, State.groups_written]

theorem Book.cluster (s : State) (k n : Nat) : Book s (s.modCluster k (fun x => { x with now := x.now + n })) := by
  refine ⟨rfl, fun _ => rfl, fun j => ?_, fun _ => rfl, fun _ => rfl⟩
  by_cases h : j = k
  · subst h; simp
  · rw [State.cluster_modCluster_ne _ _ _ _ h]

theorem Book.secondRead (s : State) (k q : Nat) : Book s (s.modCore k (fun x => { x with secondRead := q :: x.secondRead })) := by
  refine ⟨rfl, fun j => ?_, fun _ => rfl, fun _ => rfl, fun _ => rfl⟩
  by_cases h : j = k
  · subst h; simp
  · rw [State.core_modCore_ne _ _ _ _ h]

theorem Book.noteStep (s : State) (c : Iss) (i : Instr) : Book s (s.noteStep c i) := by
  refine ⟨rfl, fun _ => rfl, fun _ => rfl, fun j => ?_, fun _ => rfl⟩
  unfold State.noteStep
  by_cases h : j = c.g.ctx
  · subst h; simp only [State.context_modContext_self]; split <;> rfl
  · rw [State.context_modContext_ne _ _ _ _ h]

/-- The issue changes its own group, the yield preferences, and the bookkeeping. -/
theorem State.begin_book (s : State) (c : Iss) (i : Instr) :
    Book ((({ s with grant := none, issues := s.issues + 1 } : State).setGroup c.gid (c.issued i (s.issues + 1))).endYields c.gid) (s.begin c i) := by
  unfold State.begin
  simp only
  generalize hs0 : ({ s with grant := none, issues := s.issues + 1 } : State).setGroup c.gid (c.issued i (s.issues + 1)) = s0
  have h2 : Book (s0.endYields c.gid) ((s0.correct c (c.sources i)).endYields c.gid) := by
    have hb := Book.correct s0 c (c.sources i)
    refine ⟨by rw [hb.rest]; rfl, fun k => ?_, fun k => ?_, fun k => ?_, fun k => ?_⟩
    · exact hb.cores k
    · exact hb.clusters k
    · exact hb.contexts k
    · exact hb.dies k
  refine h2.trans (Book.trans ?_ (Book.countCore ..))
  refine Book.trans (Book.trans (Book.ite (Book.refl _) (Book.cluster ..)) (Book.ite (Book.secondRead ..) (Book.refl _))) (Book.ite (Book.noteStep ..) (Book.refl _))

@[simp] theorem State.group_begin_self (s : State) (c : Iss) (i : Instr) : (s.begin c i).group c.gid = c.issued i (s.issues + 1) := by
  have h := (s.begin_book c i).rest
  rw [h]
  show ((({ s with grant := none, issues := s.issues + 1 } : State).setGroup c.gid (c.issued i (s.issues + 1))).endYields c.gid).group c.gid = _
  rw [State.group_endYields]; simp

theorem State.group_begin_ne (s : State) (c : Iss) (i : Instr) (k : Nat) (hk : k ≠ c.gid) : { (s.begin c i).group k with yielded := (s.group k).yielded } = s.group k := by
  rw [(s.begin_book c i).rest]
  show { ((({ s with grant := none, issues := s.issues + 1 } : State).setGroup c.gid (c.issued i (s.issues + 1))).endYields c.gid).group k with yielded := (s.group k).yielded } = _
  rw [State.group_endYields, State.group_setGroup_ne _ _ _ _ hk]
  split <;> rfl

/-- A word that is not long-latency changes its group's slots and the marks of the issue only. -/
theorem Iss.issued_short (c : Iss) (i : Instr) (n : Nat) (h : i.longLat = none) :
    c.issued i n = { c.g with a := (c.issued i n).a, b := (c.issued i n).b, nextB := (c.issued i n).nextB, due := 0, last := n, yielded := (c.issued i n).yielded } := by
  simp only [Iss.issued, h, Group.setSlot]
  split <;> rfl

theorem Iss.issued_slots (c : Iss) (i : Instr) (n : Nat) (h : i.longLat = none) : advanced c (c.issued i n) := by
  have e : (c.cl.left - 1 = 0) = (c.cl.left ≤ 1) := by simp only [eq_iff_iff]; omega
  simp only [advanced, Iss.issued, h, Group.setSlot, Group.slot, e]
  cases c.slotB <;> exact ⟨rfl, rfl⟩

/-- A change of the issuing group's registers only. -/
def Group.OnlyRegs (h : Group → Group) : Prop := ∀ g, h g = { g with v := (h g).v, s := (h g).s, q := (h g).q, latch := (h g).latch }

/-- What the frame says of a state after the issue with its group changed. -/
theorem Quiet.of_begin (s : State) (c : Iss) (i : Instr) (f : Group → Group) : Quiet s ((s.begin c i).modGroup c.gid f) c.gid := by
  have hb := s.begin_book c i
  have hr := hb.rest
  have ho : (s.begin c i).grant = none ∧ (s.begin c i).devTime = s.devTime ∧ (s.begin c i).mem = s.mem ∧ (s.begin c i).teams = s.teams ∧ (s.begin c i).grids = s.grids ∧ (s.begin c i).slices = s.slices ∧ (s.begin c i).hub = s.hub ∧ (s.begin c i).ops = s.ops ∧ (s.begin c i).reqs = s.reqs ∧ (s.begin c i).holds = s.holds ∧ (s.begin c i).inputs = s.inputs ∧ (s.begin c i).draws = s.draws := by
    rw [hr]; exact ⟨rfl, rfl, rfl, rfl, rfl, rfl, rfl, rfl, rfl, rfl, rfl, rfl⟩
  obtain ⟨h1, h2, h3, h4, h5, h6, h7, h8, h9, h10, h11, h12⟩ := ho
  exact ⟨h2, h3, h4, h5, h6, hb.dies, h7, h8, h9, h10, h11, h12, h1, fun k hk => by
    show { ((s.begin c i).modGroup c.gid f).group k with yielded := (s.group k).yielded } = s.group k
    rw [State.group_modGroup_ne _ _ _ _ hk]; exact s.group_begin_ne c i k hk, hb.contexts, hb.cores, hb.clusters⟩

/-- The frame carries over what the words written lose. -/
theorem Quiet.written {s t : State} {gid : Nat} (h : Quiet s t gid) (c : Iss) (i : Instr) : Quiet s (t.written c i) gid := by
  have hb := Book.written t c i
  have hr := hb.rest
  refine ⟨?_, ?_, ?_, ?_, ?_, fun k => ?_, ?_, ?_, ?_, ?_, ?_, ?_, ?_, fun k hk => ?_, fun k => ?_, fun k => ?_, fun k => ?_⟩
  · rw [hr]; exact h.time
  · rw [hr]; exact h.memory
  · rw [hr]; exact h.teams
  · rw [hr]; exact h.grids
  · rw [hr]; exact h.slices
  · have a := h.dies k; have b := hb.dies k; rw [← a, ← b]
  · rw [hr]; exact h.hub
  · rw [hr]; exact h.ops
  · rw [hr]; exact h.reqs
  · rw [hr]; exact h.holds
  · rw [hr]; exact h.inputs
  · rw [hr]; exact h.draws
  · rw [hr]; exact h.opportunity
  · rw [State.group_written]; exact h.groups k hk
  · have a := h.contexts k; have b := hb.contexts k; rw [← a, ← b]
  · have a := h.cores k; have b := hb.cores k; rw [← a, ← b]
  · have a := h.clusters k; have b := hb.clusters k; rw [← a, ← b]

/-- A ready word, not long-latency, whose effect writes registers of its group completes with those writes. -/
theorem completes_of {i : Instr} {s : State} {gr : Grant} {pre : Iss → Option Flt} {eff : Iss → State → Except Flt State} {f : Group → Group} {w : Writes}
    (hr : Ready i s gr) (hl : i.longLat = none) (he : exec i s = issue i s pre eff) (hp : pre (s.issuer gr) = none)
    (hf : eff (s.issuer gr) (s.begin (s.issuer gr) i) = .ok ((s.begin (s.issuer gr) i).modGroup gr.gid f)) (ho : Group.OnlyRegs f)
    (hv : ∀ g : Group, g.v = (s.group gr.gid).v → ∀ r L, L < 32 → (f g).rv r L = (w.v r L).getD ((s.group gr.gid).rv r L))
    (hs : ∀ g : Group, g.s = (s.group gr.gid).s → ∀ r, (f g).rs r = (w.s r).getD ((s.group gr.gid).rs r))
    (hq : ∀ g : Group, g.q = (s.group gr.gid).q → ∀ r, (f g).rq r = (w.q r).getD ((s.group gr.gid).rq r)) : Completes i s gr w := by
  have hi := (s.issuer gr).issued_short i (s.issues + 1) hl
  have hb : (s.begin (s.issuer gr) i).group gr.gid = (s.issuer gr).issued i (s.issues + 1) := State.group_begin_self s (s.issuer gr) i
  refine ⟨((s.begin (s.issuer gr) i).modGroup gr.gid f).written (s.issuer gr) i, ?_, (Quiet.of_begin s (s.issuer gr) i f).written _ _, ?_, ?_, ?_, ?_, ?_⟩
  · rw [he, issue_ready hr pre hp eff, hf]
  · simp only [State.after, State.group_written, State.group_modGroup_self, Group.onlyRegs]
    rw [ho, hb, hi]; rfl
  · have ha := (s.issuer gr).issued_slots i (s.issues + 1) hl
    simp only [State.after, State.group_written, State.group_modGroup_self, State.seen]
    rw [ho, hb]; exact ha
  · simp only [State.after, State.group_written, State.group_modGroup_self, hb]; exact hv _ (by rw [hi]; rfl)
  · simp only [State.after, State.group_written, State.group_modGroup_self, hb]; exact hs _ (by rw [hi]; rfl)
  · simp only [State.after, State.group_written, State.group_modGroup_self, hb]; exact hq _ (by rw [hi]; rfl)

end Sys2Proof.Machine
end

