-- ==== Sys2Proof/Laws/Regs.lean ====
section
/-! SUPPORT. Reading registers back after writing them, and the writes that touch registers only. -/

namespace Sys2Proof.Machine

/-! ### Vector registers -/

theorem vkey_inj {r r' L L' : Nat} (h : L < 32) (h' : L' < 32) (e : 32 * r + L = 32 * r' + L') : r = r' ∧ L = L' := by omega

theorem Group.rv_wv (g : Group) (r L : Nat) (w : Word) (r' L' : Nat) (h : L < 32) (h' : L' < 32) :
    (g.wv r L w).rv r' L' = if r' = r ∧ L' = L then w else g.rv r' L' := by
  simp only [Group.rv, Group.wv, tget_tset]
  by_cases e : r' = r ∧ L' = L
  · simp [e]
  · have : ¬ 32 * r' + L' = 32 * r + L := fun k => e (vkey_inj h' h k)
    simp [e, this]

theorem Group.rv_wlanes_list (ls : List Nat) (hls : ∀ L ∈ ls, L < 32) (r : Nat) (m : Word) (f : Nat → Word) (g : Group) (r' L' : Nat) (h' : L' < 32) :
    (ls.foldl (fun g L => if m.getLsbD L then g.wv r L (f L) else g) g).rv r' L' =
      if r' = r ∧ L' ∈ ls ∧ m.getLsbD L' = true then f L' else g.rv r' L' := by
  induction ls generalizing g with
  | nil => simp
  | cons L ls ih =>
    rw [List.foldl_cons, ih (fun x hx => hls x (List.mem_cons_of_mem _ hx))]
    have hL := hls L List.mem_cons_self
    by_cases hm : m.getLsbD L = true
    · simp only [hm, if_true]
      rw [Group.rv_wv _ _ _ _ _ _ hL h']
      by_cases e : L' = L
      · subst e; by_cases er : r' = r <;> simp [er, hm]
      · simp [e]
    · by_cases e : L' = L
      · subst e; simp [hm]
      · simp [hm, e]

theorem Group.rv_wlanes (g : Group) (r : Nat) (m : Word) (f : Nat → Word) (r' L : Nat) (h : L < 32) :
    (g.wlanes r m f).rv r' L = if r' = r ∧ m.getLsbD L = true then f L else g.rv r' L := by
  unfold Group.wlanes
  rw [Group.rv_wlanes_list _ (fun x hx => List.mem_range.1 hx) _ _ _ _ _ _ h]
  simp [h]

/-! ### Writes that touch registers only -/

theorem Group.sameTrans {x y z : Group} (h1 : y = { x with v := y.v, s := y.s, q := y.q, latch := y.latch }) (h2 : z = { y with v := z.v, s := z.s, q := z.q, latch := z.latch }) :
    z = { x with v := z.v, s := z.s, q := z.q, latch := z.latch } := by
  refine h2.trans ?_
  rw [h1]

theorem Group.OnlyRegs.comp {f g : Group → Group} (hf : Group.OnlyRegs f) (hg : Group.OnlyRegs g) : Group.OnlyRegs (fun x => f (g x)) :=
  fun x => Group.sameTrans (hg x) (hf (g x))

theorem Group.OnlyRegs.id : Group.OnlyRegs (fun g => g) := fun _ => rfl
theorem Group.OnlyRegs.wv (r L : Nat) (w : Word) : Group.OnlyRegs (fun g => g.wv r L w) := fun _ => rfl
theorem Group.OnlyRegs.ws (r : Nat) (w : Word) : Group.OnlyRegs (fun g => g.ws r w) := fun _ => rfl
theorem Group.OnlyRegs.wq (r : Nat) (w : Word) : Group.OnlyRegs (fun g => g.wq r w) := fun _ => rfl
theorem Group.OnlyRegs.wpair (r : Nat) (x : DWord) : Group.OnlyRegs (fun g => g.wpair r x) := fun _ => rfl
theorem Group.OnlyRegs.wpred (r : Nat) (m : Word) (f : Nat → Bool) : Group.OnlyRegs (fun g => g.wpred r m f) := fun _ => rfl

theorem Group.OnlyRegs.foldl {α : Type} (l : List α) (f : Group → α → Group) (h : ∀ a, Group.OnlyRegs (fun g => f g a)) : Group.OnlyRegs (fun g => l.foldl f g) := by
  induction l with
  | nil => exact .id
  | cons a l ih => exact Group.OnlyRegs.comp (f := fun g => l.foldl f g) ih (h a)

theorem Group.OnlyRegs.ite {p : Prop} [Decidable p] {f g : Group → Group} (hf : Group.OnlyRegs f) (hg : Group.OnlyRegs g) : Group.OnlyRegs (fun x => if p then f x else g x) := by
  by_cases h : p
  · simp only [h, if_true]; exact hf
  · simp only [h, if_false]; exact hg

theorem Group.OnlyRegs.wlanes (r : Nat) (m : Word) (f : Nat → Word) : Group.OnlyRegs (fun g => g.wlanes r m f) :=
  .foldl _ _ (fun L => .ite (.wv r L (f L)) .id)

/-- Vector writes leave the scalar registers and predicates. -/
theorem Group.wlanes_list_sq (ls : List Nat) (r : Nat) (m : Word) (f : Nat → Word) (g : Group) :
    (ls.foldl (fun g L => if m.getLsbD L then g.wv r L (f L) else g) g).s = g.s ∧ (ls.foldl (fun g L => if m.getLsbD L then g.wv r L (f L) else g) g).q = g.q := by
  induction ls generalizing g with
  | nil => exact ⟨rfl, rfl⟩
  | cons L ls ih =>
    rw [List.foldl_cons]
    have := ih (if m.getLsbD L then g.wv r L (f L) else g)
    rw [this.1, this.2]
    split <;> exact ⟨rfl, rfl⟩

@[simp] theorem Group.wlanes_s (g : Group) (r : Nat) (m : Word) (f : Nat → Word) : (g.wlanes r m f).s = g.s := (Group.wlanes_list_sq ..).1
@[simp] theorem Group.wlanes_q (g : Group) (r : Nat) (m : Word) (f : Nat → Word) : (g.wlanes r m f).q = g.q := (Group.wlanes_list_sq ..).2
@[simp] theorem Group.wv_s (g : Group) (r L : Nat) (w : Word) : (g.wv r L w).s = g.s := rfl
@[simp] theorem Group.wv_q (g : Group) (r L : Nat) (w : Word) : (g.wv r L w).q = g.q := rfl
@[simp] theorem Group.ws_v (g : Group) (r : Nat) (w : Word) : (g.ws r w).v = g.v := rfl
@[simp] theorem Group.ws_q (g : Group) (r : Nat) (w : Word) : (g.ws r w).q = g.q := rfl
@[simp] theorem Group.wq_v (g : Group) (r : Nat) (w : Word) : (g.wq r w).v = g.v := rfl
@[simp] theorem Group.wq_s (g : Group) (r : Nat) (w : Word) : (g.wq r w).s = g.s := rfl
@[simp] theorem Group.wpred_v (g : Group) (r : Nat) (m : Word) (f : Nat → Bool) : (g.wpred r m f).v = g.v := rfl
@[simp] theorem Group.wpred_s (g : Group) (r : Nat) (m : Word) (f : Nat → Bool) : (g.wpred r m f).s = g.s := rfl
@[simp] theorem Group.wpair_v (g : Group) (r : Nat) (x : DWord) : (g.wpair r x).v = g.v := rfl
@[simp] theorem Group.wpair_q (g : Group) (r : Nat) (x : DWord) : (g.wpair r x).q = g.q := rfl

/-! ### Scalar registers and predicates -/

theorem Group.rs_ws (g : Group) (r : Nat) (w : Word) (r' : Nat) : (g.ws r w).rs r' = if r' = r then w else g.rs r' := tget_tset ..
theorem Group.rq_wq (g : Group) (r : Nat) (w : Word) (r' : Nat) : (g.wq r w).rq r' = if r' = r then w else g.rq r' := tget_tset ..
theorem Group.rs_wpair (g : Group) (r : Nat) (x : DWord) (r' : Nat) :
    (g.wpair r x).rs r' = if r' = r then loWord x else if r' = r + 1 then hiWord x else g.rs r' := by
  simp only [Group.wpair, Group.rs_ws]
  by_cases h : r' = r
  · subst h; simp
  · simp [h]
theorem Group.rq_wpred (g : Group) (r : Nat) (m : Word) (f : Nat → Bool) (r' : Nat) :
    (g.wpred r m f).rq r' = if r' = r then (g.rq r &&& ~~~m) ||| (maskOf f &&& m) else g.rq r' := tget_tset ..

theorem Group.rv_congr {g g' : Group} (h : g.v = g'.v) (r L : Nat) : g.rv r L = g'.rv r L := by simp [Group.rv, h]
theorem Group.rs_congr {g g' : Group} (h : g.s = g'.s) (r : Nat) : g.rs r = g'.rs r := by simp [Group.rs, h]
theorem Group.rq_congr {g g' : Group} (h : g.q = g'.q) (r : Nat) : g.rq r = g'.rq r := by simp [Group.rq, h]

end Sys2Proof.Machine
end

