-- ==== Sys2Proof/Laws/Forms.lean ====
section
/-! SUPPORT. What each shared form of a register-to-register instruction can do: one law per form. -/

namespace Sys2Proof.Machine

theorem lanewise_completes {i : Instr} {o : FOps} {s : State} {gr : Grant} {f : Iss → State → Nat → Word}
    (hr : Ready i s gr) (hl : i.longLat = none) (he : exec i s = lanewise i o s f) :
    Completes i s gr { v := inLanes o.d.toNat ((s.seen gr).active o.g) (f (s.seen gr) (s.begin (s.seen gr) i)) } :=
  completes_of hr hl he rfl rfl (.wlanes _ _ _)
    (fun g hg r L hL => by rw [Group.rv_wlanes _ _ _ _ _ _ hL, Group.rv_congr hg]; simp only [inLanes]; split <;> rfl)
    (fun g hg r => by simpa using Group.rs_congr (by simpa using hg) r)
    (fun g hg r => by simpa using Group.rq_congr (by simpa using hg) r)

theorem predwise_completes {i : Instr} {o : FOps} {s : State} {gr : Grant} {f : Iss → State → Nat → Bool}
    (hr : Ready i s gr) (hl : i.longLat = none) (he : exec i s = predwise i o s f) :
    Completes i s gr { q := only o.d.toNat (inBits ((s.group gr.gid).rq o.d.toNat) ((s.seen gr).active o.g) (f (s.seen gr) (s.begin (s.seen gr) i))) } :=
  completes_of hr hl he rfl rfl (.wpred _ _ _)
    (fun g hg r L _ => by simpa using Group.rv_congr (by simpa using hg) r L)
    (fun g hg r => by simpa using Group.rs_congr (by simpa using hg) r)
    (fun g hg r => by rw [Group.rq_wpred, Group.rq_congr hg, Group.rq_congr hg]; simp only [only]; split <;> rfl)

theorem scalar_completes {i : Instr} {o : FOps} {s : State} {gr : Grant} {f : Iss → State → Word}
    (hr : Ready i s gr) (hl : i.longLat = none) (he : exec i s = scalar i o s f) :
    Completes i s gr { s := only o.d.toNat (f (s.seen gr) (s.begin (s.seen gr) i)) } :=
  completes_of hr hl he rfl rfl (.ws _ _)
    (fun g hg r L _ => by simpa using Group.rv_congr (by simpa using hg) r L)
    (fun g hg r => by rw [Group.rs_ws, Group.rs_congr hg]; simp only [only]; split <;> rfl)
    (fun g hg r => by simpa using Group.rq_congr (by simpa using hg) r)

/-! ### Exceptions -/

theorem FFlags.or_bits (a b : FFlags) : (a.or b).bits = a.bits ||| b.bits := by
  obtain ⟨a1, a2, a3, a4, a5⟩ := a
  obtain ⟨b1, b2, b3, b4, b5⟩ := b
  cases a1 <;> cases a2 <;> cases a3 <;> cases a4 <;> cases a5 <;> cases b1 <;> cases b2 <;> cases b3 <;> cases b4 <;> cases b5 <;> rfl

theorem arithFault_none (opc en : Nat) (fs : List (Nat × FFlags)) (h : ∀ x ∈ fs, x.2.bits &&& en = 0) : arithFault opc en fs = none := by
  have key : ∀ (l : List (Nat × FFlags)) (a : FFlags), (∀ x ∈ l, x.2.bits &&& en = 0) → a.bits &&& en = 0 → (l.foldl (fun (a : FFlags) x => a.or x.2) a).bits &&& en = 0 := by
    intro l
    induction l with
    | nil => intro a _ ha; exact ha
    | cons x l ih =>
      intro a hl ha
      refine ih _ (fun y hy => hl y (List.mem_cons_of_mem _ hy)) ?_
      rw [FFlags.or_bits, Nat.and_or_distrib_right, ha, hl x List.mem_cons_self]; rfl
  simp only [arithFault]
  rw [if_pos (key fs _ h (by simp [FFlags.bits]))]

/-! ### Results that are checked for exceptions -/

/-- Consecutive registers of one lane. -/
theorem Group.rv_words (ws : List Nat) (d k L : Nat) (hL : L < 32) (g : Group) (r' L' : Nat) (h' : L' < 32) :
    ((ws.zipIdx k).foldl (fun (g : Group) w => g.wv (d + w.2) L (BitVec.ofNat 32 w.1)) g).rv r' L' =
      if L' = L ∧ d + k ≤ r' then ((ws[r' - (d + k)]?).map (BitVec.ofNat 32)).getD (g.rv r' L') else g.rv r' L' := by
  induction ws generalizing g k with
  | nil => simp
  | cons w ws ih =>
    rw [List.zipIdx_cons, List.foldl_cons, ih, Group.rv_wv _ _ _ _ _ _ hL h']
    by_cases e : L' = L
    · rcases Nat.lt_trichotomy r' (d + k) with hlt | heq | hgt
      · rw [if_neg (by omega), if_neg (by omega), if_neg (by omega)]
      · subst heq; subst e; rw [if_neg (by omega)]; simp
      · have h2 : r' - (d + k) = (r' - (d + (k + 1))) + 1 := by omega
        have h3 : ¬ (r' = d + k ∧ L' = L) := by omega
        rw [if_pos (show L' = L ∧ d + (k + 1) ≤ r' by omega), if_neg h3, if_pos (show L' = L ∧ d + k ≤ r' by omega), h2, List.getElem?_cons_succ]
    · simp [e]

theorem Group.rv_wordLanes (ls : List Nat) (hls : ∀ L ∈ ls, L < 32) (d : Nat) (f : Nat → List Nat) (g : Group) (r' L' : Nat) (h' : L' < 32) :
    (ls.foldl (fun (g : Group) L => ((f L).zipIdx).foldl (fun (g : Group) w => g.wv (d + w.2) L (BitVec.ofNat 32 w.1)) g) g).rv r' L' =
      if L' ∈ ls ∧ d ≤ r' then (((f L')[r' - d]?).map (BitVec.ofNat 32)).getD (g.rv r' L') else g.rv r' L' := by
  induction ls generalizing g with
  | nil => simp
  | cons L ls ih =>
    rw [List.foldl_cons, ih (fun x hx => hls x (List.mem_cons_of_mem _ hx)), Group.rv_words _ _ 0 _ (hls L List.mem_cons_self) _ _ _ h']
    by_cases hd : d ≤ r'
    · by_cases e : L' = L
      · subst e
        cases (f L')[r' - d]? <;> simp [hd]
      · simp [e]
    · simp [hd]

theorem Group.words_sq (ws : List (Nat × Nat)) (d L : Nat) (g : Group) :
    (ws.foldl (fun (g : Group) w => g.wv (d + w.2) L (BitVec.ofNat 32 w.1)) g).s = g.s ∧ (ws.foldl (fun (g : Group) w => g.wv (d + w.2) L (BitVec.ofNat 32 w.1)) g).q = g.q := by
  induction ws generalizing g with
  | nil => exact ⟨rfl, rfl⟩
  | cons w ws ih => rw [List.foldl_cons]; exact ih _

theorem Group.wordLanes_sq (ls : List Nat) (d : Nat) (f : Nat → List Nat) (g : Group) :
    (ls.foldl (fun (g : Group) L => ((f L).zipIdx).foldl (fun (g : Group) w => g.wv (d + w.2) L (BitVec.ofNat 32 w.1)) g) g).s = g.s ∧
    (ls.foldl (fun (g : Group) L => ((f L).zipIdx).foldl (fun (g : Group) w => g.wv (d + w.2) L (BitVec.ofNat 32 w.1)) g) g).q = g.q := by
  induction ls generalizing g with
  | nil => exact ⟨rfl, rfl⟩
  | cons L ls ih =>
    rw [List.foldl_cons]
    have a := ih (((f L).zipIdx).foldl (fun (g : Group) w => g.wv (d + w.2) L (BitVec.ofNat 32 w.1)) g)
    have b := Group.words_sq (f L).zipIdx d L g
    exact ⟨a.1.trans b.1, a.2.trans b.2⟩

theorem mem_lanesIn {m : Word} {L : Nat} : L ∈ lanesIn m ↔ L < 32 ∧ m.getLsbD L = true := by simp [lanesIn]

/-- A word that checks for exceptions and finds none that is enabled completes with its results. -/
theorem checked_completes {i : Instr} {o : FOps} {s : State} {gr : Grant} {chk : Bool} {f : Iss → State → Nat → List Nat × FFlags}
    (hr : Ready i s gr) (hl : i.longLat = none) (he : exec i s = checked i o s chk f)
    (hn : ∀ L, L < 32 → ((s.seen gr).active o.g).getLsbD L = true → (f (s.seen gr) (s.begin (s.seen gr) i) L).2.bits &&& (if chk then (s.group gr.gid).fpx else 0) = 0) :
    Completes i s gr { v := wordsAt o.d.toNat ((s.seen gr).active o.g) (fun L => (f (s.seen gr) (s.begin (s.seen gr) i) L).1) } := by
  let c := s.seen gr
  have hfold : ∀ g : Group, (((lanesIn (c.active o.g)).map (fun L => (L, f c (s.begin c i) L))).foldl (fun (g : Group) r => r.2.1.zipIdx.foldl (fun (g : Group) w => g.wv (o.d.toNat + w.2) r.1 (BitVec.ofNat 32 w.1)) g) g) =
      (lanesIn (c.active o.g)).foldl (fun (g : Group) L => ((f c (s.begin c i) L).1.zipIdx).foldl (fun (g : Group) w => g.wv (o.d.toNat + w.2) L (BitVec.ofNat 32 w.1)) g) g := by
    intro g; rw [List.foldl_map]
  refine completes_of (f := fun g => (lanesIn (c.active o.g)).foldl (fun (g : Group) L => ((f c (s.begin c i) L).1.zipIdx).foldl (fun (g : Group) w => g.wv (o.d.toNat + w.2) L (BitVec.ofNat 32 w.1)) g) g) hr hl he rfl ?_ ?_ ?_ ?_ ?_
  · simp only
    rw [arithFault_none]
    · simp only [List.foldl_map]; rfl
    · intro x hx
      simp only [List.map_map, List.mem_map, Function.comp] at hx
      obtain ⟨L, hL, rfl⟩ := hx
      exact hn L (mem_lanesIn.1 hL).1 (mem_lanesIn.1 hL).2
  · exact .foldl _ _ (fun L => .foldl _ _ (fun w => .wv _ _ _))
  · intro g hg r L hL
    rw [Group.rv_wordLanes _ (fun x hx => (mem_lanesIn.1 hx).1) _ _ _ _ _ hL, Group.rv_congr hg]
    simp only [wordsAt, mem_lanesIn, hL, true_and]
    split
    · rfl
    · rfl
  · intro g hg r
    exact (Group.rs_congr ((Group.wordLanes_sq _ _ _ g).1.trans hg) r)
  · intro g hg r
    exact (Group.rq_congr ((Group.wordLanes_sq _ _ _ g).2.trans hg) r)

/-! ### The results in the terms of claims -/

theorem GivesLanes.of {i : Instr} {o : FOps} {s : State} {gr : Grant} {f : Iss → State → Nat → Word} {g : Nat → Word}
    (hl : i.longLat = none) (he : exec i s = lanewise i o s f) (hg : ∀ L, f (s.seen gr) (s.begin (s.seen gr) i) L = g L) : GivesLanes i o s gr g := by
  intro hr
  have h := lanewise_completes hr hl he
  rwa [show f (s.seen gr) (s.begin (s.seen gr) i) = g from funext hg] at h

/-- The same of a function of A, of A and B, and of A, B and C. -/
theorem GivesLanes.of1 (f : Word → Word) {i : Instr} {o : FOps} {s : State} {gr : Grant} {g : Nat → Word}
    (hl : i.longLat = none) (he : exec i s = lanewise1 i o s f) (hg : ∀ L, f ((s.seen gr).a o L) = g L) : GivesLanes i o s gr g :=
  GivesLanes.of (f := fun c _ L => f (c.a o L)) hl he hg
theorem GivesLanes.of2 (f : Word → Word → Word) {i : Instr} {o : FOps} {s : State} {gr : Grant} {g : Nat → Word}
    (hl : i.longLat = none) (he : exec i s = lanewise2 i o s f) (hg : ∀ L, f ((s.seen gr).a o L) (s.operandB gr i o L) = g L) : GivesLanes i o s gr g :=
  GivesLanes.of (f := fun c t L => f (c.a o L) (c.b t o L)) hl he hg
theorem GivesLanes.of3 (f : Word → Word → Word → Word) {i : Instr} {o : FOps} {s : State} {gr : Grant} {g : Nat → Word}
    (hl : i.longLat = none) (he : exec i s = lanewise3 i o s f) (hg : ∀ L, f ((s.seen gr).a o L) (s.operandB gr i o L) ((s.seen gr).c o L) = g L) : GivesLanes i o s gr g :=
  GivesLanes.of (f := fun c t L => f (c.a o L) (c.b t o L) (c.c o L)) hl he hg

theorem GivesChecked.of {i : Instr} {o : FOps} {s : State} {gr : Grant} {f : Iss → State → Nat → List Nat × FFlags} {g : Nat → List Nat × FFlags}
    (hl : i.longLat = none) (he : exec i s = checked i o s true f) (hg : ∀ L, f (s.seen gr) (s.begin (s.seen gr) i) L = g L) : GivesChecked i o s gr g := by
  intro hr hn
  have h := checked_completes hr hl he (by simpa [hg] using hn)
  rwa [show f (s.seen gr) (s.begin (s.seen gr) i) = g from funext hg] at h

theorem GivesBits.of {i : Instr} {o : FOps} {s : State} {gr : Grant} {f : Iss → State → Nat → Bool} {g : Nat → Bool}
    (hl : i.longLat = none) (he : exec i s = predwise i o s f) (hg : ∀ L, f (s.seen gr) (s.begin (s.seen gr) i) L = g L) : GivesBits i o s gr g := by
  intro hr
  have h := predwise_completes hr hl he
  rwa [show f (s.seen gr) (s.begin (s.seen gr) i) = g from funext hg] at h

theorem GivesScalar.of {i : Instr} {o : FOps} {s : State} {gr : Grant} {f : Iss → State → Word} {x : Word}
    (hl : i.longLat = none) (he : exec i s = scalar i o s f) (hg : f (s.seen gr) (s.begin (s.seen gr) i) = x) : GivesScalar i o s gr x := by
  intro hr
  have h := scalar_completes hr hl he
  rwa [hg] at h

end Sys2Proof.Machine
end

