-- ==== Sys2Proof/Laws/Halts.lean ====
section
/-! SUPPORT. The shared operations over a halt and a held word: what each answers and what it leaves alone. -/

namespace Sys2Proof.Machine

/-- Raising a halt line writes the groups and the contexts, and nothing else (16 R304 to R306). -/
theorem State.raise_eq (s : State) (ctx : Nat) (f : Flt) (a : At) : ∃ g c, s.raise ctx f a = { s with groups := g, contexts := c } := by
  unfold State.raise State.modContext State.modGroup State.setGroup
  dsimp only
  repeat' split
  all_goals exact ⟨_, _, rfl⟩

/-- A fault leaves memory alone. -/
theorem State.raise_mem (s : State) (ctx : Nat) (f : Flt) (a : At) : (s.raise ctx f a).mem = s.mem := by
  obtain ⟨g, c, h⟩ := s.raise_eq ctx f a; rw [h]

/-- An engine's record leaves memory alone (16 R306). -/
theorem State.raiseEngine_mem (s : State) (ctx : Nat) (f : Flt) (r : EngRec) : (s.raiseEngine ctx f r).mem = s.mem :=
  (s.raise_mem ctx f {})

/-- A trap ends the opportunity and writes the groups and the contexts, and nothing else (16 R304). -/
theorem State.takeTrap_eq (s : State) (gid : Nat) (slotB : Bool) (pc : DWord) (f : Flt) : ∃ g c, s.takeTrap gid slotB pc f = { s with grant := none, groups := g, contexts := c } :=
  State.raise_eq { s with grant := none } _ _ _

/-- A fault leaves its context halted (16 R304). -/
theorem Context.fault_halts (c : Context) (f : Flt) (a : At) (at_ : Option (Nat × Nat)) (going : List (Nat × Nat)) (now : Nat) : (c.fault f a at_ going now).hb.halt = true := by
  unfold Context.fault HaltBlock.fault
  split
  · assumption
  · rfl

/-- Raising a halt line raises it (16 R304). -/
theorem State.raise_halts (s : State) (ctx : Nat) (f : Flt) (a : At) : ((s.raise ctx f a).context ctx).hb.halt = true := by
  have hc : ((s.modContext ctx (fun c => c.fault f a (s.faultCycle a) (s.going ctx) s.devTime)).context ctx).hb.halt = true := by
    simp [State.context, State.modContext, Context.fault_halts]
  unfold State.raise
  dsimp only
  split
  · exact hc
  · split <;> exact hc

/-- A word that holds its group leaves everything but the group alone. -/
theorem State.block_eq (s : State) (c : Iss) (i : Instr) (k : WaitKind) : ∃ g, s.block c i k = { s with groups := g } := ⟨_, rfl⟩

/-- The group that a word holds (01 R25). -/
theorem State.block_wait (s : State) (c : Iss) (i : Instr) (k : WaitKind) :
    ((s.block c i k).group c.gid).wait = some { kind := k, slotB := c.slotB, instr := i, since := s.ctxTime c.g.ctx, pc := c.pc, cl := some c.cl, cycle := (s.cycleOf c.gid).2 } := by
  simp [State.block, State.modGroup, State.setGroup, State.group]

/-- A new operation is the one the word starts, under a number of its own (01 R26, 05 R89). -/
theorem State.newOp_spec (s : State) (c : Iss) (i : Instr) (path : Option Nat) (dest : Dest) (parts : Nat) :
    ∃ x, (s.newOp c i path dest parts).1 = s.nextId ∧ (s.newOp c i path dest parts).2.op s.nextId = some x ∧ x.gid = c.gid ∧ x.instr = i ∧ x.path = path ∧ x.flag = c.carried i ∧ x.dest = dest ∧ x.parts = parts := by
  refine ⟨{ gid := c.gid, ctx := c.g.ctx, tenant := c.g.tenant, pc := c.pc, slotB := c.slotB, instr := i, path := path, flag := c.carried i, dest := dest, parts := parts, rc := c.g.rc, lane := (lowest (c.active i.guardOf)).getD 0, race := (s.context c.g.ctx).rd.en, serial := c.g.serial }, rfl, ?_, rfl, rfl, rfl, rfl, rfl, rfl⟩
  unfold State.newOp State.op Iss.carried
  cases path <;> exact tfind_tput_self _ _ _

/-- A word without an opportunity to issue does nothing (01 R28). -/
theorem issue_idle (i : Instr) (s : State) (pre : Iss → Option Flt) (eff : Iss → State → Except Flt State) (h : s.grant = none) : issue i s pre eff = .next s := by
  unfold issue; rw [h]

/-- A first issue of a word that may hold its group is an issue. -/
theorem issue2_first (i : Instr) (s : State) (gr : Grant) (pre : Iss → Option Flt) (first : Iss → State → Except Flt State) (again : Iss → Wait → State → Except Flt State)
    (hg : s.grant = some gr) (h : gr.again = false) : issue2 i s pre first again = issue i s pre first := by
  unfold issue2; rw [hg]; simp [h]

/-- A returned word ends with the rest of its effect, or stops with the fault that finds (12 R227, 14 R278). -/
theorem issue2_again {i : Instr} {s : State} {gr : Grant} {w : Wait} (pre : Iss → Option Flt) (first : Iss → State → Except Flt State) (again : Iss → Wait → State → Except Flt State)
    (h : Returning s gr w) : issue2 i s pre first again = match again (s.back gr w) w (s.woken gr) with
      | .error f => .next ((s.woken gr).trapHeld gr.gid w f)
      | .ok t => .next (t.written (s.back gr w) i) := by
  unfold issue2; rw [h.granted]; simp only [h.again, h.waits]; rfl

end Sys2Proof.Machine
end

