-- ==== Sys2Proof/Laws/Memory.lean ====
section
/-! SUPPORT. Machine memory: its canonical form is kept by every operation that writes it, and what a write leaves
to read. The writers are `setMem`, `setMemAll`, `tsetAll` (the leaves of a page swap) and `swapMem`; every other
operation of the model leaves `mem` alone or calls one of these. -/

namespace Sys2Proof.Machine

/-- A write of one byte keeps the canonical form. -/
theorem Memory.wf_setMem (s : State) (ma : Nat) (b : Byte) (h : Memory.wf s.mem = true) : Memory.wf (s.setMem ma b).mem = true :=
  tcanon_tset 0 b (Nat.zero_le _) s.mem h

/-- A write of many bytes keeps the canonical form. -/
theorem Memory.wf_tsetAll (ws : List (Nat × Byte)) (m : Table Byte) (h : Memory.wf m = true) : Memory.wf (tsetAll 0 ws m) = true :=
  tcanon_tsetAll 0 ws m h

/-- A write at offsets from a base keeps the canonical form. -/
theorem Memory.wf_setMemAll (s : State) (base : Nat) (bs : Table Byte) (h : Memory.wf s.mem = true) : Memory.wf (s.setMemAll base bs).mem = true :=
  Memory.wf_tsetAll _ _ h

/-- Taking entries off keeps the canonical form. -/
theorem tcanon_filter {β : Type} [DecidableEq β] (d : β) (p : Nat × β → Bool) {lo : Nat} (t : Table β) (h : tcanon d lo t = true) : tcanon d lo (t.filter p) = true := by
  induction t generalizing lo with
  | nil => rfl
  | cons x t ih =>
    obtain ⟨k, v⟩ := x
    rw [tcanon_cons] at h
    rw [List.filter_cons]
    split
    · rw [tcanon_cons]; exact ⟨h.1, h.2.1, ih h.2.2⟩
    · exact ih (tcanon_mono d (by omega) t h.2.2)

/-- The exchange of two pages keeps the canonical form (03 R49). -/
theorem Memory.wf_swapMem (p q : Nat) (m : Table Byte) (h : Memory.wf m = true) : Memory.wf (swapMem p q m) = true :=
  Memory.wf_tsetAll _ _ (tcanon_filter 0 _ m h)

/-- A read after a write of one byte. -/
theorem State.memByte_setMem (s : State) (ma a : Nat) (b : Byte) : (s.setMem ma b).memByte a = if a = ma then b else s.memByte a :=
  tget_tset ..

/-- Many writes leave every other key alone. -/
theorem tget_tsetAll_ne {β : Type} [DecidableEq β] (d : β) (ws : List (Nat × β)) (k : Nat) (h : ∀ w ∈ ws, w.1 ≠ k) (t : Table β) : tget d k (tsetAll d ws t) = tget d k t := by
  induction ws generalizing t with
  | nil => rfl
  | cons w ws ih =>
    have hk : k ≠ w.1 := fun e => h w (by simp) e.symm
    exact (ih (fun x hx => h x (by simp [hx])) _).trans (tget_tset_ne d hk w.2 t)

/-- A write at offsets from a base leaves every address outside it alone. -/
theorem State.memByte_setMemAll_ne (s : State) (base a : Nat) (bs : Table Byte) (h : ∀ x ∈ bs, base + x.1 ≠ a) : (s.setMemAll base bs).memByte a = s.memByte a := by
  apply tget_tsetAll_ne
  intro w hw
  obtain ⟨x, hx, rfl⟩ := List.mem_map.1 hw
  exact h x hx

end Sys2Proof.Machine
end

