-- ==== Sys2Proof/Laws/Path.lean ====
section
/-! SUPPORT. Operations and requests: what starting, completing and answering them leaves alone. Machine memory is
written by the slices only, so none of the bookkeeping here touches it. -/

namespace Sys2Proof.Machine

/-- A fold of operations that leave memory alone leaves memory alone. -/
theorem foldl_mem {α : Type} (f : State → α → State) (h : ∀ s a, (f s a).mem = s.mem) (l : List α) (s : State) : (l.foldl f s).mem = s.mem := by
  induction l generalizing s with
  | nil => rfl
  | cons a l ih => exact (ih _).trans (h s a)

@[simp] theorem State.addReq_mem (s : State) (r : Req) : (s.addReq r).2.mem = s.mem := rfl
@[simp] theorem State.putOp_mem (s : State) (n : Nat) (o : Op) : (s.putOp n o).mem = s.mem := rfl
@[simp] theorem State.putReq_mem (s : State) (n : Nat) (r : Req) : (s.putReq n r).mem = s.mem := rfl
@[simp] theorem State.delReq_mem (s : State) (n : Nat) : (s.delReq n).mem = s.mem := rfl
@[simp] theorem State.setL1_mem (s : State) (core tenant line : Nat) (l : L1Line) : (s.setL1 core tenant line l).mem = s.mem := rfl
@[simp] theorem State.delL1_mem (s : State) (core tenant line : Nat) : (s.delL1 core tenant line).mem = s.mem := rfl

/-- An operation that completes writes the operations and its group, and nothing else (01 R26, 05 R89). -/
theorem State.finishOp_eq (s : State) (n : Nat) (o : Op) : ∃ g, s.finishOp n o = { s with ops := tdel n s.ops, groups := g } := by
  unfold State.finishOp
  dsimp only
  split
  · exact ⟨_, rfl⟩
  · exact ⟨_, rfl⟩

@[simp] theorem State.finishOp_mem (s : State) (n : Nat) (o : Op) : (s.finishOp n o).mem = s.mem := by
  obtain ⟨g, h⟩ := s.finishOp_eq n o; rw [h]

/-- A part of an operation that is done writes the operations and the group, and nothing else. -/
@[simp] theorem State.partDone_mem (s : State) (n : Nat) : (s.partDone n).mem = s.mem := by
  unfold State.partDone
  split
  · rfl
  · dsimp only
    repeat' split
    all_goals first | exact s.finishOp_mem _ _ | rfl

@[simp] theorem State.partsDone_mem (s : State) (ops : List Nat) : (s.partsDone ops).mem = s.mem := foldl_mem _ (fun s n => s.partDone_mem n) ops s

@[simp] theorem State.deliver_mem (s : State) (n : Nat) (bs : List (Nat × Byte)) : (s.deliver n bs).mem = s.mem := by
  unfold State.deliver; split <;> rfl

@[simp] theorem State.reqDone_mem (s : State) (n : Nat) (r : Req) : (s.reqDone n r).mem = s.mem := (s.delReq n).partsDone_mem r.ops

@[simp] theorem State.handOp_mem (s : State) (r : Req) (xs : List (Nat × Byte)) (n : Nat) : (s.handOp r xs n).mem = s.mem := by
  unfold State.handOp
  rw [apply_ite State.mem, State.deliver_mem, State.deliver_mem, ite_self]

@[simp] theorem State.handBytes_mem (s : State) (r : Req) (offs : List Nat) (f : Nat → Byte) : (s.handBytes r offs f).mem = s.mem :=
  foldl_mem _ (fun s n => s.handOp_mem r _ n) r.ops s

/-- The bytes of an operation after an answer: those it had, and the bytes answered. -/
theorem State.op_deliver (s : State) (n : Nat) (bs : List (Nat × Byte)) (o : Op) (h : s.op n = some o) :
    (s.deliver n bs).op n = some { o with got := bs.foldl (fun t b => tput b.1 b.2.toNat t) o.got } := by
  unfold State.deliver; rw [h]; exact tfind_tput_self ..

/-- An operation with parts left to come keeps its place, one part less to wait for. -/
theorem State.op_partDone (s : State) (n : Nat) (o : Op) (h : s.op n = some o) (hp : o.parts ≠ 1) (h0 : o.parts ≠ 0) : (s.partDone n).op n = some { o with parts := o.parts - 1 } := by
  have : ¬ o.parts - 1 = 0 := by omega
  unfold State.partDone
  rw [h]
  simp only [this, decide_false, Bool.false_and]
  exact tfind_tput_self ..

end Sys2Proof.Machine
end

