-- ==== Sys2Proof/Laws/PerInstr.lean ====
section
/-! SUPPORT. Per instruction: the word of an instruction carries its form, its opcode and its halves where the
encoding tables put them (01 R12, R14, R19). -/

namespace Sys2Proof.Laws.Encoding

/-- The word of `i`, if it has one, has the form field of its kind, the opcode in [61:52], and its halves in [61:31]
and [30:0]. -/
def Statement (i : Instr) : Prop :=
  ∀ w, encode i = some w → (∀ opc, i.opc = some opc → w.extractLsb' 62 2 = 0 ∧ w.extractLsb' 52 10 = opc) ∧
    (∀ x y, i.halves = some (x, y) → w.extractLsb' 62 2 = 1 ∧ w.extractLsb' 31 31 = x.bits ∧ w.extractLsb' 0 31 = y.bits)

/-- The bits of three fields laid end to end. -/
theorem bitsOf3 {p q r : Nat} (x : BitVec p) (y : BitVec q) (z : BitVec r) (k : Nat) : (x ++ y ++ z).getLsbD k = if k < r then z.getLsbD k else if k < r + q then y.getLsbD (k - r) else x.getLsbD (k - r - q) := by
  rw [BitVec.getLsbD_append, BitVec.getLsbD_append]
  by_cases h : k < r
  · simp [h]
  · have : k - r < q ↔ k < r + q := by omega
    simp [h, this]

/-- The highest of three fields. -/
theorem top3 {p q r : Nat} (x : BitVec p) (y : BitVec q) (z : BitVec r) : (x ++ y ++ z).extractLsb' (r + q) p = x := by
  ext k hk
  rw [BitVec.getElem_extractLsb', bitsOf3, if_neg (by omega), if_neg (by omega), ← BitVec.getLsbD_eq_getElem]
  congr 1; omega

/-- The middle of three fields. -/
theorem mid3 {p q r : Nat} (x : BitVec p) (y : BitVec q) (z : BitVec r) : (x ++ y ++ z).extractLsb' r q = y := by
  ext k hk
  rw [BitVec.getElem_extractLsb', bitsOf3, if_neg (by omega), if_pos (by omega), ← BitVec.getLsbD_eq_getElem]
  congr 1; omega

/-- The lowest of three fields. -/
theorem low3 {p q r : Nat} (x : BitVec p) (y : BitVec q) (z : BitVec r) : (x ++ y ++ z).extractLsb' 0 r = z := by
  ext k hk
  rw [BitVec.getElem_extractLsb', bitsOf3, if_pos (by omega), ← BitVec.getLsbD_eq_getElem]
  congr 1; omega

/-- An F-form word. -/
theorem fForm {i : Instr} {opc : BitVec 10} {bits : BitVec 52} (h : encode i = some ((0 : BitVec 2) ++ opc ++ bits)) (ho : i.opc = some opc) (hn : i.halves = none) : Statement i := by
  intro w hw
  rw [h] at hw
  cases hw
  refine ⟨fun o hi => ?_, fun x y hi => by (rw [hn] at hi; cases hi)⟩
  rw [ho] at hi
  cases hi
  exact ⟨top3 _ _ _, mid3 _ _ _⟩

/-- A P-form word. -/
theorem pForm {i : Instr} {x y : PHalf} (h : encode i = some ((1 : BitVec 2) ++ x.bits ++ y.bits)) (ho : i.opc = none) (hn : i.halves = some (x, y)) : Statement i := by
  intro w hw
  rw [h] at hw
  cases hw
  refine ⟨fun o hi => by (rw [ho] at hi; cases hi), fun a b hi => ?_⟩
  rw [hn] at hi
  cases hi
  exact ⟨top3 _ _ _, mid3 _ _ _, low3 _ _ _⟩

/-- An event has no word. -/
theorem noWord {i : Instr} (ho : i.opc = none) (hn : i.halves = none) : Statement i :=
  fun _ _ => ⟨fun o hi => by (rw [ho] at hi; cases hi), fun x y hi => by (rw [hn] at hi; cases hi)⟩

theorem iadd (o : FOps) : Statement (.iadd o) := fForm rfl rfl rfl
theorem isub (o : FOps) : Statement (.isub o) := fForm rfl rfl rfl
theorem imul (o : FOps) : Statement (.imul o) := fForm rfl rfl rfl
theorem imulh (o : FOps) : Statement (.imulh o) := fForm rfl rfl rfl
theorem imad (o : FOps) : Statement (.imad o) := fForm rfl rfl rfl
theorem imadw (o : FOps) : Statement (.imadw o) := fForm rfl rfl rfl
theorem iaddc (o : FOps) : Statement (.iaddc o) := fForm rfl rfl rfl
theorem isubb (o : FOps) : Statement (.isubb o) := fForm rfl rfl rfl
theorem iabs (o : FOps) : Statement (.iabs o) := fForm rfl rfl rfl
theorem ineg (o : FOps) : Statement (.ineg o) := fForm rfl rfl rfl
theorem imin (o : FOps) : Statement (.imin o) := fForm rfl rfl rfl
theorem imax (o : FOps) : Statement (.imax o) := fForm rfl rfl rfl
theorem iadds (o : FOps) : Statement (.iadds o) := fForm rfl rfl rfl
theorem isubs (o : FOps) : Statement (.isubs o) := fForm rfl rfl rfl
theorem idot4 (o : FOps) : Statement (.idot4 o) := fForm rfl rfl rfl
theorem idot8 (o : FOps) : Statement (.idot8 o) := fForm rfl rfl rfl
theorem lea (o : FOps) : Statement (.lea o) := fForm rfl rfl rfl
theorem mov (o : FOps) : Statement (.mov o) := fForm rfl rfl rfl
theorem movi (o : Imm32Ops) : Statement (.movi o) := fForm rfl rfl rfl
theorem sel (o : FOps) : Statement (.sel o) := fForm rfl rfl rfl
theorem and (o : FOps) : Statement (.and o) := fForm rfl rfl rfl
theorem or (o : FOps) : Statement (.or o) := fForm rfl rfl rfl
theorem xor (o : FOps) : Statement (.xor o) := fForm rfl rfl rfl
theorem not (o : FOps) : Statement (.not o) := fForm rfl rfl rfl
theorem tri (o : FOps) : Statement (.tri o) := fForm rfl rfl rfl
theorem shl (o : FOps) : Statement (.shl o) := fForm rfl rfl rfl
theorem shr (o : FOps) : Statement (.shr o) := fForm rfl rfl rfl
theorem sar (o : FOps) : Statement (.sar o) := fForm rfl rfl rfl
theorem shf (o : FOps) : Statement (.shf o) := fForm rfl rfl rfl
theorem popc (o : FOps) : Statement (.popc o) := fForm rfl rfl rfl
theorem clz (o : FOps) : Statement (.clz o) := fForm rfl rfl rfl
theorem brev (o : FOps) : Statement (.brev o) := fForm rfl rfl rfl
theorem bfe (o : FOps) : Statement (.bfe o) := fForm rfl rfl rfl
theorem bfi (o : FOps) : Statement (.bfi o) := fForm rfl rfl rfl
theorem prmb (o : FOps) : Statement (.prmb o) := fForm rfl rfl rfl
theorem fadd (o : FOps) : Statement (.fadd o) := fForm rfl rfl rfl
theorem fsub (o : FOps) : Statement (.fsub o) := fForm rfl rfl rfl
theorem fmul (o : FOps) : Statement (.fmul o) := fForm rfl rfl rfl
theorem ffma (o : FOps) : Statement (.ffma o) := fForm rfl rfl rfl
theorem fmin (o : FOps) : Statement (.fmin o) := fForm rfl rfl rfl
theorem fmax (o : FOps) : Statement (.fmax o) := fForm rfl rfl rfl
theorem frcp (o : FOps) : Statement (.frcp o) := fForm rfl rfl rfl
theorem frsq (o : FOps) : Statement (.frsq o) := fForm rfl rfl rfl
theorem fsqrt (o : FOps) : Statement (.fsqrt o) := fForm rfl rfl rfl
theorem fexp2 (o : FOps) : Statement (.fexp2 o) := fForm rfl rfl rfl
theorem flog2 (o : FOps) : Statement (.flog2 o) := fForm rfl rfl rfl
theorem ftanh (o : FOps) : Statement (.ftanh o) := fForm rfl rfl rfl
theorem fsinpi (o : FOps) : Statement (.fsinpi o) := fForm rfl rfl rfl
theorem fcospi (o : FOps) : Statement (.fcospi o) := fForm rfl rfl rfl
theorem frnd (o : FOps) : Statement (.frnd o) := fForm rfl rfl rfl
theorem fclass (o : FOps) : Statement (.fclass o) := fForm rfl rfl rfl
theorem fscale (o : FOps) : Statement (.fscale o) := fForm rfl rfl rfl
theorem hadd2 (o : FOps) : Statement (.hadd2 o) := fForm rfl rfl rfl
theorem hmul2 (o : FOps) : Statement (.hmul2 o) := fForm rfl rfl rfl
theorem hfma2 (o : FOps) : Statement (.hfma2 o) := fForm rfl rfl rfl
theorem hmin2 (o : FOps) : Statement (.hmin2 o) := fForm rfl rfl rfl
theorem hmax2 (o : FOps) : Statement (.hmax2 o) := fForm rfl rfl rfl
theorem fdot2 (o : FOps) : Statement (.fdot2 o) := fForm rfl rfl rfl
theorem cvtff (o : FOps) : Statement (.cvtff o) := fForm rfl rfl rfl
theorem cvtfi (o : FOps) : Statement (.cvtfi o) := fForm rfl rfl rfl
theorem cvtif (o : FOps) : Statement (.cvtif o) := fForm rfl rfl rfl
theorem cvtii (o : FOps) : Statement (.cvtii o) := fForm rfl rfl rfl
theorem pack8 (o : FOps) : Statement (.pack8 o) := fForm rfl rfl rfl
theorem unpk8 (o : FOps) : Statement (.unpk8 o) := fForm rfl rfl rfl
theorem packq (o : FOps) : Statement (.packq o) := fForm rfl rfl rfl
theorem unpkq (o : FOps) : Statement (.unpkq o) := fForm rfl rfl rfl
theorem keyf (o : FOps) : Statement (.keyf o) := fForm rfl rfl rfl
theorem qscl (o : FOps) : Statement (.qscl o) := fForm rfl rfl rfl
theorem icmp (o : FOps) : Statement (.icmp o) := fForm rfl rfl rfl
theorem fcmp (o : FOps) : Statement (.fcmp o) := fForm rfl rfl rfl
theorem plop (o : FOps) : Statement (.plop o) := fForm rfl rfl rfl
theorem vote (o : FOps) : Statement (.vote o) := fForm rfl rfl rfl
theorem xch (o : FOps) : Statement (.xch o) := fForm rfl rfl rfl
theorem gred (o : FOps) : Statement (.gred o) := fForm rfl rfl rfl
theorem pmov (o : FOps) : Statement (.pmov o) := fForm rfl rfl rfl
theorem sadd (o : FOps) : Statement (.sadd o) := fForm rfl rfl rfl
theorem ssub (o : FOps) : Statement (.ssub o) := fForm rfl rfl rfl
theorem smul (o : FOps) : Statement (.smul o) := fForm rfl rfl rfl
theorem sand (o : FOps) : Statement (.sand o) := fForm rfl rfl rfl
theorem sor (o : FOps) : Statement (.sor o) := fForm rfl rfl rfl
theorem sxor (o : FOps) : Statement (.sxor o) := fForm rfl rfl rfl
theorem sshl (o : FOps) : Statement (.sshl o) := fForm rfl rfl rfl
theorem sshr (o : FOps) : Statement (.sshr o) := fForm rfl rfl rfl
theorem smov (o : FOps) : Statement (.smov o) := fForm rfl rfl rfl
theorem smovi (o : Imm32Ops) : Statement (.smovi o) := fForm rfl rfl rfl
theorem spopc (o : FOps) : Statement (.spopc o) := fForm rfl rfl rfl
theorem sffs (o : FOps) : Statement (.sffs o) := fForm rfl rfl rfl
theorem smin (o : FOps) : Statement (.smin o) := fForm rfl rfl rfl
theorem smax (o : FOps) : Statement (.smax o) := fForm rfl rfl rfl
theorem scmp (o : FOps) : Statement (.scmp o) := fForm rfl rfl rfl
theorem sld (o : FOps) : Statement (.sld o) := fForm rfl rfl rfl
theorem sst (o : FOps) : Statement (.sst o) := fForm rfl rfl rfl
theorem sread (o : FOps) : Statement (.sread o) := fForm rfl rfl rfl
theorem swrite (o : FOps) : Statement (.swrite o) := fForm rfl rfl rfl
theorem ld (o : FOps) : Statement (.ld o) := fForm rfl rfl rfl
theorem st (o : FOps) : Statement (.st o) := fForm rfl rfl rfl
theorem ldp (o : FOps) : Statement (.ldp o) := fForm rfl rfl rfl
theorem stp (o : FOps) : Statement (.stp o) := fForm rfl rfl rfl
theorem pref (o : FOps) : Statement (.pref o) := fForm rfl rfl rfl
theorem cinv (o : FOps) : Statement (.cinv o) := fForm rfl rfl rfl
theorem cwb (o : FOps) : Statement (.cwb o) := fForm rfl rfl rfl
theorem lds (o : FOps) : Statement (.lds o) := fForm rfl rfl rfl
theorem sts (o : FOps) : Statement (.sts o) := fForm rfl rfl rfl
theorem tld (o : FOps) : Statement (.tld o) := fForm rfl rfl rfl
theorem tst (o : FOps) : Statement (.tst o) := fForm rfl rfl rfl
theorem tmov (o : FOps) : Statement (.tmov o) := fForm rfl rfl rfl
theorem pdecl (o : FOps) : Statement (.pdecl o) := fForm rfl rfl rfl
theorem penter (o : FOps) : Statement (.penter o) := fForm rfl rfl rfl
theorem pwait (o : FOps) : Statement (.pwait o) := fForm rfl rfl rfl
theorem pleave (o : FOps) : Statement (.pleave o) := fForm rfl rfl rfl
theorem pdrop (o : FOps) : Statement (.pdrop o) := fForm rfl rfl rfl
theorem pqry (o : FOps) : Statement (.pqry o) := fForm rfl rfl rfl
theorem atom (o : FOps) : Statement (.atom o) := fForm rfl rfl rfl
theorem acas (o : FOps) : Statement (.acas o) := fForm rfl rfl rfl
theorem red (o : FOps) : Statement (.red o) := fForm rfl rfl rfl
theorem acont (o : FOps) : Statement (.acont o) := fForm rfl rfl rfl
theorem fence (o : FOps) : Statement (.fence o) := fForm rfl rfl rfl
theorem waitn (o : FOps) : Statement (.waitn o) := fForm rfl rfl rfl
theorem mma (o : FOps) : Statement (.mma o) := fForm rfl rfl rfl
theorem mmas (o : FOps) : Statement (.mmas o) := fForm rfl rfl rfl
theorem aclr (o : FOps) : Statement (.aclr o) := fForm rfl rfl rfl
theorem amov (o : FOps) : Statement (.amov o) := fForm rfl rfl rfl
theorem aload (o : FOps) : Statement (.aload o) := fForm rfl rfl rfl
theorem drain (o : FOps) : Statement (.drain o) := fForm rfl rfl rfl
theorem drepl (o : FOps) : Statement (.drepl o) := fForm rfl rfl rfl
theorem atbl (o : FOps) : Statement (.atbl o) := fForm rfl rfl rfl
theorem ckick (o : FOps) : Statement (.ckick o) := fForm rfl rfl rfl
theorem gthr (o : FOps) : Statement (.gthr o) := fForm rfl rfl rfl
theorem sctr (o : FOps) : Statement (.sctr o) := fForm rfl rfl rfl
theorem coll (o : FOps) : Statement (.coll o) := fForm rfl rfl rfl
theorem binit (o : FOps) : Statement (.binit o) := fForm rfl rfl rfl
theorem bexp (o : FOps) : Statement (.bexp o) := fForm rfl rfl rfl
theorem bwait (o : FOps) : Statement (.bwait o) := fForm rfl rfl rfl
theorem cstat (o : FOps) : Statement (.cstat o) := fForm rfl rfl rfl
theorem bra (o : ImmOps) : Statement (.bra o) := fForm rfl rfl rfl
theorem brc (o : ImmOps) : Statement (.brc o) := fForm rfl rfl rfl
theorem brs (o : ImmOps) : Statement (.brs o) := fForm rfl rfl rfl
theorem join (o : ImmOps) : Statement (.join o) := fForm rfl rfl rfl
theorem brx (o : FOps) : Statement (.brx o) := fForm rfl rfl rfl
theorem call (o : ImmOps) : Statement (.call o) := fForm rfl rfl rfl
theorem callx (o : FOps) : Statement (.callx o) := fForm rfl rfl rfl
theorem ret (o : FOps) : Statement (.ret o) := fForm rfl rfl rfl
theorem exit (o : FOps) : Statement (.exit o) := fForm rfl rfl rfl
theorem nop (o : FOps) : Statement (.nop o) := fForm rfl rfl rfl
theorem regroup (o : FOps) : Statement (.regroup o) := fForm rfl rfl rfl
theorem yield (o : FOps) : Statement (.yield o) := fForm rfl rfl rfl
theorem barv (o : FOps) : Statement (.barv o) := fForm rfl rfl rfl
theorem bsyn (o : FOps) : Statement (.bsyn o) := fForm rfl rfl rfl
theorem bphs (o : FOps) : Statement (.bphs o) := fForm rfl rfl rfl
theorem qpush (o : FOps) : Statement (.qpush o) := fForm rfl rfl rfl
theorem qpop (o : FOps) : Statement (.qpop o) := fForm rfl rfl rfl
theorem qalw (o : FOps) : Statement (.qalw o) := fForm rfl rfl rfl
theorem qalwInit (o : FOps) : Statement (.qalwInit o) := fForm rfl rfl rfl
theorem qtryPush (o : FOps) : Statement (.qtryPush o) := fForm rfl rfl rfl
theorem qtryPop (o : FOps) : Statement (.qtryPop o) := fForm rfl rfl rfl
theorem gsync (o : FOps) : Statement (.gsync o) := fForm rfl rfl rfl
theorem deq (o : FOps) : Statement (.deq o) := fForm rfl rfl rfl
theorem deqt (o : FOps) : Statement (.deqt o) := fForm rfl rfl rfl
theorem rpush (o : FOps) : Statement (.rpush o) := fForm rfl rfl rfl
theorem rpass (o : FOps) : Statement (.rpass o) := fForm rfl rfl rfl
theorem rrej (o : FOps) : Statement (.rrej o) := fForm rfl rfl rfl
theorem lnch (o : FOps) : Statement (.lnch o) := fForm rfl rfl rfl
theorem nodeqQry (o : FOps) : Statement (.nodeqQry o) := fForm rfl rfl rfl
theorem nodeqSeal (o : FOps) : Statement (.nodeqSeal o) := fForm rfl rfl rfl
theorem nodeqOpen (o : FOps) : Statement (.nodeqOpen o) := fForm rfl rfl rfl
theorem rbind (o : FOps) : Statement (.rbind o) := fForm rfl rfl rfl
theorem tstamp (o : FOps) : Statement (.tstamp o) := fForm rfl rfl rfl
theorem cycles (o : FOps) : Statement (.cycles o) := fForm rfl rfl rfl
theorem phint (o : FOps) : Statement (.phint o) := fForm rfl rfl rfl
theorem phints (o : FOps) : Statement (.phints o) := fForm rfl rfl rfl
theorem ostage (o : FOps) : Statement (.ostage o) := fForm rfl rfl rfl
theorem trap (o : ImmOps) : Statement (.trap o) := fForm rfl rfl rfl
theorem bkpt (o : ImmOps) : Statement (.bkpt o) := fForm rfl rfl rfl
theorem evrd (o : FOps) : Statement (.evrd o) := fForm rfl rfl rfl
theorem evcfg (o : FOps) : Statement (.evcfg o) := fForm rfl rfl rfl
theorem ophint (o : FOps) : Statement (.ophint o) := fForm rfl rfl rfl
theorem iaddP (x : PFields) (y : PHalf) : Statement (.iaddP x y) := pForm rfl rfl rfl
theorem isubP (x : PFields) (y : PHalf) : Statement (.isubP x y) := pForm rfl rfl rfl
theorem iminP (x : PFields) (y : PHalf) : Statement (.iminP x y) := pForm rfl rfl rfl
theorem imaxP (x : PFields) (y : PHalf) : Statement (.imaxP x y) := pForm rfl rfl rfl
theorem andP (x : PFields) (y : PHalf) : Statement (.andP x y) := pForm rfl rfl rfl
theorem orP (x : PFields) (y : PHalf) : Statement (.orP x y) := pForm rfl rfl rfl
theorem xorP (x : PFields) (y : PHalf) : Statement (.xorP x y) := pForm rfl rfl rfl
theorem shlP (x : PFields) (y : PHalf) : Statement (.shlP x y) := pForm rfl rfl rfl
theorem shrP (x : PFields) (y : PHalf) : Statement (.shrP x y) := pForm rfl rfl rfl
theorem sarP (x : PFields) (y : PHalf) : Statement (.sarP x y) := pForm rfl rfl rfl
theorem movP (x : PFields) (y : PHalf) : Statement (.movP x y) := pForm rfl rfl rfl
theorem imulP (x : PFields) (y : PHalf) : Statement (.imulP x y) := pForm rfl rfl rfl
theorem faddP (x : PFields) (y : PHalf) : Statement (.faddP x y) := pForm rfl rfl rfl
theorem fsubP (x : PFields) (y : PHalf) : Statement (.fsubP x y) := pForm rfl rfl rfl
theorem fmulP (x : PFields) (y : PHalf) : Statement (.fmulP x y) := pForm rfl rfl rfl
theorem fminP (x : PFields) (y : PHalf) : Statement (.fminP x y) := pForm rfl rfl rfl
theorem fmaxP (x : PFields) (y : PHalf) : Statement (.fmaxP x y) := pForm rfl rfl rfl
theorem hadd2P (x : PFields) (y : PHalf) : Statement (.hadd2P x y) := pForm rfl rfl rfl
theorem hmul2P (x : PFields) (y : PHalf) : Statement (.hmul2P x y) := pForm rfl rfl rfl
theorem saddP (x : PFields) (y : PHalf) : Statement (.saddP x y) := pForm rfl rfl rfl
theorem ssubP (x : PFields) (y : PHalf) : Statement (.ssubP x y) := pForm rfl rfl rfl
theorem sandP (x : PFields) (y : PHalf) : Statement (.sandP x y) := pForm rfl rfl rfl
theorem sorP (x : PFields) (y : PHalf) : Statement (.sorP x y) := pForm rfl rfl rfl
theorem sxorP (x : PFields) (y : PHalf) : Statement (.sxorP x y) := pForm rfl rfl rfl
theorem smovP (x : PFields) (y : PHalf) : Statement (.smovP x y) := pForm rfl rfl rfl
theorem sshlP (x : PFields) (y : PHalf) : Statement (.sshlP x y) := pForm rfl rfl rfl
theorem sshrP (x : PFields) (y : PHalf) : Statement (.sshrP x y) := pForm rfl rfl rfl
theorem ldsP (x : PFields) (y : PHalf) : Statement (.ldsP x y) := pForm rfl rfl rfl
theorem stsP (x : PFields) (y : PHalf) : Statement (.stsP x y) := pForm rfl rfl rfl
theorem nopP (x : PFields) (y : PHalf) : Statement (.nopP x y) := pForm rfl rfl rfl
theorem clauseStart (h : Header) : Statement (.clauseStart h) := noWord rfl rfl
theorem clauseSkip (h : Header) : Statement (.clauseSkip h) := noWord rfl rfl
theorem issueOpportunity (core quad : Nat) : Statement (.issueOpportunity core quad) := noWord rfl rfl
theorem longLatencyComplete (op : Nat) : Statement (.longLatencyComplete op) := noWord rfl rfl
theorem scrubPass (core : Nat) (at_ : FileWord) (found : Finding) : Statement (.scrubPass core at_ found) := noWord rfl rfl
theorem sliceLoad (op : Nat) : Statement (.sliceLoad op) := noWord rfl rfl
theorem sliceStore (op : Nat) : Statement (.sliceStore op) := noWord rfl rfl
theorem sliceWriteback (op : Nat) : Statement (.sliceWriteback op) := noWord rfl rfl
theorem sliceAtomic (op : Nat) : Statement (.sliceAtomic op) := noWord rfl rfl
theorem sliceAddOnStore (op : Nat) : Statement (.sliceAddOnStore op) := noWord rfl rfl
theorem sliceAcont (op : Nat) : Statement (.sliceAcont op) := noWord rfl rfl
theorem replayFilterAck (slice port tag : Nat) : Statement (.replayFilterAck slice port tag) := noWord rfl rfl
theorem walkComplete (op : Nat) : Statement (.walkComplete op) := noWord rfl rfl
theorem memoryFillReturn (op : Nat) : Statement (.memoryFillReturn op) := noWord rfl rfl
theorem l1FillReturn (op : Nat) : Statement (.l1FillReturn op) := noWord rfl rfl
theorem storeAccepted (op : Nat) : Statement (.storeAccepted op) := noWord rfl rfl
theorem combineTimeout (cluster entry : Nat) : Statement (.combineTimeout cluster entry) := noWord rfl rfl
theorem hptEpochEnd (die : Nat) : Statement (.hptEpochEnd die) := noWord rfl rfl
theorem hptSwapDone (die : Nat) : Statement (.hptSwapDone die) := noWord rfl rfl
theorem slqEntryPlace (slice : Nat) : Statement (.slqEntryPlace slice) := noWord rfl rfl
theorem matrixTake (core : Nat) : Statement (.matrixTake core) := noWord rfl rfl
theorem matrixOpComplete (op : Nat) : Statement (.matrixOpComplete op) := noWord rfl rfl
theorem drainEntryTake (core : Nat) : Statement (.drainEntryTake core) := noWord rfl rfl
theorem drainRowPerformed (core entry row : Nat) : Statement (.drainRowPerformed core entry row) := noWord rfl rfl
theorem kickQueueTake (core : Nat) : Statement (.kickQueueTake core) := noWord rfl rfl
theorem copyBytePerformed (op : Nat) : Statement (.copyBytePerformed op) := noWord rfl rfl
theorem gatherRowPerformed (op lane : Nat) : Statement (.gatherRowPerformed op lane) := noWord rfl rfl
theorem collectiveComplete (op : Nat) (remote : List RankInput) : Statement (.collectiveComplete op remote) := noWord rfl rfl
theorem paletteLineFilled (op : Nat) : Statement (.paletteLineFilled op) := noWord rfl rfl
theorem lqRecordTake (ctx queue : Nat) : Statement (.lqRecordTake ctx queue) := noWord rfl rfl
theorem depPoll (grid : Nat) : Statement (.depPoll grid) := noWord rfl rfl
theorem recordAging (grid : Nat) : Statement (.recordAging grid) := noWord rfl rfl
theorem recordChoice (ctx die : Nat) : Statement (.recordChoice ctx die) := noWord rfl rfl
theorem teamPlace (ctx die : Nat) : Statement (.teamPlace ctx die) := noWord rfl rfl
theorem reservationTimeout (ctx die : Nat) : Statement (.reservationTimeout ctx die) := noWord rfl rfl
theorem relockComplete (cluster : Nat) : Statement (.relockComplete cluster) := noWord rfl rfl
theorem ophintDwellExpiry (team : Nat) : Statement (.ophintDwellExpiry team) := noWord rfl rfl
theorem gridComplete (grid : Nat) : Statement (.gridComplete grid) := noWord rfl rfl
theorem binTimerExpiry (ctx die node : Nat) : Statement (.binTimerExpiry ctx die node) := noWord rfl rfl
theorem governorEval (ctx die : Nat) : Statement (.governorEval ctx die) := noWord rfl rfl
theorem deqtTimeout (gid : Nat) : Statement (.deqtTimeout gid) := noWord rfl rfl
theorem routerEntry (die router : Nat) : Statement (.routerEntry die router) := noWord rfl rfl
theorem routerRpass (die router : Nat) : Statement (.routerRpass die router) := noWord rfl rfl
theorem routerRrej (die router : Nat) : Statement (.routerRrej die router) := noWord rfl rfl
theorem remoteTailWrite (push : RemotePush) : Statement (.remoteTailWrite push) := noWord rfl rfl
theorem remotePullComplete (die : Nat) (record : List (BitVec 32)) : Statement (.remotePullComplete die record) := noWord rfl rfl
theorem pushAck (op : Nat) (kind : BitVec 4) : Statement (.pushAck op kind) := noWord rfl rfl
theorem arbiterEpoch (since : Nat) : Statement (.arbiterEpoch since) := noWord rfl rfl
theorem budgetApply (cluster : Nat) : Statement (.budgetApply cluster) := noWord rfl rfl
theorem deficitReport (module : Nat) (deficit : BitVec 16) : Statement (.deficitReport module deficit) := noWord rfl rfl
theorem droopAlarm (cluster : Nat) : Statement (.droopAlarm cluster) := noWord rfl rfl
theorem droopHalvingEnd (cluster : Nat) : Statement (.droopHalvingEnd cluster) := noWord rfl rfl
theorem thermalOverThreshold (die : Nat) (temp : BitVec 12) : Statement (.thermalOverThreshold die temp) := noWord rfl rfl
theorem thermalRestore (die : Nat) (temp : BitVec 12) : Statement (.thermalRestore die temp) := noWord rfl rfl
theorem stopRecordsComplete (ctx : Nat) : Statement (.stopRecordsComplete ctx) := noWord rfl rfl
theorem haltResume (ctx : Nat) (w : Writer) : Statement (.haltResume ctx w) := noWord rfl rfl
theorem haltStep (ctx : Nat) (w : Writer) : Statement (.haltStep ctx w) := noWord rfl rfl
theorem haltPreempt (ctx : Nat) (w : Writer) : Statement (.haltPreempt ctx w) := noWord rfl rfl
theorem haltTerminate (ctx : Nat) (w : Writer) : Statement (.haltTerminate ctx w) := noWord rfl rfl
theorem watchdogExpiry (gid : Nat) : Statement (.watchdogExpiry gid) := noWord rfl rfl
theorem timeSliceExpiry (ctx : Nat) : Statement (.timeSliceExpiry ctx) := noWord rfl rfl
theorem teamResume (team : Nat) : Statement (.teamResume team) := noWord rfl rfl
theorem tcInvalidateS1 (w : Writer) : Statement (.tcInvalidateS1 w) := noWord rfl rfl
theorem tcInvalidateS2 (w : Writer) : Statement (.tcInvalidateS2 w) := noWord rfl rfl
theorem tcReloadContext (w : Writer) : Statement (.tcReloadContext w) := noWord rfl rfl
theorem tcReloadTask (w : Writer) : Statement (.tcReloadTask w) := noWord rfl rfl
theorem tcCommandDone : Statement (.tcCommandDone) := noWord rfl rfl
theorem dlEntryWriteLow (w : Writer) (index : Nat) (value : BitVec 64) : Statement (.dlEntryWriteLow w index value) := noWord rfl rfl
theorem dlEntryWriteHigh (w : Writer) (index : Nat) (value : BitVec 64) : Statement (.dlEntryWriteHigh w index value) := noWord rfl rfl
theorem dlRevoke (w : Writer) (value : BitVec 32) : Statement (.dlRevoke w value) := noWord rfl rfl
theorem dlRevokeDone : Statement (.dlRevokeDone) := noWord rfl rfl
theorem rtRowWrite (w : Writer) (row : Nat) (part : RowPart) (value : BitVec 64) : Statement (.rtRowWrite w row part value) := noWord rfl rfl
theorem pwShareWrite (w : Writer) (index : Nat) (value : BitVec 32) : Statement (.pwShareWrite w index value) := noWord rfl rfl
theorem bwShareWrite (w : Writer) (die index : Nat) (value : BitVec 32) : Statement (.bwShareWrite w die index value) := noWord rfl rfl
theorem partitionTableWrite (w : Writer) (entry : Nat) (field : PartField) (value : BitVec 64) : Statement (.partitionTableWrite w entry field value) := noWord rfl rfl
theorem lkModuleWrite (w : Writer) (value : BitVec 32) : Statement (.lkModuleWrite w value) := noWord rfl rfl
theorem pfSelWrite (w : Writer) (slice index : Nat) (value : BitVec 32) : Statement (.pfSelWrite w slice index value) := noWord rfl rfl
theorem rmfEntryWrite (w : Writer) (core index : Nat) (canon : Bool) (value : BitVec 64) : Statement (.rmfEntryWrite w core index canon value) := noWord rfl rfl
theorem hptCtlWrite (w : Writer) (die : Nat) (value : BitVec 32) : Statement (.hptCtlWrite w die value) := noWord rfl rfl
theorem registerWrite (w : Writer) (addr : BitVec 52) (size : Nat) (value : BitVec 64) : Statement (.registerWrite w addr size value) := noWord rfl rfl
theorem firewallFlit (f : Flit) : Statement (.firewallFlit f) := noWord rfl rfl
theorem flitCrcFail (l : CrcFail) : Statement (.flitCrcFail l) := noWord rfl rfl
theorem linkDown (port : Nat) (gid : Option Nat) (ctx : Nat) (addr : BitVec 56) : Statement (.linkDown port gid ctx addr) := noWord rfl rfl
theorem peerDirectWrite (addr : BitVec 52) (part : Nat) (flit : PeerFlit) : Statement (.peerDirectWrite addr part flit) := noWord rfl rfl
theorem rootPortDma (function : Nat) (addr : BitVec 64) (a : HostAccess) (bytes : List (BitVec 8)) : Statement (.rootPortDma function addr a bytes) := noWord rfl rfl
theorem boot (b : BootImage) : Statement (.boot b) := noWord rfl rfl
theorem attestationRequest (w : Writer) (part : Nat) (nonce : List (BitVec 8)) : Statement (.attestationRequest w part nonce) := noWord rfl rfl
theorem replyTimeout (op : Nat) (again : Bool) : Statement (.replyTimeout op again) := noWord rfl rfl
theorem rdCtlWrite (w : Writer) (ctx : Nat) (value : BitVec 32) : Statement (.rdCtlWrite w ctx value) := noWord rfl rfl

end Sys2Proof.Laws.Encoding
end

