-- ==== Sys2Proof/Tests/Slice0.lean ====
section
/-! SUPPORT. Tests. Words written out from the encoding tables of the manual and what they decode to; ill-formed terms
that the checks refuse; for each statement, states and operands that meet its hypotheses; and single steps with the
results that the manual gives. -/

namespace Sys2Proof.Tests

open Machine

/-! ### Decoding -/

/-- Every word of the list decodes to the instruction beside it. -/
def readsAll (l : List (Nat × Instr)) : Bool := l.all (fun x => decide (decodeTableWord 64 x.1 = some x.2))

/-- Words of the Integer group: each field where R14, R18, R19 or R23 puts it, and the opcode that R30 or R22 gives. -/
def wordsInteger : List (Nat × Instr) := [
    (0x000D83020C002000, .iadd ⟨.on true 3, 6, 4, 24, 0, .sca, false, false, .rne, false, 0⟩),
    (0x001F0A08000E4000, .isub ⟨.on true 6, 20, 16, 0, 28, .imm, false, false, .rne, false, 0⟩),
    (0x0028070A005D4000, .imul ⟨.on false 0, 14, 20, 0, 186, .imm, false, false, .rne, false, 0⟩),
    (0x003F835082002001, .imulh ⟨.on true 7, 6, 161, 4, 0, .sca, false, false, .rne, false, 1⟩),
    (0x004B01BC83036800, .imad ⟨.on false 6, 3, 121, 6, 6, .sys, false, true, .rne, false, 0⟩),
    (0x005B810E02036801, .imadw ⟨.on false 7, 2, 28, 4, 6, .sys, false, true, .rne, false, 1⟩),
    (0x006D3B0E10002007, .iaddc ⟨.on true 2, 118, 28, 32, 0, .sca, false, false, .rne, false, 7⟩),
    (0x007F931800014005, .isubb ⟨.on true 7, 38, 48, 0, 2, .imm, false, false, .rne, false, 5⟩),
    (0x008E120800000100, .iabs ⟨.on true 4, 36, 16, 0, 0, .vec, false, false, .rne, true, 0⟩),
    (0x009983D400000100, .ineg ⟨.on false 3, 7, 168, 0, 0, .vec, false, false, .rne, true, 0⟩),
    (0x00AE8B258C006001, .imin ⟨.on true 5, 22, 75, 24, 0, .sys, false, false, .rne, false, 1⟩),
    (0x00BE89010C006001, .imax ⟨.on true 5, 18, 2, 24, 0, .sys, false, false, .rne, false, 1⟩),
    (0x00CEF7FD84006001, .iadds ⟨.on true 5, 239, 251, 8, 0, .sys, false, false, .rne, false, 1⟩),
    (0x00DE035200394001, .isubs ⟨.on true 4, 6, 164, 0, 114, .imm, false, false, .rne, false, 1⟩),
    (0x00EBDB0D01136903, .idot4 ⟨.on false 7, 182, 26, 2, 38, .sys, false, true, .rne, true, 3⟩),
    (0x00F8DA8302076901, .idot8 ⟨.on false 1, 181, 6, 4, 14, .sys, false, true, .rne, true, 1⟩),
    (0x01090B4000074005, .lea ⟨.on false 2, 22, 128, 0, 14, .imm, false, false, .rne, false, 5⟩),
    (0x011D04000C006000, .mov ⟨.on true 2, 8, 0, 24, 0, .sys, false, false, .rne, false, 0⟩),
    (0x012000000AD74447, .movi ⟨.none, 0, 0, 181879879⟩),
    (0x013C008282002001, .sel ⟨.on true 0, 1, 5, 4, 0, .sca, false, false, .rne, false, 1⟩)]

theorem test_decode_integer : readsAll wordsInteger = true := by decide

/-- Words of the Logic and bit group: each field where R14, R18, R19 or R23 puts it, and the opcode that R30 or R22 gives. -/
def wordsLogicAndBit : List (Nat × Instr) := [
    (0x040F0F7600064000, .and ⟨.on true 6, 30, 236, 0, 12, .imm, false, false, .rne, false, 0⟩),
    (0x041D6BD50C006000, .or ⟨.on true 2, 215, 170, 24, 0, .sys, false, false, .rne, false, 0⟩),
    (0x0428028310002000, .xor ⟨.on false 0, 5, 6, 32, 0, .sca, false, false, .rne, false, 0⟩),
    (0x043A83DD00000000, .not ⟨.on false 5, 7, 186, 0, 0, .vec, false, false, .rne, false, 0⟩),
    (0x0449830101136807, .tri ⟨.on false 3, 6, 2, 2, 38, .sys, false, true, .rne, false, 7⟩),
    (0x045E821000024000, .shl ⟨.on true 5, 4, 32, 0, 4, .imm, false, false, .rne, false, 0⟩),
    (0x046E848082002000, .shr ⟨.on true 5, 9, 1, 4, 0, .sca, false, false, .rne, false, 0⟩),
    (0x0479F08200064000, .sar ⟨.on false 3, 225, 4, 0, 12, .imm, false, false, .rne, false, 0⟩),
    (0x0488690E0503E801, .shf ⟨.on false 0, 210, 28, 10, 7, .sys, false, true, .rne, false, 1⟩),
    (0x049F790100000000, .popc ⟨.on true 6, 242, 2, 0, 0, .vec, false, false, .rne, false, 0⟩),
    (0x04A801AC80000000, .clz ⟨.on false 0, 3, 89, 0, 0, .vec, false, false, .rne, false, 0⟩),
    (0x04BE5E8200000000, .brev ⟨.on true 4, 189, 4, 0, 0, .vec, false, false, .rne, false, 0⟩),
    (0x04C8008282002001, .bfe ⟨.on false 0, 1, 5, 4, 0, .sca, false, false, .rne, false, 1⟩),
    (0x04DB3B050280A800, .bfi ⟨.on false 6, 118, 10, 5, 1, .sca, false, true, .rne, false, 0⟩),
    (0x04EC81090082A800, .prmb ⟨.on true 1, 2, 18, 1, 5, .sca, false, true, .rne, false, 0⟩)]

theorem test_decode_logic_and_bit : readsAll wordsLogicAndBit = true := by decide

/-- Words of the FP32 group: each field where R14, R18, R19 or R23 puts it, and the opcode that R30 or R22 gives. -/
def wordsFp32 : List (Nat × Instr) := [
    (0x080981C984006400, .fadd ⟨.on false 3, 3, 147, 8, 0, .sys, false, false, .rup, false, 0⟩),
    (0x081E1C8200654200, .fsub ⟨.on true 4, 57, 4, 0, 202, .imm, false, false, .rtz, false, 0⟩),
    (0x0829077704006200, .fmul ⟨.on false 2, 14, 238, 8, 0, .sys, false, false, .rtz, false, 0⟩),
    (0x083A8E050082AE00, .ffma ⟨.on false 5, 28, 10, 1, 5, .sca, false, true, .rdn, false, 0⟩),
    (0x084F810C004D4000, .fmin ⟨.on true 7, 2, 24, 0, 154, .imm, false, false, .rne, false, 0⟩),
    (0x085F808104002000, .fmax ⟨.on true 7, 1, 2, 8, 0, .sca, false, false, .rne, false, 0⟩),
    (0x086E810200001400, .frcp ⟨.on true 5, 2, 4, 0, 0, .vec, true, false, .rup, false, 0⟩),
    (0x087E010C00001200, .frsq ⟨.on true 4, 2, 24, 0, 0, .vec, true, false, .rtz, false, 0⟩),
    (0x0889136F00001200, .fsqrt ⟨.on false 2, 38, 222, 0, 0, .vec, true, false, .rtz, false, 0⟩),
    (0x089F471100001200, .fexp2 ⟨.on true 6, 142, 34, 0, 0, .vec, true, false, .rtz, false, 0⟩),
    (0x08AD35CE80001200, .flog2 ⟨.on true 2, 107, 157, 0, 0, .vec, true, false, .rtz, false, 0⟩),
    (0x08BB819900001400, .ftanh ⟨.on false 7, 3, 50, 0, 0, .vec, true, false, .rup, false, 0⟩),
    (0x08CBCF1100001600, .fsinpi ⟨.on false 7, 158, 34, 0, 0, .vec, true, false, .rdn, false, 0⟩),
    (0x08DC811000001200, .fcospi ⟨.on true 1, 2, 32, 0, 0, .vec, true, false, .rtz, false, 0⟩),
    (0x08EE828080000400, .frnd ⟨.on true 5, 5, 1, 0, 0, .vec, false, false, .rup, false, 0⟩),
    (0x08FE830400000000, .fclass ⟨.on true 5, 6, 8, 0, 0, .vec, false, false, .rne, false, 0⟩),
    (0x090F8F0800014400, .fscale ⟨.on true 7, 30, 16, 0, 2, .imm, false, false, .rup, false, 0⟩)]

theorem test_decode_fp32 : readsAll wordsFp32 = true := by decide

/-- Words of the Packed 16-bit group: each field where R14, R18, R19 or R23 puts it, and the opcode that R30 or R22 gives. -/
def wordsPacked16Bit : List (Nat × Instr) := [
    (0x0C0FED0208006201, .hadd2 ⟨.on true 7, 218, 4, 16, 0, .sys, false, false, .rtz, false, 1⟩),
    (0x0C1B920400034601, .hmul2 ⟨.on false 7, 36, 8, 0, 6, .imm, false, false, .rdn, false, 1⟩),
    (0x0C2E91019280AA00, .hfma2 ⟨.on true 5, 34, 3, 37, 1, .sca, false, true, .rtz, false, 0⟩),
    (0x0C38828110002001, .hmin2 ⟨.on false 1, 5, 2, 32, 0, .sca, false, false, .rne, false, 1⟩),
    (0x0C4A8310000E4001, .hmax2 ⟨.on false 5, 6, 32, 0, 28, .imm, false, false, .rne, false, 1⟩),
    (0x0C5C0E0D0082AE01, .fdot2 ⟨.on true 0, 28, 26, 1, 5, .sca, false, true, .rdn, false, 1⟩)]

theorem test_decode_packed_16_bit : readsAll wordsPacked16Bit = true := by decide

/-- Words of the Conversion group: each field where R14, R18, R19 or R23 puts it, and the opcode that R30 or R22 gives. -/
def wordsConversion : List (Nat × Instr) := [
    (0x100F06080000030A, .cvtff ⟨.on true 6, 12, 16, 0, 0, .vec, false, false, .rtz, true, 10⟩),
    (0x101D3F1000040418, .cvtfi ⟨.on true 2, 126, 32, 0, 8, .vec, false, false, .rup, false, 24⟩),
    (0x102A0A1000040322, .cvtif ⟨.on false 4, 20, 32, 0, 8, .vec, false, false, .rtz, true, 34⟩),
    (0x1038019000000118, .cvtii ⟨.on false 0, 3, 32, 0, 0, .vec, false, false, .rne, true, 24⟩),
    (0x104D82830900A500, .pack8 ⟨.on true 3, 5, 6, 18, 1, .sca, false, false, .rup, true, 0⟩),
    (0x105A828280000001, .unpk8 ⟨.on false 5, 5, 5, 0, 0, .vec, false, false, .rne, false, 1⟩),
    (0x106E8800000A4700, .packq ⟨.on true 5, 16, 0, 0, 20, .imm, false, false, .rdn, true, 0⟩),
    (0x107E020800124301, .unpkq ⟨.on true 4, 4, 16, 0, 36, .imm, false, false, .rtz, true, 1⟩),
    (0x1089875800000001, .keyf ⟨.on false 3, 14, 176, 0, 0, .vec, false, false, .rne, false, 1⟩),
    (0x109F1E8280000004, .qscl ⟨.on true 6, 61, 5, 0, 0, .vec, false, false, .rne, false, 4⟩)]

theorem test_decode_conversion : readsAll wordsConversion = true := by decide

/-- Words of the Compare and lane group: each field where R14, R18, R19 or R23 puts it, and the opcode that R30 or R22 gives. -/
def wordsCompareAndLane : List (Nat × Instr) := [
    (0x140E810200064001, .icmp ⟨.on true 5, 2, 4, 0, 12, .imm, false, false, .rne, false, 1⟩),
    (0x141C020400064003, .fcmp ⟨.on true 0, 4, 8, 0, 12, .imm, false, false, .rne, false, 3⟩),
    (0x142A830100820003, .plop ⟨.on false 5, 6, 2, 1, 4, .vec, false, false, .rne, false, 3⟩),
    (0x143C008200000006, .vote ⟨.on true 0, 1, 4, 0, 0, .vec, false, false, .rne, false, 6⟩),
    (0x144D4B8C00014004, .xch ⟨.on true 2, 151, 24, 0, 2, .imm, false, false, .rne, false, 4⟩),
    (0x145A03CE80001004, .gred ⟨.on false 4, 7, 157, 0, 0, .vec, true, false, .rne, false, 4⟩),
    (0x146D008200000002, .pmov ⟨.on true 2, 1, 4, 0, 0, .vec, false, false, .rne, false, 2⟩)]

theorem test_decode_compare_and_lane : readsAll wordsCompareAndLane = true := by decide

/-- Words of the Scalar group: each field where R14, R18, R19 or R23 puts it, and the opcode that R30 or R22 gives. -/
def wordsScalar : List (Nat × Instr) := [
    (0x1800028082006000, .sadd ⟨.none, 5, 1, 4, 0, .sys, false, false, .rne, false, 0⟩),
    (0x181003060C002001, .ssub ⟨.none, 6, 12, 24, 0, .sca, false, false, .rne, false, 1⟩),
    (0x182008818A006001, .smul ⟨.none, 17, 3, 20, 0, .sys, false, false, .rne, false, 1⟩),
    (0x183009018A006000, .sand ⟨.none, 18, 3, 20, 0, .sys, false, false, .rne, false, 0⟩),
    (0x1840148282002000, .sor ⟨.none, 41, 5, 4, 0, .sca, false, false, .rne, false, 0⟩),
    (0x1850010800014000, .sxor ⟨.none, 2, 16, 0, 2, .imm, false, false, .rne, false, 0⟩),
    (0x1860060314002000, .sshl ⟨.none, 12, 6, 40, 0, .sca, false, false, .rne, false, 0⟩),
    (0x1870028200314002, .sshr ⟨.none, 5, 4, 0, 98, .imm, false, false, .rne, false, 2⟩),
    (0x1880010000014000, .smov ⟨.none, 2, 0, 0, 2, .imm, false, false, .rne, false, 0⟩),
    (0x18900080CD102F9B, .smovi ⟨.none, 1, 0, 3440390043⟩),
    (0x18A0100002002000, .spopc ⟨.none, 32, 0, 4, 0, .sca, false, false, .rne, false, 0⟩),
    (0x18B0050000014000, .sffs ⟨.none, 10, 0, 0, 2, .imm, false, false, .rne, false, 0⟩),
    (0x18C0028310002001, .smin ⟨.none, 5, 6, 32, 0, .sca, false, false, .rne, false, 1⟩),
    (0x18D0020F14002000, .smax ⟨.none, 4, 30, 40, 0, .sca, false, false, .rne, false, 0⟩),
    (0x18E00A040033400C, .scmp ⟨.none, 20, 8, 0, 102, .imm, false, false, .rne, false, 12⟩),
    (0x18F00305010130A0, .sld ⟨.none, 6, 10, 2, 2, .sca, true, false, .rne, false, 160⟩),
    (0x19001103036AA096, .sst ⟨.none, 34, 6, 6, 213, .sca, false, false, .rne, false, 150⟩),
    (0x1910080000006000, .sread ⟨.none, 16, 0, 0, 0, .sys, false, false, .rne, false, 0⟩),
    (0x19200004A1806000, .swrite ⟨.none, 0, 9, 67, 0, .sys, false, false, .rne, false, 0⟩)]

theorem test_decode_scalar : readsAll wordsScalar = true := by decide

/-- Words of the Global memory group: each field where R14, R18, R19 or R23 puts it, and the opcode that R30 or R22 gives. -/
def wordsGlobalMemory : List (Nat × Instr) := [
    (0x1C0A860F230B701A, .ld ⟨.on false 5, 12, 30, 70, 22, .sys, true, false, .rne, false, 26⟩),
    (0x1C1A03090385E012, .st ⟨.on false 4, 6, 18, 7, 11, .sys, false, false, .rne, false, 18⟩),
    (0x1C2E160000065001, .ldp ⟨.on true 4, 44, 0, 0, 12, .imm, true, false, .rne, false, 1⟩),
    (0x1C3CE00000124002, .stp ⟨.on true 1, 192, 0, 0, 36, .imm, false, false, .rne, false, 2⟩),
    (0x1C4A000102092001, .pref ⟨.on false 4, 0, 2, 4, 18, .sca, false, false, .rne, false, 1⟩),
    (0x1C5A00000A036010, .cinv ⟨.on false 4, 0, 0, 20, 6, .sys, false, false, .rne, false, 16⟩),
    (0x1C6F00050081E010, .cwb ⟨.on true 6, 0, 10, 1, 3, .sys, false, false, .rne, false, 16⟩)]

theorem test_decode_global_memory : readsAll wordsGlobalMemory = true := by decide

/-- Words of the Near memory group: each field where R14, R18, R19 or R23 puts it, and the opcode that R30 or R22 gives. -/
def wordsNearMemory : List (Nat × Instr) := [
    (0x200D8A130681F000, .lds ⟨.on true 3, 20, 38, 13, 3, .sys, true, false, .rne, false, 0⟩),
    (0x201B010283036090, .sts ⟨.on false 6, 2, 5, 6, 6, .sys, false, false, .rne, false, 144⟩),
    (0x202E840000003001, .tld ⟨.on true 5, 8, 0, 0, 0, .sca, true, false, .rne, false, 1⟩),
    (0x203D01030E002001, .tst ⟨.on true 2, 2, 6, 28, 0, .sca, false, false, .rne, false, 1⟩),
    (0x204F010500001000, .tmov ⟨.on true 6, 2, 10, 0, 0, .vec, true, false, .rne, false, 0⟩),
    (0x2059811202112801, .pdecl ⟨.on false 3, 2, 36, 4, 34, .sca, false, true, .rne, false, 1⟩),
    (0x206D000280000000, .penter ⟨.on true 2, 0, 5, 0, 0, .vec, false, false, .rne, false, 0⟩),
    (0x207D000200000000, .pwait ⟨.on true 2, 0, 4, 0, 0, .vec, false, false, .rne, false, 0⟩),
    (0x208F801000000000, .pleave ⟨.on true 7, 0, 32, 0, 0, .vec, false, false, .rne, false, 0⟩),
    (0x209D000200000000, .pdrop ⟨.on true 2, 0, 4, 0, 0, .vec, false, false, .rne, false, 0⟩),
    (0x20AD190C00000000, .pqry ⟨.on true 2, 50, 24, 0, 0, .vec, false, false, .rne, false, 0⟩)]

theorem test_decode_near_memory : readsAll wordsNearMemory = true := by decide

/-- Words of the Atomics and ordering group: each field where R14, R18, R19 or R23 puts it, and the opcode that R30 or R22 gives. -/
def wordsAtomicsAndOrdering : List (Nat × Instr) := [
    (0x240BF70E1100BD0A, .atom ⟨.on false 7, 238, 28, 34, 1, .sca, true, true, .rup, true, 10⟩),
    (0x241D81032D0C1B00, .acas ⟨.on true 3, 2, 6, 90, 24, .vec, true, true, .rtz, true, 0⟩),
    (0x242D000612112303, .red ⟨.on true 2, 0, 12, 36, 34, .sca, false, false, .rtz, true, 3⟩),
    (0x24390605039FFE01, .acont ⟨.on false 2, 12, 10, 7, 63, .sys, true, true, .rdn, false, 1⟩),
    (0x24400000000002C0, .fence ⟨.none, 0, 0, 0, 0, .vec, false, false, .rtz, false, 192⟩),
    (0x2450000000034002, .waitn ⟨.none, 0, 0, 0, 6, .imm, false, false, .rne, false, 2⟩)]

theorem test_decode_atomics_and_ordering : readsAll wordsAtomicsAndOrdering = true := by decide

/-- Words of the Matrix group: each field where R14, R18, R19 or R23 puts it, and the opcode that R30 or R22 gives. -/
def wordsMatrix : List (Nat × Instr) := [
    (0x280F00000200101A, .mma ⟨.on true 6, 0, 0, 4, 0, .vec, true, false, .rne, false, 26⟩),
    (0x281E020003041001, .mmas ⟨.on true 4, 4, 0, 6, 8, .vec, true, false, .rne, false, 1⟩),
    (0x282A020000000000, .aclr ⟨.on false 4, 4, 0, 0, 0, .vec, false, false, .rne, false, 0⟩),
    (0x2839A68200020000, .amov ⟨.on false 3, 77, 4, 0, 4, .vec, false, false, .rne, false, 0⟩),
    (0x284E810200003002, .aload ⟨.on true 5, 2, 4, 0, 0, .sca, true, false, .rne, false, 2⟩),
    (0x285A0E02060C0805, .drain ⟨.on false 4, 28, 4, 12, 24, .vec, false, true, .rne, false, 5⟩),
    (0x286E000010002000, .drepl ⟨.on true 4, 0, 0, 32, 0, .sca, false, false, .rne, false, 0⟩),
    (0x2878800200000000, .atbl ⟨.on false 1, 0, 4, 0, 0, .vec, false, false, .rne, false, 0⟩)]

theorem test_decode_matrix : readsAll wordsMatrix = true := by decide

/-- Words of the Engines group: each field where R14, R18, R19 or R23 puts it, and the opcode that R30 or R22 gives. -/
def wordsEngines : List (Nat × Instr) := [
    (0x2C0D800800000001, .ckick ⟨.on true 3, 0, 16, 0, 0, .vec, false, false, .rne, false, 1⟩),
    (0x2C1D01134708081C, .gthr ⟨.on true 2, 2, 38, 142, 16, .vec, false, true, .rne, false, 28⟩),
    (0x2C2F01120D020822, .sctr ⟨.on true 6, 2, 36, 26, 4, .vec, false, true, .rne, false, 34⟩),
    (0x2C3C000200000003, .coll ⟨.on true 0, 0, 4, 0, 0, .vec, false, false, .rne, false, 3⟩),
    (0x2C4A8004003D4000, .binit ⟨.on false 5, 0, 8, 0, 122, .imm, false, false, .rne, false, 0⟩),
    (0x2C5E800200024000, .bexp ⟨.on true 5, 0, 4, 0, 4, .imm, false, false, .rne, false, 0⟩),
    (0x2C6A000308002000, .bwait ⟨.on false 4, 0, 6, 16, 0, .sca, false, false, .rne, false, 0⟩),
    (0x2C7E010000000006, .cstat ⟨.on true 4, 2, 0, 0, 0, .vec, false, false, .rne, false, 6⟩)]

theorem test_decode_engines : readsAll wordsEngines = true := by decide

/-- Words of the Control group: each field where R14, R18, R19 or R23 puts it, and the opcode that R30 or R22 gives. -/
def wordsControl : List (Nat × Instr) := [
    (0x30000000007A757F, .bra ⟨.none, 0, 0, 0, 8025471⟩),
    (0x301000020200009C, .brc ⟨.none, 0, 4, 4, 156⟩),
    (0x30200B7401CC2A4D, .brs ⟨.none, 22, 232, 3, 4991565⟩),
    (0x3030000000000055, .join ⟨.none, 0, 0, 0, 85⟩),
    (0x3040000310002000, .brx ⟨.none, 0, 6, 32, 0, .sca, false, false, .rne, false, 0⟩),
    (0x3050020000000079, .call ⟨.none, 4, 0, 0, 121⟩),
    (0x306001030C002000, .callx ⟨.none, 2, 6, 24, 0, .sca, false, false, .rne, false, 0⟩),
    (0x3070000400000000, .ret ⟨.none, 0, 8, 0, 0, .vec, false, false, .rne, false, 0⟩),
    (0x3080000000000000, .exit ⟨.none, 0, 0, 0, 0, .vec, false, false, .rne, false, 0⟩),
    (0x3090000000000000, .nop ⟨.none, 0, 0, 0, 0, .vec, false, false, .rne, false, 0⟩),
    (0x30A00398000C0000, .regroup ⟨.none, 7, 48, 0, 24, .vec, false, false, .rne, false, 0⟩),
    (0x30B0000000000000, .yield ⟨.none, 0, 0, 0, 0, .vec, false, false, .rne, false, 0⟩)]

theorem test_decode_control : readsAll wordsControl = true := by decide

/-- Words of the Team sync group: each field where R14, R18, R19 or R23 puts it, and the opcode that R30 or R22 gives. -/
def wordsTeamSync : List (Nat × Instr) := [
    (0x3400000000034007, .barv ⟨.none, 0, 0, 0, 6, .imm, false, false, .rne, false, 7⟩),
    (0x3410000000124003, .bsyn ⟨.none, 0, 0, 0, 36, .imm, false, false, .rne, false, 3⟩),
    (0x3420000002002007, .bphs ⟨.none, 0, 0, 4, 0, .sca, false, false, .rne, false, 7⟩),
    (0x3430000500000007, .qpush ⟨.none, 0, 10, 0, 0, .vec, false, false, .rne, false, 7⟩),
    (0x3440028000000006, .qpop ⟨.none, 5, 0, 0, 0, .vec, false, false, .rne, false, 6⟩),
    (0x3450000008002006, .qalw ⟨.none, 0, 0, 16, 0, .sca, false, false, .rne, false, 6⟩),
    (0x345000000002400A, .qalwInit ⟨.none, 0, 0, 0, 4, .imm, false, false, .rne, false, 10⟩),
    (0x3460120800000008, .qtryPush ⟨.none, 36, 16, 0, 0, .vec, false, false, .rne, false, 8⟩),
    (0x3460000000000004, .qtryPop ⟨.none, 0, 0, 0, 0, .vec, false, false, .rne, false, 4⟩),
    (0x3470000102002000, .gsync ⟨.none, 0, 2, 4, 0, .sca, false, false, .rne, false, 0⟩)]

theorem test_decode_team_sync : readsAll wordsTeamSync = true := by decide

/-- Words of the Tasks group: each field where R14, R18, R19 or R23 puts it, and the opcode that R30 or R22 gives. -/
def wordsTasks : List (Nat × Instr) := [
    (0x3800020800000001, .deq ⟨.none, 4, 16, 0, 0, .vec, false, false, .rne, false, 1⟩),
    (0x3810040002002002, .deqt ⟨.none, 8, 0, 4, 0, .sca, false, false, .rne, false, 2⟩),
    (0x382D861000000003, .rpush ⟨.on true 3, 12, 32, 0, 0, .vec, false, false, .rne, false, 3⟩),
    (0x3838840000000000, .rpass ⟨.on false 1, 8, 0, 0, 0, .vec, false, false, .rne, false, 0⟩),
    (0x384E260000000002, .rrej ⟨.on true 4, 76, 0, 0, 0, .vec, false, false, .rne, false, 2⟩),
    (0x3850000C80000801, .lnch ⟨.none, 0, 25, 0, 0, .vec, false, true, .rne, false, 1⟩),
    (0x3860008200000000, .nodeqQry ⟨.none, 1, 4, 0, 0, .vec, false, false, .rne, false, 0⟩),
    (0x3860000000000001, .nodeqSeal ⟨.none, 0, 0, 0, 0, .vec, false, false, .rne, false, 1⟩),
    (0x3860000000000002, .nodeqOpen ⟨.none, 0, 0, 0, 0, .vec, false, false, .rne, false, 2⟩),
    (0x3870000500000000, .rbind ⟨.none, 0, 10, 0, 0, .vec, false, false, .rne, false, 0⟩)]

theorem test_decode_tasks : readsAll wordsTasks = true := by decide

/-- Words of the System group: each field where R14, R18, R19 or R23 puts it, and the opcode that R30 or R22 gives. -/
def wordsSystem : List (Nat × Instr) := [
    (0x3C00020000000000, .tstamp ⟨.none, 4, 0, 0, 0, .vec, false, false, .rne, false, 0⟩),
    (0x3C10010000000000, .cycles ⟨.none, 2, 0, 0, 0, .vec, false, false, .rne, false, 0⟩),
    (0x3C20000000000000, .phint ⟨.none, 0, 0, 0, 0, .vec, false, false, .rne, false, 0⟩),
    (0x3C30000000000000, .phints ⟨.none, 0, 0, 0, 0, .vec, false, false, .rne, false, 0⟩),
    (0x3C40000C00014000, .ostage ⟨.none, 0, 24, 0, 2, .imm, false, false, .rne, false, 0⟩),
    (0x3C5B80030080003D, .trap ⟨.on false 7, 0, 6, 1, 61⟩),
    (0x3C6D00000000003D, .bkpt ⟨.on true 2, 0, 0, 0, 61⟩),
    (0x3C70110000024000, .evrd ⟨.none, 34, 0, 0, 4, .imm, false, false, .rne, false, 0⟩),
    (0x3C80000380004000, .evcfg ⟨.none, 0, 7, 0, 0, .imm, false, false, .rne, false, 0⟩),
    (0x3C90000002002000, .ophint ⟨.none, 0, 0, 4, 0, .sca, false, false, .rne, false, 0⟩)]

theorem test_decode_system : readsAll wordsSystem = true := by decide

/-- Words of the Pairs group: each field where R14, R18, R19 or R23 puts it, and the opcode that R30 or R22 gives. -/
def wordsPairs : List (Nat × Instr) := [
    (0x4000264C0BB060B0, .iaddP ⟨none, 4, 201, true, 0⟩ ⟨.imul, ⟨some 3, 6, 11, false, 0⟩⟩),
    (0x40D020480BB060B0, .isubP ⟨some 2, 4, 9, false, 0⟩ ⟨.imul, ⟨some 3, 6, 11, false, 0⟩⟩),
    (0x410020480BB060B0, .iminP ⟨none, 4, 9, false, 0⟩ ⟨.imul, ⟨some 3, 6, 11, false, 0⟩⟩),
    (0x41E026640BB060B0, .imaxP ⟨some 4, 4, 204, true, 0⟩ ⟨.imul, ⟨some 3, 6, 11, false, 0⟩⟩),
    (0x420020480BB060B0, .andP ⟨none, 4, 9, false, 0⟩ ⟨.imul, ⟨some 3, 6, 11, false, 0⟩⟩),
    (0x42F020480BB060B0, .orP ⟨some 6, 4, 9, false, 0⟩ ⟨.imul, ⟨some 3, 6, 11, false, 0⟩⟩),
    (0x4300267C0BB060B0, .xorP ⟨none, 4, 207, true, 0⟩ ⟨.imul, ⟨some 3, 6, 11, false, 0⟩⟩),
    (0x43C820480BB060B0, .shlP ⟨some 1, 4, 9, false, 0⟩ ⟨.imul, ⟨some 3, 6, 11, false, 0⟩⟩),
    (0x440020480BB060B0, .shrP ⟨none, 4, 9, false, 0⟩ ⟨.imul, ⟨some 3, 6, 11, false, 0⟩⟩),
    (0x44D826940BB060B0, .sarP ⟨some 3, 4, 210, true, 0⟩ ⟨.imul, ⟨some 3, 6, 11, false, 0⟩⟩),
    (0x450020480BB060B0, .movP ⟨none, 4, 9, false, 0⟩ ⟨.imul, ⟨some 3, 6, 11, false, 0⟩⟩),
    (0x45E820480BB060B0, .imulP ⟨some 5, 4, 9, false, 0⟩ ⟨.imul, ⟨some 3, 6, 11, false, 0⟩⟩),
    (0x480026AC0BB060B0, .faddP ⟨none, 4, 213, true, 0⟩ ⟨.imul, ⟨some 3, 6, 11, false, 0⟩⟩),
    (0x48F820488BB060B0, .fsubP ⟨some 7, 4, 9, false, 1⟩ ⟨.imul, ⟨some 3, 6, 11, false, 0⟩⟩),
    (0x490020490BB060B0, .fmulP ⟨none, 4, 9, false, 2⟩ ⟨.imul, ⟨some 3, 6, 11, false, 0⟩⟩)] ++ [
    (0x49D026C40BB060B0, .fminP ⟨some 2, 4, 216, true, 0⟩ ⟨.imul, ⟨some 3, 6, 11, false, 0⟩⟩),
    (0x4A0020480BB060B0, .fmaxP ⟨none, 4, 9, false, 0⟩ ⟨.imul, ⟨some 3, 6, 11, false, 0⟩⟩),
    (0x4C6020488BB060B0, .hadd2P ⟨some 4, 4, 9, false, 1⟩ ⟨.imul, ⟨some 3, 6, 11, false, 0⟩⟩),
    (0x4C8026DD0BB060B0, .hmul2P ⟨none, 4, 219, true, 2⟩ ⟨.imul, ⟨some 3, 6, 11, false, 0⟩⟩),
    (0x500038E40BB060B0, .saddP ⟨none, 7, 28, true, 0⟩ ⟨.imul, ⟨some 3, 6, 11, false, 0⟩⟩),
    (0x508040480BB060B0, .ssubP ⟨none, 8, 9, false, 0⟩ ⟨.imul, ⟨some 3, 6, 11, false, 0⟩⟩),
    (0x510048540BB060B0, .sandP ⟨none, 9, 10, true, 0⟩ ⟨.imul, ⟨some 3, 6, 11, false, 0⟩⟩),
    (0x518050580BB060B0, .sorP ⟨none, 10, 11, false, 0⟩ ⟨.imul, ⟨some 3, 6, 11, false, 0⟩⟩),
    (0x520058640BB060B0, .sxorP ⟨none, 11, 12, true, 0⟩ ⟨.imul, ⟨some 3, 6, 11, false, 0⟩⟩),
    (0x528020680BB060B0, .smovP ⟨none, 4, 13, false, 0⟩ ⟨.imul, ⟨some 3, 6, 11, false, 0⟩⟩),
    (0x530028740BB060B0, .sshlP ⟨none, 5, 14, true, 0⟩ ⟨.imul, ⟨some 3, 6, 11, false, 0⟩⟩),
    (0x538030780BB060B0, .sshrP ⟨none, 6, 15, false, 0⟩ ⟨.imul, ⟨some 3, 6, 11, false, 0⟩⟩),
    (0x587827240BB060B0, .ldsP ⟨some 7, 4, 228, true, 0⟩ ⟨.imul, ⟨some 3, 6, 11, false, 0⟩⟩),
    (0x588020488BB060B0, .stsP ⟨none, 4, 9, false, 1⟩ ⟨.imul, ⟨some 3, 6, 11, false, 0⟩⟩),
    (0x5C00000020005060, .nopP ⟨none, 0, 0, false, 0⟩ ⟨.sadd, ⟨none, 5, 6, false, 0⟩⟩)]

theorem test_decode_pairs : readsAll wordsPairs = true := by decide

/-- Words of the Headers group: each field where R14, R18, R19 or R23 puts it, and the opcode that R30 or R22 gives. -/
def wordsHeaders : List (Nat × Instr) := [
    (0x8000000000000000, .clauseStart ⟨0, none, none, 0, false⟩),
    (0xBFFF70F800000000, .clauseStart ⟨4095, (some 11), (some 0), 15, true⟩),
    (0x8006607000000000, .clauseStart ⟨1, (some 3), none, 7, false⟩),
    (0xA0001A1800000000, .clauseStart ⟨2048, none, (some 10), 1, true⟩)]

theorem test_decode_headers : readsAll wordsHeaders = true := by decide

/-! ### Well-formedness -/

/-- Operands of an F-form word: v4, v8, v12 and v16. -/
def o0 : FOps := { g := .none, d := 4, a := 8, b := 12, c := 0, bk := .vec, fs := false, ck := false, rm := .rne, sat := false, ox := 0 }
/-- A P-form half on v4 and v9. -/
def p0 : PFields := { g := none, d := 4, s := 9, imm := false, sub := 0 }
/-- Its companion on v6 and v11. -/
def p1 : PHalf := ⟨.imul, { g := none, d := 6, s := 11, imm := false, sub := 0 }⟩

/-- Each check of an F-form word refuses an ill-formed term with its reason (R14 to R17, R25, R29). -/
theorem test_wf_refuses_full_words :
    (Instr.iadd o0).WF ∧ (Instr.iadd { o0 with ox := 1 }).encErr = some ⟨.reserved, false⟩ ∧ (Instr.iadd { o0 with sat := true }).encErr = some ⟨.reserved, false⟩ ∧
    (Instr.iadd { o0 with rm := .rup }).encErr = some ⟨.reserved, false⟩ ∧ (Instr.iadd { o0 with c := 5 }).encErr = some ⟨.reserved, false⟩ ∧ (Instr.iadd { o0 with ck := true }).encErr = some ⟨.reserved, false⟩ ∧
    (Instr.iadd { o0 with bk := .imm }).encErr = some ⟨.reserved, false⟩ ∧ (Instr.iadd { o0 with bk := .sys, b := 0x30 }).encErr = some ⟨.system, false⟩ ∧ (Instr.iadd { o0 with bk := .sca, b := 64 }).encErr = some ⟨.range, false⟩ ∧
    (Instr.imad { o0 with bk := .imm, b := 0 }).encErr = some ⟨.modifier, false⟩ ∧ (Instr.iadd { o0 with fs := true }).encErr = some ⟨.flag, false⟩ ∧ (Instr.imadw { o0 with d := 5 }).encErr = some ⟨.range, false⟩ ∧
    (Instr.sadd { o0 with bk := .sca, g := .on false 1 }).encErr = some ⟨.reserved, false⟩ ∧ (Instr.plop { o0 with d := 1, a := 2, b := 8 }).encErr = some ⟨.range, false⟩ ∧
    (Instr.icmp { o0 with d := 1, ox := 6 }).encErr = some ⟨.modifier, false⟩ ∧ (Instr.mma { o0 with d := 1, a := 32, b := 16 }).encErr = some ⟨.range, false⟩ ∧ (Instr.aclr { o0 with d := 8, a := 0, b := 0 }).encErr = some ⟨.range, false⟩ := by decide

/-- The checks of the immediate frames (R18, R211, R310). -/
theorem test_wf_refuses_immediate_words :
    (Instr.bra { g := .none, d := 0, a := 0, mods := 0, imm := 3 }).WF ∧ (Instr.bra { g := .on false 1, d := 0, a := 0, mods := 0, imm := 3 }).encErr = some ⟨.reserved, false⟩ ∧
    (Instr.brc { g := .none, d := 0, a := 4, mods := 6, imm := 3 }).encErr = some ⟨.modifier, false⟩ ∧ (Instr.brc { g := .none, d := 0, a := 64, mods := 0, imm := 3 }).encErr = some ⟨.range, false⟩ ∧
    (Instr.call { g := .none, d := 31, a := 0, mods := 0, imm := 3 }).encErr = some ⟨.range, false⟩ ∧ (Instr.trap { g := .none, d := 0, a := 0, mods := 0, imm := 0x10000 }).encErr = some ⟨.reserved, false⟩ ∧
    (Instr.movi { g := .none, d := 4, mods := 1, imm := 0 }).encErr = some ⟨.reserved, false⟩ ∧ (Instr.smovi { g := .on false 0, d := 4, mods := 0, imm := 0 }).encErr = some ⟨.reserved, false⟩ ∧ (Instr.smovi { g := .none, d := 64, mods := 0, imm := 0 }).encErr = some ⟨.range, false⟩ := by decide

/-- The checks of the P-form (R21, R22): one bank for two destinations, three reads of a bank, two memory halves, a reserved
sub-modifier, an operand of a NOP half, and a guard on a scalar half. -/
theorem test_wf_refuses_pairs :
    (Instr.iaddP p0 p1).WF ∧ (Instr.iaddP { p0 with d := 10 } p1).encErr = some ⟨.pair, false⟩ ∧ (Instr.faddP { p0 with d := 8, s := 12 } ⟨.fmul, { p0 with d := 12, s := 14 }⟩).encErr = some ⟨.pair, false⟩ ∧
    (Instr.iaddP { p0 with d := 3, s := 7 } p1).encErr = some ⟨.pair, false⟩ ∧ (Instr.ldsP p0 ⟨.sts, p1.f⟩).encErr = some ⟨.pair, false⟩ ∧ (Instr.iaddP { p0 with sub := 1 } p1).encErr = some ⟨.modifier, false⟩ ∧
    (Instr.iaddP p0 { p1 with f := { p1.f with sub := 7 } }).encErr = some ⟨.modifier, true⟩ ∧ (Instr.nopP p0 p1).encErr = some ⟨.reserved, false⟩ ∧ (Instr.saddP { p0 with g := some 1 } p1).encErr = some ⟨.pair, false⟩ ∧
    (Instr.saddP { p0 with d := 64 } p1).encErr = some ⟨.range, false⟩ := by decide

/-- What the decoder says of bytes that it refuses. -/
def refuses (bs : List Byte) : Option DecodeError := match decode bs with | .error e => some e | .ok _ => none

/-- The checks of a header (R23), and what the decoder refuses: a form, an opcode, a reserved bit, and too few bytes. -/
theorem test_wf_refuses_headers :
    (Header.mk 0 (some 2) (some 3) 2 false).check = none ∧ (Header.mk 0 (some 12) none 2 false).check = some .clause ∧ (Header.mk 0 (some 2) (some 2) 2 false).check = some .clause ∧
    refuses (bytesOfWord 0xC000000000000000) = some (.enc ⟨.form, false⟩) ∧ refuses (bytesOfWord 0x0140000000000000) = some (.enc ⟨.opcode, false⟩) ∧ refuses (bytesOfWord 0x8022402000000001) = some (.enc ⟨.reserved, false⟩) ∧
    refuses (bytesOfWord 0x0004820283000000) = some (.enc ⟨.reserved, false⟩) ∧ refuses [0, 0, 0] = some .short := by decide

/-! ### States for the witnesses -/

/-- Group 0, every register allocated and clear, all lanes active, at the last word of a clause whose flags are 0 and 1. -/
def w0 : State := State.reset.withFetchWord 64 0
/-- Its issue opportunity, and the one that returns it to a word. -/
def gr0 : Grant := ⟨0, false, false⟩
def grBack : Grant := ⟨0, false, true⟩
/-- Changes of one register. -/
def setS (s : State) (r : Nat) (x : Word) : State := s.modGroup 0 (fun g => g.ws r x)
def setV (s : State) (r L : Nat) (x : Word) : State := s.modGroup 0 (fun g => g.wv r L x)
def setQ (s : State) (r : Nat) (x : Word) : State := s.modGroup 0 (fun g => g.wq r x)
/-- No lane active. -/
def noLane (s : State) : State := setS s 0 0
/-- A team with one group, one scratchpad granule and room for eight palette lines. -/
def sp0 : State := w0.modTeam 0 (fun m => { m with scratchSize := 8192, scratchMap := [0], gids := [some 0], palCap := 8 })
/-- Group 0 held at the word `i` for `k`, and returning to it. -/
def held (s : State) (i : Instr) (k : WaitKind) : State :=
  { s.modGroup 0 (fun g => { g with wait := some { kind := k, slotB := false, instr := i, since := 0, pc := 0, cl := some { sa := some 0, sb := some 1, left := 1 } } }) with grant := some grBack }
/-- The wait it holds. -/
def wait0 (i : Instr) (k : WaitKind) : Wait := { kind := k, slotB := false, instr := i, since := 0, pc := 0, cl := some { sa := some 0, sb := some 1, left := 1 } }

/-- The words of the registers that a word reads hold no error. -/
def soundB (i : Instr) (s : State) (gr : Grant) : Bool :=
  decide ((s.core (coreOf gr.gid)).poison = [] ∧ (s.core (coreOf gr.gid)).doubles = []) ||
  ((s.issuer gr).sources i).all (fun r => (fileWordsOf (s.group gr.gid) gr.gid r).all (fun w => !(s.core (coreOf gr.gid)).poison.contains w && !(s.core (coreOf gr.gid)).doubles.contains (w, true)))

/-- `Ready` as a computation, for states without marks. -/
def readyB (i : Instr) (s : State) (gr : Grant) : Bool :=
  decide (s.grant = some gr) && !gr.again && (!i.isTransfer || decide ((s.issuer gr).cl.left = 1)) &&
  (match i.longLat with | some sb => ((s.issuer gr).flag sb).isSome | none => true) &&
  (i.regs.1 ++ i.regs.2).all (fun r => (s.group gr.gid).allocated r) && decide ((s.group gr.gid).marks = []) && (sysRight s (s.issuer gr) i).isNone && soundB i s gr

/-- It gives `Ready`. -/
theorem ready_of {i : Instr} {s : State} {gr : Grant} (h : readyB i s gr = true) : Ready i s gr := by
  simp only [readyB, Bool.and_eq_true, Bool.or_eq_true, Bool.not_eq_true', decide_eq_true_eq, List.all_eq_true] at h
  obtain ⟨⟨⟨⟨⟨⟨⟨h1, h2⟩, h3⟩, h4⟩, h5⟩, h6⟩, h7⟩, h8⟩ := h
  refine ⟨h1, h2, fun ht => ?_, fun sb hs => ?_, h5, fun r _ m hm => ?_, Option.isNone_iff_eq_none.1 h7, fun r hr w hw => ?_⟩
  · rcases h3 with h3 | h3
    · rw [ht] at h3; cases h3
    · exact h3
  · rw [hs] at h4; exact h4
  · rw [Group.pending, h6] at hm; cases hm
  · simp only [soundB, Bool.or_eq_true, decide_eq_true_eq, List.all_eq_true, Bool.and_eq_true, Bool.not_eq_true', List.contains_eq_mem, decide_eq_false_iff_not] at h8
    rcases h8 with ⟨hp, hd⟩ | h8
    · rw [hp, hd]; exact ⟨List.not_mem_nil, List.not_mem_nil⟩
    · exact h8 r hr w hw

/-- Every instruction with the operands of its word above is ready in `w0`: with all lanes active, and with none. -/
def allReady (l : List Instr) : Bool := l.all (fun i => readyB i w0 gr0 && readyB i (noLane w0) gr0)

/-- Every instruction of the words above is ready in `w0` with all lanes active, and with none. -/
theorem witness_ready_integer : allReady (wordsInteger.map (·.2)) = true := by decide
theorem witness_ready_logicandbit : allReady (wordsLogicAndBit.map (·.2)) = true := by decide
theorem witness_ready_fp32 : allReady (wordsFp32.map (·.2)) = true := by decide
theorem witness_ready_packed16bit : allReady (wordsPacked16Bit.map (·.2)) = true := by decide
theorem witness_ready_conversion : allReady (wordsConversion.map (·.2)) = true := by decide
theorem witness_ready_compareandlane : allReady (wordsCompareAndLane.map (·.2)) = true := by decide
theorem witness_ready_scalar : allReady ((wordsScalar.take 18).map (·.2)) = true ∧ wordsScalar[18]?.map (·.1) = some 0x19200004A1806000 := by decide
theorem witness_ready_globalmemory : allReady (wordsGlobalMemory.map (·.2)) = true := by decide
theorem witness_ready_nearmemory : allReady (wordsNearMemory.map (·.2)) = true := by decide
theorem witness_ready_atomicsandordering : allReady (wordsAtomicsAndOrdering.map (·.2)) = true := by decide
theorem witness_ready_matrix : allReady (wordsMatrix.map (·.2)) = true := by decide
theorem witness_ready_engines : allReady (wordsEngines.map (·.2)) = true := by decide
theorem witness_ready_control : allReady (wordsControl.map (·.2)) = true := by decide
theorem witness_ready_teamsync : allReady (wordsTeamSync.map (·.2)) = true := by decide
theorem witness_ready_tasks : allReady (wordsTasks.map (·.2)) = true := by decide
theorem witness_ready_system : allReady (wordsSystem.map (·.2)) = true := by decide
theorem witness_ready_pairs : allReady (wordsPairs.map (·.2)) = true := by decide

/-! ### Witnesses: registers and memory -/

/-- FloatResults, ConversionResults, PairResults and LateResults: without an enabled exception none is found, and the context
may let `.nx` through. -/
theorem witness_quiet : (∀ (f : Nat → FFlags) (L : Nat), (f L).bits &&& (w0.group gr0.gid).fpx = 0) ∧ ((w0.modContext 0 (fun c => { c with nxok := true })).context 0).nxok = true := by
  refine ⟨fun f L => ?_, by decide⟩
  show (f L).bits &&& 0 = 0
  simp

/-- All exceptions enabled, v8 = +infinity and v12 = -infinity in lane 3, or v8 = 0 and v12 = infinity. -/
def trapping : State := setV (setV (w0.modGroup 0 (fun g => { g with fpx := 31 })) 8 3 0x7F800000) 12 3 0xFF800000
def trapping0 : State := setV (w0.modGroup 0 (fun g => { g with fpx := 31 })) 12 3 0xFF800000

theorem witness_ArithmeticTrap :
    readyB (.fadd o0) trapping gr0 = true ∧ (fp32.add .rne 0x7F800000 (trapping.operandF gr0 (.fadd o0) o0 fp32 0 3)).2.bits &&& (trapping.group 0).fpx ≠ 0 ∧
    readyB (.fmul o0) trapping0 gr0 = true ∧ (fp32.mul .rne 0 (trapping0.operandF gr0 (.fmul o0) o0 fp32 0 3)).2.bits &&& (trapping0.group 0).fpx ≠ 0 ∧
    readyB (.ffma o0) trapping0 gr0 = true ∧ (fp32.fma .rne 0 (trapping0.operandB gr0 (.ffma o0) o0 3).toNat 0).2.bits &&& (trapping0.group 0).fpx ≠ 0 ∧
    readyB (.fscale o0) (setV (setV trapping 8 3 0x7F000000) 12 3 100) gr0 = true ∧ (fscale .rne 0x7F000000 ((setV trapping 12 3 100).operandB gr0 (.fscale o0) o0 3).toInt).2.bits &&& 31 ≠ 0 := by decide

/-- The special functions of zero, -infinity and a negative number; the packed forms and the conversions of what each finds invalid or
inexact; a conversion `.nx` in a context that does not let it through. -/
def special0 (i : Instr) (f : Special) (x : Word) : Bool :=
  let s := setV (w0.modGroup 0 (fun g => { g with fpx := 31 })) 8 3 x
  readyB i s gr0 && decide ((f.value (fp32.decode ((s.group 0).rv 8 3).toNat)).2.bits &&& (s.group 0).fpx ≠ 0)
def oNx : FOps := { o0 with ox := 0x40 }
theorem witness_ArithmeticTrap_special :
    special0 (.frcp o0) .rcp 0 = true ∧ special0 (.frsq o0) .rsq 0x80000000 = true ∧ special0 (.fsqrt o0) .sqrt 0xBF800000 = true ∧ special0 (.flog2 o0) .log2 0 = true ∧ special0 (.fsinpi o0) .sinpi 0x7F800000 = true ∧ special0 (.fcospi o0) .cospi 0xFF800000 = true ∧
    (∀ i ∈ [Instr.cvtff oNx, .cvtfi oNx, .cvtif oNx], readyB i w0 gr0 = true) ∧ oNx.ox.getLsbD 6 = true ∧ (w0.context (w0.group gr0.gid).ctx).nxok = false := by decide

/-- v8 and v12 of lane 3, with all exceptions enabled. -/
def trap16 (a b : Word) : State := setV (setV (w0.modGroup 0 (fun g => { g with fpx := 31 })) 8 3 a) 12 3 b
def findsB (i : Instr) (a b : Word) (f : State → FFlags) : Bool := readyB i (trap16 a b) gr0 && decide ((f (trap16 a b)).bits &&& 31 ≠ 0)
theorem witness_ArithmeticTrap_packed :
    findsB (.hadd2 o0) 0x7C000000 0xFC000000 (fun s => (fp16.add .rne 0x7C00 (s.operandF gr0 (.hadd2 o0) o0 fp16 1 3)).2) = true ∧
    findsB (.hmul2 o0) 0x7C000000 0 (fun s => (fp16.mul .rne 0x7C00 (s.operandF gr0 (.hmul2 o0) o0 fp16 1 3)).2) = true ∧
    findsB (.hfma2 o0) 0x7C00 0 (fun s => (fp16.fma .rne 0x7C00 ((s.operandB gr0 (.hfma2 o0) o0 3).toNat % 2 ^ 16) 0).2) = true ∧
    findsB (.fdot2 o0) 0x7C00 0 (fun s => (fdot2 fp16 .rne 0x7C00 ((s.operandB gr0 (.fdot2 o0) o0 3).toNat % 2 ^ 16) 0 0 0).2) = true ∧
    findsB (.cvtfi o0) 0x7FC00000 0 (fun _ => (toIntSat .rne (intRange 0).1 (intRange 0).2 ((fltFmt 0).decode (0x7FC00000 / 2 ^ ((fltFmt 0).width * 0) % 2 ^ (fltFmt 0).width))).2) = true ∧
    findsB (.cvtff { o0 with ox := 0x08 }) 0x7F000000 0 (fun _ => ((fltFmt 1).round .rne false ((fltFmt 0).decode 0x7F000000)).2) = true ∧
    findsB (.cvtif { o0 with ox := 0 }) 0x7FFFFFFF 0 (fun _ => ((fltFmt 0).round .rne false (.ofInt (intVal 0 0x7FFFFFFF))).2) = true ∧
    findsB (.pack8 o0) 0x7F000000 0 (fun _ => (toByte 0 .rne false 0x7F000000).2) = true ∧
    findsB (.packq o0) 0x3C013C01 0x7F (fun s => (packq fp16 .rne false 0x7F ((List.range 32).map (fun k => ((s.group 0).rv (8 + k / 2) 3).toNat / 2 ^ (16 * (k % 2)) % 2 ^ 16))).2) = true ∧
    findsB (.unpkq o0) 0x77777777 0xFE (fun _ => (unpkq fp16 .rne false 0xFE 0x77777777).2) = true ∧
    findsB (.qscl o0) 0x7F800000 0 (fun _ => (qscl (qsclTarget 0) 0x7F800000).2) = true := by decide

/-- Addresses in the pair s8 and the index v12: all zero, all 3, and beyond the address space. -/
def odd8 : State := setS w0 8 3
def far8 : State := setS w0 9 0x1000000
def oLd : FOps := { o0 with ox := 0x90 }
def goodB (size : Nat) (l : List (Nat × Nat)) : Bool := l.all (fun x => decide (x.2 < 2 ^ 56) && decide (x.2 % size = 0))
theorem good_of {size : Nat} {l : List (Nat × Nat)} (h : goodB size l = true) : goodAddrs size l := by
  intro x hx
  have := List.all_eq_true.1 h x hx
  simpa using this
/-- The first lane's address. -/
def addr0 (s : State) (i : Instr) (o : FOps) : Option (Nat × Nat) := ((s.seen gr0).addrs (s.begin (s.seen gr0) i) o (accBytes o) ((s.seen gr0).active o.g)).head?

theorem witness_LoadsStart :
    (w0.seen gr0).active .none ≠ 0 ∧ ((noLane w0).seen gr0).active .none = 0 ∧
    goodB 4 ((w0.seen gr0).addrs (w0.begin (w0.seen gr0) (.ld oLd)) oLd 4 0xFFFFFFFF) = true ∧ goodB 4 [(0, (w0.seen gr0).saddr (w0.begin (w0.seen gr0) (.sld oLd)) oLd 4)] = true ∧
    addr0 odd8 (.ld oLd) oLd = some (0, 3) ∧ addr0 odd8 (.st oLd) oLd = some (0, 3) ∧ addr0 far8 (.ld oLd) oLd = some (0, 2 ^ 56) ∧ addr0 far8 (.st oLd) oLd = some (0, 2 ^ 56) ∧
    (odd8.seen gr0).saddr (odd8.begin (odd8.seen gr0) (.sst oLd)) oLd 4 = 3 ∧ (far8.seen gr0).saddr (far8.begin (far8.seen gr0) (.sld oLd)) oLd 4 = 2 ^ 56 := by decide

/-- A group with per-thread memory: 4 words for each lane. -/
def ptm0 : State := w0.modGroup 0 (fun g => { g with ptmArea := some 0, ptmBase := 0x1000, ptmWords := 4 })
def okB {ε α : Type} : Except ε α → Bool
  | .ok _ => true
  | .error _ => false

theorem witness_PerThread_outside : readyB (.ldp o0) (setV ptm0 12 3 9) gr0 = true ∧ readyB (.stp o0) (setV ptm0 12 3 0xFFFFFFFF) gr0 = true ∧ ptmWords o0 = 1 ∧
    (∀ x ∈ [(9, .ldp o0), (0xFFFFFFFF, .stp o0)], ∀ j, j < 4 → let w := ((setV ptm0 12 3 x.1).operandB gr0 x.2 o0 j).toInt; (j = 3 → ¬ (0 ≤ w ∧ w < (ptm0.group 0).ptmWords)) ∧ (j < 3 → 0 ≤ w ∧ w < (ptm0.group 0).ptmWords)) := by decide

theorem witness_PerThread : readyB (.ldp o0) ptm0 gr0 = true ∧ okB ((ptm0.seen gr0).ptmAddrs (ptm0.begin (ptm0.seen gr0) (.ldp o0)) o0 0) = true ∧
    readyB (.stp o0) ptm0 gr0 = true ∧ okB ((ptm0.seen gr0).ptmAddrs (ptm0.begin (ptm0.seen gr0) (.stp o0)) o0 1) = true := by decide

theorem witness_StoresBuffer :
    ordKind oLd < 2 ∧ 2 ≤ ordKind { oLd with ox := 0x96 } ∧ goodB 4 ((w0.seen gr0).addrs (w0.begin (w0.seen gr0) (.st oLd)) oLd 4 0xFFFFFFFF) = true ∧
    (∀ x ∈ (sp0.seen gr0).spAddrs (sp0.begin (sp0.seen gr0) (.sts oLd)) oLd 4 0xFFFFFFFF, x.2 % 4 = 0 ∧ x.2 + 4 ≤ (sp0.team 0).scratchSize) ∧
    (∀ e ∈ [({ space := .global, sector := 96, tenant := 0, bytes := [(31, 7)], ops := [0], strong := false, hint := 0, scope := 0 } : BufEntry)], e.sector % 32 = 0 ∧ ∀ b ∈ e.bytes, b.1 < 32) := by decide

theorem witness_Maintenance : (w0.seen gr0).active .none ≠ 0 ∧ ({ o0 with ox := 2 } : FOps).ox.getLsbD 1 = true ∧ o0.ox.getLsbD 1 = false ∧
    goodB 1 ((w0.seen gr0).byteAddrs (w0.begin (w0.seen gr0) (.cinv o0)) o0 0xFFFFFFFF) = true ∧ w0.reqs = [] ∧ (w0.cluster 0).combine = [] ∧ (w0.core 0).line 0 0 = none ∧
    (∀ x ∈ ((w0.setL1 0 0 0 { pool := [0] }).seen gr0).byteAddrs ((w0.setL1 0 0 0 { pool := [0] }).begin ((w0.setL1 0 0 0 { pool := [0] }).seen gr0) (.pref o0)) o0 0xFFFFFFFF, x.2 = 0) ∧ (({ pool := [0] } : L1Line).isPool = true) := by decide

def oTile : FOps := { o0 with d := 2, a := 8, b := 0 }
theorem witness_ScratchAndTiles :
    readyB (.lds oLd) sp0 gr0 = true ∧ (∀ x ∈ (sp0.seen gr0).spAddrs (sp0.begin (sp0.seen gr0) (.lds oLd)) oLd 4 0xFFFFFFFF, x.2 % 4 = 0 ∧ x.2 + 4 ≤ (sp0.team 0).scratchSize) ∧ (sp0.begin (sp0.seen gr0) (.lds oLd)).spPoison 0 [0] = none ∧
    readyB (.sts oLd) (setS sp0 8 2) gr0 = true ∧ ((setS sp0 8 2).seen gr0).spAddrs ((setS sp0 8 2).begin ((setS sp0 8 2).seen gr0) (.sts oLd)) oLd 4 1 = [(0, 2)] ∧ 2 % 4 ≠ 0 ∧
    ((setS sp0 8 8192).seen gr0).spAddrs ((setS sp0 8 8192).begin ((setS sp0 8 8192).seen gr0) (.lds oLd)) oLd 4 1 = [(0, 8192)] ∧ ¬ 8192 + 4 ≤ (sp0.team 0).scratchSize ∧
    readyB (.tld oTile) sp0 gr0 = true ∧ readyB (.tst oTile) sp0 gr0 = true ∧ ((sp0.group 0).rs 8).toNat + 31 * 64 + 64 ≤ (sp0.team 0).scratchSize ∧ (sp0.begin (sp0.seen gr0) (.tld oTile)).spPoison 0 (spBytes 64 ((List.range 32).map (fun j => j * 64))) = none := by decide

/-- A base of 2, a stride of 72, and a base whose second column passes the size. -/
theorem witness_ScratchAndTiles_traps :
    (∀ i ∈ [Instr.tld oTile, .tst oTile], readyB i (setS sp0 8 2) gr0 = true ∧ readyB i (setS sp0 8 8128) gr0 = true) ∧ (2 : Nat) % 16 ≠ 0 ∧ 8128 % 16 = 0 ∧ (sp0.team 0).scratchSize < 8128 + 1 * 64 + 64 ∧ 8128 + 0 * 64 + 64 ≤ (sp0.team 0).scratchSize ∧
    (∀ i ∈ [Instr.tld { oTile with ox := 1 }, .tst { oTile with ox := 1 }], readyB i (setS sp0 0 72) gr0 = true) ∧ 72 % 16 ≠ 0 ∧ ((setS sp0 0 72).seen gr0).active .none ≠ 0 := by decide

/-- A stride of 32 bytes: below 64, and a multiple of 16. -/
theorem witness_ScratchAndTiles_narrow :
    readyB (.tld { oTile with ox := 1 }) (setS sp0 0 32) gr0 = true ∧ readyB (.tst { oTile with ox := 1 }) (setS sp0 0 32) gr0 = true ∧ ¬ 64 ≤ (((setS sp0 0 32).group 0).rs 0).toNat ∧ (((setS sp0 0 32).group 0).rs 8).toNat % 16 = 0 ∧ (((setS sp0 0 32).group 0).rs 0).toNat % 16 = 0 := by decide

/-- Palettes: one declared, with one line, in slot 0; s8 holds its handle, or the handle of a free slot. -/
def pal0 (st : PalState) (ent : Nat) : State := setS (sp0.modTeam 0 (fun m => { m with pals := [(0, { lines := [32], state := st, entrants := ent })] })) 8 0x80
/-- The same, entered by group 0. -/
def palIn (st : PalState) : State := (pal0 st 1).modGroup 0 (fun g => { g with pal := some 0 })
/-- A declaration of one line: base s8, one row of 128 bytes. -/
def decl0 : State := setS (setS sp0 12 1) 16 128

theorem witness_Palettes_declared :
    ((pal0 .absent 0).team 0).handle ((pal0 .absent 0).group 0 |>.rs 8) = some 0 ∧ (sp0.team 0).handle 0 = none ∧ readyB (.pdecl { o0 with c := 16 }) decl0 gr0 = true ∧
    (paletteShape false ((decl0.group 0).rpair 8).toNat ((decl0.group 0).rs 12) ((decl0.group 0).rs 16)).isSome = true ∧ paletteShape false 0 0 0 = none ∧
    (List.range 8).find? (fun k => (tfind k (decl0.team 0).pals).isNone) = some 0 ∧ (decl0.team 0).palCap = 8 ∧
    (List.range 8).find? (fun k => (tfind k ((sp0.modTeam 0 (fun m => { m with pals := (List.range 8).map (fun k => (k, { lines := [k] })) })).team 0).pals).isNone) = none := by decide

theorem witness_Palettes_used :
    readyB (.penter o0) (pal0 .absent 0) gr0 = true ∧ ((pal0 .absent 0).group 0).pal = none ∧ readyB (.penter o0) (palIn .entered) gr0 = true ∧ ((palIn .entered).group 0).pal ≠ none ∧
    readyB (.pwait o0) (palIn .entered) gr0 = true ∧ ((palIn .entered).group 0).pal = some 0 ∧ (((palIn .entered).team 0).palette 0).state = .entered ∧ (((palIn .filling).team 0).palette 0).state ≠ .entered ∧
    readyB (.pleave o0) (palIn .filling) gr0 = true ∧ readyB (.pdrop o0) (pal0 .resident 0) gr0 = true ∧ (((pal0 .resident 0).team 0).palette 0).entrants = 0 ∧ ((pal0 .resident 0).team 0).palQueue = [] ∧
    (((pal0 .filling 0).team 0).palette 0).state = .filling ∧ ((pal0 .absent 0).group 0).pal ≠ some 0 := by decide

/-- Partition 0 holds die 0, and the context has one node. -/
def node0 : State := (w0.modHub (fun h => { h with pt := [(0, { v := true, dies := 1, s2root := 0 })] })).modContext 0 (fun c => { c with ncount := 1 })
def oRed : FOps := { o0 with d := 0, ox := 0 }
theorem witness_AtomicsStart :
    w0.holds = [] ∧ w0.reqs = [] ∧ goodB 4 ((w0.seen gr0).atomAddrs (w0.begin (w0.seen gr0) (.atom o0)) o0 0xFFFFFFFF) = true ∧ goodB 4 ((w0.seen gr0).atomAddrs (w0.begin (w0.seen gr0) (.acas o0)) o0 0xFFFFFFFF) = true ∧
    atomKind oRed = 0 ∧ fld oRed.ox 0 4 ∈ [0, 2, 3, 4, 5, 6] ∧ (∀ x ∈ (w0.seen gr0).atomAddrs (w0.begin (w0.seen gr0) (.red oRed)) oRed 0xFFFFFFFF, x.2 = 0) ∧ (w0.cluster 0).combine = [] ∧
    w0.handleBad 0 0 = true ∧ node0.handleBad 0 0x80000000 = false ∧
    ((odd8.seen gr0).atomAddrs (odd8.begin (odd8.seen gr0) (.atom o0)) o0 1) = [(0, 3)] ∧ ((far8.seen gr0).atomAddrs (far8.begin (far8.seen gr0) (.red o0)) o0 1) = [(0, 2 ^ 56)] := by decide

/-- A store of group 0 that has not completed: one operation on path 1. -/
def busy0 : State := { w0.modGroup 0 (fun g => { g with paths := [⟨1, 0, false⟩] }) with ops := [(0, { gid := 0, instr := .st oLd, path := some 1, parts := 1 })], nextId := 1 }
def oFence (k sc : Nat) : FOps := { o0 with d := 0, a := 0, b := 0, ox := BitVec.ofNat 8 (64 * ((5 * k + sc) % 4)), sat := (5 * k + sc) / 4 % 2 = 1, rm := rmodeOf (BitVec.ofNat 2 ((5 * k + sc) / 8)) }
def oWait (n : Nat) : FOps := { o0 with d := 0, a := 0, b := 0, c := BitVec.ofNat 8 n, bk := .imm, ox := 1 }

theorem witness_FenceAndWait :
    readyB (.fence (oFence 1 2)) w0 gr0 = true ∧ atomKind (oFence 1 2) = 1 ∧ atomScope (oFence 1 2) = 2 ∧ atomKind (oFence 2 4) = 2 ∧ (w0.group 0).pathOps 0 = [] ∧ (w0.group 0).pathOps 1 = [] ∧
    readyB (.waitn (oWait 0)) busy0 gr0 = true ∧ (busy0.group 0).counter 1 = 1 ∧ 0 < ((((busy0.begin (busy0.seen gr0) (.waitn (oWait 0))).commitRegion 0 false).flushCombine 0 (fun e => e.by 0)).group 0).counter 1 ∧
    ((((w0.begin (w0.seen gr0) (.waitn (oWait 0))).commitRegion 0 false).flushCombine 0 (fun e => e.by 0)).group 0).counter 1 = 0 ∧
    (held w0 (.waitn (oWait 0)) (.path 1 0)).grant = some grBack ∧ ((held w0 (.waitn (oWait 0)) (.path 1 0)).group 0).wait = some (wait0 (.waitn (oWait 0)) (.path 1 0)) := by decide

/-- FENCE and ATOM without a release in progress anywhere. -/
theorem witness_calm : w0.calm := ⟨rfl, fun r hr => by cases hr⟩

/-! ### Witnesses: the matrix unit, what releases first, engines and synchronisation -/

def oMma : FOps := { o0 with d := 1, a := 32, b := 3, c := 2 }
theorem witness_MatrixIssue :
    (w0.group 0).mask false = 0xFFFFFFFF ∧ oMma.g = .none ∧ readyB (.mma oMma) w0 gr0 = true ∧ ((noLane w0).group 0).mask false ≠ 0xFFFFFFFF ∧ readyB (.mma oMma) (noLane w0) gr0 = true ∧
    okB (aloadRows 8192 true 0 128) = true ∧ okB (aloadRows 0 false 0x1000 128) = true ∧ (sp0.begin (sp0.seen gr0) (.aload { oMma with ox := 1 })).spPoison 0 (spBytes 128 ((List.range 32).map (128 * ·))) = none ∧
    (w0.modHub (fun h => { h with dl := [(0, { v := true, mask := 0x7FFF })] })).ctxRight 0 7 = true ∧ w0.ctxRight 0 7 = false ∧
    ((w0.group 0).rpair 8).toNat + 528 ≤ 2 ^ 56 ∧ ((w0.group 0).rpair 8).toNat % 16 = 0 ∧
    drainCheck (sp0.seen gr0) (sp0.begin (sp0.seen gr0) (.drain { oMma with c := 16, ck := true, b := 0, d := 4, a := 1 })) { oMma with c := 16, ck := true, b := 0, d := 4, a := 1 } (128 * 2 ^ 16) 0 = none := by decide

theorem witness_LateResults :
    gredTree (gredOp 0 .rne) 5 ((List.range 32).map (fun L => if ((w0.seen gr0).active .none).getLsbD L = true then some ((w0.seen gr0).a o0 L) else none)) = some 0 ∧
    (w0.context 0).level ≠ 0 ∧ ((w0.modContext 0 (fun c => { c with level := 0 })).context 0).level = 0 ∧ readyB (.swrite { o0 with d := 0, b := 0x43, bk := .sys }) (w0.modContext 0 (fun c => { c with level := 0 })) gr0 = true ∧ readyB (.sread { o0 with b := 0, bk := .sys }) w0 gr0 = true := by decide

def oOne : FOps := { o0 with bk := .imm, b := 0, c := 1 }
theorem witness_ReleaseFirst :
    (∀ i ∈ [Instr.ckick o0, .coll o0, .gthr { o0 with c := 16, ck := true }, .sctr { o0 with c := 16, ck := true }, .barv oOne, .bsyn oOne, .bphs oOne, .qpush o0, .qalw oOne, .qalwInit oOne, .qtryPush o0, .qtryPop o0, .gsync oOne, .rpush o0, .rpass o0, .rrej o0, .lnch o0, .nodeqSeal o0, .nodeqOpen o0], readyB i sp0 gr0 = true) ∧
    countCheck (sp0.begin (sp0.seen gr0) (.barv oOne)) (sp0.seen gr0) oOne = none ∧ (countCheck (sp0.begin (sp0.seen gr0) (.bsyn { oOne with c := 2 })) (sp0.seen gr0) { oOne with c := 2 }).isSome = true ∧
    requestCheck (sp0.begin (sp0.seen gr0) (.ckick o0)) o0 (sp0.seen gr0) = none ∧ (requestCheck ((setS sp0 8 32).begin ((setS sp0 8 32).seen gr0) (.coll o0)) o0 ((setS sp0 8 32).seen gr0)).isSome = true ∧
    ringCheck (sp0.begin (sp0.seen gr0) (.qalwInit oOne)) oOne (sp0.seen gr0) = none ∧ gridCheck (sp0.begin (sp0.seen gr0) (.gsync oOne)) oOne (sp0.seen gr0) = none ∧ (boundCheck sp0 o0 (sp0.seen gr0)).isSome = true ∧
    handleCheck (setS node0 8 0x80000000) 1 o0 ((setS node0 8 0x80000000).seen gr0) = none ∧ nodeqCheck (setS node0 8 0x80000000) o0 ((setS node0 8 0x80000000).seen gr0) = none := by decide

theorem witness_Returning : ∀ i ∈ [Instr.ckick o0, .gthr o0, .coll o0, .barv o0, .bsyn o0, .bphs o0, .qpush o0, .qtryPush o0, .qtryPop o0, .qalw o0, .qalwInit o0, .rpush o0, .rpass o0, .rrej o0, .lnch o0, .nodeqSeal o0, .nodeqOpen o0, .gsync o0, .regroup o0],
    (held sp0 i (.release 0)).grant = some grBack ∧ grBack.again = true ∧ ((held sp0 i (.release 0)).group 0).wait = some (wait0 i (.release 0)) := by decide

/-- A team whose scratchpad holds a copy request of 16 bytes at 0x100 (05 R95), and a collective request at 0x140 (05 R104). -/
def kickTeam : Team := { scratchSize := 8192, scratchMap := [0], gids := [some 0], scratch := (bytesAt 0x100 0x400 8 ++ bytesAt 0x108 0x800 8 ++ bytesAt 0x120 16 4 ++ bytesAt 0x124 1 2 ++ bytesAt 0x126 1 2 ++ bytesAt 0x128 16 4 ++ bytesAt 0x130 0xC 4 ++ bytesAt 0x158 4 4).foldl (fun t b => tset 0 b.1 b.2 t) [] }
def kickBack : Iss := (held sp0 (.ckick o0) (.release 0)).back gr0 (wait0 (.ckick o0) (.release 0))
theorem witness_EngineKicks :
    copyBad kickTeam 0x100 (readCopy kickTeam 0x100 kickBack 0) = none ∧ copyBad kickTeam 0x180 (readCopy kickTeam 0x180 kickBack 0) = some 2 ∧ collBad kickTeam 0x140 (readColl kickTeam 0x140 kickBack 0) = false ∧ collBad kickTeam 0x180 (readColl kickTeam 0x180 kickBack 0) = true ∧
    (gatherRows kickBack { o0 with d := 4 } true 8192 16 16).toOption.map List.length = some 32 ∧ kickBack.active .none ≠ 0 ∧
    (gatherRows { kickBack with g := kickBack.g.ws 0 0 } o0 false 8192 16 16).toOption = some [] ∧ (sp0.core 0).kicks.length < 16 ∧ (sp0.core 0).gathers.length < 8 := by decide

/-- A word of the scratchpad of team 0 in lasting error. -/
def bad (s : State) (a : Nat) : State := s.modCore 0 (fun k => { k with poison := [(s.team 0).spWord a] })
theorem witness_EngineKicks_errors :
    ((held sp0 (.ckick o0) (.release 0)).woken grBack).spPoison 0 (spBytes 64 [0]) = none ∧ (((held (bad sp0 8) (.ckick o0) (.release 0)).woken grBack).spPoison 0 (spBytes 64 [0])).isSome = true ∧
    (((bad sp0 8).core 0).kicks.length < 16) ∧ (((held sp0 (.coll o0) (.release 0)).woken grBack).spPoison 0 (spBytes 64 [0])) = none ∧ (((held (bad sp0 8) (.coll o0) (.release 0)).woken grBack).spPoison 0 (spBytes 64 [0])).isSome = true := by decide

def front0 (s : State) (i : Instr) : State := (s.begin (s.seen gr0) i).commitRegion 0 false
theorem witness_BarrierObjects_errors :
    (∀ i ∈ [Instr.bexp oOne, .bwait oOne], readyB i sp0 gr0 = true ∧ readyB i (bad sp0 4) gr0 = true ∧ (front0 sp0 i).spPoison 0 (spBytes 8 [0]) = none ∧ ((front0 (bad sp0 4) i).spPoison 0 (spBytes 8 [0])).isSome = true) ∧ (sp0.seen gr0).active .none ≠ 0 := by decide

theorem witness_BarrierObjects :
    ((sp0.group 0).rs 8).toNat % 8 = 0 ∧ ((sp0.group 0).rs 8).toNat + 8 ≤ (sp0.team 0).scratchSize ∧ (4 : Nat) % 8 ≠ 0 ∧ ¬ 8192 + 8 ≤ (sp0.team 0).scratchSize ∧
    (sp0.team 0).rem 0 + (sp0.operandBs gr0 (.bexp oOne) oOne).toInt < 2 ^ 31 ∧ 2 ^ 31 ≤ ((sp0.team 0).setBytes (bytesAt 0 0x7FFFFFFF 4)).rem 0 + (sp0.operandBs gr0 (.bexp oOne) oOne).toInt ∧
    (sp0.team 0).phase 0 ≠ (sp0.operandBs gr0 (.bwait oOne) oOne).getLsbD 0 ∧ (sp0.team 0).phase 0 = (sp0.operandBs gr0 (.bwait { oOne with c := 0 }) { oOne with c := 0 }).getLsbD 0 ∧
    ((held sp0 (.bwait oOne) (.object 0 true)).group 0).wait = some (wait0 (.bwait oOne) (.object 0 true)) := by decide

/-- Barrier 0 with an arrival of group 1 of two, or with a first arrival of group 0 that counts three. -/
def barTeam (x : Nat) : State := sp0.modTeam 0 (fun m => { m with bars := [(0, x)] })
theorem witness_Barriers :
    (barTeam 0).operandBs gr0 (.bsyn oOne) oOne = 1 ∧ ((List.range 16).filter (fun k => (0 + 2 ^ 0).testBit k)).length = 1 ∧ ((List.range 16).filter (fun k => (2 + 2 ^ 0).testBit k)).length = 2 ∧ ((barTeam (2 * 2 ^ 16 + 2)).team 0).bar 0 / 2 ^ 16 % 2 ^ 5 = 2 ∧
    ((barTeam (2 * 2 ^ 16 + 2)).team 0).bar 0 % 2 ^ 16 = 2 ∧ (2 : Nat).testBit 0 = false ∧ (((barTeam (3 * 2 ^ 16 + 1)).team 0).bar 0 / 2 ^ 16 % 2 ^ 5 ≠ 0 ∧ ((barTeam (3 * 2 ^ 16 + 1)).team 0).bar 0 / 2 ^ 16 % 2 ^ 5 ≠ 1) ∧ (((barTeam (3 * 2 ^ 16 + 1)).team 0).bar 0).testBit 0 = true ∧
    (((barTeam 0).team 0).bar 0).testBit 21 ≠ (oOne.c).getLsbD 0 ∧ (((barTeam (2 ^ 21)).team 0).bar 0).testBit 21 = (oOne.c).getLsbD 0 ∧
    (∀ k ∈ [WaitKind.bar 0 false, .bphs 0 false, .gridOp 0, .grid 0 0, .release 5], ((held sp0 (.bsyn oOne) k).group 0).wait = some (wait0 (.bsyn oOne) k)) := by decide

/-- Queue 0 bound at 0 with room for four items: empty with four allowed, and full. -/
def qAt (q : QState) : State := sp0.modTeam 0 (fun m => m.setQueue 0 q)
def qEmpty : QState := { alw := 4, head := 0, tail := 0, v := true, logcap := 2, base := 0 }
def qFull : QState := { alw := 0, head := 126, tail := 2, v := true, logcap := 2, base := 0 }
theorem witness_ScratchQueues_errors :
    ((qAt qFull).team 0).headItem 0 = [8, 9, 10, 11] ∧ readyB (.qpop o0) (bad (qAt qFull) 8) gr0 = true ∧ (front0 (qAt qFull) (.qpop o0)).spPoison 0 [8, 9, 10, 11] = none ∧ ((front0 (bad (qAt qFull) 8) (.qpop o0)).spPoison 0 [8, 9, 10, 11]).isSome = true ∧
    (front0 (bad (qAt qFull) 8) (.qpop o0)).outOfTurn 0 ((front0 (bad (qAt qFull) 8) (.qpop o0)).cycleOf 0).2 (.qpop o0) = false ∧ (front0 (bad (qAt qFull) 8) (.qpop o0)).firstWaiter 0 (popOrder 0) = none ∧ (front0 (bad (qAt qFull) 8) (.qpop o0)).firstWaiter 0 (pushOrder 0) = none ∧
    (∀ i ∈ [Instr.qpop o0, .qtryPop o0], ((held (qAt qFull) i (.release 0)).woken grBack).spPoison 0 [8, 9, 10, 11] = none ∧ (((held (bad (qAt qFull) 8) i (.release 0)).woken grBack).spPoison 0 [8, 9, 10, 11]).isSome = true) := by decide

theorem witness_ScratchQueues :
    ((qAt qEmpty).team 0).queue 0 = qEmpty ∧ ((qAt qFull).team 0).queue 0 = qFull ∧ (qFull.tail + 128 - qFull.head) % 128 = 4 ∧ (sp0.team 0).queue 0 = { alw := 0, head := 0, tail := 0, v := false, logcap := 0, base := 0 } ∧ readyB (.qpop o0) (qAt qFull) gr0 = true ∧
    (qAt qFull).firstWaiter 0 (popOrder 0) = none ∧ (qAt qFull).firstWaiter 0 (pushOrder 0) = none ∧ ((held (qAt qEmpty) (.qpush o0) (.release 0)).woken grBack).firstWaiter 0 (popOrder 0) = none ∧
    (((qAt qFull).begin ((qAt qFull).seen gr0) (.qpop o0)).commitRegion 0 false).outOfTurn 0 ((((qAt qFull).begin ((qAt qFull).seen gr0) (.qpop o0)).commitRegion 0 false).cycleOf 0).2 (.qpop o0) = false ∧
    readyB (.qalw oOne) (qAt qEmpty) gr0 = true ∧ ((qAt qEmpty).operandBs gr0 (.qalw oOne) oOne).toNat = 1 ∧ (∀ x ∈ (qAt qEmpty).groups, x.2.wait = none) ∧
    qEmpty.alw + 0 + 0 ≤ 2 ^ qEmpty.logcap ∧ 2 ^ qEmpty.logcap < qEmpty.alw + 1 + 0 ∧ ((sp0.group 0).rs 8).toNat % 8 = 0 ∧ 0 + 4 * 2 ^ 6 ≤ (sp0.team 0).scratchSize := by decide

/-! ### Witnesses: control, halves and the system group -/

/-- A header that waits on flag 2, and a group with one operation on that flag. -/
def hd0 : Header := Header.mk 4 (some 0) (some 1) 2 false
def flag0 : State := w0.modGroup 0 (fun g => { g with flags := [(2, 1)] })
/-- The mask of slot A in lasting error, found poisoned or not yet. -/
def maskBad (found : Bool) : State := w0.modCore 0 (fun k => if found then { k with poison := [⟨.scalar, 0⟩] } else { k with doubles := [(⟨.scalar, 0⟩, true)] })
theorem witness_TransfersAndClauses_errors :
    (∀ b ∈ [true, false], (maskBad b).grant = some gr0 ∧ (∀ f, f < 12 → hd0.wait.getLsbD f = true → ((maskBad b).group 0).flagCount f = 0)) ∧ (⟨.scalar, slotOf 0 * 64 + gr0.slotB.toNat⟩ : FileWord) ∈ ((maskBad true).core 0).poison ∧
    ((⟨.scalar, slotOf 0 * 64 + gr0.slotB.toNat⟩ : FileWord), true) ∈ ((maskBad false).core 0).doubles ∧ (w0.core 0).poison = [] ∧ (w0.core 0).doubles = [] := by decide

theorem witness_TransfersAndClauses :
    w0.grant = some gr0 ∧ ((w0.group 0).rpair 8).toNat % 8 = 0 ∧ ((odd8.group 0).rpair 8).toNat % 8 ≠ 0 ∧ readyB (.ret o0) odd8 gr0 = true ∧ (w0.seen gr0).cl.left ≤ 1 ∧
    1 < ((w0.modGroup 0 (fun g => { g with a := { g.a with cl := some { left := 3 } } })).seen gr0).cl.left ∧
    (∀ f, f < 12 → hd0.wait.getLsbD f = true → (w0.group 0).flagCount f = 0) ∧ flag0.grant = some gr0 ∧ hd0.wait.getLsbD 2 = true ∧ (flag0.group 0).flagCount 2 ≠ 0 := by decide

/-- q1 takes lane 0; slot B parked at 0x40; a full stack; a stack with one entry of each kind. -/
def kBr : ImmOps := { g := .none, d := 0, a := 8, mods := 1, imm := 8 }
def split0 : State := setQ w0 1 1
def parkB (s : State) (pc : Nat) : State := s.modGroup 0 (fun g => { (g.setMask true 2) with b := { pc := BitVec.ofNat 64 pc, st := .parked } })
def runB (s : State) : State := s.modGroup 0 (fun g => { (g.setMask true 2) with b := { pc := 0x400, st := .running } })
/-- A stack of eight places whose top stands at 0x1400, in a line that may be read and written. -/
def stack0 (s : State) : State := s.modGroup 0 (fun g => { g with ptmArea := some 0, ptmBase := 0x1000, ptmWords := 8, dstkWords := 8, dsp := 0x1400 })
def lineOf (bs : List Byte) : L1Line := { rd := true, wr := true, valid := 15, data := bs.zipIdx.map (fun b => (b.2, b.1)) }
def room (s : State) : State := (stack0 s).setL1 0 0 0x27 (lineOf [])
/-- The same with one entry for slot A: a path at 0x80, or one that waits at its join 0x40. -/
def ent (k : Nat) : SEntry := ⟨0x80, 4, k, false, 0x40⟩
def deep (s : State) (k : Nat) : State := ((stack0 s).setL1 0 0 0x27 (lineOf (ent k).bytes)).modGroup 0 (fun g => { g with dsp := 0x1380 })
def nearest (s : State) : Except Flt (Option (Nat × SEntry)) := (s.begin (s.seen gr0) (.join kBr)).stackNearest 0 (fun e => e.live && e.owner == false) (s.group 0).dsp.toNat (s.group 0).depth
def isEntry (k : Nat) (x : Except Flt (Option (Nat × SEntry))) : Bool := match x with
  | .ok (some (a, e)) => decide (a = 0x1380 ∧ e.pc = 0x80 ∧ e.mask = 4 ∧ e.kind = k ∧ e.owner = false ∧ e.join = 0x40)
  | _ => false
def isEmpty (x : Except Flt (Option (Nat × SEntry))) : Bool := match x with
  | .ok none => true
  | _ => false
def faultOf {α : Type} (x : Except Flt α) : Nat := match x with
  | .ok _ => 0
  | .error f => f.cause
def stackEnt (s : State) : Bool := match (s.begin (s.seen gr0) (.exit o0)).stack 0 with
  | .ok [_] => match ((s.begin (s.seen gr0) (.exit o0)).commitRegion 0 false).stack 0, (s.begin (s.seen gr0) (.exit o0)).freeSlot (s.seen gr0) with
    | .ok [(_, e)], .ok u => e.live && okB (u.takeEntry (s.seen gr0)) && (match u.stack 0 with | .ok [(_, e)] => e.live | _ => false)
    | _, _ => false
  | _ => false

/-- Its target and join are 0x40 words on: BRS, and JOIN whose address is 8 words on. -/
theorem witness_Divergence :
    (∀ s ∈ [w0, split0, parkB split0 0x40, runB w0, room split0, deep w0 0], readyB (.brs kBr) s gr0 = true ∧ readyB (.join kBr) s gr0 = true ∧ readyB (.exit o0) s gr0 = true) ∧
    (w0.group 0).mask false &&& (w0.group 0).rq 1 = 0 ∧ (setQ w0 1 0xFFFFFFFF |>.group 0).mask false &&& ~~~((setQ w0 1 0xFFFFFFFF).group 0).rq 1 = 0 ∧
    (split0.group 0).mask false &&& (split0.group 0).rq 1 = 1 ∧ (split0.group 0).mask false &&& ~~~(split0.group 0).rq 1 ≠ 0 ∧ (split0.group 0).b.st = .free ∧ (split0.group 0).a.st = .running ∧
    ((parkB split0 0x40).group 0).b.st ≠ .free ∧ ((parkB split0 0x40).group 0).dstkWords ≤ ((parkB split0 0x40).group 0).depth ∧
    ((room (parkB split0 0x40)).group 0).depth < ((room (parkB split0 0x40)).group 0).dstkWords ∧
    okB ((((room (parkB split0 0x40)).begin ((room (parkB split0 0x40)).seen gr0) (.brs kBr)).commitRegion 0 false).stackWrite 0 (0x1400 - 128) (ent 0)) = true ∧
    faultOf ((((stack0 (parkB split0 0x40)).begin ((stack0 (parkB split0 0x40)).seen gr0) (.brs kBr)).commitRegion 0 false).stackWrite 0 (0x1400 - 128) (ent 0)) ∉ [0, 16] := by decide
set_option maxRecDepth 8000 in
theorem witness_Divergence_entries : isEntry 0 (nearest (deep w0 0)) = true ∧ isEntry 1 (nearest (deep w0 1)) = true := by decide
set_option maxRecDepth 8000 in
theorem witness_Divergence_stack :
    okB ((((deep w0 0).begin ((deep w0 0).seen gr0) (.join kBr)).commitRegion 0 false).stackWrite 0 0x1380 (ent 1)) = true ∧ okB ((((deep w0 1).begin ((deep w0 1).seen gr0) (.join kBr)).commitRegion 0 false).stackWrite 0 0x1380 (ent 2)) = true ∧ stackEnt (deep w0 0) = true := by decide
theorem witness_Divergence_rest :
    ((parkB w0 0x40).group 0).depth = 0 ∧ ((parkB w0 0x40).group 0).b.pc = ((w0.seen gr0).pc + BitVec.ofInt 64 (8 * kBr.imm.toInt)) ∧
    faultOf (nearest ((stack0 w0).modGroup 0 (fun g => { g with dsp := 0x1380 }))) ∉ [0, 16] ∧ isEmpty (nearest w0) = true ∧ ((runB w0).group 0).b.st = .running ∧ isEmpty (nearest (runB w0)) = true ∧
    ((parkB w0 0x48).group 0).b.st ≠ .running ∧ ¬ ((parkB w0 0x48).group 0).b.pc = 0x40 ∧ ((w0.modGroup 0 (fun g => { g with held := [(0, { router := 0, stage := 0, words := [], since := 0 })] })).group 0).held ≠ [] ∧
    (w0.group 0).held = [] ∧ w0.unfinished 0 = false ∧ { w0 with ops := [(0, { gid := 0, instr := .ld oLd, flag := some 0, parts := 1 })] }.unfinished 0 = true ∧
    readyB (.regroup o0) w0 gr0 = true ∧ (w0.group 0).b.st = .free ∧ ((runB w0).group 0).b.st ≠ .free := by decide

theorem witness_RegroupMoves : (held sp0 (.regroup o0) (.regroup 8 1)).grant = some grBack ∧ 0 ∈ ((held sp0 (.regroup o0) (.regroup 8 1)).woken grBack).participants 0 0 ∧
    ((held sp0 (.regroup o0) (.regroup 8 1)).woken grBack).participants 0 0 = [0] ∧ ((held sp0 (.regroup o0) (.regroup 8 1)).group 0).wait = some (wait0 (.regroup o0) (.regroup 8 1)) := by decide

/-- A return of BRX with COUNT 4, no reserved byte, and an entry 0x40 of index 0; the slot that waits for it, and the state in which the table
is looked at. -/
def tbl0 (bytes : Table Nat) : Op := { instr := .brx o0, dest := .brx none 0 16, got := bytes }
def tblS (bytes : Table Nat) (s : State) : State := { s.modGroup 0 (fun g => { g with tables := [wait0 (.brx o0) (.table 0)] }) with grant := some grBack, ops := [(0, tbl0 bytes)] }
def tblU (s : State) : State := { ({ tblS [] s with grant := none } : State).setGroup 0 { (tblS [] s).group 0 with tables := [] } with ops := [] }
def writable0 (s : State) : State := s.modSlice 0 (fun l => { l with tlb := [{ tenant := 0, part := 0, vpage := 0, bits := 21, ppage := 0, mpage := 0, perm1 := 3, perm2 := 3, loc := false, al := false, lvl1 := 0, lvl2 := 0, pn := false, mg := false }] })
theorem witness_TableJumps :
    readyB (.brx o0) w0 gr0 = true ∧ readyB (.callx o0) w0 gr0 = true ∧ ((w0.group 0).rpair 8).toNat % 16 = 0 ∧ ((w0.group 0).rpair 8).toNat + 16 + 8 * (w0.operandBs gr0 (.brx o0) o0).toNat + 8 ≤ 2 ^ 56 ∧
    ((odd8.group 0).rpair 8).toNat % 16 ≠ 0 ∧ readyB (.brx o0) odd8 gr0 = true ∧ 2 ^ 56 ≤ ((far8.group 0).rpair 8).toNat ∧ ((far8.group 0).rpair 8).toNat % 16 = 0 := by decide

theorem witness_TableJumps_return :
    (∀ bs ∈ [[(0, 4), (16, 0x40)], [(0, 4), (16, 0x44)], [(16, 0x40)]], (tblS bs w0).grant = some grBack ∧ ((tblS bs w0).group 0).tables.find? (fun y => y.slotB == false) = some (wait0 (.brx o0) (.table 0)) ∧ (tblS bs w0).op 0 = some (tbl0 bs) ∧ (tbl0 bs).returned 4 12 = 0) ∧
    (tblU w0).tableWritable 0 0 = false ∧ (tblU (writable0 w0)).tableWritable 0 0 = true ∧ ((⟨0, false, 0, {}, (tblU w0).group 0⟩ : Iss).bs (tblU w0) o0).toNat = 0 ∧ 0 < (tbl0 [(0, 4), (16, 0x40)]).returned 0 4 ∧
    (tbl0 [(0, 4), (16, 0x40)]).returned 16 8 % 8 = 0 ∧ (tbl0 [(0, 4), (16, 0x44)]).returned 16 8 % 8 ≠ 0 ∧ ¬ 0 < (tbl0 [(16, 0x40)]).returned 0 4 := by decide

/-! ### Witnesses: pairs and the system group -/

def hAdd : PHalf := ⟨.iadd, p0⟩
def hFadd : PHalf := ⟨.fadd, p0⟩
def hLds : PHalf := ⟨.lds, p0⟩
def hSts : PHalf := ⟨.sts, p0⟩
def at9 (s : State) : Bool := (List.range 32).all (fun L => decide (((s.group 0).rv 9 L).toNat % 4 = 0 ∧ ((s.group 0).rv 9 L).toNat + 4 ≤ (s.team 0).scratchSize))
/-- A signalling sum: v4 = +infinity and v9 = -infinity in lane 3, with all exceptions enabled. -/
def trapP : State := setV (setV (w0.modGroup 0 (fun g => { g with fpx := 31 })) 4 3 0x7F800000) 9 3 0xFF800000
theorem witness_PairResults :
    readyB (Instr.ofHalves hAdd p1) sp0 gr0 = true ∧ readyB (Instr.ofHalves hFadd p1) trapP gr0 = true ∧ (fp32.add .rne ((trapP.group 0).rv 4 3).toNat ((trapP.group 0).rv 9 3).toNat).2.bits &&& (trapP.group 0).fpx ≠ 0 ∧
    readyB (Instr.ofHalves hLds p1) sp0 gr0 = true ∧ readyB (Instr.ofHalves p1 hLds) sp0 gr0 = true ∧ at9 sp0 = true ∧ (sp0.begin (sp0.seen gr0) (Instr.ofHalves hLds p1)).spPoison 0 (spBytes 4 ((lanesIn 0xFFFFFFFF).map (fun _ => 0))) = none ∧
    readyB (Instr.ofHalves hSts p1) sp0 gr0 = true ∧ readyB (Instr.ofHalves p1 hSts) sp0 gr0 = true ∧ (sp0.group 0).mask false ≠ 0 ∧ readyB (Instr.ofHalves hSts p1) (noLane sp0) gr0 = true ∧ ((noLane sp0).group 0).mask false = 0 := by decide

/-- Context 0 with right CNT; its team's last change of a hint at 1 ns. -/
def cnt0 : State := setS (w0.modHub (fun h => { h with dl := [(0, { v := true, mask := 0x7FFF })] })) 8 0x2001
theorem witness_SystemWords_counters :
    (∀ i ∈ [Instr.tstamp o0, .cycles o0, .evrd o0, .evcfg o0, .ophint o0, .ostage o0, .phint { o0 with ox := 1 }, .phint o0, .phints o0], readyB i cnt0 gr0 = true ∧ readyB i sp0 gr0 = true) ∧
    w0.ctxRight 0 4 = false ∧ cnt0.ctxRight 0 4 = true ∧ ((cnt0.group 0).rs 8).toNat < 2 ^ 15 ∧ ((cnt0.group 0).rs 8).toNat.testBit 12 = false ∧ 2 ^ 15 ≤ ((setS cnt0 8 0x8000).group 0 |>.rs 8).toNat ∧
    (cnt0.operandBs gr0 (.evcfg o0) o0).toNat < 8 ∧ 8 ≤ ((setS cnt0 12 9).operandBs gr0 (.evcfg { o0 with bk := .sca }) { o0 with bk := .sca }).toNat ∧
    (w0.team 0).opTime = 0 ∧ ((w0.modTeam 0 (fun m => { m with opTime := 1 })).team 0).opTime ≠ 0 ∧ w0.devTime < 1 + 200000 := by decide

theorem witness_SystemWords_hints :
    (∀ k, k < 32 → ((w0.group 0).rs 8).getLsbD k = true → 8 * k < (w0.group 0).nv) ∧
    readyB (.phint o0) (w0.modGroup 0 (fun g => { g.ws 8 0x80000000 with nv := 128 })) gr0 = true ∧ ((w0.modGroup 0 (fun g => { g.ws 8 0x80000000 with nv := 128 })).group 0).nv ≤ 8 * 31 ∧
    ((sp0.group 0).rs 8).toNat % 4 = 0 ∧ ((sp0.group 0).rs 9).toNat % 4 = 0 ∧ 0 + 0 ≤ (sp0.team 0).scratchSize ∧ readyB (.phints o0) (setS sp0 8 2) gr0 = true ∧ readyB (.phints o0) (setS sp0 9 2) gr0 = true ∧
    readyB (.phints o0) (setS sp0 9 8196) gr0 = true ∧ (sp0.team 0).scratchSize < 0 + 8196 := by decide

def kTrap : ImmOps := { g := .none, d := 0, a := 8, mods := 1, imm := 7 }
theorem witness_TrapAndBreak : readyB (.trap kTrap) w0 gr0 = true ∧ readyB (.bkpt kTrap) w0 gr0 = true ∧ (w0.seen gr0).active .none ≠ 0 ∧ (w0.group 0).stop.cause = 0 ∧ (w0.context 0).hb.halt = false ∧
    ((w0.modContext 0 (fun c => { c with hb := { c.hb with halt := true } })).context 0).hb.halt = true ∧ readyB (.trap kTrap) (noLane w0) gr0 = true ∧ readyB (.bkpt kTrap) (noLane w0) gr0 = true ∧ ((noLane w0).seen gr0).active .none = 0 := by decide

/-! ### Witnesses: tasks -/

/-- Group 0 bound to the batch of its grid, or to node 0, which holds the records `n` and is due. -/
def rec4 (x : Nat) : List Word := [BitVec.ofNat 32 x, 0, 0, 0]
def batch0 (l : List (List Word)) : State := (w0.modGroup 0 (fun g => { g with bind := { batch := true } })).modGrid 0 (fun g => { g with batch := l })
def bound0 (n : Node) : State := (node0.modNode 0 0 (fun _ => n)).modGroup 0 (fun g => { g with bind := { node := some 0 } })
def nOne : Node := { v := true, en := true, mode := 1, bin := [rec4 7] }
def nSeal : Node := { v := true, en := true, mode := 1, sealed := true }
def nOpen : Node := { v := true, en := true, mode := 1 }
theorem witness_TaskPops :
    (∀ s ∈ [w0, batch0 [], batch0 [rec4 7], bound0 nOne, bound0 nSeal, bound0 nOpen, bound0 {}, bound0 { v := true }], readyB (.deq o0) s gr0 = true ∧ readyB (.deqt o0) s gr0 = true) ∧
    (w0.group 0).bind.node = none ∧ (w0.group 0).bind.batch = false ∧ ((batch0 []).group 0).bind.batch = true ∧ ((bound0 nOne).group 0).bind.node = some 0 ∧
    ((bound0 {}).node 0 0).v = false ∧ ((bound0 { v := true }).node 0 0).en = false ∧ ((bound0 nOne).node 0 0).en = true ∧ (bound0 nOne).deqWaiters 0 0 = [] ∧
    nSeal.bin ++ nSeal.ovf = [] ∧ nSeal.sealed = true ∧ nOpen.bin ++ nOpen.ovf = [] ∧ nOpen.sealed = false ∧ min nOne.count 32 ≤ (nOne.bin ++ nOne.ovf).length ∧ ¬ min nOpen.count 32 ≤ 0 ∧
    (batch0 []).contexts = [] ∧ (((batch0 []).modContext 0 (fun c => { c with hb := { c.hb with halt := true } })).context 0).hb.halt = true ∧ ((bound0 nOne).context 0).hb.halt = false ∧
    ((w0.operandBs gr0 (.deqt o0) o0).toNat = 0) ∧ ((setV w0 12 0 5).operandBs gr0 (.deqt { o0 with bk := .imm, b := 0, c := 5 }) { o0 with bk := .imm, b := 0, c := 5 }).toNat ≠ 0 := by decide

/-- Context 0 with node 0 in dies 0 and 1, and s8 naming a node: of die 0, of die 1, and of module 1. -/
def nodes0 (n : Node) (h : Word) : State := setS ((sp0.modHub (fun x => { x with pt := [(0, { v := true, dies := 3, s2root := 0 })] })).modContext 0 (fun c => { c with ncount := 1, nodes := [(0, n)] })) 8 h
def hHere : Word := 0x80000000
def hDie : Word := 0x80002000
def hAway : Word := 0x80040000
def nFull : Node := { v := true, en := true, mode := 1, bin := List.replicate 225 (rec4 0) }
def nTpl : Node := { v := true, en := true, mode := 0, template := some {}, bin := [rec4 7] }
/-- The same with a commute router at set 0 and a record of it in lane 0. -/
def router0 : Router := { ctx := 0, set := 0, entry := 0, stages := 2, lottery := false, depth := false, logw := 0, rejv := false, exitN := 0, reject := 0, cost := [], write := [], seed := 0 }
def holds0 : State := (setS sp0 0 1).modGroup 0 (fun g => { g with held := [(0, { router := 0, stage := 0, words := [], since := 0 })] }) |>.modDie 0 (fun d => { d with routers := [(0, router0)] })
def ret (s : State) (i : Instr) : State := held s i (.release 0)
/-- The page 0 mapped for reads and writes at slice 0. -/
def page0 (s : State) : State := s.modSlice 0 (fun l => { l with tlb := [{ tenant := 0, part := 0, vpage := 0, bits := 21, ppage := 0, mpage := 0, perm1 := 7, perm2 := 7, loc := false, al := false, lvl1 := 0, lvl2 := 0, pn := false, mg := false }] })
def sealable (b : Nat) : Bool :=
  let u := (ret (page0 (nodes0 { v := true, en := true, mode := 1 } hHere)) (.nodeqSeal o0)).woken grBack
  match u.readCtx 0 0 4 .engineRead (some 0) with
  | .error _ => false
  | .ok x => match (u.readRun 0 0 4 .engineRead (some 0)).2.writeCtx 0 0 (x - x / 64 % 2 * 64 + b * 64) 4 .engineWrite (some 0) with
    | .error _ => false
    | .ok v => decide ((v.node 0 0).mode ≠ 0 ∧ v.deqWaiters 0 0 = [])

theorem witness_TaskWords_pushes :
    lanesIn (((ret (noLane sp0) (.rpush o0)).back grBack (wait0 (.rpush o0) (.release 0))).active .none) = [] ∧ lanesIn (((ret sp0 (.rpush o0)).back grBack (wait0 (.rpush o0) (.release 0))).active .none) ≠ [] ∧
    hHere.toNat / 2 ^ 18 % 2 ^ 13 = sp0.hub.module ∧ nodeKey hHere / 4096 = 0 ∧ ((nodes0 nOpen hHere).group 0).rs 8 = hHere ∧ (nodes0 nOpen hHere).node 0 0 = nOpen ∧
    ((ret (nodes0 nOpen hHere) (.rpush o0)).woken grBack).deqWaiters 0 0 = [] ∧ ¬ 256 + nOpen.ovfCap < 0 + ((ret (nodes0 nOpen hHere) (.rpush o0)).woken grBack).reserved 0 0 + 32 ∧ 256 + nFull.ovfCap < 225 + 0 + 32 ∧
    lanesIn (((ret (setS (nodes0 nOpen hDie) 0 1) (.rpush o0)).back grBack (wait0 (.rpush o0) (.release 0))).active .none) = [0] ∧ nodeKey hDie / 4096 ≠ 0 ∧ hAway.toNat / 2 ^ 18 % 2 ^ 13 ≠ sp0.hub.module ∧ sp0.hub.linkDown.length < 32 ∧
    ((ret sp0 (.rpush o0)).woken grBack).freeOutbox 0 0 = some 0 ∧ lanesIn (((ret holds0 (.rpass o0)).back grBack (wait0 (.rpass o0) (.release 0))).active .none) = [0] ∧ (tfind 0 (holds0.group 0).held).isSome = true ∧
    (((ret holds0 (.rpass o0)).woken grBack).routerOf 0 0).isSome = true ∧ (((ret holds0 (.rrej o0)).woken grBack).routerOf 0 0).isSome = true := by decide

/-- Module 1 reached by no port, by port 0, and by port 0 that is down; a push of one lane there. -/
def links0 (s : State) (l : List (Nat × Nat)) (down : List Nat) : State := s.modHub (fun h => { h with links := l, linkDown := down })
theorem witness_TaskWords_links :
    hAway.toNat / 2 ^ 18 % 2 ^ 13 = 1 ∧ (links0 sp0 [] []).hub.noWay 1 hAway.toNat = some (fLink hAway.toNat 2 true 0) ∧ (links0 sp0 [(1, 0)] []).hub.noWay 1 hAway.toNat = none ∧ (links0 sp0 [(1, 0)] [0]).hub.noWay 1 hAway.toNat = some (fLink hAway.toNat 1 true 0) ∧
    ((ret (setS (links0 (nodes0 nOpen hAway) [(1, 0)] []) 0 1) (.rpush o0)).woken grBack).freeOutbox 0 0 = some 0 ∧ lanesIn (((ret (setS (links0 (nodes0 nOpen hAway) [(1, 0)] []) 0 1) (.rpush o0)).back grBack (wait0 (.rpush o0) (.release 0))).active .none) = [0] := by decide

set_option maxRecDepth 20000 in
theorem witness_TaskWords_full : (sp0.modContext 0 (fun c => { c with outbox := (List.range 256).map (fun k => (k, (0, 0, none))) })).freeOutbox 0 0 = none := by decide

theorem witness_TaskWords_nodes :
    nTpl.mode = 0 ∧ nTpl.template = some {} ∧ (nodes0 nTpl hHere).node 0 (nodeKey hHere) = nTpl ∧ nOpen.mode ≠ 0 ∧ (nodes0 nOpen hHere).handleBad 0 hHere = false ∧ w0.handleBad 0 0 = true ∧
    readyB (.nodeqQry o0) (nodes0 nOpen hHere) gr0 = true ∧ readyB (.rbind o0) w0 gr0 = true ∧ readyB (.nodeqQry o0) w0 gr0 = true ∧ ((ret (nodes0 nOpen hHere) (.nodeqSeal o0)).group 0).wait = some (wait0 (.nodeqSeal o0) (.release 0)) ∧
    sealable 1 = true ∧ sealable 0 = true ∧ readyB (.rbind { o0 with ox := 2 }) w0 gr0 = true ∧ readyB (.rbind o0) (nodes0 nOpen hHere) gr0 = true ∧ nOpen.mode = 1 ∧ nOpen.v = true ∧ readyB (.rbind o0) (nodes0 nTpl hHere) gr0 = true ∧ ¬ nTpl.mode = 1 := by decide

/-! ### Witnesses: returns, issue and slices -/

/-- Request 0 of a load, a store or a palette fill, with its reply, for operation 1. -/
def rq0 (k : ReqKind) : Req := { ops := [1], kind := k, stage := .reply, sectors := 1, rd := true, bytes := (List.range 32).map (fun j => (j, 5)), data := (List.range 32).map (fun j => (j, 9)) }
def op1 (f : Option Nat) : Op := { gid := 0, instr := .ld oLd, flag := f, path := some 0, dest := .none, parts := 1 }
def inFlight (r : Req) (o : Op) : State := { w0 with reqs := [(0, r)], ops := [(1, o)], nextId := 2 }
def pal1 : State := { palIn .filling with reqs := [(0, { rq0 (.palette 0 0) with line := 32 })] }
def l1s : State := (inFlight (rq0 .store) (op1 none)).setL1 0 0 0 { wr := true, valid := 1 }
theorem witness_ReturnsToCore :
    (inFlight (rq0 .load) (op1 (some 0))).holds = [] ∧ (inFlight (rq0 .load) (op1 (some 0))).req 0 = some (rq0 .load) ∧ (rq0 .load).stage = .reply ∧ ((inFlight (rq0 .load) (op1 (some 0))).core 0).line 0 0 = none ∧
    (rq0 .load).noAlloc = false ∧ (rq0 .load).nl1 = false ∧ (inFlight (rq0 .load) (op1 (some 0))).op 1 = some (op1 (some 0)) ∧ (op1 (some 0)).flag ≠ none ∧ (l1s.core 0).line 0 0 = some { wr := true, valid := 1 } ∧
    ((rq0 .store).bytes.map (·.1)).Nodup ∧ l1s.op 1 = some (op1 none) ∧ (op1 none).dest = .none ∧ pal1.holds = [] ∧ (pal1.team 0).palQueue = [] ∧ ((pal1.setL1 0 0 32 { valid := 14 }).core 0).line 0 32 = some { valid := 14 } ∧
    ((pal1.team 0).palette 0).state = .filling ∧ ((pal1.team 0).palette 0).lines = [32] ∧ (pal1.team 0).pals.map (·.1) = [0] ∧ (pal1.team 0).core = 0 := by decide

/-- A load whose line is no other group's per-thread memory; a store that does not allocate. -/
theorem witness_ReturnsToCore_paths :
    (inFlight (rq0 .load) (op1 (some 0))).ptmOfOther 0 0 0 = false ∧ (inFlight { rq0 .store with noAlloc := true } (op1 none)).req 0 = some { rq0 .store with noAlloc := true } ∧ (inFlight { rq0 .load with nl1 := true } (op1 none)).req 0 = some { rq0 .load with nl1 := true } ∧
    (inFlight { rq0 .store with noAlloc := true } (op1 none)).holds = [] := by decide

/-- A word whose second read shows one error, one whose two errors last, and one with a single error. -/
def scrubS (flips : List FileWord) (doubles : List (FileWord × Bool)) : State := w0.modCore 0 (fun k => { k with flips := flips, doubles := doubles })
theorem witness_ReturnsToCore_scrub :
    let w : FileWord := { file := .vector, index := 1 }
    ((scrubS [w] [(w, false)]).core 0).doubles.find? (fun x => x.1 == w) = some (w, false) ∧ w ∈ ((scrubS [w] [(w, false)]).core 0).flips ∧ ((scrubS [] [(w, true)]).core 0).doubles.find? (fun x => x.1 == w) = some (w, true) ∧
    ((scrubS [] [(w, false)]).core 0).flips = [] ∧ ((scrubS [w] []).core 0).doubles = [] ∧ ((scrubS [w] []).core 0).scrubCtl = true ∧ ((scrubS [w] []).core 0).poison = [] := by decide

def opDone : Op := { gid := 0, instr := .ld oLd, flag := some 0, path := some 0, dest := .load 4 4 [(0, 0), (1, 4)], parts := 0, got := [(0, 7), (4, 9)] }
theorem witness_ReturnsToCore_complete : ({ w0 with ops := [(1, opDone)] } : State).op 1 = some opDone ∧ opDone.parts = 0 ∧ opDone.flag = some 0 ∧ opDone.path ≠ some 3 ∧
    ([(⟨0, 128⟩ : RCell), ⟨0, 129⟩]).Nodup ∧ (w0.core 0).doubles = [] ∧ (w0.core 0).flips = [] ∧ ({ file := .vector, index := 1 } : FileWord).file ≠ .memory ∧ (w0.core 0).scrubCtl = true ∧ (w0.core 0).poison = [] ∧ ((w0.modCore 0 (fun k => { k with scrubCtl := false })).core 0).scrubCtl = false := by decide

/-- The quadrant's turn: nothing granted, group 0 at a word that may issue; with a zero budget, or due. -/
def turn0 : State := { w0 with grant := none }
def turnC (f : Cluster → Cluster) : State := turn0.modCluster 0 f
def cands0 (s : State) : List Cand := ((s.modCluster 0 (fun c => { c with turn := c.turn + 1 })).quadGroups 0 0).filterMap (s.modCluster 0 (fun c => { c with turn := c.turn + 1 })).candidate
/-- Group 0 at an FADD word. -/
def turnF (f : Cluster → Cluster) : State := ({ State.reset.withFetchWord 64 (Instr.fadd o0).wordOf.toNat with grant := none } : State).modCluster 0 f
theorem witness_IssueOpportunities :
    turn0.grant = none ∧ (turn0.cluster 0).relock = none ∧ (turn0.cluster 0).next = 0 ∧ (turn0.cluster 0).turn < 32 ∧ 0 ∈ ((turn0.modCore 0 (fun k => { k with secondRead := [0] })).core 0).secondRead ∧ 0 ∉ (turn0.core 0).secondRead ∧
    ((turnC (fun c => { c with halving := 2, cycles := 1 })).cluster 0).halving = 2 ∧ (turn0.cluster 0).halving = 0 ∧ 32 ≤ ((turnC (fun c => { c with turn := 32 })).cluster 0).turn ∧ ((turnC (fun c => { c with turn := 32 })).cluster 0).next < 32 ∧
    cands0 { turn0 with groups := [] } = [] ∧ (cands0 (turnF id)).length = 1 ∧ (∀ x ∈ cands0 (turnF id), x.due < 48 ∧ x.yielded = false ∧ 0 + x.charge ≤ ((turnF id).cluster 0).budget) ∧
    (cands0 ((turnF id).modGroup 0 (fun g => { g with due := 48 }))).any (fun x => 48 ≤ x.due) = true ∧ (∀ x ∈ cands0 (turnF (fun c => { c with budget := 0 })), x.due < 48 ∧ x.charge ≠ 0 ∧ 0 < 0 + x.charge) ∧ cands0 (turnF (fun c => { c with budget := 0 })) ≠ [] ∧
    (turn0.cluster 0).stretch = 0 ∧ (turn0.cluster 0).picks = [] ∧ ((turnC (fun c => { c with turn := 32, picks := [(0, false, 1)] })).cluster 0).picks = [(0, false, 1)] ∧ (turnC (fun c => { c with turn := 32, picks := [(0, false, 1)] })).mayIssue 0 = true ∧
    ((turnC (fun c => { c with turn := 32, picks := [(0, false, 1)] })).slotReady 0 false).isSome = true := by decide

/-- A request at slice 0 whose line the slice holds whole, or does not hold. -/
def rs0 (k : ReqKind) : Req := { ops := [1], kind := k, stage := .toSlice, sectors := 1, seen := true, race := false, bytes := [(0, 5)], lanes := [⟨0, 0, 3, 4⟩] }
def line0 : L2Line := { rd := true, wr := true, ex := true, valid := 15 }
def atS (k : ReqKind) : State := { w0.modSlice 0 (fun x => { x with lines := [(lineKey 0 0, line0)] }) with reqs := [(0, rs0 k)], ops := [(1, op1 none)], nextId := 2 }
def miss (k : ReqKind) : State := { w0.modSlice 0 (fun x => { x with lines := [] }) with reqs := [(0, rs0 k)], ops := [(1, op1 none)], nextId := 2 }
/-- A request that has reached its slice. -/
def thereB (s : State) (r : Req) : Bool := decide (s.req 0 = some r ∧ r.stage = .toSlice ∧ r.seen = true) && !s.swapStalls r.ctx (r.line * 128) && !s.inPort r
theorem witness_SliceServes :
    (∀ k ∈ [ReqKind.load, .table, .prefetch, .palette 0 0, .store, .outbox, .writeback, .atomic, .addOnStore, .acont, .grid], thereB (atS k) (rs0 k) = true ∧ thereB (miss k) (rs0 k) = true) ∧
    (∀ k ∈ [ReqKind.load, .table, .prefetch, .palette 0 0, .store, .outbox, .atomic, .addOnStore, .acont, .grid], (atS k).hitLine (rs0 k) = some line0 ∧ (miss k).hitLine (rs0 k) = none) ∧
    line0.tenant = (rs0 .load).tenant ∧ line0.line = (rs0 .load).line ∧ line0.prefetched = false ∧ (rs0 .load).race = false ∧ (rs0 .load).nl1 = false ∧ (rs0 .load).hint < 2 ∧ ((rs0 .store).bytes.map (·.1)).Nodup ∧
    ((atS .writeback).slice 0).line 0 0 = some line0 ∧ ((miss .writeback).slice 0).line 0 0 = none ∧ thereB { atS .writeback with reqs := [(0, { rs0 .writeback with ops := [] })] } { rs0 .writeback with ops := [] } = true ∧ (atS .writeback).holds = [] ∧
    tfind 3 ((w0.modContext 0 (fun c => { c with outbox := [(3, (1, 0x80000000, none))] })).context 0).outbox = some (1, 0x80000000, none) := by decide

/-- An acknowledged atomic, a combining entry, and a request to another die. -/
def e0 : Replay := { port := 0, tag := 0, op := 0, reply := [9] }
def acked0 (k : ReqKind) (o : Op) : State := { w0.modSlice 0 (fun x => { x with replay := [e0] }) with reqs := [(0, { rs0 k with stage := .reply })], ops := [(1, o)], nextId := 2 }
def comb0 (cycles : Nat) : State := w0.modCluster 0 (fun c => { c with cycles := cycles, combine := [{ tenant := 0, ctx := 0, addr := 0x100, kind := 0, ty := 0, scope := 2, value := 5, taken := 0, core := 0, slice := 0, ops := [(0, 1)] }] })
theorem witness_SliceServes_replies :
    (∀ k ∈ [ReqKind.atomic, .acont, .addOnStore, .grid], ((acked0 k (op1 (some 0))).slice 0).replay.find? (fun e => e.port == 0 && e.tag == 0) = some e0 ∧ (acked0 k (op1 (some 0))).req 0 = some { rs0 k with stage := .reply } ∧ (acked0 k (op1 (some 0))).op 1 = some (op1 (some 0)) ∧ (acked0 k (op1 none)).op 1 = some (op1 none)) ∧
    (acked0 .atomic (op1 none)).holds = [] ∧ ((rs0 .atomic).lanes.map (·.lane)).Nodup ∧ (op1 (some 0)).flag ≠ none ∧ (op1 none).parts ≤ 1 ∧ ((held (acked0 .grid (op1 none)) (.gsync o0) (.gridOp 1)).group 0).wait = some (wait0 (.gsync o0) (.gridOp 1)) ∧ w0.resident 0 = true ∧
    ((comb0 64).cluster 0).combine.length = 1 ∧ (0 : Int) + 64 ≤ ((comb0 64).cluster 0).cycles ∧ ¬ (0 : Int) + 64 ≤ ((comb0 63).cluster 0).cycles ∧
    (∀ st ∈ [Stage.reply, .toSlice], ({ rs0 .load with slice := 32, stage := st } : Req).moving = true) ∧ dieOfCore 0 ≠ 32 / 32 ∧ (rs0 .load).core ≠ noCore ∧ (rs0 .load).drain = none ∧ (rs0 .load).ops = [1] := by decide

/-- A line whose first 16 bytes are the state of a barrier of which two of three groups have arrived. -/
def grid0 (res : Byte) : L2Line := { line0 with data := [(0, 2), (4, 3), (8, 7), (12, res)] }
def gridS : State := { w0.modSlice 0 (fun x => { x with lines := [(lineKey 0 0, grid0 0)] }) with reqs := [(0, rs0 .grid)] }
/-- A continuation to node 0, which takes its record. -/
def rAc : Req := { rs0 .acont with atom := { handle := 0x80000000 } }
def acS (n : Nat) : State := { (w0.modContext 0 (fun c => { c with ncount := 1, nodes := [(0, { v := true, en := true, mode := 1, rsz := 1 })] })).modSlice 0 (fun x => { x with lines := [(lineKey 0 0, line0)], slq := List.replicate n { owner := 9, ctx := 0, handle := 0 } }) with reqs := [(0, rAc)] }
theorem witness_SliceAtomics :
    (atS .atomic).replayOf (rs0 .atomic) = none ∧ ((atS .atomic).slice 0).replay.length < 64 ∧ ((acS 0).slice 0).waiting = [] ∧ (rs0 .atomic).lanes = [⟨0, 0, 3, 4⟩] ∧ ((rs0 .addOnStore).bytes.map (·.1)).Nodup ∧ thereB (acS 0) rAc = true ∧ (acS 0).hitLine rAc = some line0 ∧
    ((acS 0).slice 0).slq.length < 32 ∧ (acS 0).acontCheck rAc 1 = none ∧ thereB (acS 32) rAc = true ∧ 32 < ((acS 32).slice 0).slq.length + 1 ∧ thereB gridS (rs0 .grid) = true ∧ gridS.hitLine (rs0 .grid) = some (grid0 0) ∧
    ((List.range 4).map (fun j => (gridS.lineByte (grid0 0) (12 + j)).toNat * 256 ^ j)).sum = 0 ∧ ((List.range 4).map (fun j => (gridS.lineByte (grid0 0) (4 + j)).toNat * 256 ^ j)).sum = 3 ∧ ((List.range 4).map (fun j => (gridS.lineByte (grid0 0) j).toNat * 256 ^ j)).sum = 2 := by decide

/-- Request 0 at a walker, with its page cached or not, and one that waits for memory. -/
def walk0 (s : State) (k : ReqKind) : State := { s with reqs := [(0, { rs0 k with stage := .walk })], ops := [(1, op1 none)], nextId := 2 }
def fetch0 (s : State) : State := { s with reqs := [(0, { rs0 .load with stage := .fetch })] }
/-- A line whose memory stands at die 1, behind the ports that are closed. -/
def afar : L2Line := { line0 with machine := 2 ^ 49 }
theorem witness_SliceTranslates :
    (walk0 (page0 w0) .load).req 0 = some { rs0 .load with stage := .walk } ∧ w0.swapStalls 0 0 = false ∧ (rs0 .load).tenant = (w0.context 0).tenant ∧ okB ((page0 w0).translate 0 0 0 false { rd := true } .load) = true ∧ okB ((page0 w0).translate 0 0 0 false { wr := true } .store) = true ∧
    ((miss .load).slice 0).line 0 0 = none ∧ ((atS .load).slice 0).line 0 0 = some line0 ∧ faultOf (w0.translate 0 0 0 false { rd := true } .load) ≠ 0 ∧ (walk0 w0 .load).op 1 = some (op1 none) ∧ (rs0 .load).drain = none ∧
    (fetch0 (atS .load)).req 0 = some { rs0 .load with stage := .fetch } ∧ line0.valid < 16 ∧ (rs0 .load).wants < 16 ∧ ¬ ((rs0 .load).kind = .prefetch ∧ (rs0 .load).core = noCore) ∧ ((fetch0 (miss .load)).slice 0).line 0 0 = none := by decide

theorem witness_SliceTranslates_memory : (∀ d, (w0.die d).errors = []) ∧ (placeOf line0.machine).1 = 0 ∧ w0.crossing 0 0 0 0 (some 0) = none ∧ (placeOf afar.machine).1 ≠ 0 ∧ (w0.crossing 0 (placeOf afar.machine).1 0 0 (some afar.machine)).isSome = true ∧
    (∀ inv l2, (rs0 .load).kind ≠ .check inv l2) := by
  refine ⟨fun d => rfl, by decide, by decide, by decide, by decide, fun _ _ h => (by cases h)⟩

/-- An operation of the matrix unit at the head of core 0's queue. -/
def mx0 (k : MxWork) (o : Op) : State := { (sp0.modCore 0 (fun c => { c with mx := [{ op := 1, gid := 0, team := 0, work := k, rows := List.replicate 32 0 }] })) with ops := [(1, o)], nextId := 2 }
def opMx (n : Nat) : Op := { gid := 0, instr := .mma oMma, flag := some 0, path := some 3, parts := n }
def mmaW (p : Nat) : MxWork := .mma 1 p false false [] 0 none
def dr0 (pinned : Bool) (faulted : List (Nat × Flt)) : Drain := { op := 2, gid := 0, team := 0, ctx := 0, tenant := 0, pinned := pinned, dest := 1, base := 0, stride := 128, fmt := 0, add := false, faulted := faulted, rows := [], pc := 0 }
def drS (pinned : Bool) (faulted : List (Nat × Flt)) : State := (mx0 (.drepl 0 0) (opMx 1)).modCore 0 (fun c => { c with drain := [(0, dr0 pinned faulted)] })
theorem witness_MatrixUnit :
    (∀ w ∈ [mmaW 0, mmaW 10, MxWork.aclr 1, .amov 4 1 0 2, .aload 1 false true, .atbl 0 0], ((mx0 w (opMx 1)).nextMx 0).isSome = true ∧ (mx0 w (opMx 1)).op 1 = some (opMx 1)) ∧ (opMx 1).flag ≠ none ∧ (opMx 1).parts = 1 ∧ (List.replicate 32 0).length = 32 ∧
    (sp0.team 0).gids.any (·.isSome) = true ∧ (opMx 2).parts ≠ 1 ∧ ((mx0 (.atbl 0 0) (opMx 2)).nextMx 0).isSome = true ∧ ((drS false []).nextMx 0).isSome = true ∧ tfind 0 ((drS false []).core 0).drain = some (dr0 false []) ∧ (dr0 false []).pinned = false ∧
    tfind 0 ((drS true [(3, ⟨3, 0⟩)]).core 0).drain = some (dr0 true [(3, ⟨3, 0⟩)]) ∧ (drS true [(3, ⟨3, 0⟩)]).holds = [] ∧ (drS true [(3, ⟨3, 0⟩)]).mayReplay 0 (dr0 true [(3, ⟨3, 0⟩)]) = true ∧
    ({ opMx 0 with dest := .cells [(⟨0, 128⟩, 7)] } : Op).results = [(⟨0, 128⟩, 7)] ∧ ((opMx 0).dest = .none) := by decide

/-- The Q4X pairs, and a product that is scaled. -/
theorem witness_MatrixUnit_pairs :
    (∀ p ∈ [0, 5, 6, 10, 11, 12, 13], ((mx0 (mmaW p) (opMx 1)).nextMx 0).isSome = true ∧ (mx0 (mmaW p) (opMx 1)).op 1 = some (opMx 1) ∧ ((mx0 (.mma 1 p false false [] 0 (some ([], [], 2))) (opMx 1)).nextMx 0).isSome = true) ∧ (opMx 1).gid = 0 := by decide

/-- An ALOAD whose words have come. -/
def loaded0 : State := { (sp0.modCore 0 (fun c => { c with mx := [{ op := 1, gid := 0, team := 0, work := .aload 1 false true, rows := List.replicate 1024 0 }] })) with ops := [(1, opMx 1)], nextId := 2 }
theorem witness_MatrixUnit_loads : ((loaded0.nextMx 0).map (fun x => x.rows)) = some (List.replicate 1024 0) ∧ (List.replicate 1024 0).length = 1024 := ⟨by rfl, List.length_replicate⟩

/-- A drain at the head of the queue with entry 0 free; an entry whose row `i` is next. -/
def drW (dest : Nat) : MxWork := .drain 1 dest 0 128 0 false false 0 0 []
def rowS (d : Drain) : State := sp0.modCore 0 (fun c => { c with drain := [(0, d)] })
def dr1 (dest i : Nat) : Drain := { op := 2, gid := 0, team := 0, ctx := 0, tenant := 0, dest := dest, base := 4, stride := 128, fmt := 0, add := false, mask := 2 ^ i - 1, rows := List.replicate 32 [5, 6], pc := 0 }

def fourFree (s : State) : Bool := (tfind 0 (s.core 0).drain).isNone
theorem witness_DrainBuffer :
    (∀ d ∈ [0, 1, 2], ((mx0 (drW d) (opMx 1)).nextMx 0).isSome = true ∧ (mx0 (drW d) (opMx 1)).op 1 = some (opMx 1)) ∧ fourFree (mx0 (drW 0) (opMx 1)) = true ∧ (mx0 (drW 1) (opMx 1)).holds = [] ∧
    (∀ d ∈ [dr1 0 0, dr1 0 30, dr1 2 3, dr1 1 3, dr1 1 31], tfind 0 ((rowS d).core 0).drain = some d) ∧ (dr1 0 30).mask = 2 ^ 30 - 1 ∧ (dr1 0 30).add = false ∧ (dr1 1 3).mask.testBit 3 = false ∧ (rowS (dr1 1 3)).reqs = [] ∧ (dr1 1 3).faulted = [] ∧
    ((rowS { dr1 0 3 with add := true }).modCore 0 (fun c => { c with poison := [(sp0.team 0).spWord 388] })).holds = [] ∧ ((rowS { dr1 0 3 with add := true }).modCore 0 (fun c => { c with poison := [(sp0.team 0).spWord 388] })).spPoison 0 [4 + 3 * 128] ≠ none ∧
    (dr1 1 3).mask ||| 2 ^ 3 ≠ 2 ^ 32 - 1 ∧ (dr1 1 31).mask ||| 2 ^ 31 = 2 ^ 32 - 1 ∧ (rowS (dr1 1 31)).holds = [] ∧ (dr1 1 3).mask.testBit 1 = true ∧ (dr1 0 3).mask ≠ 2 ^ 5 - 1 := by decide

/-- An entry that DREPL of operation 5 replays: rows 0 to 2 performed, all from row 4 faulted again, row 3 on its way. -/
def dr5 : Drain := { dr1 1 3 with replayer := some 5, faulted := (List.range 28).map (fun k => (k + 4, ⟨3, 0⟩)) }
def replayS : State := { rowS dr5 with ops := [(5, opMx 1 |> fun o => { o with flag := none })] }
theorem witness_DrainBuffer_replay :
    tfind 0 (replayS.core 0).drain = some dr5 ∧ (∀ f ∈ dr5.faulted, f.1 ≠ 3) ∧ replayS.holds = [] ∧ replayS.reqs = [] ∧ dr5.mask.testBit 3 = false ∧ (∀ j, j < 32 → j ≠ 3 → dr5.mask.testBit j = true ∨ ∃ f ∈ dr5.faulted, f.1 = j) ∧ 5 ≠ dr5.op ∧
    (replayS.op 5).map (fun z => (z.parts, z.flag, decide (z.dest = .none))) = some (1, none, true) ∧ (dr1 1 3).replayer = none := by decide

/-! ### Witnesses: engines -/

/-- A copy of 16 bytes from global memory at 0 to the scratchpad at 0x100 or back, its piece, and a copy at the head of the kick queue. -/
def cp (ssp dsp : Bool) : Copy := { op := 1, gid := 0, team := 0, ctx := 0, tenant := 0, scope := 2, req := 0, saddr := 0, daddr := if dsp then 0x100 else 0, spy := 0, spz := 0, dpy := 0, dpz := 0, x := 16, y := 1, z := 1, bar := none, ssp := ssp, dsp := dsp }
def piece0 (ssp dsp : Bool) : Piece := { copy := cp ssp dsp, engine := 0, next := 3, stop := 16 }
def pieceS (ssp dsp : Bool) : State := (page0 sp0).modDie 0 (fun d => { d with pieces := [(7, piece0 ssp dsp)] })
def kickS (halt : Bool) : State := (sp0.modCore 0 (fun k => { k with kicks := [cp false true] })).modContext 0 (fun c => { c with hb := { c.hb with halt := halt } })
def bare (s : State) : State := s.modSlice 0 (fun x => { x with lines := [] })
/-- A row of 16 bytes of a gather or scatter, and a collective of rank 0 with one remote rank. -/
def ga (scatter : Bool) : Gather := { op := 1, gid := 0, team := 0, ctx := 0, tenant := 0, scope := 2, scatter := scatter, len := 16, rows := [(5, 0, 0x100)], left := [5] }
def gaS (scatter : Bool) (s : State) : State := s.modCore 0 (fun k => { k with gathers := [ga scatter] })
def coll (kind : Nat) : Collective := { op := 1, gid := 0, team := 0, ctx := 0, tenant := 0, scope := 2, req := 0, inp := 64, out := 96, comm := 0, count := 4, rank := 0, root := 1, seq := 0, opc := 0, type := 2, kind := kind, bar := none }
/-- The communicator of two ranks: die 0 of module 0 and die 0 of module 1. -/
def collS (kind : Nat) : State := { (page0 (bare sp0)).modDie 0 (fun d => { d with colls := [coll kind] }) with mem := [(0, 2), (24, 1)] }
def remote1 (kind root : Nat) : List RankInput := [{ rank := 1, seq := 0, kind := BitVec.ofNat 8 kind, op := 0, type := 2, count := 4, root := BitVec.ofNat 32 root, data := List.replicate 16 7 }]
def arrives (kind : Nat) (l : List RankInput) (r : Nat) (m : Nat × Nat) : Nat := match (collS kind).memberOf (coll kind) l r m with
  | .absent => 0
  | .mismatch => 1
  | .fault _ => 2
  | .input _ _ => 3
def twoRanks (k : Nat) : Bool := match (collS k).members (coll k) with
  | .ok (some l) => decide (l = [(0, 0), (1, 0)])
  | _ => false
theorem witness_EngineWork :
    (piece0 false true).held = none ∧ (cp false true).hint < 2 ∧ (gaS false (page0 sp0)).swapStallsAt 0 0 16 = false ∧ (kickS true).halted 0 = true ∧
    ((kickS false).core 0).kicks = [cp false true] ∧ ((kickS false).context 0).hb.halt = false ∧ ((kickS true).context 0).hb.halt = true ∧
    (pieceS false true).dies.map (·.1) = [0] ∧ tfind 7 ((pieceS false true).die 0).pieces = some (piece0 false true) ∧ ((pieceS false true).context 0).hb.halt = false ∧ (pieceS false true).swapStalls 0 3 = false ∧
    okB ((pieceS false true).engineByte 0 0 false 3) = true ∧ okB ((pieceS false true).engineWrite 0 0 true [(0x103, 0)]) = true ∧ okB ((pieceS true false).engineByte 0 0 true 3) = true ∧ okB ((pieceS true false).engineWrite 0 0 false [(3, 0)]) = true ∧
    ((pieceS true false).context 0).rd.en = false ∧ ((pieceS true false).team 0).gids.any (·.isSome) = true ∧ faultOf (((bare sp0).modDie 0 (fun d => { d with pieces := [(7, piece0 false true)] })).engineByte 0 0 false 3) ∉ [0, 16] ∧
    ((gaS false (page0 sp0)).core 0).gathers = [ga false] ∧ (gaS false (page0 sp0)).cores.map (·.1) = [0] ∧ (gaS false (page0 sp0)).swapStalls 0 0 = false ∧ (gaS false (page0 sp0)).swapStalls 0 15 = false ∧
    (∀ j ∈ List.range 16, okB ((gaS false (page0 sp0)).engineByte 0 0 false (j : Int)) = true ∧ okB ((gaS true (page0 sp0)).engineByte 0 0 true (0x100 + j : Int)) = true) ∧ okB ((gaS true (page0 sp0)).engineWrite 0 0 false ((List.range 16).map (fun j => (j, 0)))) = true ∧
    faultOf ((gaS false (bare sp0)).engineByte 0 0 false 0) ∉ [0, 16] := by decide

set_option maxRecDepth 20000 in
theorem witness_EngineWork_collectives :
    (∀ k ∈ [0, 1, 2, 3], (collS k).dies.flatMap (fun d => d.2.colls) = [coll k] ∧ twoRanks k = true ∧ arrives k (remote1 k 1) 0 (0, 0) = 3 ∧ arrives k (remote1 k 1) 1 (1, 0) = 3 ∧ arrives k [] 1 (1, 0) = 0 ∧ arrives k (remote1 k 0) 1 (1, 0) = 1) ∧
    ((collS 0).peer (coll 0) 0 0).map (·.op) = some 1 ∧ (collS 0).swapStalls 0 0 = false ∧ (collS 0).collStalls (coll 0) 2 0 = false ∧ (coll 0).held = none ∧
    (collS 0).swapStalls 0 64 = false ∧ (collS 0).swapStalls 0 96 = false ∧ (collS 0).commStalls (coll 0) = false ∧ (collS 0).hub.noWay 1 0 = some (fLink 0 2 true 0) ∧ (links0 (collS 0) [(1, 0)] []).hub.noWay 1 0 = none ∧ (0 : Nat) = (collS 0).hub.module ∧ (collS 0).barPoison 0 none = none ∧
    okB ((((collS 0).commTook (coll 0)).inputsTook (coll 0) ((collS 0).ownRanks [(0, 0), (1, 0)])).engineWrite 0 0 false ((List.range 16).map (fun j => (96 + j, 0)))) = true ∧ (collReduce 0 2 4 [List.replicate 16 7, List.replicate 16 9]).length = 16 := by decide

/-! ### Witnesses: task units and the scheduler -/

/-- Queue 0 of context 0 at address 0, whose record launches one team of one group; the record's words that are not zero. -/
def recBytes (gx : Byte) : Table Byte := [(0x10, gx), (0x14, 1), (0x16, 1), (0x18, 1), (0x1A, 1), (0x3C, 1)]
def lqS (gx : Byte) (mapped : Bool) : State := { ((if mapped then page0 w0 else bare w0).modContext 0 (fun c => { c with queues := [(0, { base := 0, logn := 0, en := true })], queuesAt := 64 })) with mem := recBytes gx }
def lq1 : Launch := { grp := 1, mask := 7 }
def gr1 (chosen dep : Bool) (next retired : Nat) : Grid := { ctx := 0, die := 0, launch := { lq1 with dep := dep }, depOk := !dep, chosen := chosen, nextTeam := next, retired := retired }
def gridsS (l : Table Grid) (now : Nat) : State := { ((page0 w0).modHub (fun h => { h with pt := [(0, { v := true, dies := 1, s2root := 0 })] })) with groups := [], teams := [], grids := l, devTime := now, nextId := 9 }
def reads (s : State) (va n : Nat) : Option Nat := (s.readRun 0 va n .engineRead (some (s.queueDie 0))).1.toOption
def answers (s : State) (w : Nat) : Bool := match (s.readRun 0 0 64 .engineRead (some (s.queueDie 0))).2.writeCtx 0 0x3C w 4 .engineWrite (some (s.queueDie 0)) with
  | .error _ => false
  | .ok u => match u.writeCtx 0 (64 + 0x10) 1 4 .engineWrite (some (s.queueDie 0)) with
    | .error _ => false
    | .ok v => decide (v.contexts = s.contexts)
set_option maxRecDepth 20000 in
theorem witness_LaunchRecords :
    ((lqS 1 true).context 0).hb.halt = false ∧ (tget {} 0 ((lqS 1 true).context 0).queues).en = true ∧ (lqS 1 true).waiting 0 0 = false ∧ reads (lqS 1 true) 0x3C 4 = some 1 ∧ ((reads (lqS 1 true) 0 64).map (fun x => rejects x ((lqS 1 true).context 0))) = some none ∧
    ((reads (lqS 0 true) 0 64).map (fun x => rejects x ((lqS 0 true).context 0))) = some (some 2) ∧ answers (lqS 1 true) 0 = true ∧ answers (lqS 0 true) (2 ^ 31 + 2) = true ∧ reads { lqS 1 true with mem := [] } 0x3C 4 = some 0 ∧ (tget {} 0 (w0.context 0).queues).en = false ∧
    reads (lqS 1 false) 0x3C 4 = none ∧ (lqS 1 true).swapStalls 0 0 = false ∧ (lqS 1 true).swapStalls 0 (64 + 0x10) = false ∧ (gridsS [(3, gr1 false true 0 0)] 0).swapStalls 0 0 = false ∧ reads { gridsS [(3, gr1 false true 0 0)] 0 with slices := [] } 0 4 = none := by decide

theorem witness_LaunchRecords_service :
    tfind 3 (gridsS [(3, gr1 false true 0 0)] 0).grids = some (gr1 false true 0 0) ∧ (gr1 false true 0 0).depOk = false ∧ reads (gridsS [(3, gr1 false true 0 0)] 0) 0 4 = some 0 ∧ (gr1 false false 0 0).depOk = true ∧
    (gridsS [(3, gr1 false false 0 0)] 0).readyGrids 0 0 = [(3, gr1 false false 0 0)] ∧ (gridsS [] 0).readyGrids 0 0 = [] ∧ (gridsS [(3, gr1 true false 0 0)] 100000).serving 0 0 = some (3, { gr1 true false 0 0 with eff := 1 }) ∧
    tfind 0 ((gridsS [] 0).context 0).reserved = none ∧ (gr1 true false 0 0).waitSince + 100000 ≤ (gridsS [(3, gr1 true false 0 0)] 100000).ctxTime 0 ∧ (gridsS [] 0).coresOf 0 ≠ [] ∧
    (gr1 true false 1 1).launch.teams ≤ 1 ∧ (gr1 true false 1 1).doneAt = none ∧ (gr1 true false 1 1).complete = false ∧ (gridsS [] 0).reqs = [] ∧ ¬ (gr1 true false 0 0).launch.teams ≤ 0 := by decide

/-- A grid whose teams have retired, its completion begun at request 8: a store of a core of it, and a write-back. -/
def grW (complete : Bool) : Grid := { gr1 true false 1 1 with cores := [0], doneAt := some 8, complete := complete }
def wroteS (complete : Bool) (l : Table Req) : State := { gridsS [(3, grW complete)] 0 with reqs := l }
theorem witness_LaunchRecords_writes :
    tfind 3 (wroteS false []).grids = some (grW false) ∧ (wroteS false [(0, { rs0 .store with core := 0 })]).gridWrites (grW false) 8 = true ∧ (wroteS false []).gridWrites (grW false) 8 = false ∧ (grW true).complete = true ∧ (wroteS true [(9, { rs0 .writeback with core := 0 })]).gridWrites (grW true) 8 = false ∧
    (rs0 .writeback).kind = .writeback ∧ (rs0 .writeback).tenant = ((wroteS true []).context 0).tenant ∧ 0 ∈ (grW true).cores := by decide

set_option maxRecDepth 20000 in
theorem witness_TeamStarts :
    (gridsS [(3, gr1 true false 0 0)] 0).leavingTeams 0 = [] ∧ ((gridsS [(3, gr1 true false 0 0)] 0).context 0).hb.halt = false ∧ ((gridsS [(3, gr1 true false 0 0)] 0).context 0).hb.preempt = false ∧ ((gridsS [(3, gr1 true false 0 0)] 0).context 0).sliceEnded = false ∧
    (gridsS [(3, gr1 true false 0 0)] 0).serving 0 0 = some (3, gr1 true false 0 0) ∧ (gridsS [(3, gr1 true false 0 0)] 0).resumesFirst 0 0 = false ∧ (gridsS [(3, gr1 true false 0 0)] 0).teamCore 3 = some 0 ∧ (gr1 true false 0 0).fired = false ∧ lq1.dep = false ∧ lq1.hint = 0 ∧ lq1.ptm = 0 ∧
    lq1.grp ≤ ((List.range 64).filter (fun k => !(gridsS [(3, gr1 true false 0 0)] 0).resident (64 * 0 + k))).length := by decide

def timed (n : Node) (now : Nat) : State := { node0.modNode 0 0 (fun _ => n) with devTime := now }
def nTimed : Node := { v := true, en := true, mode := 1, bin := [rec4 7], timer := 5, started := some 0 }
/-- Two nodes of ring 2: node 0 too deep, node 1 too shallow with a governed group. -/
def nDeep : Node := { v := true, en := true, mode := 1, ring := some 2, lo := 1, hi := 2, bin := [rec4 1, rec4 2, rec4 3] }
def nLow : Node := { v := true, en := true, mode := 1, ring := some 2, lo := 1, hi := 2 }
def govS (now : Nat) : State := { (node0.modContext 0 (fun c => { c with nodes := [(0, nDeep), (1, nLow)] })).modGroup 0 (fun g => { g with bind := { node := some 1, governed := true } }) with devTime := now }
def slqS : State := (timed nOpen 0).modSlice 0 (fun x => { x with slq := [{ owner := 0, ctx := 0, handle := 0x80000000, record := some (rec4 5) }] })
theorem witness_TaskTimers :
    (timed nTimed 5000).node 0 0 = nTimed ∧ 0 + 1000 * nTimed.timer ≤ (timed nTimed 5000).ctxTime 0 ∧ (timed nTimed 4999).ctxTime 0 < 0 + 1000 * nTimed.timer ∧ ((timed nTimed 5000).context 0).hb.halt = false ∧ (timed nTimed 5000).deqWaiters 0 0 = [] ∧ nTimed.due = false ∧
    ({ nTimed with mode := 0, count := 2, template := some {} } : Node).bin.length < 2 ∧ tget 0 0 ((govS 60000).context 0).govAt + 10000 ≤ (govS 60000).ctxTime 0 ∧ (∀ q ∈ List.range 16, q ≠ 2 → (govS 60000).ringNodes 0 0 q = []) ∧ (govS 60000).ringNodes 0 0 2 = [(0, nDeep), (1, nLow)] ∧
    nDeep.hi < nDeep.depth ∧ nLow.depth < nLow.lo ∧ (govS 60000).movable 0 1 = [(0, 0)] ∧ ((govS 60000).group 0).wait = none ∧ (govS 60000).deqWaiters 0 0 = [] ∧ ((govS 60000).node 0 0).mode ≠ 0 ∧ (govS 9999).ctxTime 0 < tget 0 0 ((govS 9999).context 0).govAt + 10000 ∧
    ((held (bound0 nOpen) (.deqt o0) (.deq 0 (some 0))).group 0).wait = some (wait0 (.deqt o0) (.deq 0 (some 0))) ∧ ((held (bound0 nOpen) (.deqt o0) (.deq 0 (some 0))).group 0).bind.node = some 0 ∧ 0 ≤ (held (bound0 nOpen) (.deqt o0) (.deq 0 (some 0))).ctxTime 0 ∧
    (slqS.slice 0).slq.find? (fun e => e.record.isSome && !(slqS.context e.ctx).hb.halt) = some { owner := 0, ctx := 0, handle := 0x80000000, record := some (rec4 5) } ∧ (slqS.node 0 (nodeKey 0x80000000)).mode = 1 ∧ slqS.deqWaiters 0 0 = [] := by decide

/-- Router 0 of two stages at node 1, with its exit and reject at node 0. -/
def rt (ev : List RouterEvent) : Router := { ctx := 0, set := 0, entry := 1, stages := 2, lottery := false, depth := false, logw := 0, rejv := true, exitN := 0x80000000, reject := 0x80000000, cost := [0, 0], write := [0, 0], seed := 1, weight := [5, 9], events := ev }
def rtS (ev : List RouterEvent) (rejv : Bool) : State := (((node0.modContext 0 (fun c => { c with ncount := 4 })).modNode 0 0 (fun _ => nOpen)).modNode 0 3 (fun _ => nOpen)).modDie 0 (fun d => { d with routers := [(0, { rt ev with rejv := rejv })] })
def takesB (s : State) (h : Word) : Bool := decide (h.getLsbD 31 = true ∧ h.toNat / 2 ^ 18 % 2 ^ 13 = s.hub.module ∧ nodeKey h % 4096 < (s.context 0).ncount ∧ s.refuses 0 (nodeKey h) 1 = none ∧ (s.node 0 (nodeKey h)).mode ≠ 0 ∧ (s.node 0 (nodeKey h)).mode ≠ 2 ∧ s.deqWaiters 0 (nodeKey h) = [])
theorem witness_RouterSteps :
    (∀ e ∈ [RouterEvent.entry none (rec4 0), .pass none 1 (rec4 1) (rec4 2) 5, .rej none 0 (rec4 0) (rec4 2) 5], tfind 0 ((rtS [e] true).die 0).routers = some (rt [e]) ∧ ((rtS [e] true).context 0).hb.halt = false ∧ takesB (rtS [e] true) 0x80000000 = true ∧ takesB (rtS [e] true) ((rtS [e] true).nodeHandle 3) = true) ∧
    (rt []).lottery = false ∧ 0 < (rt []).stages ∧ (1 : Nat) % 2 ^ 9 ||| 2 ^ 1 = 2 ^ 2 - 1 ∧ (tfind 0 ((rtS [.rej none 0 (rec4 0) [] 0] false).die 0).routers).map (·.rejv) = some false := by decide

/-- A push of slot 0 of die 0 to node 0 of this module or from another, and its acknowledgement. -/
def pu : RemotePush := { die := 0, tenant := 0, handle := 0x80000000, slot := 0, port := 0, tag := 1 }
def nExp : Node := { nOpen with export_ := true }
def pushS (own : Bool) (n : Node) (kind : Nat) : State := { ((page0 node0).modContext 0 (fun c => { c with nodes := [(0, n)], outbox := if own then [(0, (1, 0x80000000, some 1))] else [] })).modDie 0 (fun d => { d with pulls := [(pu, own)], acks := [(1, kind)] }) with ops := [(1, op1 none)] }
theorem witness_RemotePushes :
    (0, 1) ∉ ((node0).die 0).tagsSeen ∧ (0, 1) ∈ ((node0.modDie 0 (fun d => { d with tagsSeen := [(0, 1)] })).die 0).tagsSeen ∧ node0.ownPush pu = none ∧ ((pushS true nExp 0).die 0).pulls = [(pu, true)] ∧ (pushS true nExp 0).ownPush pu = some (0, 0, 1) ∧
    okB ((pushS true nExp 0).pullRecord 0 0 0) = true ∧ (pushS true nExp 0).remoteRefuses 0 0x80000000 = none ∧ (pushS true nOpen 0).remoteRefuses 0 0x80000000 = some 2 ∧ ((pushS true nExp 0).node 0 0).mode = 1 ∧ (pushS true nExp 0).deqWaiters 0 0 = [] ∧
    (pushS false nExp 0).ownPush pu = none ∧ (pushS false nExp 0).tenantContext 0 = some 0 ∧ (pushS false nExp 0).remoteRefuses 0 0x80000000 = none ∧ (pushS true nExp 0).outboxOf 1 = some (0, 0, 0x80000000) ∧ (1, 0) ∈ ((pushS true nExp 0).die 0).acks ∧
    (pushS true nExp 3).outboxOf 1 = some (0, 0, 0x80000000) ∧ (1, 3) ∈ ((pushS true nExp 3).die 0).acks ∧ (pushS true nExp 3).op 1 = some (op1 none) ∧ (pushS true nExp 3).resident 0 = true ∧ ((pushS true nExp 3).group 0).stop.cause = 0 ∧ (op1 none).path ≠ none ∧ (pushS true nExp 3).holds = [] := by decide

def blank (s : State) : State := s.modSlice 0 (fun x => { x with lines := [], tlb := [] })
/-- A push of another module that is refused, and one of this module whose record cannot be read. -/
theorem witness_RemotePushes_refused :
    (pushS false nOpen 0).ownPush pu = none ∧ (pushS false nOpen 0).tenantContext 0 = some 0 ∧ (pushS false nOpen 0).remoteRefuses 0 0x80000000 = some 2 ∧ ((pushS false nOpen 0).die 0).pulls = [(pu, false)] ∧
    okB ((blank (pushS true nExp 0)).pullRecord 0 0 0) = false ∧ (blank (pushS true nExp 0)).ownPush pu = some (0, 0, 1) ∧ ((blank (pushS true nExp 0)).die 0).pulls = [(pu, true)] := by decide

/-! ### Witnesses: clocks, pages and halts -/

def clk (f : Cluster → Cluster) : State := sp0.modCluster 0 f
def kept0 (now : Nat) : State := { sp0.modTeam 0 (fun m => { m with opReq := 3, opTime := 1, opKept := some 5 }) with devTime := now }
def hot0 (since : Option Nat) (now : Nat) : State := { sp0.modDie 0 (fun d => { d with bwHot := true, bwSince := since }) with devTime := now }
theorem witness_PowerAndClocks :
    ((clk (fun c => { c with relock := some 3, setPoint := 3 })).cluster 0).relock = some 3 ∧ (kept0 0).requested 0 = some 3 ∧ (tfind 0 (kept0 0).teams).isSome = true ∧ dieOfCore ((kept0 0).team 0).core = 0 / 8 ∧ (∀ j, j < 8 → 8 * 0 + j ≠ 0 → ((kept0 0).cluster (8 * 0 + j)).relock = none) ∧
    (sp0.cluster 0).relock = none ∧ ((kept0 200001).team 0).opKept = some 5 ∧ 1 + 200000 ≤ (kept0 200001).devTime ∧ (kept0 200000).devTime < 1 + 200000 ∧ ((clk (fun c => { c with nextBudget := some 9 })).cluster 0).turn = 0 ∧ ((clk (fun c => { c with nextBudget := some 9 })).cluster 0).cycles % 16 = 0 ∧
    0 < ((clk (fun c => { c with nextBudget := some 9, turn := 1 })).cluster 0).turn ∧ (sp0.cluster 0).drpThr ≠ 0 ∧ (sp0.cluster 0).stretch = 0 ∧ (sp0.cluster 0).alarm = false ∧ ((clk (fun c => { c with drpThr := 0 })).cluster 0).drpThr = 0 ∧ ((clk (fun c => { c with halving := 1, turn := 32 })).cluster 0).halving = 1 ∧
    32 ≤ ((clk (fun c => { c with halving := 1, turn := 32 })).cluster 0).turn ∧ ({ sp0 with devTime := 2000 } : State).hub.epoch + 2000 ≤ 2000 ∧ sp0.hub.pwShare = [] ∧ (sp0.cluster 3).moved = [] ∧ (∀ d ∈ sp0.dies, d.2.bwHot = false) ∧ sp0.throttled = false ∧ sp0.devTime < sp0.hub.epoch + 2000 ∧
    (5 : Nat) ≠ sp0.hub.module ∧ (sp0.die 0).bwThr < 0xFFF ∧ node0.partitionOf 0 = some 0 ∧ (sp0.die 0).bwHot = false ∧ 0 ≤ (sp0.die 0).bwThr ∧ ((hot0 (some 0) 1000000).die 0).bwHot = true ∧ 0 + 1000000 ≤ (hot0 (some 0) 1000000).devTime ∧ (hot0 (some 0) 999999).devTime < 0 + 1000000 ∧
    ((hot0 none 0).die 0).bwSince = none := by decide

/-- A tenant with the whole of the power of level 1 that lost every window of its one cluster, at the end of an epoch. -/
def ruled0 : State := { clk (fun c => { c with lostWindows := [true] }) |>.modHub (fun h => { h with pwShare := [(0, 2 ^ 31 + 1024 + 2 ^ 32)] }) with devTime := 2000 }
theorem witness_PowerAndClocks_epoch :
    ruled0.hub.epoch + 2000 ≤ ruled0.devTime ∧ ruled0.hub.meets = [] ∧ (∀ c ∈ ruled0.clusters, c.2.setting = none ∧ c.2.moved = [] ∧ c.2.chase = 0 ∧ c.2.full = none) ∧ (∀ d ∈ ruled0.dies, d.2.bwHot = false) ∧ ruled0.throttled = true ∧ ruled0.tenantShares = [(0, 1024)] ∧ ruled0.demanding 0 = true ∧ (ruled0.die 0).bwHot = false ∧ (0, 0, 1024) ∈ ruled0.ruled := by decide

/-- A module that is throttled, with a communicator whose episodes took 64, 192 and 320 ns. -/
theorem witness_PowerAndClocks_deficit :
    ruled0.throttled = true ∧ ({ past := [([], 64), ([], 192), ([], 320)], coll := true } : Meet).coll = true ∧ min 0xFFFF (({ past := [([], 64), ([], 192), ([], 320)], coll := true } : Meet).extra / 64) = 2 ∧ sp0.throttled = false := by decide

/-- Stage-2 tables of partition 0: the root at 0x10000, whose entry 0 names 0x20000, whose entry 0 names 0x40000; there page 0 lies in LPDDR6
and page 1 in HBM4E, both with MG. -/
def slowPage : Nat := 0x1000000000000
def fastPage : Nat := 0x60000
def leaf (ma : Nat) : Nat := 1 + 7 * 16 + 2 ^ 58 + ma
def word8 (a x : Nat) : Table Byte := (bytesAt a x 8).filter (fun b => b.2 ≠ 0)
def tables0 : State := { w0.modHub (fun h => { h with pt := [(0, { v := true, dies := 1, s2root := 0x10000 })] }) with mem := word8 0x10000 0x20003 ++ word8 0x20000 0x40003 ++ word8 0x40000 (leaf slowPage) ++ word8 0x40008 (leaf fastPage), slices := [] }
def epochS (ctl : Nat) (l : List ((Nat × Nat) × Nat)) (sw : List (Nat × Nat × Nat)) : State := { tables0.modDie 0 (fun d => { d with hptCtl := ctl, hptSlow := l, swaps := sw }) with devTime := 100000 }
theorem witness_PageTracker_pages :
    Memory.wf tables0.mem = true ∧ (tables0.mapPage 0 0).map (·.machine) = some slowPage ∧ (tables0.mapPage 0 1).map (·.machine) = some fastPage ∧ (tables0.mapPage 0 0).map (·.leafAt) = some 0x40000 ∧ (tables0.mapPage 0 1).map (·.leafAt) = some 0x40008 ∧
    (tables0.mapPage 0 0).map (fun m => isPinned m.leaf) = some false ∧ (placeOf slowPage).2 = true ∧ (placeOf fastPage).2 = false ∧ slowPage % 2 ^ 16 = 0 ∧ fastPage % 2 ^ 16 = 0 ∧ slowPage ≠ fastPage ∧ tables0.slices = [] ∧
    0x40000 / 2 ^ 16 ≠ slowPage / 2 ^ 16 ∧ 0x40008 / 2 ^ 16 ≠ fastPage / 2 ^ 16 ∧ 0x40000 / 2 ^ 16 ≠ fastPage / 2 ^ 16 := by decide

/-- Page 1 is among the mapped pages. -/
theorem witness_PageTracker_mapped : ∃ k ∈ (epochS 0x801 [((0, 0), 64)] []).mappedPages 0, k.page = 1 ∧ (placeOf k.machine).2 = false ∧ isPinned k.leaf = false := by
  refine ⟨⟨1, fastPage, 0x40008, leaf fastPage⟩, ?_, rfl, by decide, by decide⟩
  refine List.mem_flatMap.2 ⟨(0, 0x20000), ?_, List.mem_flatMap.2 ⟨(0, 0x40000), ?_, ?_⟩⟩
  · show _ ∈ State.subTables _ 0 0x10000 8192
    rw [State.subTables, if_neg (by decide)]
    exact List.mem_filterMap.2 ⟨0, List.mem_range.2 (by decide), by decide⟩
  · show _ ∈ State.subTables _ 1 0x20000 512
    rw [State.subTables, if_neg (by decide)]
    exact List.mem_filterMap.2 ⟨0, List.mem_range.2 (by decide), by decide⟩
  · rw [if_neg (by decide)]
    exact List.mem_filterMap.2 ⟨1, List.mem_range.2 (by decide), by rfl⟩

/-- The root of delegation holds every right (17 R328); the writer is level 0's. -/
def root (s : State) : State := s.modHub (fun h => { h with dl := [(0, { v := true, mask := 0x7FFF })] })
def wr : Writer := { level := 0, entry := 0, tenant := 0, ctx := 0 }
theorem witness_PageTracker_epochs :
    ((epochS 0x801 [((0, 0), 64)] []).die 0).hptCtl.testBit 0 = true ∧ ((epochS 0x801 [((0, 0), 64)] []).die 0).swaps = [] ∧ ((epochS 0x801 [((0, 0), 64)] []).die 0).hptSince + 1000 * ((epochS 0x801 [((0, 0), 64)] []).die 0).hptEpoch ≤ (epochS 0x801 [((0, 0), 64)] []).devTime ∧
    0 < nbits 0x801 8 8 ∧ ((epochS 0x801 [((0, 0), 64)] []).die 0).hptThr ≤ 64 ∧ nbits 0x001 8 8 = 0 ∧ (w0.die 0).hptCtl.testBit 0 = false ∧ ((epochS 0x801 [] [(0, 0, 1)]).die 0).swaps = [(0, 0, 1)] ∧ (w0.die 0).swaps = [] ∧
    (root w0).writerHolds wr 14 = true ∧ wr.level = 0 ∧ w0.writerHolds wr 14 = false := by decide

/-- Context 0 halted, its stop area at 0, which is mapped at every slice. -/
def pages (s : State) : State := (List.range 32).foldl (fun s k => s.modSlice k (fun l => { l with tlb := [{ tenant := 0, part := 0, vpage := 0, bits := 21, ppage := 0, mpage := 0, perm1 := 7, perm2 := 7, loc := false, al := false, lvl1 := 0, lvl2 := 0, pn := false, mg := false }] })) s
def halted0 (stopped : Bool) : State := { (root (pages (bare sp0))).modContext 0 (fun c => { c with hb := { c.hb with halt := true, stopped := stopped, first := 1 } }) with grant := none }
def watched (since : Nat) : State := { held sp0 (.bsyn o0) (.bar 3 false) with devTime := 10000000 - since }
set_option maxRecDepth 8000 in
theorem witness_HaltsTaken :
    (w0.context 0).hb.halt = false ∧ ((halted0 false).context 0).hb.halt = true ∧ w0.resident 0 = true ∧ (w0.group 0).stop.cause = 0 ∧ ((w0.modGroup 0 (fun g => { g with stop := { g.stop with cause := 3 } })).group 0).stop.cause ≠ 0 ∧ (w0.group 0).ctx = 0 ∧
    ((halted0 false).context 0).hb.stopped = false ∧ (halted0 false).settled 0 = true ∧ (halted0 false).contextGroups 0 = [0] ∧ (halted0 false).savedNow 0 = [] ∧ ((halted0 false).context 0).hb.recs = [] ∧ (halted0 false).heldWork 0 = [] ∧
    okB ((halted0 false).writeArea 0 0 (0 + 128 * 0) ((halted0 false).stopBytes 0)) = true ∧ ((halted0 true).context 0).hb.stopped = true ∧ ((watched 0).group 0).wait = some (wait0 (.bsyn o0) (.bar 3 false)) ∧ ((watched 0).context 0).hb.wdt ≠ 0 ∧
    1000 * ((watched 0).context 0).hb.wdt ≤ (watched 0).ctxTime 0 - 0 ∧ (watched 1).ctxTime 0 - 0 < 1000 * ((watched 1).context 0).hb.wdt ∧
    w0.going 0 ≠ [] ∧ (w0.raise 0 ⟨1, 0⟩ {}).mayIssue 0 = true ∧ ((w0.raise 0 ⟨1, 0⟩ {}).context 0).hb.halt = true := by decide

/-- A group whose palette is queued, and that goes on. -/
def queuedS (now : Nat) : State := { (palIn .queued).modGroup 0 (fun g => { g with palSince := some 0 }) with devTime := now }
theorem witness_HaltsTaken_palettes :
    ((queuedS 0).group 0).wait = none ∧ ((queuedS 0).group 0).pal = some 0 ∧ ((queuedS 0).group 0).palSince = some 0 ∧ (((queuedS 0).team ((queuedS 0).group 0).team).palette 0).state = .queued ∧ 1000 * ((queuedS 10000000).context 0).hb.wdt ≤ (queuedS 10000000).ctxTime 0 - 0 ∧
    (queuedS 9999999).ctxTime 0 - 0 < 1000 * ((queuedS 0).context 0).hb.wdt ∧ ((queuedS 0).context 0).hb.halt = false ∧ ((queuedS 0).context 0).hb.wdt ≠ 0 := by decide

/-- A group goes on after another agent's fault and stops at its own precise one (16 R304). -/
theorem test_skid :
    (w0.raise 0 ⟨1, 0⟩ {}).mayIssue 0 = true ∧ (w0.raise 0 ⟨1, 0⟩ { gid := some 0, precise := true }).mayIssue 0 = false ∧ (match stopGroup 0 0 (w0.raise 0 ⟨1, 0⟩ {}) with | .next t => t.mayIssue 0 | _ => true) = false := by decide

/-- The same with a stop record in memory: its two PCs and CTL. -/
def cmdS (pc ctl : Nat) (g : Group → Group) : State := { (halted0 true).modGroup 0 g with mem := (bytesAt 0 pc 8 ++ bytesAt 0x1C ctl 4).filter (fun b => b.2 ≠ 0) }
def stoppedAt (g : Group) : Group := { g with stop := { g.stop with cause := 3, precise := true, fpc := g.a.pc } }
def sent (s : State) (n : Nat) : State := s.modContext 0 (fun c => { c with hb := { c.hb with cmd := n } })
set_option maxRecDepth 8000 in
theorem witness_HaltCommands :
    (halted0 false).commands wr 0 = false ∧ (cmdS 0 0 id).commands wr 0 = true ∧ (cmdS 0 0 id).holds = [] ∧ (cmdS 0 0 id).reqs = [] ∧ ((cmdS 0 0 id).context 0).nodes = [] ∧ ((cmdS 0 0 id).context 0).outbox = [] ∧ (cmdS 0 0 id).dies = [] ∧ (∀ k ∈ (cmdS 0 0 id).cores, k.2.drain = []) ∧
    (cmdS 0 0 id).contextGroups 0 = [0] ∧ ((cmdS 0 0 id).group 0).ctx = 0 ∧ (cmdS 0 0 id).savedNow 0 = [] ∧ ((cmdS 0 0 id).group 0).stop.cause ≠ 17 ∧ ((cmdS 0 0 id).group 0).recordPc false = 0 ∧ ((cmdS 0 0 id).group 0).recordPc true = 0 ∧
    (sent (cmdS 0 0 id) 1).readStop 0 0 = (0, 0, 0) ∧ (sent (cmdS 0 0 id) 2).readStop 0 0 = (0, 0, 0) ∧ (sent (cmdS 0 2 id) 2).readStop 0 0 = (0, 0, 2) ∧ (sent (cmdS 0 1 stoppedAt) 1).readStop 0 0 = (0, 0, 1) ∧ ((cmdS 0 1 stoppedAt).group 0).stop.cause ≠ 0 ∧
    ((cmdS 0 1 stoppedAt).group 0).a.pc = ((cmdS 0 1 stoppedAt).group 0).stop.fpc ∧ (sent (cmdS 0 4 id) 1).readStop 0 0 = (0, 0, 4) ∧ (cmdS 0 0 id).resident 0 = true ∧ (cmdS 0 0 id).holdsWork 0 = false ∧
    ({ cmdS 0 0 id with reqs := [(0, { rs0 .load with stage := .held ⟨2, 0⟩ })] } : State).holdsWork 0 = true := by decide

def broke (g : Group) : Group := { g with stop := { g.stop with cause := 13 } }
set_option maxRecDepth 8000 in
theorem witness_HaltCommands_rights :
    w0.ownsHalt wr 0 = false ∧ (halted0 false).ownsHalt wr 0 = true ∧ ((halted0 false).context 0).hb.stopped = false ∧ (cmdS 0 0 id).holdsOver wr 0 3 = true ∧ ((cmdS 0 0 id).modHub (fun h => { h with dl := [(0, { v := true, mask := 0x7FF7 })] })).commands wr 0 = true ∧
    ((cmdS 0 0 id).modHub (fun h => { h with dl := [(0, { v := true, mask := 0x7FF7 })] })).holdsOver wr 0 3 = false ∧ (∀ m ∈ (cmdS 0 0 id).teams, m.2.palQueue = [] ∧ ∀ p ∈ m.2.pals, p.2.state ≠ .filling) ∧ ((cmdS 0 0 id).group 0).wait = none ∧
    (sent (cmdS 0 1 broke) 1).readStop 0 0 = (0, 0, 1) ∧ ((cmdS 0 1 broke).group 0).stop.cause = 13 := by decide

/-- No core of the halted context shows an error. -/
theorem witness_HaltCommands_terminate : (∀ k ∈ (cmdS 0 0 id).cores, k.2.sound = true) ∧ (cmdS 0 0 id).commands wr 0 = true := by decide

/-- A PC that the handler chose: 0x80, where a header stands. -/
def hdAt : State := { cmdS 0x80 0 id with mem := (bytesAt 0 0x80 8 ++ bytesAt 0x80 0x8022402000000000 8).filter (fun b => b.2 ≠ 0) }
set_option maxRecDepth 8000 in
theorem witness_HaltCommands_moved : (sent hdAt 1).readStop 0 0 = (0x80, 0, 0) ∧ (0x80 : DWord) ≠ (hdAt.group 0).recordPc false ∧ (((sent hdAt 1).clearValid 0).entryBad 0 0x80).isNone = true := by decide

/-! ### Witnesses: pre-emption, translation control and control registers -/

def sliced (now : Nat) : State := { sp0.modContext 0 (fun c => { c with slice := 5 }) with devTime := now }
/-- A team of one group, saved at slot 0 of core 0 with nothing live: its areas hold zeros. -/
def savedT : Team := { saved := some [some (0, {})] }
def savedS (s : State) : State := { (s.modHub (fun h => { h with pt := [(0, { v := true, dies := 1, s2root := 0 })] })).modContext 0 (fun c => { c with tsave := 0x1000 }) with groups := [], teams := [(5, savedT)], grant := none }
set_option maxRecDepth 20000 in
theorem witness_TeamsLeaveAndReturn :
    ((sliced 5000).context 0).hb.halt = false ∧ ((sliced 5000).context 0).slice ≠ 0 ∧ ((sliced 5000).context 0).sliceStart + 1000 * ((sliced 5000).context 0).slice ≤ (sliced 5000).ctxTime 0 ∧ (sliced 4999).ctxTime 0 < ((sliced 4999).context 0).sliceStart + 1000 * ((sliced 4999).context 0).slice ∧
    tfind 5 (savedS (pages (bare w0))).teams = some savedT ∧ ((savedS (pages (bare w0))).context 0).sliceEnded = false ∧ (savedS (pages (bare w0))).serving 0 0 = none ∧ (savedS (pages (bare w0))).coreFor 0 none 0 (savedT.needs [{}]) = some 0 ∧ savedT.pals = [] ∧ savedT.palQueue = [] ∧
    okB (((savedS (pages (bare w0))).takeScratch 0 0).2.slicePeeks 0 { rd := true } .saveArea 0 0x240 (some (dieOf (((savedS (pages (bare w0))).takeScratch 0 0).2.nextSlot 0)))) = true ∧ okB ((savedS (pages (bare w0))).resumeOn 5 0 [some (0, {})]) = true ∧ faultOf ((savedS (bare w0)).resumeOn 5 0 [some (0, {})]) ≠ 0 := by decide

/-- A context descriptor at 0x200 for level 2 under entry 2, whose chain is entries 0 and 2 with a level-1 entry of partition 0. -/
def chain3 (s : State) : State := s.modHub (fun h => { h with dl := [(0, { v := true, mask := 0x7FFF }), (2, { v := true, mask := 0x7FFF, level := 1, parent := 0, grantee := 0 }), (3, { v := true, mask := 0x7FFF, level := 2, parent := 2 })], pt := [(0, { v := true, dies := 1, s2root := 0 })] })
def descS : State := { (chain3 (bare w0)).modHub (fun h => { h with tcArg0 := 0x200 }) with mem := [(0x203, 0x20), (0x208, 3)] }
def tcS (f : Hub → Hub) : State := (root w0).modHub f
set_option maxRecDepth 20000 in
theorem witness_TranslationControl :
    (tcS (fun h => { h with tcBusy := true })).hub.tcBusy = true ∧ (root w0).hub.tcBusy = false ∧ (root w0).hub.tcArg1 / 2 ^ 40 % 2 ^ 24 = 0 ∧ (tcS (fun h => { h with tcArg1 := 2 ^ 40 })).hub.tcArg1 / 2 ^ 40 % 2 ^ 24 ≠ 0 ∧ (root w0).writerHolds wr 0 = true ∧ (root w0).ownTenant wr 0 = true ∧
    (∀ x ∈ (root w0).slices, ∀ l ∈ x.2.lines, l.1 = lineKey l.2.tenant l.2.line ∧ l.2.line < 2 ^ 49) ∧ w0.writerHolds wr 1 = false ∧ (root w0).hub.tcArg0 % 2 ^ 16 = 0 ∧ (root w0).writerHolds wr 1 = true ∧ (1 : Nat) % 512 ≠ 0 ∧
    descS.hub.tcArg0 % 512 = 0 ∧ backed descS.hub.tcArg0 = true ∧ contextBad (descS.devBytes 0x200 512) = false ∧ descS.writerHolds wr 5 = true ∧ numAt (descS.devBytes 0x200 512) 8 4 = 3 ∧ descS.chainPartition 3 = some 0 ∧ (tget {} 0 descS.hub.pt).v = true ∧ (numAt (descS.devBytes 0x200 512) 4 4).testBit 6 = false ∧
    (descS.context (4096 * 0 + 0)).ceiling = 0 ∧ ({ w0 with contexts := [] } : State).contexts = [] ∧ (((root (w0.modContext 0 id)).contexts.find? (fun c => c.2.num == 0 && (root (w0.modContext 0 id)).holdsOver wr c.1 12)).map (·.1)) = some 0 ∧ ((root w0).context 0).ncount = 0 ∧
    okB ((pages (bare w0)).slicePeeks 0 { rd := true } .engineRead (0 + 32 * 3) 32 (some ((pages (bare w0)).queueDie 0))) = true := by decide

/-- What the read of a queue's descriptor leaves behind: nothing. -/
def unmoved (j : Nat) : Bool := match (pages (bare w0)).peekRun 0 { rd := true } .engineRead (0 + 32 * j) 32 (some ((pages (bare w0)).queueDie 0)) with
  | (.ok _, t) => decide (t = pages (bare w0))
  | _ => false
set_option maxRecDepth 20000 in
theorem witness_TranslationControl_queues : ∀ j, j < 16 → unmoved j = true := by decide

/-- An invalidation of tenant 0's first page in progress: the L1s hold a dirty line of it, a write-back of it is on its way, or neither. -/
def tcRuns (s : State) : State := s.modHub (fun h => { h with tcBusy := true, tcCmd := 1, tcRun0 := 0, tcRun1 := 2 ^ 40 })
theorem witness_TranslationControl_done :
    ((tcRuns ((root (bare w0)).setL1 0 0 3 { wr := true, valid := 1, dirty := [(0, 5)] })).tcLines.any (fun x => decide (x.2.2.2.dirty ≠ []))) = true ∧ (tcRuns ((root (bare w0)).setL1 0 0 3 { wr := true, valid := 1, dirty := [(0, 5)] })).tcPending = false ∧ (tcRuns (root (bare w0))).tcLines = [] ∧
    (tcRuns { root (bare w0) with reqs := [(0, rs0 .writeback)] }).tcPending = true ∧ (tcRuns { root (bare w0) with reqs := [(0, { rs0 .writeback with stage := .held ⟨2, 0⟩ })] }).tcPending = false ∧ (tcRuns (root (bare w0))).hub.tcBusy = true := by decide

/-- An entry at level 1 below the root with HALT: its two doublewords; what breaks it. -/
def lowOk : Nat := 1 * 2 ^ 54 + 2 ^ 53 + 0x0FFF
def dlS : State := (root w0).modHub (fun h => { h with dlLow := [(2, lowOk)] })
theorem witness_DelegationAndRouting :
    (2 : Nat) < 256 ∧ (0 : Nat) / 2 ^ 48 = 0 ∧ lowOk / 2 ^ 16 % 2 ^ 37 = 0 ∧ (lowOk % 2 ^ 16).testBit 15 = false ∧ tget 0 2 dlS.hub.dlLow = lowOk ∧ dlS.writerHolds wr 5 = true ∧ (lowOk % 2 ^ 16) &&& (tget {} 0 dlS.hub.dl).mask = lowOk % 2 ^ 16 ∧ lowOk / 2 ^ 54 % 4 = wr.level + 1 ∧
    (∀ x ∈ dlS.hub.dl, x.2.v = true → x.2.parent = 2 → x.1 = 2 ∨ x.1 < 2) ∧ w0.writerHolds wr 5 = false ∧ dlS.hub.dlBusy = false ∧ (tget {} 2 dlS.hub.dl).parent = wr.entry ∧ ((root w0).writerHolds wr 6 = true) ∧ 0x8 / 8 % 2 ^ 5 ≠ 0 ∧ 0x0104 / 8 % 2 ^ 5 = 0 ∧
    (tget {} 3 ((chain3 w0).modHub (fun h => { h with dl := h.dl.map (fun e => if e.1 = 2 then (2, { e.2 with gen := 1 }) else e) })).hub.dl).pgen ≠ (tget {} 2 ((chain3 w0).modHub (fun h => { h with dl := h.dl.map (fun e => if e.1 = 2 then (2, { e.2 with gen := 1 }) else e) })).hub.dl).gen := by decide

def part0 (v : Bool) (dies : Nat) : State := (root w0).modHub (fun h => { h with pt := [(0, { v := v, dies := dies, s2root := 0 })] })
theorem witness_SharesAndPartitions :
    wr.level ≤ 1 ∧ (root w0).writerHolds wr 2 = true ∧ (root w0).hub.pwShare = [] ∧ 0 + 1024 ≤ 1024 ∧ ¬ 0 + 1025 ≤ 1024 ∧ (root w0).atLevel wr = true ∧ ((root w0).die 0).bwShare = [] ∧ 0 + 255 ≤ 256 ∧ (root w0).writerHolds wr 1 = true ∧ (tget {} 0 (part0 false 3).hub.pt).dies ≠ 0 ∧
    (∀ y ∈ (part0 false 3).hub.pt, y.1 ≠ 0 → y.2.v = true → y.2.dies &&& 3 = 0) ∧ (tget {} 0 (part0 false 0).hub.pt).dies = 0 ∧ (tget {} 0 (part0 true 3).hub.pt).v = true ∧ (part0 true 3).contexts = [] ∧
    (∃ c ∈ (sp0.modContext 0 id).contexts, c.2.part = 0 ∧ (sp0.modContext 0 id).ctxResident c.1 = true) ∧ (root w0).writerHolds wr 14 = true ∧ w0.writerHolds wr 14 = false := by
  refine ⟨by decide, by decide, by decide, by decide, by decide, by decide, by decide, by decide, by decide, by decide, by decide, by decide, by decide, by decide, ⟨_, List.mem_singleton.2 rfl, by decide, by decide⟩, by decide, by decide⟩

/-- A context whose halt block stands at 0x1000 and whose race block at 0x2000. -/
def blk : State := root ((w0.modContext 0 (fun c => { c with haltb := 0x1000, raceb := 0x2000 })))
/-- Who may read: level 0 with HALL's right and without, the module's power, and the halt block of a context. -/
theorem witness_ControlRegisters_reads :
    wr.level = 0 ∧ (root w0).writerHolds wr 14 = true ∧ w0.writerHolds wr 14 = false ∧ (root w0).atLevel wr = true ∧ (root w0).writerHolds wr 2 = true ∧ w0.atLevel wr = false ∧ blk.holdsOver wr 0 11 = true ∧ (w0.modContext 0 (fun c => { c with haltb := 0x1000 })).holdsOver wr 0 11 = false ∧ (0 : Nat) < 24 := by decide

theorem witness_ControlRegisters :
    (root w0).atLevel wr = true ∧ wr.level ≤ 1 ∧ w0.atLevel wr = false ∧ (root w0).writerHolds wr 13 = true ∧ w0.writerHolds wr 13 = false ∧ blk.holdsOver wr 0 10 = true ∧ w0.holdsOver wr 0 10 = false ∧ blk.holdsOver wr 0 11 = true ∧ (w0.modContext 0 (fun c => { c with haltb := 0x1000 })).holdsOver wr 0 11 = false ∧
    (∀ o ∈ [0x14, 0x18, 0x1C], (blk.contexts.find? (fun k => decide (k.2.haltb ≤ 0x1000 + o) && decide (0x1000 + o < k.2.haltb + 0x20))).map (·.1) = some 0) ∧ (blk.context 0).haltb + 0x20 ≤ 2 ^ 52 ∧ (blk.context 0).haltb % 32 = 0 ∧ (root w0).writerHolds wr 14 = true ∧
    (∀ a ∈ [0xFFF0000040008, 0xFFF0000040014, 0xF000000000004, 0xF000000090000, 0xF0000000C0108, 0xF000000080000], ∀ k ∈ blk.contexts, ¬ (k.2.haltb ≤ a ∧ a < k.2.haltb + 0x20) ∧ ¬ (k.2.raceb ≤ a ∧ a < k.2.raceb + 0x38)) ∧ (3 : Nat) ≠ 4 ∧ (2 : BitVec 52).toNat % 4 ≠ 0 := by decide

/-- The halt block of `blk`, read and written; registers that are no block's of a context. -/
theorem witness_ControlRegisters_blocks :
    blk.ownsHalt wr 0 = true ∧ w0.ownsHalt wr 0 = false ∧ (∀ o ∈ [0, 4, 8, 0x14, 0x18, 0x1C], (blk.contexts.find? (fun k => decide (k.2.haltb ≤ 0x1000 + o) && decide (0x1000 + o < k.2.haltb + 0x20))).map (·.1) = some 0) ∧ (5 : Nat) % 8 ≠ 0 ∧ 4 < 5 % 8 ∧
    (∀ a ∈ [0xF000000000000, 0xF000000010000, 0xF000000040000, 0xF0000000C0000, 0xFFF0000010000, 0xFFF0000020000, 0xFFF0000021000, 0xFFF0000030000, 0xFFF0000060000, 0xFFF0000050000, 0xFFF0000040000], ∀ k ∈ blk.contexts, ¬ (k.2.haltb ≤ a ∧ a < k.2.haltb + 0x20) ∧ ¬ (k.2.raceb ≤ a ∧ a < k.2.raceb + 0x38)) ∧
    ((root w0).core 0).alias_ = [] ∧ (5 : Nat) % 2 ^ 16 ≠ 0 := by decide

/-! ### Witnesses: links, boot and the whole machine -/

def fl : Flit := { die := 0, port := 1, inbound := true, addr := 0x1000, tenant := 7, ctx := 0, req := some 0 }
def fwS (f : Firewall) : State := (inFlight { rq0 .load with stage := .toSlice } (op1 none)).modDie 0 (fun d => { d with fw := [(1, f)] }) |>.modContext 0 id
theorem witness_LinkFaults :
    ((fwS { ctl := 1 }).die 0).fw = [(1, { ctl := 1 })] ∧ (1 : Nat) / 2 % 2 ≠ 1 ∧ (tget {} 1 ((fwS {}).die 0).fw).ctl % 2 = 0 ∧ ¬ ((0x2000 : Nat) ≤ fl.addr.toNat) ∧ (3 : Nat) / 2 % 2 = 1 ∧ ((2 ^ 16 + 9 : Nat).testBit 16 = true ∧ (2 ^ 16 + 9 : Nat) ≠ 2 ^ 16 + fl.tenant.toNat) ∧
    (fwS {}).req 0 = some { rq0 .load with stage := .toSlice } ∧ ({ rq0 .load with stage := .toSlice } : Req).moving = true ∧ ({ rq0 .load with stage := .toSlice } : Req).ctx = fl.ctx ∧ (tfind 0 (fwS {}).contexts).isSome = true ∧ ((fwS {}).context 0).hb.halt = false ∧ (fwS {}).resident 0 = true ∧ ((fwS {}).group 0).ctx = 0 ∧ ((fwS {}).group 0).stop.cause = 0 := by decide

/-- A partition-0 page pinned at partition address 0x10000: the tables above with PN in the leaf of page 1. -/
def pinned : State := { tables0 with mem := word8 0x10000 0x20003 ++ word8 0x20000 0x40003 ++ word8 0x40000 (leaf slowPage) ++ word8 0x40008 (leaf fastPage + 2 ^ 59) }
def pinAt (s : State) (a : Nat) : Option Nat := match s.stage2 0 hubWalker a with
  | .ok (h, _) => if h.entry.testBit 59 then some h.out else none
  | .error _ => none
def image (key : List Byte) : BootImage := { stages := [], config := [], configSig := [], configKey := key, rootMask0 := 0x7FFF, rootMask1 := 0x7FFF, module := 3, partitions := [(3, 0x10000), (4, 0x20000)] }
/-- A peer's write while a peer's access of the same page waits, and a host's load beside it. -/
def waitsS : State := pinned.modHub (fun h => { h with waits := [.peer { port := 1, tag := 6, part := 0, addr := 0x10000, op := .write [7] }] })
theorem witness_HostAndBoot_waits :
    (∀ y ∈ pinned.hub.waits, pinned.hubConflict y (.peer { port := 0, tag := 5, part := 0, addr := 0x10000, op := .write [1, 2] }) = false) ∧ pinned.hubStalls (.peer { port := 0, tag := 5, part := 0, addr := 0x10000, op := .write [1, 2] }) = false ∧ pinned.hub.waits = [] ∧
    (∃ y ∈ waitsS.hub.waits, waitsS.hubConflict y (.peer { port := 0, tag := 5, part := 0, addr := 0x10000, op := .write [1, 2] }) = true) ∧ (∃ y ∈ waitsS.hub.waits, waitsS.hubConflict y (.host 0 (BitVec.ofNat 64 fastPage) (.load 4) []) = true) ∧
    (∀ a ∈ [HostAccess.dmaRead 4, .dmaWrite, .load 4, .store], (page0 w0).hubStalls (.host 3 0x1000 a [1, 2]) = false) ∧ (page0 w0).hub.waits = [] := by
  refine ⟨by decide, by decide, by decide, ⟨_, List.mem_singleton.2 rfl, by decide⟩, ⟨_, List.mem_singleton.2 rfl, by decide⟩, by decide, by decide⟩

theorem witness_HostAndBoot :
    pinned.slices = [] ∧ pinAt pinned 0x10000 = some fastPage ∧ pinAt pinned 0x10001 = some (fastPage + 1) ∧ pinAt pinned 0 = none ∧ (tfind 0 (page0 (w0.modContext 0 id)).contexts).isSome = true ∧ okB ((page0 (w0.modContext 0 id)).slicePokes 0 { wr := true } .engineWrite [(0, [(4, 5)])]) = true ∧
    faultOf ((bare w0).slicePokes 0 { wr := true } .engineWrite [(0, [(4, 5)])]) ≠ 0 ∧ okB ((page0 w0).slicePeeks 0 { rd := true } .engineRead 0 4) = true ∧ faultOf ((bare w0).slicePeeks 0 { rd := true } .engineRead 0 4) ≠ 0 ∧ w0.contexts = [] ∧ State.reset.hub.booted = false ∧ State.reset.hub.failed = none ∧
    State.reset.hub.pt = [] ∧ (0x10000 : BitVec 52).toNat % 2 ^ 16 = 0 ∧ (3 : BitVec 24) &&& 4 = 0 ∧ (w0.modHub (fun h => { h with booted := true })).hub.booted = true ∧ (tget {} 0 (part0 true 1).hub.pt).v = true ∧ (List.replicate 32 (0 : Byte)).length = 32 := by decide

/-- Boot of an image without stages: it holds the right key, so that it succeeds where its configuration verifies; one that names another key does not. What
verifies is left to the implementation (log 3). -/
theorem witness_HostAndBoot_images : (∀ x ∈ (image Config.identityKey).stages, Config.verifies (Config.shake256 x.1) x.2 = true) ∧ (image Config.identityKey).configKey = Config.identityKey ∧ (image (0 :: Config.identityKey)).configKey ≠ Config.identityKey := by
  refine ⟨fun x hx => (by cases hx), rfl, fun h => ?_⟩
  have := congrArg List.length h
  simp [image] at this

/-- A peer's write of two bytes to the pinned page; the filter of their slice empty, with the access in it, and full. -/
def peer0 : PeerAccess := { port := 0, tag := 5, part := 0, addr := 0x10000, op := .write [1, 2] }
def filtered (l : List Replay) : State := pinned.modSlice (inboundSlice fastPage) (fun x => { x with replay := l })
theorem witness_HostAndBoot_peers :
    0 < opSize peer0.op ∧ (∀ k ∈ List.range 2, pinAt pinned (0x10000 + k) = some (fastPage + k)) ∧ pinned.slices = [] ∧ (pinned.slice (inboundSlice fastPage)).replay = [] ∧ pinAt (filtered [{ port := linkPort 0, tag := 5, op := 0 }]) 0x10000 = some fastPage ∧
    ((filtered [{ port := linkPort 0, tag := 5, op := 0 }]).slice (inboundSlice fastPage)).replay = [{ port := linkPort 0, tag := 5, op := 0 }] ∧ ((filtered (List.replicate 64 { port := 9, tag := 9, op := 0 })).slice (inboundSlice fastPage)).replay.length = 64 ∧
    (∀ e ∈ List.replicate 64 ({ port := 9, tag := 9, op := 0 } : Replay), ¬ (e.port = linkPort 0 ∧ e.tag = 5)) := by decide

/-- A port function assigned to context 0, one that is not, and device memory. -/
theorem witness_HostAndBoot_functions :
    tfind 3 ((root w0).modHub (fun h => { h with functions := [(3, 0)] })).hub.functions = some 0 ∧ tfind 3 w0.hub.functions = none ∧ (tfind 0 (w0.modContext 0 id).contexts).isSome = true ∧ wr.level ≤ 1 ∧ (root w0).holdsOver wr 0 5 = true ∧ w0.holdsOver wr 0 5 = false ∧
    backed 0x1000 = true ∧ backed 0x1800000000 = false ∧ (0x1000 : BitVec 52).toNat % (tyBits 0 / 8) = 0 ∧ (List.range (tyBits 0 / 8)).length ≠ 0 ∧ (root w0).atLevel wr = true := by decide

theorem witness_InvariantKept : State.reset.Inv ∧ tables0.Inv := ⟨by rfl, by rfl⟩

/-- A slot that waits for its table, and a group without such a slot that waits. -/
theorem witness_StepRunsDecoded_tables :
    ((tblS [] w0).group 0).tables.find? (fun y => y.slotB == false) = some (wait0 (.brx o0) (.table 0)) ∧ (tblS [] w0).grant = some grBack ∧ (tblS [] w0).hub.failed = none ∧ (tblS [] w0).resident 0 = true ∧ ((held sp0 (.bsyn o0) (.bar 0 false)).group 0).tables = [] := by decide

/-- Where a word, a header and a skip stand at a PC, and where none does. -/
def atWord : State := State.reset.withFetchWord 64 0x0809820283000000
theorem witness_StepRunsDecoded :
    atWord.hub.failed = none ∧ atWord.grant = some gr0 ∧ atWord.resident 0 = true ∧ (atWord.group 0).a.pc.toNat < 2 ^ 56 ∧ (atWord.group 0).a.pc.toNat % 8 = 0 ∧ (atWord.slicePeeks 0 { ex := true } .fetch (atWord.group 0).a.pc.toNat 8 (some 0)).toOption = some (bytesOfWord 0x0809820283000000) ∧ (atWord.group 0).a.cl ≠ none ∧
    ((State.reset.withFetchWord 64 0x8022402000000000).group 0).a.cl = none ∧ ((held sp0 (.bsyn o0) (.bar 0 false)).group 0).wait = some (wait0 (.bsyn o0) (.bar 0 false)) ∧ refuses (bytesOfWord 0xC000000000000000) = some (.enc ⟨.form, false⟩) ∧
    (0x84 : Nat) % 8 ≠ 0 ∧ faultOf ((atWord.modSlice 0 (fun x => { x with lines := [] })).slicePeeks 0 { ex := true } .fetch 0 8 (some 0)) ≠ 0 ∧ atWord.contexts = [] ∧ (atWord.modHub (fun h => { h with failed := some 0 })).hub.failed ≠ none := by decide

theorem witness_EncodingAgrees : (Instr.iadd o0).WF ∧ (encode (.iadd o0)).isSome = true ∧ (decode (bytesOfWord 0x0809820283000000)).toOption = some (.fadd { o0 with g := .on false 3, d := 4, a := 5, b := 6 }, []) := by decide

/-! ### Single steps, with the results that the manual gives -/

/-- The state after a step that completes. -/
def st (o : Host.Outcome State Fault Refusal) : State := match o with
  | .next t => t
  | _ => State.reset
/-- v4 of lane 3, v5 of lane 3, s4 and q4 after `i`. -/
def v4 (i : Instr) (s : State) : Word := ((st (exec i s)).group 0).rv 4 3
def v5 (i : Instr) (s : State) : Word := ((st (exec i s)).group 0).rv 5 3
def s4 (i : Instr) (s : State) : Word := ((st (exec i s)).group 0).rs 4
/-- v8 and v12 of lane 3, and v16. -/
def ab (a b : Word) : State := setV (setV w0 8 3 a) 12 3 b
def abc (a b c : Word) : State := setV (ab a b) 16 3 c
/-- s8 and s12. -/
def sab (a b : Word) : State := setS (setS w0 8 a) 12 b
def oS : FOps := { o0 with bk := .sca }
def o3 : FOps := { o0 with c := 16 }

/-- 08 R144, R145: sums wrap; IABS and INEG saturate at the most negative word; the high half by signedness. -/
theorem test_integer : v4 (.iadd o0) (ab 0xFFFFFFFF 2) = 1 ∧ v4 (.isub o0) (ab 0 1) = 0xFFFFFFFF ∧ v4 (.imulh o0) (ab 0xFFFFFFFF 0xFFFFFFFF) = 0 ∧ v4 (.imulh { o0 with ox := 1 }) (ab 0xFFFFFFFF 0xFFFFFFFF) = 0xFFFFFFFE ∧
    v4 (.iabs { o0 with b := 0, sat := true }) (ab 0x80000000 0) = 0x7FFFFFFF ∧ v4 (.ineg { o0 with b := 0, sat := true }) (ab 0x80000000 0) = 0x7FFFFFFF ∧ v4 (.iabs { o0 with b := 0 }) (ab 0x80000000 0) = 0x80000000 := by decide

/-- 08 R146, R147: `imadw.u` of 0xFFFFFFFF and 2 with 1; `idot4.us` of 255 and -1. -/
theorem test_wide : v4 (.imadw { o3 with ox := 1 }) (abc 0xFFFFFFFF 2 1) = 0xFFFFFFFF ∧ v5 (.imadw { o3 with ox := 1 }) (abc 0xFFFFFFFF 2 1) = 1 ∧ v4 (.idot4 { o3 with ox := 1 }) (abc 0xFF 0xFF 0) = 0xFFFFFF01 := by decide

/-- 08 R149 to R151: `bfe.s` with s9 = 0x804 extracts bits [11:4] and extends their sign; `prmb` with 0x0123 reverses the bytes; SHF by 0 gives c
or a. -/
theorem test_bits : v4 (.bfe { oS with b := 9 }) (setS (ab 0xFF0 0) 9 0x804) = 0xFF0 / 16 ∧ v4 (.bfe { oS with b := 9, ox := 1 }) (setS (ab 0xFF0 0) 9 0x804) = 0xFFFFFFFF ∧ v4 (.prmb { oS with b := 9, c := 16 }) (setS (abc 0x11223344 0 0) 9 0x0123) = 0x44332211 ∧
    v4 (.shf o3) (abc 7 32 9) = 9 := by decide

/-- 08 R152, R153: a tie rounds to even, upwards with RM = `.rup`; FMIN(+0, -0) = -0; FMAX(NaN, 3.0) = 3.0. -/
theorem test_fp32 : v4 (.fadd o0) (ab 0x3F800000 0x33800000) = 0x3F800000 ∧ v4 (.fadd { o0 with rm := .rup }) (ab 0x3F800000 0x33800000) = 0x3F800001 ∧ v4 (.fmin o0) (ab 0 0x80000000) = 0x80000000 ∧ v4 (.fmax o0) (ab 0x7FC00000 0x40400000) = 0x40400000 := by decide
/-- What the operation that `i` started will write to v4 of lane 3. -/
def later (i : Instr) (s : State) : Option Word := ((st (exec i s)).ops.find? (fun _ => true)).bind (fun o => (o.2.results.find? (fun c => c.1 == ⟨0, 32 * 4 + 3⟩)).map (·.2))
set_option maxRecDepth 20000 in
/-- 08 R154: values that are exact are delivered: 1 / 2, the root of 4, 2 to the 3. -/
theorem test_special : later (.frcp { o0 with b := 0 }) (ab 0x40000000 0) = some 0x3F000000 ∧ later (.fsqrt { o0 with b := 0 }) (ab 0x40800000 0) = some 0x40000000 ∧ later (.fexp2 { o0 with b := 0 }) (ab 0x40400000 0) = some 0x41000000 := by decide

/-- 08 R159, R165: `cvtff.f8h` of 1.5 to byte 2 (sign 0, exponent 7, fraction 0b100) merges; `qscl.q4x` of 20.0 gives 0x84. -/
theorem test_convert : v4 (.cvtff { o0 with b := 0, c := 0x10, ox := 0x18 }) (setV (ab 0x3FC00000 0) 4 3 0x11111111) = 0x113C1111 ∧ v4 (.qscl { o0 with b := 0 }) (ab 0x41A00000 0) = 0x84 := by decide

/-- 08 R166: 1 < -1 unsigned and not signed; the lanes that are not active keep their bits. 06 R117: XCH by 16 with a butterfly. -/
theorem test_compare_and_lanes : (((st (exec (.icmp { o0 with d := 4, ox := 10 }) (ab 1 0xFFFFFFFF))).group 0).rq 4).getLsbD 3 = true ∧ (((st (exec (.icmp { o0 with d := 4, ox := 2 }) (ab 1 0xFFFFFFFF))).group 0).rq 4).getLsbD 3 = false ∧
    (((st (exec (.icmp { o0 with d := 4, ox := 10 }) (setQ (setS (ab 1 0xFFFFFFFF) 0 1) 4 2))).group 0).rq 4) = 2 ∧ ((st (exec (.xch { o0 with c := 16, bk := .imm, b := 0, ox := 3 }) (ab 0x77 0))).group 0).rv 4 19 = 0x77 := by decide

/-- 06 R119, R120: scalars; a 64-bit shift of the pair s8 by 36. -/
theorem test_scalar : s4 (.sadd oS) (sab 0xFFFFFFFF 1) = 0 ∧ s4 (.smul { oS with ox := 2 }) (sab 0xFFFFFFFF 0xFFFFFFFF) = 0 ∧ s4 (.scmp { oS with ox := 2 }) (sab 0xFFFFFFFF 1) = 1 ∧ s4 (.scmp { oS with ox := 10 }) (sab 0xFFFFFFFF 1) = 0 ∧
    ((st (exec (.sshl { oS with ox := 1 }) (sab 3 36))).group 0).rs 5 = 48 := by decide

/-- 11 R213: a call at 0x200 to 64 words on leaves s30 = 0x208, s31 = 0, and goes to 0x400; 11 R214: a branch if not zero is not taken at zero. -/
def at200 : State := w0.modGroup 0 (fun g => { g with a := { g.a with pc := 0x200 } })
theorem test_control : ((st (exec (.call { g := .none, d := 30, a := 0, mods := 0, imm := 64 }) at200)).group 0).rs 30 = 0x208 ∧ ((st (exec (.call { g := .none, d := 30, a := 0, mods := 0, imm := 64 }) at200)).group 0).rs 31 = 0 ∧
    ((st (exec (.call { g := .none, d := 30, a := 0, mods := 0, imm := 64 }) at200)).group 0).a.pc = 0x400 ∧ ((st (exec (.brc { g := .none, d := 0, a := 10, mods := 1, imm := 3 }) at200)).group 0).a.pc = 0x208 ∧
    ((st (exec (.brc { g := .none, d := 0, a := 10, mods := 1, imm := 3 }) (setS at200 10 1))).group 0).a.pc = 0x218 := by decide

/-- 01 R20: both halves read before either writes, so that two moves exchange v4 and v9. -/
theorem test_pair_exchanges : v4 (Instr.ofHalves ⟨.mov, p0⟩ ⟨.mov, { p0 with d := 9, s := 4 }⟩) (setV (setV w0 4 3 5) 9 3 6) = 6 ∧ ((st (exec (Instr.ofHalves ⟨.mov, p0⟩ ⟨.mov, { p0 with d := 9, s := 4 }⟩) (setV (setV w0 4 3 5) 9 3 6))).group 0).rv 9 3 = 5 := by decide

/-- 01 R23, R28: a header opens its clause of three words with flag 2 valid; with no active lane it is skipped, three words on. -/
theorem test_headers : (((st (step (State.reset.withFetchWord 64 0x8022402000000000))).group 0).a.cl.map (fun c => (c.sa, c.sb, c.left))) = some (some 2, none, 3) ∧
    ((st (step (noLane (State.reset.withFetchWord 64 0x8022402000000000)))).group 0).a.pc = 32 ∧ ((st (step (noLane (State.reset.withFetchWord 64 0x8022402000000000)))).group 0).a.cl = none := by decide

/-- 16 R304, R308: `trap 7` with s8 = 5 stops the group with cause group 14 and its code, after the word. -/
theorem test_trap : ((st (exec (.trap kTrap) (setS at200 8 5))).group 0).stop.cause = 14 ∧ ((st (exec (.trap kTrap) (setS at200 8 5))).group 0).stop.detail = 0x50007 ∧ ((st (exec (.trap kTrap) (setS at200 8 5))).group 0).a.pc = 0x208 ∧ ((st (exec (.trap kTrap) at200)).context 0).hb.halt = true := by decide

/-- 04 R72: STS then LDS of the same word, the store still in the region buffer, in lane 0 alone. -/
def stored : State := { st (exec (.sts { oLd with d := 4, a := 8, b := 9, bk := .sca }) (setV (setS sp0 0 1) 4 0 0xABCD)) with grant := some gr0 }
theorem test_scratchpad_forwards : (stored.group 0).buf.length = 1 ∧ (stored.team 0).num 0 4 = 0 := by decide

end Sys2Proof.Tests
end

section
/-! SUPPORT. Control registers by name and by machine address (17 R315): the block that an address lies in, what a word
written there becomes, and what a word read there gives; then the statement about them. -/

namespace Sys2Proof.Machine

/-! ### Words and addresses -/

theorem nbits_zero (x n : Nat) : nbits x 0 n = x % 2 ^ n := rfl
@[simp] theorem nbits_word (x : BitVec 32) : nbits x.toNat 0 32 = x.toNat := Nat.mod_eq_of_lt x.isLt

/-- A 32-bit write reaches one register, with the word that is written. -/
@[simp] theorem State.eachWord_word (s : State) (o : Nat) (x : BitVec 32) (f : State → Nat → Nat → State) : s.eachWord o 4 x.toNat f = f s o x.toNat := by
  simp [State.eachWord]

theorem wordAccess_iff (a n : Nat) : wordAccess a n = true ↔ (n = 4 ∨ n = 8) ∧ a % n = 0 := by simp [wordAccess]

/-- The machine address of a register of the hub, and of a die (17 R315). -/
def hubAddr (o : Nat) : BitVec 52 := BitVec.ofNat 52 (hubBase + o)
def dieAddr (die o : Nat) : BitVec 52 := BitVec.ofNat 52 (dieBase + die * 0x1000000 + o)

theorem hubAddr_toNat {o : Nat} (ho : o < 2 ^ 40) : (hubAddr o).toNat = hubBase + o := by
  rw [hubAddr, BitVec.toNat_ofNat, Nat.mod_eq_of_lt]; unfold hubBase; omega

theorem dieAddr_toNat {die o : Nat} (hd : die < 24) (ho : o < 2 ^ 24) : (dieAddr die o).toNat = dieBase + die * 0x1000000 + o := by
  rw [dieAddr, BitVec.toNat_ofNat, Nat.mod_eq_of_lt]; unfold dieBase; omega

/-! ### The block of an address -/

/-- Whether an address lies in no context's halt or race-detector block. -/
def State.NoContextBlock (s : State) (a : Nat) : Prop :=
  ∀ k ∈ s.contexts, ¬ (k.2.haltb ≤ a ∧ a < k.2.haltb + 0x20) ∧ ¬ (k.2.raceb ≤ a ∧ a < k.2.raceb + 0x38)

/-- Whether an address is found in the halt block of a context, which lies in memory and is aligned. -/
def State.InHaltBlock (s : State) (ctx a : Nat) : Prop :=
  s.contexts.find? (fun k => decide (k.2.haltb ≤ a) && decide (a < k.2.haltb + 0x20)) = some (ctx, s.context ctx) ∧ (s.context ctx).haltb + 0x20 ≤ 2 ^ 52 ∧ (s.context ctx).haltb % 32 = 0

/-- The machine address of a register of a context's halt block. -/
def State.haltAddr (s : State) (ctx o : Nat) : BitVec 52 := BitVec.ofNat 52 ((s.context ctx).haltb + o)

theorem State.blockOf_outside {s : State} {a : Nat} (h : s.NoContextBlock a) :
    s.blockOf a = if hubBase ≤ a then some (.hub (a - hubBase)) else if dieBase ≤ a && a < dieBase + 0x18000000 then some (.die ((a - dieBase) / 0x1000000) (a % 0x1000000)) else none := by
  have hh : s.contexts.find? (fun c => c.2.haltb ≤ a && a < c.2.haltb + 0x20) = none := List.find?_eq_none.2 (fun k hk => by simpa using (h k hk).1)
  have hr : s.contexts.find? (fun c => c.2.raceb ≤ a && a < c.2.raceb + 0x38) = none := List.find?_eq_none.2 (fun k hk => by simpa using (h k hk).2)
  unfold State.blockOf
  rw [hh, hr]

theorem State.blockOf_hubAddr {s : State} {o : Nat} (ho : o < 2 ^ 40) (h : s.NoContextBlock (hubAddr o).toNat) : s.blockOf (hubAddr o).toNat = some (.hub o) := by
  rw [State.blockOf_outside h, hubAddr_toNat ho, if_pos (Nat.le_add_right _ _), Nat.add_sub_cancel_left]

theorem State.blockOf_dieAddr {s : State} {die o : Nat} (hd : die < 24) (ho : o < 2 ^ 24) (h : s.NoContextBlock (dieAddr die o).toNat) : s.blockOf (dieAddr die o).toNat = some (.die die o) := by
  have hdie : (dieBase + die * 0x1000000 + o - dieBase) / 0x1000000 = die := by omega
  have hoff : (dieBase + die * 0x1000000 + o) % 0x1000000 = o := by unfold dieBase; omega
  rw [State.blockOf_outside h, dieAddr_toNat hd ho, if_neg (by unfold hubBase dieBase; omega), if_pos (by simp; omega), hdie, hoff]

theorem State.InHaltBlock.offset_lt {s : State} {ctx o : Nat} (h : s.InHaltBlock ctx ((s.context ctx).haltb + o)) : o < 0x20 := by
  have hin := List.find?_some h.1
  simp at hin; omega

theorem State.InHaltBlock.addr_toNat {s : State} {ctx o : Nat} (h : s.InHaltBlock ctx ((s.context ctx).haltb + o)) : (s.haltAddr ctx o).toNat = (s.context ctx).haltb + o := by
  have ⟨_, hfits, _⟩ := h
  rw [State.haltAddr, BitVec.toNat_ofNat, Nat.mod_eq_of_lt]
  have := h.offset_lt
  omega

theorem State.blockOf_haltAddr {s : State} {ctx o : Nat} (h : s.InHaltBlock ctx ((s.context ctx).haltb + o)) : s.blockOf (s.haltAddr ctx o).toNat = some (.halt ctx o) := by
  have hfind := h.1
  rw [h.addr_toNat]
  unfold State.blockOf
  simp [hfind]

/-! ### Writes by address -/

theorem State.writeRegister_ignored (s : State) (w : Writer) {a n : Nat} (v : Nat) (h : ¬ ((n = 4 ∨ n = 8) ∧ a % n = 0)) : s.writeRegister w a n v = s := by
  rw [← wordAccess_iff] at h
  simp [State.writeRegister, h]

/-- REGISTER_WRITE of another size, or not aligned, is ignored (00 R9). -/
theorem exec_registerWrite_ignored (s : State) (w : Writer) {a : BitVec 52} {n : Nat} (v : BitVec 64) (h : ¬ ((n = 4 ∨ n = 8) ∧ a.toNat % n = 0)) : exec (.registerWrite w a n v) s = .next s := by
  rw [exec_registerWrite, execRegisterWrite, State.writeRegister_ignored s w v.toNat h]

theorem exec_registerWrite_hub {s : State} (w : Writer) {o n : Nat} (v : BitVec 64) (hn : n = 4 ∨ n = 8) (ha : o % n = 0) (ho : o < 2 ^ 40) (h : s.NoContextBlock (hubAddr o).toNat) :
    exec (.registerWrite w (hubAddr o) n v) s = .next (s.writeHub w o n v.toNat) := by
  have hw : wordAccess (hubAddr o).toNat n = true := by
    rw [wordAccess_iff, hubAddr_toNat ho]
    rcases hn with rfl | rfl <;> (unfold hubBase; omega)
  rw [exec_registerWrite, execRegisterWrite, State.writeRegister, hw, State.blockOf_hubAddr ho h]
  rfl

theorem exec_registerWrite_die {s : State} (w : Writer) {die o n : Nat} (v : BitVec 64) (hn : n = 4 ∨ n = 8) (ha : o % n = 0) (hd : die < 24) (ho : o < 2 ^ 24) (h : s.NoContextBlock (dieAddr die o).toNat) :
    exec (.registerWrite w (dieAddr die o) n v) s = .next (s.writeDie w die o n v.toNat) := by
  have hw : wordAccess (dieAddr die o).toNat n = true := by
    rw [wordAccess_iff, dieAddr_toNat hd ho]
    rcases hn with rfl | rfl <;> (unfold dieBase; omega)
  rw [exec_registerWrite, execRegisterWrite, State.writeRegister, hw, State.blockOf_dieAddr hd ho h]
  rfl

theorem toNat_word_setWidth (x : BitVec 32) : (x.setWidth 64).toNat = x.toNat := BitVec.toNat_setWidth_of_le (by decide)

theorem exec_wordWrite_hub {s : State} (w : Writer) {o : Nat} (x : BitVec 32) (ha : o % 4 = 0) (ho : o < 2 ^ 40) (h : s.NoContextBlock (hubAddr o).toNat) :
    exec (.registerWrite w (hubAddr o) 4 (x.setWidth 64)) s = .next (s.writeHub w o 4 x.toNat) := by
  rw [exec_registerWrite_hub w _ (.inl rfl) ha ho h, toNat_word_setWidth]

theorem exec_wordWrite_die {s : State} (w : Writer) {die o : Nat} (x : BitVec 32) (ha : o % 4 = 0) (hd : die < 24) (ho : o < 2 ^ 24) (h : s.NoContextBlock (dieAddr die o).toNat) :
    exec (.registerWrite w (dieAddr die o) 4 (x.setWidth 64)) s = .next (s.writeDie w die o 4 x.toNat) := by
  rw [exec_registerWrite_die w _ (.inl rfl) ha hd ho h, toNat_word_setWidth]

theorem exec_wordWrite_halt {s : State} (w : Writer) {ctx o : Nat} (x : BitVec 32) (ha : o % 4 = 0) (h : s.InHaltBlock ctx ((s.context ctx).haltb + o)) :
    exec (.registerWrite w (s.haltAddr ctx o) 4 (x.setWidth 64)) s = .next (s.writeHalt w ctx o x.toNat) := by
  have ⟨_, _, haligned⟩ := h
  have hw : wordAccess (s.haltAddr ctx o).toNat 4 = true := by
    rw [wordAccess_iff, h.addr_toNat]; omega
  rw [exec_registerWrite, execRegisterWrite, State.writeRegister, hw, State.blockOf_haltAddr h, toNat_word_setWidth]
  simp

/-! ### The prefetch selectors, the remap filter and the race detector (03 R55, R61; 13 R254) -/

theorem State.writeSel_eq (s : State) (w : Writer) (slice index v : Nat) :
    s.writeSel w slice index v = if slice < 768 ∧ index < 8 ∧ w.level ≤ 1 ∧ s.atLevel w = true then
      s.modSlice slice (fun x => { x with sel := tset 0 index (v % 2 ^ 17) x.sel, pf := [0, 1, 2, 3].foldl (fun t k => tset 0 (9 * k + index) 0 t) x.pf }) else s := by
  simp [State.writeSel, nbits_zero, and_assoc]

/-- What a remap entry's word holds of the word written: the bits that are not reserved (03 R61). -/
def remapWord (canon : Bool) (e : Nat) : Nat := if canon then e % 2 ^ 40 else e % 2 ^ 56 + e / 2 ^ 63 * 2 ^ 63

/-- Whether a writer may write a remap entry's word: below level 1 only its own tenant's, or one that it claims. -/
def State.MayRemap (s : State) (w : Writer) (core index : Nat) (canon : Bool) (e : Nat) : Prop :=
  let own (y : Nat) : Prop := y % 2 ^ 16 = w.tenant.toNat
  let prev := tget 0 index (s.core core).alias_
  core < 1536 ∧ index < 64 ∧ s.writerHolds w 13 = true ∧ (w.level ≤ 1 ∨ (if canon then own prev else (prev = 0 ∨ own prev) ∧ own (remapWord false e)))

/-- A word written to a remap entry. -/
def Core.putRemap (k : Core) (index : Nat) (canon : Bool) (v : Nat) : Core :=
  if canon then { k with canon := tset 0 index v k.canon } else { k with alias_ := tset 0 index v k.alias_ }

theorem nbits_top (e : BitVec 64) : nbits e.toNat 63 1 = e.toNat / 2 ^ 63 := by
  have := e.isLt
  rw [nbits, Nat.shiftRight_eq_div_pow]; omega

theorem State.writeRmf_may {s : State} {w : Writer} {core index : Nat} {canon : Bool} {e : BitVec 64} (h : s.MayRemap w core index canon e.toNat) :
    s.writeRmf w core index canon e.toNat = s.modCore core (fun k => k.putRemap index canon (remapWord canon e.toNat)) := by
  obtain ⟨hcore, hindex, hright, hwho⟩ := h
  cases canon <;> simp_all [State.writeRmf, remapWord, Core.putRemap, nbits_zero, nbits_top]

theorem State.writeRmf_mayNot {s : State} {w : Writer} {core index : Nat} {canon : Bool} {e : BitVec 64} (h : ¬ s.MayRemap w core index canon e.toNat) :
    s.writeRmf w core index canon e.toNat = s := by
  refine if_neg (fun hmay => h ?_)
  cases canon <;> simp_all [State.MayRemap, remapWord, nbits_zero, nbits_top]

theorem State.writeRd_right {s : State} {w : Writer} {ctx : Nat} (v : Nat) (h : s.holdsOver w ctx 10 = true) :
    s.writeRd w ctx v = s.modContext ctx (fun c => { c with rd := { c.rd with en := v.testBit 0, mode := v.testBit 1, logwr := if v.testBit 0 = true ∧ c.rd.en = false then 0 else c.rd.logwr } }) := by
  simp [State.writeRd, h]

theorem State.writeRd_noRight {s : State} {w : Writer} {ctx : Nat} (v : Nat) (h : s.holdsOver w ctx 10 = false) : s.writeRd w ctx v = s := by
  simp [State.writeRd, h]

/-! ### The words of the hub's and of a die's blocks (17 R315) -/

theorem State.writeHub_word (s : State) (w : Writer) {o : Nat} (x : BitVec 32) (h : ¬ (0x20000 ≤ o ∧ o < 0x40000)) (hp : ¬ (0x50000 ≤ o ∧ o < 0x60000)) :
    s.writeHub w o 4 x.toNat = if 0x10000 ≤ o ∧ o < 0x10400 then s.writePwShare w ((o - 0x10000) / 4) x.toNat
      else if o = 0x40000 then s.tcWrite w x.toNat
      else if o = 0x60000 then s.writeModule w x.toNat
      else if s.atLevel w = true then s.modHub (fun h => h.writeReg o x.toNat (w.level == 0)) else s := by
  have hdl : (decide (0x20000 ≤ o) && decide (o < 0x30000)) = false := by simp; omega
  have hrt : (decide (0x30000 ≤ o) && decide (o < 0x40000)) = false := by simp; omega
  have hpt : (decide (0x50000 ≤ o) && decide (o < 0x60000)) = false := by simp; omega
  simp [State.writeHub, hdl, hrt, hpt]

theorem State.writeDie_word (s : State) (w : Writer) {die o : Nat} (x : BitVec 32) (h : ¬ (0x40000 ≤ o ∧ o < 0x80000)) :
    s.writeDie w die o 4 x.toNat = if o = 0 then s.writeHpt w die x.toNat
      else if 0x10000 ≤ o ∧ o < 0x30000 then (if o % 0x1000 < 0x20 then s.writeSel w (32 * die + (o - 0x10000) / 0x1000) (o % 0x1000 / 4) x.toNat else s)
      else if 0xC0000 ≤ o ∧ o < 0xC0100 then s.writeBwShare w die ((o - 0xC0000) / 4) x.toNat
      else if s.dieRegAllowed w o = false then s
      else if 0x80000 ≤ o ∧ o < 0x88000 then (if o % 0x1000 = 0 then s.modCluster (8 * die + (o - 0x80000) / 0x1000) (fun c => { c with drpThr := x.toNat % 2 ^ 8 }) else s)
      else s.modDie die (fun d => d.writeReg o x.toNat) := by
  have hrmf : (decide (0x40000 ≤ o) && decide (o < 0x80000)) = false := by simp; omega
  simp [State.writeDie, hrmf, nbits_zero]

/-- A register of a die without behaviour of its own takes the word from a writer whose rights reach it. -/
theorem State.writeDie_reg {s : State} {w : Writer} {die o : Nat} (x : BitVec 32) (ho : (0 < o ∧ o < 0x10000) ∨ (0x88000 ≤ o ∧ o < 0xC0000) ∨ 0xC0100 ≤ o) (h : s.dieRegAllowed w o = true) :
    s.writeDie w die o 4 x.toNat = s.modDie die (fun d => d.writeReg o x.toNat) := by
  rw [State.writeDie_word s w x (by omega), if_neg (by omega), if_neg (by omega), if_neg (by omega), if_neg (by simp [h]), if_neg (by omega)]

/-- Of the words of a die that level 0 alone writes, another level writes none. -/
theorem State.writeDie_level {s : State} {w : Writer} {die o : Nat} (x : BitVec 32) (hsel : ¬ (0x10000 ≤ o ∧ o < 0x30000)) (hrmf : ¬ (0x40000 ≤ o ∧ o < 0x80000)) (hbw : ¬ (0xC0000 ≤ o ∧ o < 0xC0100)) (h : w.level ≠ 0) :
    s.writeDie w die o 4 x.toNat = s := by
  have hno : s.dieRegAllowed w o = false := by simp [State.dieRegAllowed, h]
  rw [State.writeDie_word s w x hrmf]
  by_cases hctl : o = 0
  · rw [if_pos hctl]; simp [State.writeHpt, h]
  · rw [if_neg hctl, if_neg hsel, if_neg hbw, if_pos hno]

/-- A word written to the control register of port 0's firewall (17 R332). -/
theorem Die.writeReg_fwCtl (d : Die) (v : Nat) : tget {} 0 (d.writeReg 0x90000 v).fw = { tget {} 0 d.fw with ctl := v % 4 } := by
  have hf : (tget {} 0 d.fw : Firewall).writeReg 0 v = { tget {} 0 d.fw with ctl := v % 4 } := rfl
  have hd : d.writeReg 0x90000 v = if (tget {} 0 d.fw : Firewall).writeReg 0 v = tget {} 0 d.fw then d else { d with fw := tput 0 ((tget {} 0 d.fw : Firewall).writeReg 0 v) d.fw } := rfl
  rw [hd, hf]
  split
  · next heq => exact heq.symm
  · exact tget_tput_self ..

/-! ### Registers that an instruction names, by address (17 R315) -/

section
variable {s : State} {w : Writer}

theorem registerWrite_hptCtl {die : Nat} (x : BitVec 32) (hd : die < 24) (h : s.NoContextBlock (dieAddr die 0).toNat) :
    exec (.registerWrite w (dieAddr die 0) 4 (x.setWidth 64)) s = exec (.hptCtlWrite w die x) s := by
  rw [exec_wordWrite_die w x rfl hd (by omega) h, State.writeDie_word s w x (by omega), if_pos rfl]
  rfl

theorem registerWrite_pfSel {die k i : Nat} (x : BitVec 32) (hd : die < 24) (hk : k < 32) (hi : i < 8) (h : s.NoContextBlock (dieAddr die (0x10000 + 0x1000 * k + 4 * i)).toNat) :
    exec (.registerWrite w (dieAddr die (0x10000 + 0x1000 * k + 4 * i)) 4 (x.setWidth 64)) s = exec (.pfSelWrite w (32 * die + k) i x) s := by
  have hslice : (0x10000 + 0x1000 * k + 4 * i - 0x10000) / 0x1000 = k := by omega
  have hindex : (0x10000 + 0x1000 * k + 4 * i) % 0x1000 / 4 = i := by omega
  rw [exec_wordWrite_die w x (by omega) hd (by omega) h, State.writeDie_word s w x (by omega), if_neg (by omega), if_pos (by omega), if_pos (by omega), hslice, hindex]
  rfl

theorem State.writeDie_remap {die k i r : Nat} (v : Nat) (hk : k < 64) (hi : i < 64) (hr : r = 0 ∨ r = 8) :
    s.writeDie w die (0x40000 + 0x1000 * k + 16 * i + r) 8 v = s.writeRmf w (64 * die + k) i (r == 8) v := by
  have hin : (decide (0x40000 ≤ 0x40000 + 0x1000 * k + 16 * i + r) && decide (0x40000 + 0x1000 * k + 16 * i + r < 0x80000)) = true := by simp; omega
  have hcore : (0x40000 + 0x1000 * k + 16 * i + r - 0x40000) / 0x1000 = k := by omega
  have hoff : (0x40000 + 0x1000 * k + 16 * i + r) % 0x1000 = 16 * i + r := by omega
  have hindex : (16 * i + r) / 16 = i := by omega
  unfold State.writeDie
  dsimp only
  rw [if_pos hin, hcore, hoff, if_neg (by omega), hindex]
  rcases hr with rfl | rfl
  · rw [if_pos (by omega)]; rfl
  · rw [if_neg (by omega)]; rfl

theorem registerWrite_rmf {die k i : Nat} (e : BitVec 64) (hd : die < 24) (hk : k < 64) (hi : i < 64) {r : Nat} (hr : r = 0 ∨ r = 8) (h : s.NoContextBlock (dieAddr die (0x40000 + 0x1000 * k + 16 * i + r)).toNat) :
    exec (.registerWrite w (dieAddr die (0x40000 + 0x1000 * k + 16 * i + r)) 8 e) s = exec (.rmfEntryWrite w (64 * die + k) i (r == 8) e) s := by
  rw [exec_registerWrite_die w e (.inr rfl) (by omega) hd (by omega) h, State.writeDie_remap _ hk hi hr]
  rfl

theorem registerWrite_bwShare {die i : Nat} (x : BitVec 32) (hd : die < 24) (hi : i < 64) (h : s.NoContextBlock (dieAddr die (0xC0000 + 4 * i)).toNat) :
    exec (.registerWrite w (dieAddr die (0xC0000 + 4 * i)) 4 (x.setWidth 64)) s = exec (.bwShareWrite w die i x) s := by
  have hindex : (0xC0000 + 4 * i - 0xC0000) / 4 = i := by omega
  rw [exec_wordWrite_die w x (by omega) hd (by omega) h, State.writeDie_word s w x (by omega), if_neg (by omega), if_neg (by omega), if_pos (by omega), hindex]
  rfl

theorem registerWrite_pwShare {i : Nat} (x : BitVec 32) (hi : i < 256) (h : s.NoContextBlock (hubAddr (0x10000 + 4 * i)).toNat) :
    exec (.registerWrite w (hubAddr (0x10000 + 4 * i)) 4 (x.setWidth 64)) s = exec (.pwShareWrite w i x) s := by
  have hindex : (0x10000 + 4 * i - 0x10000) / 4 = i := by omega
  rw [exec_wordWrite_hub w x (by omega) (by omega) h, State.writeHub_word s w x (by omega) (by omega), if_pos (by omega), hindex]
  rfl

theorem registerWrite_tcCmd {x : BitVec 32} {i : Instr} (hi : (x.toNat, i) ∈ [(1, Instr.tcInvalidateS1 w), (2, .tcInvalidateS2 w), (3, .tcReloadContext w), (4, .tcReloadTask w)]) (h : s.NoContextBlock (hubAddr 0x40000).toNat) :
    exec (.registerWrite w (hubAddr 0x40000) 4 (x.setWidth 64)) s = exec i s := by
  rw [exec_wordWrite_hub w x rfl (by omega) h, State.writeHub_word s w x (by omega) (by omega), if_neg (by omega), if_pos rfl]
  simp only [List.mem_cons, Prod.mk.injEq, List.not_mem_nil, or_false] at hi
  rcases hi with ⟨hx, rfl⟩ | ⟨hx, rfl⟩ | ⟨hx, rfl⟩ | ⟨hx, rfl⟩ <;> rw [hx] <;> rfl

theorem registerWrite_module (x : BitVec 32) (h : s.NoContextBlock (hubAddr 0x60000).toNat) :
    exec (.registerWrite w (hubAddr 0x60000) 4 (x.setWidth 64)) s = exec (.lkModuleWrite w x) s := by
  rw [exec_wordWrite_hub w x rfl (by omega) h, State.writeHub_word s w x (by omega) (by omega), if_neg (by omega), if_neg (by omega), if_pos rfl]
  rfl

theorem State.writeHub_dl {o n : Nat} (v : Nat) (h : o < 0x10000) : s.writeHub w (0x20000 + o) n v = s.writeDl w o n v := by
  have hin : (decide (0x20000 ≤ 0x20000 + o) && decide (0x20000 + o < 0x30000)) = true := by simp; omega
  rw [State.writeHub, if_pos hin, Nat.add_sub_cancel_left]

theorem registerWrite_dlLow {i : Nat} (e : BitVec 64) (hi : i < 256) (h : s.NoContextBlock (hubAddr (0x20000 + 16 * i)).toNat) :
    exec (.registerWrite w (hubAddr (0x20000 + 16 * i)) 8 e) s = exec (.dlEntryWriteLow w i e) s := by
  have hindex : 16 * i / 16 = i := by omega
  rw [exec_registerWrite_hub w e (.inr rfl) (by omega) (by omega) h, State.writeHub_dl _ (by omega), State.writeDl, if_pos (by omega), if_neg (by decide), if_pos (by omega), hindex]
  rfl

theorem registerWrite_dlHigh {i : Nat} (e : BitVec 64) (hi : i < 256) (h : s.NoContextBlock (hubAddr (0x20000 + 16 * i + 8)).toNat) :
    exec (.registerWrite w (hubAddr (0x20000 + 16 * i + 8)) 8 e) s = exec (.dlEntryWriteHigh w i e) s := by
  have hindex : (16 * i + 8) / 16 = i := by omega
  rw [exec_registerWrite_hub w e (.inr rfl) (by omega) (by omega) h, Nat.add_assoc, State.writeHub_dl _ (by omega), State.writeDl, if_pos (by omega), if_neg (by decide), if_neg (by omega), hindex]
  rfl

theorem registerWrite_dlRevoke (x : BitVec 32) (h : s.NoContextBlock (hubAddr 0x21000).toNat) :
    exec (.registerWrite w (hubAddr 0x21000) 4 (x.setWidth 64)) s = exec (.dlRevoke w x) s := by
  rw [exec_wordWrite_hub w x rfl (by omega) h, State.writeHub_dl (o := 0x1000) _ (by omega), State.writeDl, if_neg (by omega), if_pos rfl, nbits_word]
  rfl

theorem registerWrite_rtRow {i : Nat} (e : BitVec 64) (hi : i < 48) (h : s.NoContextBlock (hubAddr (0x30000 + 8 * i)).toNat) :
    exec (.registerWrite w (hubAddr (0x30000 + 8 * i)) 8 e) s = exec (.rtRowWrite w i .all e) s := by
  have hrt : (decide (0x30000 ≤ 0x30000 + 8 * i) && decide (0x30000 + 8 * i < 0x40000)) = true := by simp; omega
  have hindex : (0x30000 + 8 * i - 0x30000) / 8 = i := by omega
  rw [exec_registerWrite_hub w e (.inr rfl) (by omega) (by omega) h, State.writeHub, if_neg (by simp), if_pos hrt, hindex, if_pos rfl]
  rfl

theorem State.writeHub_pt {o n : Nat} (v : Nat) (h : o < 0x10000) : s.writeHub w (0x50000 + o) n v = s.writePt w o n v := by
  have hdl : (decide (0x20000 ≤ 0x50000 + o) && decide (0x50000 + o < 0x30000)) = false := by simp; omega
  have hrt : (decide (0x30000 ≤ 0x50000 + o) && decide (0x50000 + o < 0x40000)) = false := by simp; omega
  have hpt : (decide (0x50000 ≤ 0x50000 + o) && decide (0x50000 + o < 0x60000)) = true := by simp; omega
  rw [State.writeHub, if_neg (by simp [hdl]), if_neg (by simp [hrt]), if_pos hpt, Nat.add_sub_cancel_left]

/-- A write to one field of a partition-table entry does what PARTITION_TABLE_WRITE does (17 R333). -/
theorem State.writePt_field {i r n : Nat} (v : Nat) (hi : i < 24) {f : PartField} (hf : (r, n, f) ∈ [(0, 4, PartField.ctl), (4, 4, .dies), (8, 8, .s2root)]) :
    s.writePt w (32 * i + r) n v = if i < 24 && w.level == 0 && s.writerHolds w 1 then s.writePartition i f v else s := by
  simp only [List.mem_cons, Prod.mk.injEq, List.not_mem_nil, or_false] at hf
  have hr : r < 32 := by omega
  have hindex : (32 * i + r) / 32 = i := by omega
  have hoff : (32 * i + r) % 32 = r := by omega
  have hno : ¬ 24 ≤ i := by omega
  unfold State.writePt
  dsimp only
  rw [hindex, hoff]
  by_cases hmay : w.level = 0 ∧ s.writerHolds w 1 = true
  · rcases hf with ⟨rfl, rfl, rfl⟩ | ⟨rfl, rfl, rfl⟩ | ⟨rfl, rfl, rfl⟩ <;> simp [hi, hno, hmay, setPart]
  · have hnot : w.level = 0 → s.writerHolds w 1 = false := by simpa using hmay
    rw [if_pos (by simp [imp_iff_not_or.1 hnot, or_assoc]), if_neg (by simpa using fun _ => hnot)]

theorem registerWrite_pt {i r n : Nat} {y : BitVec 64} (hi : i < 24) {f : PartField} (hf : (r, n, f) ∈ [(0, 4, PartField.ctl), (4, 4, .dies), (8, 8, .s2root)]) (h : s.NoContextBlock (hubAddr (0x50000 + 32 * i + r)).toNat) :
    exec (.registerWrite w (hubAddr (0x50000 + 32 * i + r)) n y) s = exec (.partitionTableWrite w i f y) s := by
  have hf' := hf
  simp only [List.mem_cons, Prod.mk.injEq, List.not_mem_nil, or_false] at hf'
  have ha : (0x50000 + 32 * i + r) % n = 0 := by rcases hf' with ⟨rfl, rfl, -⟩ | ⟨rfl, rfl, -⟩ | ⟨rfl, rfl, -⟩ <;> omega
  rw [exec_registerWrite_hub w y (by omega) ha (by omega) h, Nat.add_assoc, State.writeHub_pt _ (by omega), State.writePt_field _ hi hf]
  rfl

end

/-! ### A context's halt block (16 R305) -/

theorem State.commands_notOwner {s : State} {w : Writer} {ctx : Nat} (h : s.ownsHalt w ctx = false) : s.commands w ctx = false := by
  simp [State.commands, h]

/-- What a write of hb.cmd leaves where the value is no command: the value (16 R305). -/
theorem State.haltCmd_noCommand (s : State) (w : Writer) (ctx : Nat) {v : Nat} (h : v % 8 = 0 ∨ 4 < v % 8) : s.haltCmd w ctx v = s.noteCmd w ctx v := by
  unfold State.haltCmd
  dsimp only
  split
  case h_5 => rfl
  all_goals omega

theorem State.haltCmd_notOwner {s : State} {w : Writer} {ctx : Nat} (v : Nat) (h : s.ownsHalt w ctx = false) : s.haltCmd w ctx v = s := by
  have hnote : s.noteCmd w ctx v = s := by simp [State.noteCmd, h]
  have hno := State.commands_notOwner h
  unfold State.haltCmd
  dsimp only
  rw [hnote]
  split <;> simp [State.resumeCmd, State.stepCmd, State.preemptCmd, State.terminateCmd, hno]

theorem State.haltCmd_command {s : State} {w : Writer} {ctx v : Nat} {i : Instr} (hi : (v % 8, i) ∈ [(1, Instr.haltResume ctx w), (2, .haltStep ctx w), (3, .haltPreempt ctx w), (4, .haltTerminate ctx w)]) :
    .next (s.haltCmd w ctx v) = exec i s := by
  have hnote : ∀ k, v % 8 = k → k < 8 → s.noteCmd w ctx v = s.noteCmd w ctx k := by
    intro k hk hlt
    rw [State.noteCmd, State.noteCmd, hk, Nat.mod_eq_of_lt hlt]
  simp only [List.mem_cons, Prod.mk.injEq, List.not_mem_nil, or_false] at hi
  unfold State.haltCmd
  dsimp only
  rcases hi with ⟨hv, rfl⟩ | ⟨hv, rfl⟩ | ⟨hv, rfl⟩ | ⟨hv, rfl⟩ <;> rw [hv, hnote _ hv (by omega)] <;> rfl

theorem State.writeHalt_notOwner {s : State} {w : Writer} {ctx : Nat} (o v : Nat) (h : s.ownsHalt w ctx = false) : s.writeHalt w ctx o v = s := by
  rw [State.writeHalt, State.haltCmd_notOwner v h]
  simp [h]

/-- What the halt block keeps of a word written to hb.stop's upper half, hb.wdt or hb.debug: the bits that are not reserved. -/
theorem HaltBlock.writeReg_stored (b : HaltBlock) (x : BitVec 32) {o : Nat} {f : HaltBlock → HaltBlock}
    (h : (o, f) ∈ [(0x18, fun b : HaltBlock => { b with wdt := x.toNat % 2 ^ 24 }), (0x1C, fun b => { b with debugBits := x.toNat % 2 }), (0x14, fun b => { b with stop := b.stop % 2 ^ 32 / 2 ^ 12 * 2 ^ 12 + x.toNat * 2 ^ 32 })]) :
    b.writeReg o x.toNat = f b := by
  have hx := x.isLt
  have hstop : keepBits (setHalf b.stop 4 x.toNat) 12 64 = b.stop % 2 ^ 32 / 2 ^ 12 * 2 ^ 12 + x.toNat * 2 ^ 32 := by
    rw [keepBits, setHalf, if_neg (by decide), nbits, Nat.shiftRight_eq_div_pow]
    omega
  simp only [List.mem_cons, Prod.mk.injEq, List.not_mem_nil, or_false] at h
  rcases h with ⟨rfl, rfl⟩ | ⟨rfl, rfl⟩ | ⟨rfl, rfl⟩
  · rfl
  · rfl
  · simp [HaltBlock.writeReg, hstop]

theorem State.writeHalt_owner {s : State} {w : Writer} {ctx o : Nat} (v : Nat) (h : s.ownsHalt w ctx = true) (ho : o ≠ 4) :
    s.writeHalt w ctx o v = s.modContext ctx (fun c => { c with hb := c.hb.writeReg o v }) := by
  simp [State.writeHalt, h, ho]

/-! ### Reads by address (00 R9, 17 R315) -/

/-- What a read of a word at a machine address gives, whatever function and bytes come with it; it changes no group, no context and no memory. -/
def State.ReadsWord (s : State) (w : Writer) (a : BitVec 52) (y : Nat) : Prop :=
  ∀ f bs, ∃ t, exec (.rootPortDma f (a.setWidth 64) (.register w 4) bs) s = .next t ∧ t.hub.answer = toBytes y 4 ∧ t.groups = s.groups ∧ t.contexts = s.contexts ∧ t.mem = s.mem

theorem exec_registerRead (s : State) (w : Writer) (f : Nat) (a : BitVec 52) (n : Nat) (bs : List Byte) :
    exec (.rootPortDma f (a.setWidth 64) (.register w n) bs) s = .next ((s.noteRead w a.toNat n).modHub (fun h => { h with answer := toBytes (s.readRegister w a.toNat n) n })) := by
  have ha : (a.setWidth 64).toNat % 2 ^ 52 = a.toNat := by
    rw [BitVec.toNat_setWidth_of_le (by decide), Nat.mod_eq_of_lt a.isLt]
  rw [exec_rootPortDma, execRootPortDma, ha]

/-- What a read leaves behind is at most a mark in the error log of the hub or of a die (16 R313). -/
theorem State.noteRead_frame (s : State) (w : Writer) (a n : Nat) : (s.noteRead w a n).groups = s.groups ∧ (s.noteRead w a n).contexts = s.contexts ∧ (s.noteRead w a n).mem = s.mem := by
  unfold State.noteRead
  repeat' split
  all_goals exact ⟨rfl, rfl, rfl⟩

theorem State.readsWord_of_block {s : State} {a : BitVec 52} {b : Block} (w : Writer) (hb : s.blockOf a.toNat = some b) (ha : a.toNat % 4 = 0) :
    s.ReadsWord w a (if s.reaches w b = true then s.blockWord w b else 0) := by
  have hw : wordAccess a.toNat 4 = true := (wordAccess_iff _ _).2 ⟨.inl rfl, ha⟩
  obtain ⟨hgroups, hcontexts, hmem⟩ := s.noteRead_frame w a.toNat 4
  refine fun f bs => ⟨_, exec_registerRead s w f a 4 bs, ?_, hgroups, hcontexts, hmem⟩
  simp [State.readRegister, hw, hb]

theorem exec_registerRead_ignored (s : State) (w : Writer) (f : Nat) (a : BitVec 52) {n : Nat} (bs : List Byte) (h : n ≠ 4) (h' : n ≠ 8) :
    ∃ t, exec (.rootPortDma f (a.setWidth 64) (.register w n) bs) s = .next t ∧ t.hub.answer = toBytes 0 n := by
  refine ⟨_, exec_registerRead s w f a n bs, ?_⟩
  have hw : wordAccess a.toNat n = false := by simp [wordAccess, h, h']
  simp [State.readRegister, hw]

theorem State.readsWord_hub {s : State} (w : Writer) {o : Nat} (ha : o % 4 = 0) (ho : o < 2 ^ 40) (h : s.NoContextBlock (hubAddr o).toNat) :
    s.ReadsWord w (hubAddr o) (if s.reaches w (.hub o) = true then s.hubWord w o else 0) :=
  State.readsWord_of_block w (State.blockOf_hubAddr ho h) (by rw [hubAddr_toNat ho]; unfold hubBase; omega)

theorem State.readsWord_die {s : State} (w : Writer) {die o : Nat} (ha : o % 4 = 0) (hd : die < 24) (ho : o < 2 ^ 24) (h : s.NoContextBlock (dieAddr die o).toNat) :
    s.ReadsWord w (dieAddr die o) (if s.reaches w (.die die o) = true then s.dieWord w die o else 0) :=
  State.readsWord_of_block w (State.blockOf_dieAddr hd ho h) (by rw [dieAddr_toNat hd ho]; unfold dieBase; omega)

theorem State.readsWord_halt {s : State} (w : Writer) {ctx o : Nat} (ha : o % 4 = 0) (h : s.InHaltBlock ctx ((s.context ctx).haltb + o)) :
    s.ReadsWord w (s.haltAddr ctx o) (if s.holdsOver w ctx 11 = true then s.haltWord ctx o else 0) :=
  State.readsWord_of_block w (State.blockOf_haltAddr h) (by have ⟨_, _, haligned⟩ := h; rw [h.addr_toNat]; omega)

/-! ### The statement's clauses -/

section
variable {s : State} {w : Writer}

theorem pfSelWrite_stores {slice index : Nat} (x : BitVec 32) (h : slice < 768 ∧ index < 8 ∧ w.level ≤ 1 ∧ s.atLevel w = true) :
    ∃ t, exec (.pfSelWrite w slice index x) s = .next t ∧
      t.slice slice = { s.slice slice with sel := tset 0 index (x.toNat % 2 ^ 17) (s.slice slice).sel, pf := [0, 1, 2, 3].foldl (fun t k => tset 0 (9 * k + index) 0 t) (s.slice slice).pf } ∧ ∀ k, k ≠ slice → t.slice k = s.slice k := by
  rw [exec_pfSelWrite, execPfSelWrite, State.writeSel_eq, if_pos h]
  exact ⟨_, rfl, State.slice_modSlice_self .., fun k hk => State.slice_modSlice_ne _ _ _ _ hk⟩

theorem pfSelWrite_refused {slice index : Nat} (x : BitVec 32) (h : ¬ (slice < 768 ∧ index < 8 ∧ w.level ≤ 1 ∧ s.atLevel w = true)) : exec (.pfSelWrite w slice index x) s = .next s := by
  rw [exec_pfSelWrite, execPfSelWrite, State.writeSel_eq, if_neg h]

theorem rmfEntryWrite_stores {core index : Nat} {canon : Bool} {e : BitVec 64} (h : s.MayRemap w core index canon e.toNat) :
    ∃ t, exec (.rmfEntryWrite w core index canon e) s = .next t ∧ t.core core = (s.core core).putRemap index canon (remapWord canon e.toNat) := by
  rw [exec_rmfEntryWrite, execRmfEntryWrite, State.writeRmf_may h]
  exact ⟨_, rfl, State.core_modCore_self ..⟩

theorem rmfEntryWrite_refused {core index : Nat} {canon : Bool} {e : BitVec 64} (h : ¬ s.MayRemap w core index canon e.toNat) : exec (.rmfEntryWrite w core index canon e) s = .next s := by
  rw [exec_rmfEntryWrite, execRmfEntryWrite, State.writeRmf_mayNot h]

theorem rdCtlWrite_stores {ctx : Nat} (x : BitVec 32) (h : s.holdsOver w ctx 10 = true) :
    ∃ t, exec (.rdCtlWrite w ctx x) s = .next t ∧
      t.context ctx = { s.context ctx with rd := { (s.context ctx).rd with en := x.getLsbD 0, mode := x.getLsbD 1, logwr := if x.getLsbD 0 = true ∧ (s.context ctx).rd.en = false then 0 else (s.context ctx).rd.logwr } } := by
  rw [exec_rdCtlWrite, execRdCtlWrite, State.writeRd_right _ h]
  exact ⟨_, rfl, State.context_modContext_self ..⟩

theorem rdCtlWrite_refused {ctx : Nat} (x : BitVec 32) (h : s.holdsOver w ctx 10 = false) : exec (.rdCtlWrite w ctx x) s = .next s := by
  rw [exec_rdCtlWrite, execRdCtlWrite, State.writeRd_noRight _ h]

/-- The words of a context's halt block that a write stores as they stand, and hb.cmd where the value is no command (16 R305). -/
theorem registerWrite_halt {ctx o : Nat} (x : BitVec 32) {f : HaltBlock → HaltBlock}
    (hf : (o, f) ∈ [(0x18, fun b : HaltBlock => { b with wdt := x.toNat % 2 ^ 24 }), (0x1C, fun b => { b with debugBits := x.toNat % 2 }), (0x14, fun b => { b with stop := b.stop % 2 ^ 32 / 2 ^ 12 * 2 ^ 12 + x.toNat * 2 ^ 32 })])
    (h : s.InHaltBlock ctx ((s.context ctx).haltb + o)) (hown : s.ownsHalt w ctx = true) :
    ∃ t, exec (.registerWrite w (s.haltAddr ctx o) 4 (x.setWidth 64)) s = .next t ∧ t.context ctx = { s.context ctx with hb := f (s.context ctx).hb } ∧ t.hub = s.hub ∧ t.dies = s.dies := by
  have ho : o % 4 = 0 ∧ o ≠ 4 := by
    simp only [List.mem_cons, Prod.mk.injEq, List.not_mem_nil, or_false] at hf
    omega
  obtain ⟨haligned, hne⟩ := ho
  refine ⟨_, exec_wordWrite_halt w x haligned h, ?_⟩
  rw [State.writeHalt_owner _ hown hne, State.context_modContext_self, HaltBlock.writeReg_stored _ x hf]
  exact ⟨rfl, rfl, rfl⟩

theorem registerWrite_haltCmd {ctx : Nat} (x : BitVec 32) (h : s.InHaltBlock ctx ((s.context ctx).haltb + 4)) :
    exec (.registerWrite w (s.haltAddr ctx 4) 4 (x.setWidth 64)) s = .next (s.haltCmd w ctx x.toNat) :=
  exec_wordWrite_halt w x rfl h

theorem registerWrite_haltCmd_stored {ctx : Nat} (x : BitVec 32) (h : s.InHaltBlock ctx ((s.context ctx).haltb + 4)) (hown : s.ownsHalt w ctx = true) (hx : x.toNat % 8 = 0 ∨ 4 < x.toNat % 8) :
    ∃ t, exec (.registerWrite w (s.haltAddr ctx 4) 4 (x.setWidth 64)) s = .next t ∧ t.context ctx = { s.context ctx with hb := { (s.context ctx).hb with cmd := x.toNat % 8 } } ∧ t.hub = s.hub ∧ t.dies = s.dies := by
  refine ⟨_, registerWrite_haltCmd x h, ?_⟩
  rw [State.haltCmd_noCommand s w ctx hx, State.noteCmd, if_pos hown, State.context_modContext_self]
  exact ⟨rfl, rfl, rfl⟩

theorem registerWrite_haltCmd_command {ctx : Nat} (x : BitVec 32) {i : Instr} (h : s.InHaltBlock ctx ((s.context ctx).haltb + 4)) (hi : (x.toNat % 8, i) ∈ [(1, Instr.haltResume ctx w), (2, .haltStep ctx w), (3, .haltPreempt ctx w), (4, .haltTerminate ctx w)]) :
    exec (.registerWrite w (s.haltAddr ctx 4) 4 (x.setWidth 64)) s = exec i s := by
  rw [registerWrite_haltCmd x h, State.haltCmd_command hi]

theorem registerWrite_halt_refused {ctx o : Nat} (x : BitVec 32) (ha : o % 4 = 0) (h : s.InHaltBlock ctx ((s.context ctx).haltb + o)) (hown : s.ownsHalt w ctx = false) :
    exec (.registerWrite w (s.haltAddr ctx o) 4 (x.setWidth 64)) s = .next s := by
  rw [exec_wordWrite_halt w x ha h, State.writeHalt_notOwner _ _ hown]

theorem readsWord_haltRegs {ctx o y : Nat} (hy : (o, y) ∈ [(4, (s.context ctx).hb.cmd), (8, (s.context ctx).hb.first), (0x18, (s.context ctx).hb.wdt)]) (h : s.InHaltBlock ctx ((s.context ctx).haltb + o)) :
    s.ReadsWord w (s.haltAddr ctx o) (if s.holdsOver w ctx 11 = true then y else 0) := by
  simp only [List.mem_cons, Prod.mk.injEq, List.not_mem_nil, or_false] at hy
  rcases hy with ⟨rfl, rfl⟩ | ⟨rfl, rfl⟩ | ⟨rfl, rfl⟩ <;> exact State.readsWord_halt w rfl h

/-- The registers that level 0 alone reads, with TRK: the page tracker's and the module number (17 R315; 03 R50). -/
theorem readsWord_level0Regs {die : Nat} {a : BitVec 52} {y : Nat} (h : s.NoContextBlock a.toNat) (hy : (a, y) ∈ [(dieAddr die 4, (s.die die).hptEpoch), (dieAddr die 8, (s.die die).hptThr), (hubAddr 0x60000, s.hub.module)]) (hd : die < 24) :
    (w.level = 0 ∧ s.writerHolds w 14 = true → s.ReadsWord w a y) ∧ (¬ (w.level = 0 ∧ s.writerHolds w 14 = true) → s.ReadsWord w a 0) := by
  have hread : s.ReadsWord w a (if (w.level == 0 && s.writerHolds w 14) = true then y else 0) := by
    simp only [List.mem_cons, Prod.mk.injEq, List.not_mem_nil, or_false] at hy
    rcases hy with ⟨rfl, rfl⟩ | ⟨rfl, rfl⟩ | ⟨rfl, rfl⟩
    · exact State.readsWord_die w rfl hd (by decide) h
    · exact State.readsWord_die w rfl hd (by decide) h
    · exact State.readsWord_hub w rfl (by decide) h
  simp only [Bool.and_eq_true, beq_iff_eq] at hread
  exact ⟨fun hall => by rwa [if_pos hall] at hread, fun hall => by rwa [if_neg hall] at hread⟩

theorem readsWord_bwThr {die : Nat} (h : s.NoContextBlock (dieAddr die 0xC0108).toNat) (hd : die < 24) :
    s.ReadsWord w (dieAddr die 0xC0108) (if s.atLevel w = true ∧ (w.level = 0 ∨ s.writerHolds w 2 = true) then (s.die die).bwThr else 0) := by
  have hreach : s.reaches w (.die die 0xC0108) = true ↔ s.atLevel w = true ∧ (w.level = 0 ∨ s.writerHolds w 2 = true) := by simp [State.reaches]
  have hread := State.readsWord_die w (o := 0xC0108) rfl hd (by decide) h
  rwa [if_congr hreach rfl rfl] at hread

/-- The arguments of translation control take a word from a writer whose entry is effective and of its level (17 R337). -/
theorem registerWrite_tcArgs {o : Nat} {f : Hub → Hub} (x : BitVec 32)
    (hf : (o, f) ∈ [(0x40008, fun h : Hub => { h with tcArg0 := h.tcArg0 / 2 ^ 32 * 2 ^ 32 + x.toNat }), (0x4000C, fun h => { h with tcArg0 := h.tcArg0 % 2 ^ 32 + x.toNat * 2 ^ 32 }), (0x40010, fun h => { h with tcArg1 := h.tcArg1 / 2 ^ 32 * 2 ^ 32 + x.toNat }), (0x40014, fun h => { h with tcArg1 := h.tcArg1 % 2 ^ 32 + x.toNat * 2 ^ 32 })])
    (h : s.NoContextBlock (hubBase + o)) (hlevel : s.atLevel w = true) :
    exec (.registerWrite w (hubAddr o) 4 (x.setWidth 64)) s = .next { s with hub := f s.hub } := by
  simp only [List.mem_cons, Prod.mk.injEq, List.not_mem_nil, or_false] at hf
  have ho : o % 4 = 0 ∧ 0x40008 ≤ o ∧ o < 0x40018 := by omega
  obtain ⟨haligned, hlo, hhi⟩ := ho
  rw [← hubAddr_toNat (by omega)] at h
  rw [exec_wordWrite_hub w x haligned (by omega) h, State.writeHub_word s w x (by omega) (by omega), if_neg (by omega), if_neg (by omega), if_neg (by omega), if_pos hlevel]
  rcases hf with ⟨rfl, rfl⟩ | ⟨rfl, rfl⟩ | ⟨rfl, rfl⟩ | ⟨rfl, rfl⟩ <;> rfl

theorem registerWrite_dieReg {die o : Nat} (x : BitVec 32) (ha : o % 4 = 0) (ho : (0 < o ∧ o < 0x10000) ∨ (0x88000 ≤ o ∧ o < 0xC0000) ∨ (0xC0100 ≤ o ∧ o < 2 ^ 24)) (h : s.NoContextBlock (dieBase + die * 0x1000000 + o)) (hd : die < 24) (hmay : s.dieRegAllowed w o = true) :
    exec (.registerWrite w (dieAddr die o) 4 (x.setWidth 64)) s = .next (s.modDie die (fun d => d.writeReg o x.toNat)) := by
  rw [← dieAddr_toNat hd (by omega)] at h
  rw [exec_wordWrite_die w x ha hd (by omega) h, State.writeDie_reg x (by omega) hmay]

theorem registerWrite_hptRegs {die o : Nat} {f : Die → Die} (x : BitVec 32) (hf : (o, f) ∈ [(0x04, fun d : Die => { d with hptEpoch := max 1 (x.toNat % 2 ^ 16) }), (0x08, fun d => { d with hptThr := x.toNat % 2 ^ 16 })])
    (h : s.NoContextBlock (dieBase + die * 0x1000000 + o)) (htrk : w.level = 0 ∧ s.writerHolds w 14 = true ∧ die < 24) :
    ∃ t, exec (.registerWrite w (dieAddr die o) 4 (x.setWidth 64)) s = .next t ∧ t.die die = f (s.die die) ∧ t.contexts = s.contexts ∧ t.hub = s.hub := by
  obtain ⟨hlevel, hright, hd⟩ := htrk
  simp only [List.mem_cons, Prod.mk.injEq, List.not_mem_nil, or_false] at hf
  have hmay : s.dieRegAllowed w o = true := by
    rcases hf with ⟨rfl, -⟩ | ⟨rfl, -⟩ <;> simp [State.dieRegAllowed, hlevel, hright]
  refine ⟨_, registerWrite_dieReg x (by omega) (by omega) h hd hmay, ?_, rfl, rfl⟩
  rw [State.die_modDie_self]
  rcases hf with ⟨rfl, rfl⟩ | ⟨rfl, rfl⟩ <;> rfl

theorem registerWrite_fwCtl {die : Nat} (x : BitVec 32) (h : s.NoContextBlock (dieBase + die * 0x1000000 + 0x90000)) (htrk : w.level = 0 ∧ s.writerHolds w 14 = true ∧ die < 24) :
    ∃ t, exec (.registerWrite w (dieAddr die 0x90000) 4 (x.setWidth 64)) s = .next t ∧ tget {} 0 (t.die die).fw = { tget {} 0 (s.die die).fw with ctl := x.toNat % 4 } ∧ t.contexts = s.contexts := by
  obtain ⟨hlevel, hright, hd⟩ := htrk
  have hmay : s.dieRegAllowed w 0x90000 = true := by simp [State.dieRegAllowed, hlevel, hright]
  refine ⟨_, registerWrite_dieReg x rfl (by omega) h hd hmay, ?_, rfl⟩
  rw [State.die_modDie_self, Die.writeReg_fwCtl]

theorem registerWrite_bwThr {die : Nat} (x : BitVec 32) (h : s.NoContextBlock (dieBase + die * 0x1000000 + 0xC0108)) (hlevel : w.level = 0) (hat : s.atLevel w = true) (hd : die < 24) :
    ∃ t, exec (.registerWrite w (dieAddr die 0xC0108) 4 (x.setWidth 64)) s = .next t ∧ t.die die = { s.die die with bwThr := x.toNat % 2 ^ 12 } ∧ t.contexts = s.contexts ∧ t.hub = s.hub := by
  have hmay : s.dieRegAllowed w 0xC0108 = true := by simp [State.dieRegAllowed, hlevel, hat]
  refine ⟨_, registerWrite_dieReg x rfl (by omega) h hd hmay, ?_, rfl, rfl⟩
  rw [State.die_modDie_self]
  rfl

theorem registerWrite_drpThr {die k : Nat} (x : BitVec 32) (hk : k < 8) (h : s.NoContextBlock (dieBase + die * 0x1000000 + 0x80000 + k * 0x1000)) (hlevel : w.level = 0) (hat : s.atLevel w = true) (hd : die < 24) :
    ∃ t, exec (.registerWrite w (dieAddr die (0x80000 + k * 0x1000)) 4 (x.setWidth 64)) s = .next t ∧ t.cluster (8 * die + k) = { s.cluster (8 * die + k) with drpThr := x.toNat % 2 ^ 8 } ∧ t.contexts = s.contexts := by
  have hmay : s.dieRegAllowed w (0x80000 + k * 0x1000) = true := by
    rw [State.dieRegAllowed, if_neg (by simp; omega)]
    simp [hlevel, hat]
  have hcluster : (0x80000 + k * 0x1000 - 0x80000) / 0x1000 = k := by omega
  rw [Nat.add_assoc, ← dieAddr_toNat hd (by omega)] at h
  refine ⟨_, exec_wordWrite_die w x (by omega) hd (by omega) h, ?_⟩
  rw [State.writeDie_word s w x (by omega), if_neg (by omega), if_neg (by omega), if_neg (by omega), if_neg (by simp [hmay]), if_pos (by omega), if_pos (by omega), hcluster]
  exact ⟨State.cluster_modCluster_self .., rfl⟩

theorem registerWrite_dieLevel {die o : Nat} (x : BitVec 32) (ho : o < 0xF0000) (hsel : ¬ (0x10000 ≤ o ∧ o < 0x30000)) (hrmf : ¬ (0x40000 ≤ o ∧ o < 0x80000)) (hbw : ¬ (0xC0000 ≤ o ∧ o < 0xC0100)) (h : s.NoContextBlock (dieBase + die * 0x1000000 + o)) (hlevel : w.level ≠ 0) (hd : die < 24) :
    exec (.registerWrite w (dieAddr die o) 4 (x.setWidth 64)) s = .next s := by
  have hin : o < 2 ^ 24 := by omega
  rw [← dieAddr_toNat hd hin] at h
  by_cases ha : o % 4 = 0
  · rw [exec_wordWrite_die w x ha hd hin h, State.writeDie_level x hsel hrmf hbw hlevel]
  · exact exec_registerWrite_ignored s w _ (by rw [dieAddr_toNat hd hin]; unfold dieBase; omega)

end

/-- Settles O52: each clause is the law above of the registers that it names. -/
theorem controlRegisters : Obligations.ControlRegisters := by
  intro s w slice core index ctx die value entry
  exact ⟨pfSelWrite_stores value, pfSelWrite_refused value,
    rmfEntryWrite_stores (canon := false), rmfEntryWrite_stores (canon := true), fun _ => rmfEntryWrite_refused,
    rdCtlWrite_stores value, rdCtlWrite_refused value,
    fun _ _ => registerWrite_halt value, registerWrite_haltCmd_stored value, fun _ => registerWrite_haltCmd_command value, fun _ _ => registerWrite_halt_refused value,
    fun _ _ => readsWord_haltRegs, fun _ _ => readsWord_level0Regs, readsWord_bwThr, fun f bs a _ => exec_registerRead_ignored s w f a bs,
    fun _ _ => registerWrite_tcArgs value, fun _ _ => registerWrite_hptRegs value, registerWrite_fwCtl value, registerWrite_bwThr value, fun _ => registerWrite_drpThr value, fun _ => registerWrite_dieLevel value,
    registerWrite_hptCtl value, fun _ _ => registerWrite_pfSel value,
    fun _ _ hd hk hi => ⟨registerWrite_rmf (r := 0) entry hd hk hi (.inl rfl), registerWrite_rmf (r := 8) entry hd hk hi (.inr rfl)⟩,
    fun _ => registerWrite_bwShare value, fun _ => registerWrite_pwShare value,
    fun _ hi => ⟨registerWrite_dlLow entry hi, registerWrite_dlHigh entry hi⟩, registerWrite_dlRevoke value,
    fun _ => registerWrite_rtRow entry, registerWrite_module value,
    fun _ hi => ⟨registerWrite_pt (r := 0) hi (by simp), registerWrite_pt (r := 4) hi (by simp), registerWrite_pt (r := 8) hi (by simp)⟩,
    fun _ => registerWrite_tcCmd, fun _ _ y h h' => exec_registerWrite_ignored s w y (by omega), fun _ _ y h => exec_registerWrite_ignored s w y (fun ha => h ha.2)⟩

end Sys2Proof.Machine
end

section
/-! SUPPORT. The words of instructions (01 R12 to R23, R30): each frame, half and header is read back field by field, the opcode
map and the opcodes of the instructions invert each other, and what a word decodes to; then the two statements about them. -/

namespace Sys2Proof

/-! ### Fields -/

/-- Two neighbouring fields, laid end to end. -/
theorem extract_append {k : Nat} (x : BitVec k) {hi lo m n : Nat} (h : hi = lo + n) : x.extractLsb' hi m ++ x.extractLsb' lo n = x.extractLsb' lo (m + n) :=
  BitVec.extractLsb'_append_extractLsb'_eq_extractLsb' h

theorem ofBool_getLsbD {n : Nat} (x : BitVec n) (k : Nat) : BitVec.ofBool (x.getLsbD k) = x.extractLsb' k 1 := by
  ext j hj
  obtain rfl : j = 0 := by omega
  simp

theorem bkindOf_bits (k : BKind) : bkindOf k.bits = k := by cases k <;> rfl
theorem bits_bkindOf (x : BitVec 2) : (bkindOf x).bits = x := by revert x; decide
theorem rmodeOf_bits (k : RMode) : rmodeOf k.bits = k := by cases k <;> rfl
theorem bits_rmodeOf (x : BitVec 2) : (rmodeOf x).bits = x := by revert x; decide

/-- Bits [51:47] of a word are those of the guard that is read from it (R14). -/
theorem bits_guardOf {w : DWord} {g : Guard} (h : guardOf w = some g) : g.bits = bitsAt w 47 5 := by
  unfold guardOf at h
  split at h
  next hs =>
    cases h
    rw [Guard.bits, ← hs]
    simp (disch := rfl) only [ofBool_getLsbD, extract_append]
  next hs =>
    split at h
    next hz =>
      cases h
      have hs : bitsAt w 51 1 = 0 := (ofBool_getLsbD w 51).symm.trans (by rw [Bool.eq_false_iff.2 hs]; rfl)
      have h5 : bitsAt w 51 1 ++ bitsAt w 47 4 = bitsAt w 47 5 := extract_append w rfl
      rw [← h5, hs, hz]
      rfl
    · cases h

theorem bits_fopsOf {w : DWord} {o : FOps} (h : fopsOf w = some o) : o.bits = bitsAt w 0 52 := by
  obtain ⟨g, hg, rfl⟩ := Option.map_eq_some_iff.1 h
  simp (disch := rfl) only [FOps.bits, bits_guardOf hg, bits_bkindOf, bits_rmodeOf, ofBool_getLsbD, extract_append]

theorem bits_immOpsOf {w : DWord} {o : ImmOps} (h : immOpsOf w = some o) : o.bits = bitsAt w 0 52 := by
  obtain ⟨g, hg, rfl⟩ := Option.map_eq_some_iff.1 h
  simp (disch := rfl) only [ImmOps.bits, bits_guardOf hg, extract_append]

theorem bits_imm32OpsOf {w : DWord} {o : Imm32Ops} (h : imm32OpsOf w = some o) : o.bits = bitsAt w 0 52 := by
  obtain ⟨g, hg, rfl⟩ := Option.map_eq_some_iff.1 h
  simp (disch := rfl) only [Imm32Ops.bits, bits_guardOf hg, extract_append]

/-- A field of the bits below an opcode. -/
theorem bitsAt_of_low {w : DWord} {x : BitVec 52} (h : bitsAt w 0 52 = x) {lo n : Nat} (hn : lo + n ≤ 52) : bitsAt w lo n = x.extractLsb' lo n := by
  subst h
  ext k hk
  have : lo + k < 52 := by omega
  simp [BitVec.getElem_extractLsb', this]

theorem guardOf_of_bits {w : DWord} {g : Guard} (h : bitsAt w 47 5 = g.bits) : guardOf w = some g := by
  have h1 : w.getLsbD 51 = g.bits.getLsbD 4 := by rw [← h]; simp
  have h2 : w.getLsbD 50 = g.bits.getLsbD 3 := by rw [← h]; simp
  have h3 (n : Nat) (hn : n ≤ 5) : bitsAt w 47 n = g.bits.extractLsb' 0 n := by
    rw [← h]; ext k hk; have : k < 5 := by omega
    simp [BitVec.getElem_extractLsb', this]
  unfold guardOf
  rw [h1, h2, h3 3 (by omega), h3 4 (by omega)]
  clear h h1 h2 h3
  cases g with
  | none => rfl
  | on neg q => revert neg q; decide

/-- A field of the upper and of the lower part of bits laid end to end. -/
theorem extract_upper {p q : Nat} (x : BitVec p) (y : BitVec q) {lo n : Nat} (h : q ≤ lo) : (x ++ y).extractLsb' lo n = x.extractLsb' (lo - q) n :=
  BitVec.extractLsb'_append_eq_of_le h
theorem extract_lower {p q : Nat} (x : BitVec p) (y : BitVec q) {lo n : Nat} (h : lo + n ≤ q) : (x ++ y).extractLsb' lo n = y.extractLsb' lo n :=
  BitVec.extractLsb'_append_eq_of_add_le h

theorem getLsbD_of_extract {n : Nat} {x : BitVec n} {k : Nat} {b : Bool} (h : x.extractLsb' k 1 = BitVec.ofBool b) : x.getLsbD k = b :=
  BitVec.ofBool_eq_iff_eq.1 ((ofBool_getLsbD x k).trans h)

theorem FOps.fields_of_bits {w : DWord} {o : FOps} (h : bitsAt w 0 52 = o.bits) :
    bitsAt w 47 5 = o.g.bits ∧ bitsAt w 39 8 = o.d ∧ bitsAt w 31 8 = o.a ∧ bitsAt w 23 8 = o.b ∧ bitsAt w 15 8 = o.c ∧ bitsAt w 13 2 = o.bk.bits ∧
    bitsAt w 12 1 = BitVec.ofBool o.fs ∧ bitsAt w 11 1 = BitVec.ofBool o.ck ∧ bitsAt w 9 2 = o.rm.bits ∧ bitsAt w 8 1 = BitVec.ofBool o.sat ∧ bitsAt w 0 8 = o.ox := by
  have field {lo n : Nat} (hn : lo + n ≤ 52) : bitsAt w lo n = o.bits.extractLsb' lo n := bitsAt_of_low h hn
  refine ⟨?_, ?_, ?_, ?_, ?_, ?_, ?_, ?_, ?_, ?_, ?_⟩
  all_goals
    rw [field (by omega)]
    simp (disch := omega) only [FOps.bits, extract_upper, extract_lower, Nat.reduceSub, BitVec.extractLsb'_eq_self]

theorem fopsOf_of_bits {w : DWord} {o : FOps} (h : bitsAt w 0 52 = o.bits) : fopsOf w = some o := by
  obtain ⟨hg, hd, ha, hb, hc, hbk, hfs, hck, hrm, hsat, hox⟩ := FOps.fields_of_bits h
  simp only [fopsOf, guardOf_of_bits hg, hd, ha, hb, hc, hbk, hrm, hox, getLsbD_of_extract hfs, getLsbD_of_extract hck, getLsbD_of_extract hsat, bkindOf_bits, rmodeOf_bits, Option.map_some]

theorem ImmOps.fields_of_bits {w : DWord} {o : ImmOps} (h : bitsAt w 0 52 = o.bits) :
    bitsAt w 47 5 = o.g.bits ∧ bitsAt w 39 8 = o.d ∧ bitsAt w 31 8 = o.a ∧ bitsAt w 23 8 = o.mods ∧ bitsAt w 0 23 = o.imm := by
  refine ⟨?_, ?_, ?_, ?_, ?_⟩
  all_goals
    rw [bitsAt_of_low h (by omega)]
    simp (disch := omega) only [ImmOps.bits, extract_upper, extract_lower, Nat.reduceSub, BitVec.extractLsb'_eq_self]

theorem immOpsOf_of_bits {w : DWord} {o : ImmOps} (h : bitsAt w 0 52 = o.bits) : immOpsOf w = some o := by
  obtain ⟨hg, hd, ha, hm, hi⟩ := ImmOps.fields_of_bits h
  simp only [immOpsOf, guardOf_of_bits hg, hd, ha, hm, hi, Option.map_some]

theorem Imm32Ops.fields_of_bits {w : DWord} {o : Imm32Ops} (h : bitsAt w 0 52 = o.bits) :
    bitsAt w 47 5 = o.g.bits ∧ bitsAt w 39 8 = o.d ∧ bitsAt w 32 7 = o.mods ∧ bitsAt w 0 32 = o.imm := by
  refine ⟨?_, ?_, ?_, ?_⟩
  all_goals
    rw [bitsAt_of_low h (by omega)]
    simp (disch := omega) only [Imm32Ops.bits, extract_upper, extract_lower, Nat.reduceSub, BitVec.extractLsb'_eq_self]

theorem imm32OpsOf_of_bits {w : DWord} {o : Imm32Ops} (h : bitsAt w 0 52 = o.bits) : imm32OpsOf w = some o := by
  obtain ⟨hg, hd, hm, hi⟩ := Imm32Ops.fields_of_bits h
  simp only [imm32OpsOf, guardOf_of_bits hg, hd, hm, hi, Option.map_some]

/-- The three frames of an F-form word below its opcode: how they are read, and their bits. -/
inductive Frame : {α : Type} → (DWord → Option α) → (α → BitVec 52) → Prop
  | common : Frame fopsOf FOps.bits
  | immediate : Frame immOpsOf ImmOps.bits
  | immediate32 : Frame imm32OpsOf Imm32Ops.bits

theorem Frame.bits_read {α : Type} {read : DWord → Option α} {bits : α → BitVec 52} (h : Frame read bits) {w : DWord} {o : α} (hr : read w = some o) : bits o = bitsAt w 0 52 := by
  cases h with
  | common => exact bits_fopsOf hr
  | immediate => exact bits_immOpsOf hr
  | immediate32 => exact bits_imm32OpsOf hr

/-- What `f` reads from a word has opcode `n` and the word's bits below the opcode. -/
def Faithful (n : Nat) (f : DWord → Option Instr) : Prop :=
  ∀ w i, f w = some i → i.opc = some (BitVec.ofNat 10 n) ∧ i.fBits = some (bitsAt w 0 52)

theorem Faithful.of_frame {α : Type} {read : DWord → Option α} {bits : α → BitVec 52} (hf : Frame read bits) {C : α → Instr} {n : Nat}
    (h : ∀ o, (C o).opc = some (BitVec.ofNat 10 n) ∧ (C o).fBits = some (bits o)) : Faithful n (fun w => (read w).map C) := by
  intro w i hi
  obtain ⟨o, hr, rfl⟩ := Option.map_eq_some_iff.1 hi
  exact ⟨(h o).1, (h o).2.trans (congrArg some (hf.bits_read hr))⟩

set_option maxRecDepth 4000 in
/-- The opcode map reads every word faithfully (R30); QALW, QTRY and NODEQ are told apart by OX. -/
theorem opcodeMap_faithful {n : Nat} {f : DWord → Option Instr} (h : opcodeMap n = some f) : Faithful n f := by
  unfold opcodeMap at h
  split at h
  all_goals cases h
  all_goals
    refine Faithful.of_frame (by constructor) (fun o => ?_)
    repeat' split
    all_goals exact ⟨rfl, rfl⟩

/-! ### The checks of a well-formed word -/

theorem first_eq_none {l : List (Option Reason)} (h : first l = none) : ∀ x ∈ l, x = none := by
  induction l with
  | nil => simp
  | cons x l ih =>
    cases x with
    | none => intro y hy; rcases List.mem_cons.1 hy with rfl | hy; exacts [rfl, ih h y hy]
    | some r => cases h

theorem badIf_eq_none {c : Bool} {r : Reason} : badIf c r = none ↔ c = false := by cases c <;> simp [badIf]

/-- A word that its rule admits sets no modifier bit that the rule does not name (R15), and no code that it calls illegal. -/
theorem Rule.check_modifiers {r : Rule} {o : FOps} (h : r.check o = none) (ho : r.ord = false) : o.ox &&& ~~~r.ox = 0 := by
  have := badIf_eq_none.1 (first_eq_none h (badIf (!r.ord && o.ox &&& ~~~r.ox ≠ 0) .reserved) (by simp))
  simpa [ho] using this
theorem Rule.check_codes {r : Rule} {o : FOps} (h : r.check o = none) : r.bad = none := first_eq_none h r.bad (by simp)

theorem first_pair_eq_none {x y : Option Reason} (h : first [x, y] = none) : x = none ∧ y = none :=
  ⟨first_eq_none h x (by simp), first_eq_none h y (by simp)⟩

theorem getLsbD_of_masked {x m : BitVec 8} (h : x &&& ~~~m = 0) {k : Nat} (hm : m.getLsbD k = false) : x.getLsbD k = false := by
  by_cases hk : k < 8
  · have hb : (x &&& ~~~m).getLsbD k = false := by rw [h]; simp
    rw [BitVec.getLsbD_and, BitVec.getLsbD_not, hm] at hb
    simpa [hk] using hb
  · exact BitVec.getLsbD_of_ge _ _ (by omega)

theorem encErr_none {i : Instr} (h : i.WF) : i.encErr = none := Option.isNone_iff_eq_none.1 h

/-- A word in the common frame that its encoding rules allow (R14, R15). -/
theorem check_none_of_WF {i : Instr} {o : FOps} {r : Rule} (h : i.WF) (he : i.encErr = (r.check o).map (fun x => ⟨x, false⟩)) : r.check o = none := by
  rw [encErr_none h] at he
  exact Option.map_eq_none_iff.1 he.symm

/-! ### The opcode map and the opcode of an instruction -/

theorem Frame.read_bits {α : Type} {read : DWord → Option α} {bits : α → BitVec 52} (h : Frame read bits) {w : DWord} {o : α} (hb : bits o = bitsAt w 0 52) : read w = some o := by
  cases h with
  | common => exact fopsOf_of_bits hb.symm
  | immediate => exact immOpsOf_of_bits hb.symm
  | immediate32 => exact imm32OpsOf_of_bits hb.symm

/-- The opcode map reads `i` from every word that has its opcode and its bits below. -/
def Readable (i : Instr) : Prop :=
  ∀ c, i.opc = some c → ∃ f, opcodeMap c.toNat = some f ∧ ∀ w, i.fBits = some (bitsAt w 0 52) → f w = some i

theorem Readable.of_frame {α : Type} {read : DWord → Option α} {bits : α → BitVec 52} (hf : Frame read bits) {C : α → Instr} {o : α} {i : Instr} {n : BitVec 10}
    (ho : i.opc = some n) (hm : opcodeMap n.toNat = some (fun w => (read w).map C)) (hb : i.fBits = some (bits o)) (hc : C o = i) : Readable i := by
  intro c h
  obtain rfl : n = c := Option.some.inj (ho.symm.trans h)
  refine ⟨_, hm, fun w hw => ?_⟩
  rw [hf.read_bits (Option.some.inj (hb.symm.trans hw)), Option.map_some, hc]

theorem Readable.of_no_opcode {i : Instr} (h : i.opc = none) : Readable i := fun c hc => by rw [h] at hc; cases hc

/-- Every well-formed instruction is read back (R30). The forms of QALW, QTRY and NODEQ share an opcode each, and OX tells them apart. -/
theorem readable_of_WF {i : Instr} (h : i.WF) : Readable i := by
  cases i with
  | iadd o | isub o | imul o | imulh o | imad o | imadw o | iaddc o | isubb o | iabs o | ineg o | imin o | imax o | iadds o | isubs o | idot4 o | idot8 o | lea o | mov o | sel o | and o
  | or o | xor o | not o | tri o | shl o | shr o | sar o | shf o | popc o | clz o | brev o | bfe o | bfi o | prmb o | fadd o | fsub o | fmul o | ffma o | fmin o | fmax o | frcp o | frsq o
  | fsqrt o | fexp2 o | flog2 o | ftanh o | fsinpi o | fcospi o | frnd o | fclass o | fscale o | hadd2 o | hmul2 o | hfma2 o | hmin2 o | hmax2 o | fdot2 o | cvtff o | cvtfi o | cvtif o
  | cvtii o | pack8 o | unpk8 o | packq o | unpkq o | keyf o | qscl o | icmp o | fcmp o | plop o | vote o | xch o | gred o | pmov o | sadd o | ssub o | smul o | sand o | sor o | sxor o
  | sshl o | sshr o | smov o | spopc o | sffs o | smin o | smax o | scmp o | sld o | sst o | sread o | swrite o | ld o | st o | ldp o | stp o | pref o | cinv o | cwb o | lds o | sts o
  | tld o | tst o | tmov o | pdecl o | penter o | pwait o | pleave o | pdrop o | pqry o | atom o | acas o | red o | acont o | fence o | waitn o | mma o | mmas o | aclr o | amov o | aload o
  | drain o | drepl o | atbl o | ckick o | gthr o | sctr o | coll o | binit o | bexp o | bwait o | cstat o | brx o | callx o | ret o | exit o | nop o | regroup o | yield o | barv o | bsyn o
  | bphs o | qpush o | qpop o | gsync o | deq o | deqt o | rpush o | rpass o | rrej o | lnch o | rbind o | tstamp o | cycles o | phint o | phints o | ostage o | evrd o | evcfg o | ophint o => exact .of_frame .common rfl rfl rfl rfl
  | bra o | brc o | brs o | join o | call o | trap o | bkpt o => exact .of_frame .immediate rfl rfl rfl rfl
  | movi o | smovi o => exact .of_frame .immediate32 rfl rfl rfl rfl
  | qalw o =>
    have hx : o.ox.getLsbD 3 = false := getLsbD_of_masked (m := 7) (Rule.check_modifiers (check_none_of_WF h rfl) rfl) rfl
    exact .of_frame .common rfl rfl rfl (if_neg (by rw [hx]; decide))
  | qalwInit o =>
    obtain ⟨hx, -⟩ := first_pair_eq_none (Rule.check_codes (check_none_of_WF h rfl))
    exact .of_frame .common rfl rfl rfl (if_pos (by simpa using badIf_eq_none.1 hx))
  | qtryPush o =>
    have hx := badIf_eq_none.1 (Rule.check_codes (check_none_of_WF h rfl))
    exact .of_frame .common rfl rfl rfl (if_pos (by simpa using hx))
  | qtryPop o =>
    have hx : o.ox.getLsbD 3 = false := getLsbD_of_masked (m := 7) (Rule.check_modifiers (check_none_of_WF h rfl) rfl) rfl
    exact .of_frame .common rfl rfl rfl (if_neg (by rw [hx]; decide))
  | nodeqQry o =>
    have hx : o.ox &&& ~~~0 = 0 := Rule.check_modifiers (check_none_of_WF h rfl) rfl
    rw [show ~~~(0 : BitVec 8) = BitVec.allOnes 8 from rfl, BitVec.and_allOnes] at hx
    exact .of_frame .common rfl rfl rfl (by rw [hx]; rfl)
  | nodeqSeal o =>
    have hx : fld o.ox 0 2 = 1 := by simpa using badIf_eq_none.1 (Rule.check_codes (check_none_of_WF h rfl))
    exact .of_frame .common rfl rfl rfl (by rw [hx]; rfl)
  | nodeqOpen o =>
    have hx : fld o.ox 0 2 = 2 := by simpa using badIf_eq_none.1 (Rule.check_codes (check_none_of_WF h rfl))
    exact .of_frame .common rfl rfl rfl (by rw [hx]; rfl)
  | _ => exact .of_no_opcode rfl

/-! ### Halves and headers -/

theorem fld_eq {n : Nat} (x : BitVec n) (lo w : Nat) : fld x lo w = (x.extractLsb' lo w).toNat := by
  simp [fld, BitVec.extractLsb'_toNat]

theorem popOf_code (p : POp) : popOf p.code = some p := by cases p <;> rfl

theorem code_popOf {n : Nat} {p : POp} (h : popOf n = some p) : p.code = n := by
  unfold popOf at h
  split at h
  all_goals cases h
  all_goals rfl

theorem code_lt (p : POp) : p.code < 2 ^ 7 := by cases p <;> decide

/-- A field that counts where its valid bit is set, and is 0 elsewhere (R19, R23). -/
def validField {n : Nat} (x : BitVec n) (k lo m : Nat) : Option (BitVec m) := if x.getLsbD k then some (x.extractLsb' lo m) else none

theorem isSome_validField {n : Nat} (x : BitVec n) (k lo m : Nat) : (validField x k lo m).isSome = x.getLsbD k := by
  unfold validField; split <;> simp_all

theorem getD_validField {n : Nat} {x : BitVec n} {k lo m : Nat} (h : (!x.getLsbD k && decide (x.extractLsb' lo m ≠ 0)) = false) : (validField x k lo m).getD 0 = x.extractLsb' lo m := by
  unfold validField; split <;> simp_all

theorem validField_eq {n : Nat} {x : BitVec n} {k lo m : Nat} {o : Option (BitVec m)} (hk : x.extractLsb' k 1 = BitVec.ofBool o.isSome) (hf : x.extractLsb' lo m = o.getD 0) : validField x k lo m = o := by
  rw [validField, getLsbD_of_extract hk, hf]
  cases o <;> rfl

/-- The bits of a half are those that it is read from (R19). -/
theorem bits_halfOf {x : BitVec 31} {h : PHalf} (hx : halfOf x = .ok h) : h.bits = x := by
  unfold halfOf at hx
  split at hx
  · cases hx
  next op hop =>
    split at hx
    · cases hx
    next hg =>
      have hc : BitVec.ofNat 7 op.code = x.extractLsb' 24 7 := by rw [code_popOf hop, fld_eq, BitVec.ofNat_toNat, BitVec.setWidth_eq]
      have hv : (!x.getLsbD 23 && decide (x.extractLsb' 20 3 ≠ 0)) = false := by simpa [fld_eq, ← BitVec.toNat_inj] using hg
      obtain rfl : PHalf.mk op ⟨validField x 23 20 3, x.extractLsb' 12 8, x.extractLsb' 4 8, x.getLsbD 3, x.extractLsb' 0 3⟩ = h := Except.ok.inj hx
      simp (disch := rfl) only [PHalf.bits, hc, isSome_validField, getD_validField hv, ofBool_getLsbD, extract_append]
      exact BitVec.extractLsb'_eq_self

theorem PHalf.fields_of_bits (h : PHalf) :
    h.bits.extractLsb' 24 7 = BitVec.ofNat 7 h.op.code ∧ h.bits.extractLsb' 23 1 = BitVec.ofBool h.f.g.isSome ∧ h.bits.extractLsb' 20 3 = h.f.g.getD 0 ∧ h.bits.extractLsb' 12 8 = h.f.d ∧
    h.bits.extractLsb' 4 8 = h.f.s ∧ h.bits.extractLsb' 3 1 = BitVec.ofBool h.f.imm ∧ h.bits.extractLsb' 0 3 = h.f.sub := by
  refine ⟨?_, ?_, ?_, ?_, ?_, ?_, ?_⟩
  all_goals simp (disch := omega) only [PHalf.bits, extract_upper, extract_lower, Nat.reduceSub, BitVec.extractLsb'_eq_self]

theorem halfOf_bits (h : PHalf) : halfOf h.bits = .ok h := by
  obtain ⟨hc, hg, hq, hd, hs, hi, hm⟩ := h.fields_of_bits
  have hop : popOf (fld h.bits 24 7) = some h.op := by
    rw [fld_eq, hc, BitVec.toNat_ofNat, Nat.mod_eq_of_lt (code_lt _), popOf_code]
  have hz : ¬ (!h.bits.getLsbD 23 && fld h.bits 20 3 ≠ 0) = true := by
    rw [getLsbD_of_extract hg, fld_eq, hq]
    cases h.f.g <;> simp
  have hv : (if h.bits.getLsbD 23 then some (h.bits.extractLsb' 20 3) else none) = h.f.g := validField_eq hg hq
  unfold halfOf
  rw [hop]
  dsimp only
  rw [if_neg hz, hv, hd, hs, getLsbD_of_extract hi, hm]

theorem bits_headerOf {w : DWord} {h : Header} (hw : headerOf w = .ok h) (h2 : bitsAt w 62 2 = 2) : h.bits = w := by
  unfold headerOf at hw
  split at hw
  · cases hw
  next hr =>
    split at hw
    · cases hw
    next hv =>
      obtain ⟨ha, hb⟩ := Bool.or_eq_false_iff.1 (Bool.eq_false_iff.2 hv)
      have h0 : (0 : BitVec 35) = bitsAt w 0 35 := (not_not.1 hr).symm
      obtain rfl : Header.mk (bitsAt w 50 12) (validField w 49 45 4) (validField w 44 40 4) (bitsAt w 36 4) (w.getLsbD 35) = h := Except.ok.inj hw
      simp (disch := rfl) only [Header.bits, ← h2, h0, isSome_validField, getD_validField ha, getD_validField hb, ofBool_getLsbD, extract_append]
      exact BitVec.extractLsb'_eq_self

theorem Header.fields_of_bits (h : Header) :
    bitsAt h.bits 62 2 = 2 ∧ bitsAt h.bits 50 12 = h.wait ∧ bitsAt h.bits 49 1 = BitVec.ofBool h.sa.isSome ∧ bitsAt h.bits 45 4 = h.sa.getD 0 ∧ bitsAt h.bits 44 1 = BitVec.ofBool h.sb.isSome ∧
    bitsAt h.bits 40 4 = h.sb.getD 0 ∧ bitsAt h.bits 36 4 = h.len ∧ bitsAt h.bits 35 1 = BitVec.ofBool h.yld ∧ bitsAt h.bits 0 35 = 0 := by
  refine ⟨?_, ?_, ?_, ?_, ?_, ?_, ?_, ?_, ?_⟩
  all_goals simp (disch := omega) only [Header.bits, bitsAt, extract_upper, extract_lower, Nat.reduceSub, BitVec.extractLsb'_eq_self]

theorem headerOf_bits (h : Header) : headerOf h.bits = .ok h := by
  obtain ⟨-, hw, hav, ha, hbv, hb, hl, hy, h0⟩ := h.fields_of_bits
  have hz : ¬ ((!h.bits.getLsbD 49 && bitsAt h.bits 45 4 ≠ 0) || (!h.bits.getLsbD 44 && bitsAt h.bits 40 4 ≠ 0)) = true := by
    rw [getLsbD_of_extract hav, getLsbD_of_extract hbv, ha, hb]
    cases h.sa <;> cases h.sb <;> simp
  have hva : (if h.bits.getLsbD 49 then some (bitsAt h.bits 45 4) else none) = h.sa := validField_eq hav ha
  have hvb : (if h.bits.getLsbD 44 then some (bitsAt h.bits 40 4) else none) = h.sb := validField_eq hbv hb
  unfold headerOf
  rw [if_neg (by rw [h0]; simp), if_neg hz, hw, hva, hvb, hl, getLsbD_of_extract hy]

theorem halves_ofHalves (x y : PHalf) : (Instr.ofHalves x y).halves = some (x, y) := by
  obtain ⟨op, f⟩ := x
  cases op <;> rfl

theorem encode_ofHalves (x y : PHalf) : encode (.ofHalves x y) = some ((1 : BitVec 2) ++ x.bits ++ y.bits) := by
  obtain ⟨op, f⟩ := x
  cases op <;> rfl

theorem encode_of_opc {i : Instr} {c : BitVec 10} {b : BitVec 52} (hc : i.opc = some c) (hb : i.fBits = some b) : encode i = some ((0 : BitVec 2) ++ c ++ b) := by
  unfold encode
  split
  · cases hc
  · cases hc
  · simp_all
  · simp_all
  · simp_all

/-! ### Words -/

theorem wordOfBytes_bytesOfWord (w : DWord) : wordOfBytes (bytesOfWord w) = w.toNat := by
  have h := w.isLt
  simp [bytesOfWord, wordOfBytes, List.range, List.range.loop, BitVec.extractLsb'_toNat, Nat.shiftRight_eq_div_pow]
  omega

theorem decode_bytesOfWord (w : DWord) : decode (bytesOfWord w) = match decodeWord w with | .error e => .error (.enc e) | .ok i => .ok (i, []) := by
  have hl : (bytesOfWord w).length = 8 := rfl
  unfold decode
  rw [if_neg (by omega), List.take_of_length_le (by omega), List.drop_of_length_le (by omega), wordOfBytes_bytesOfWord, BitVec.ofNat_toNat, BitVec.setWidth_eq] <;> rfl

theorem decodeWord_eq_ok {w : DWord} {i : Instr} : decodeWord w = .ok i ↔ readWord w = .ok i ∧ i.WF := by
  unfold decodeWord
  cases readWord w with
  | error e => exact ⟨nofun, fun h => by cases h.1⟩
  | ok j =>
    dsimp only
    split
    next e hj =>
      have hw : ¬ j.WF := by simp [Instr.wellFormed, hj]
      exact ⟨nofun, fun ⟨h, hi⟩ => absurd (Except.ok.inj h ▸ hi) hw⟩
    next hj =>
      have hw : j.wellFormed = true := by simp [Instr.wellFormed, hj]
      exact ⟨fun h => ⟨h, Except.ok.inj h ▸ hw⟩, And.left⟩

theorem ofNat_fld {n : Nat} (x : BitVec n) (lo w : Nat) : BitVec.ofNat w (fld x lo w) = x.extractLsb' lo w := by
  rw [fld_eq, BitVec.ofNat_toNat, BitVec.setWidth_eq]

theorem bitsAt_eq_of_toNat {w : DWord} {lo n k : Nat} (h : (bitsAt w lo n).toNat = k) : bitsAt w lo n = BitVec.ofNat n k := by
  rw [← h, BitVec.ofNat_toNat, BitVec.setWidth_eq]

/-- What a word is read as, by its form (R12): a full instruction of its opcode, two halves, or a header. -/
theorem readWord_cases {w : DWord} {i : Instr} (h : readWord w = .ok i) :
    (bitsAt w 62 2 = 0 ∧ ∃ f, opcodeMap (fld w 52 10) = some f ∧ f w = some i) ∨
    (bitsAt w 62 2 = 1 ∧ ∃ x y, halfOf (bitsAt w 31 31) = .ok x ∧ halfOf (bitsAt w 0 31) = .ok y ∧ i = .ofHalves x y) ∨
    (bitsAt w 62 2 = 2 ∧ ∃ hd, headerOf w = .ok hd ∧ i = .clauseStart hd) := by
  unfold readWord at h
  split at h
  next h0 =>
    split at h
    · cases h
    next f hf =>
      split at h
      · cases h
      next j hj => exact .inl ⟨bitsAt_eq_of_toNat h0, f, hf, Except.ok.inj h ▸ hj⟩
  next h1 =>
    split at h
    · cases h
    next x hx =>
      split at h
      · cases h
      next y hy => exact .inr (.inl ⟨bitsAt_eq_of_toNat h1, x, y, hx, hy, (Except.ok.inj h).symm⟩)
  next h2 =>
    split at h
    · cases h
    next hd hw => exact .inr (.inr ⟨bitsAt_eq_of_toNat h2, hd, hw, (Except.ok.inj h).symm⟩)
  · cases h

/-- The word of what a word is read as is that word (R13 to R23). -/
theorem encode_of_readWord {w : DWord} {i : Instr} (h : readWord w = .ok i) : encode i = some w := by
  have whole : bitsAt w 0 64 = w := BitVec.extractLsb'_eq_self
  obtain ⟨h0, f, hf, hi⟩ | ⟨h1, x, y, hx, hy, rfl⟩ | ⟨h2, hd, hw, rfl⟩ := readWord_cases h
  · obtain ⟨ho, hb⟩ := opcodeMap_faithful hf w i hi
    rw [encode_of_opc ho hb, ofNat_fld, ← h0]
    simp (disch := rfl) only [extract_append]
    exact congrArg some whole
  · rw [encode_ofHalves, bits_halfOf hx, bits_halfOf hy, ← h1]
    simp (disch := rfl) only [extract_append]
    exact congrArg some whole
  · exact congrArg some (bits_headerOf hw h2)

theorem ofHalves_of_halves {i : Instr} {x y : PHalf} (h : i.halves = some (x, y)) : Instr.ofHalves x y = i := by
  unfold Instr.halves at h
  split at h
  all_goals cases h
  all_goals rfl

/-- What a word is made of: a header's bits, an opcode with the bits below it, or two halves. -/
theorem encode_cases {i : Instr} {w : DWord} (h : encode i = some w) :
    (∃ hd, (i = .clauseStart hd ∨ i = .clauseSkip hd) ∧ w = hd.bits) ∨ (∃ c b, i.opc = some c ∧ i.fBits = some b ∧ w = (0 : BitVec 2) ++ c ++ b) ∨
    (∃ x y, i.halves = some (x, y) ∧ w = (1 : BitVec 2) ++ x.bits ++ y.bits) := by
  unfold encode at h
  split at h
  · exact .inl ⟨_, .inl rfl, (Option.some.inj h).symm⟩
  · exact .inl ⟨_, .inr rfl, (Option.some.inj h).symm⟩
  · exact .inr (.inl ⟨_, _, by assumption, by assumption, (Option.some.inj h).symm⟩)
  · exact .inr (.inr ⟨_, _, by assumption, (Option.some.inj h).symm⟩)
  · cases h

/-- The word of a well-formed instruction that is no skip is read as it (R13 to R23). -/
theorem readWord_of_encode {w : DWord} {i : Instr} (hi : i.WF) (hs : ∀ h, i ≠ .clauseSkip h) (h : encode i = some w) : readWord w = .ok i := by
  obtain ⟨hd, rfl | rfl, rfl⟩ | ⟨c, b, hc, hb, rfl⟩ | ⟨x, y, hh, rfl⟩ := encode_cases h
  · unfold readWord
    rw [hd.fields_of_bits.1, headerOf_bits]
    rfl
  · exact absurd rfl (hs hd)
  · obtain ⟨f, hm, hf⟩ := readable_of_WF hi c hc
    have h0 : bitsAt ((0 : BitVec 2) ++ c ++ b) 62 2 = 0 := Laws.Encoding.top3 0 c b
    have ho : fld ((0 : BitVec 2) ++ c ++ b) 52 10 = c.toNat := (fld_eq _ _ _).trans (congrArg BitVec.toNat (Laws.Encoding.mid3 0 c b))
    have hl : bitsAt ((0 : BitVec 2) ++ c ++ b) 0 52 = b := Laws.Encoding.low3 0 c b
    unfold readWord
    rw [h0, ho, hm]
    simp only [hf _ (hb.trans (congrArg some hl.symm))]
    rfl
  · have h1 : bitsAt ((1 : BitVec 2) ++ x.bits ++ y.bits) 62 2 = 1 := Laws.Encoding.top3 1 x.bits y.bits
    have hx : bitsAt ((1 : BitVec 2) ++ x.bits ++ y.bits) 31 31 = x.bits := Laws.Encoding.mid3 1 x.bits y.bits
    have hy : bitsAt ((1 : BitVec 2) ++ x.bits ++ y.bits) 0 31 = y.bits := Laws.Encoding.low3 1 x.bits y.bits
    unfold readWord
    rw [h1, hx, hy, halfOf_bits, halfOf_bits, ← ofHalves_of_halves hh]
    rfl

/-- A word decodes to what it is read as, if that breaks no rule (R13). -/
theorem decode_eq_ok {w : DWord} {i : Instr} {rest : List Byte} : decode (bytesOfWord w) = .ok (i, rest) ↔ rest = [] ∧ readWord w = .ok i ∧ i.WF := by
  rw [← decodeWord_eq_ok, decode_bytesOfWord]
  cases decodeWord w with
  | error e => simp
  | ok j => simp [and_comm, eq_comm]

/-! ### The statements -/

/-- Settles O58: the frames, the halves and the headers are read back field by field, and the opcode map inverts the opcodes. -/
theorem encodingAgrees : Obligations.EncodingAgrees := by
  refine ⟨fun i w hi he => ?_, fun w i rest h => ?_⟩
  · split
    next h => exact decode_eq_ok.2 ⟨rfl, readWord_of_encode (i := .clauseStart h) hi nofun he, hi⟩
    next hs => exact decode_eq_ok.2 ⟨rfl, readWord_of_encode hi hs he, hi⟩
  · obtain ⟨hr, hw, hi⟩ := decode_eq_ok.1 h
    exact ⟨hr, hi, encode_of_readWord hw⟩

theorem decode_form3 {w : DWord} (h : bitsAt w 62 2 = 3) : decode (bytesOfWord w) = .error (.enc ⟨.form, false⟩) := by
  have hr : readWord w = .error ⟨.form, false⟩ := by unfold readWord; rw [h]; rfl
  rw [decode_bytesOfWord, decodeWord, hr]

/-- Settles O60: what a word is read as follows its form, and the printed words are read field by field. -/
theorem wordForms : Obligations.WordForms := by
  refine ⟨rfl, rfl, rfl, rfl, rfl, rfl, rfl, rfl, rfl, rfl, rfl, rfl, rfl, rfl, rfl, rfl, rfl, rfl, rfl, rfl, rfl, fun w i h => ?_, fun w h => decode_form3 h⟩
  obtain ⟨-, hw, -⟩ := decode_eq_ok.1 h
  obtain ⟨h0, f, hf, hi⟩ | ⟨h1, x, y, hx, hy, rfl⟩ | ⟨h2, hd, hw, rfl⟩ := readWord_cases hw
  · have ho : i.opc = some (bitsAt w 52 10) := (opcodeMap_faithful hf w i hi).1.trans (congrArg some (ofNat_fld w 52 10))
    exact ⟨fun _ => ho, fun h => absurd (h0.symm.trans h) (by decide), fun h => absurd (h0.symm.trans h) (by decide)⟩
  · exact ⟨fun h => absurd (h1.symm.trans h) (by decide), fun _ => ⟨x, y, rfl⟩, fun h => absurd (h1.symm.trans h) (by decide)⟩
  · exact ⟨fun h => absurd (h2.symm.trans h) (by decide), fun h => absurd (h2.symm.trans h) (by decide), fun _ => ⟨hd, rfl⟩⟩

end Sys2Proof
end

section
/-! SUPPORT. The step of a granted slot (01 R13, R24, R28; 16 R304, R311, R341): bytes decode as their word does, what the fetch of a word
and the choice of a slot's next word answer in each case, and how the step ends; then the statement about it. -/

namespace Sys2Proof

/-- The lowest `n` bytes of a word of bytes are those of its first `n` bytes (00 R6). -/
theorem wordOfBytes_take (n : Nat) (bs : List Byte) : wordOfBytes (bs.take n) = wordOfBytes bs % 256 ^ n := by
  induction n generalizing bs with
  | zero => simp [wordOfBytes, Nat.mod_one]
  | succ n ih =>
    cases bs with
    | nil => simp [wordOfBytes]
    | cons b bs =>
      have hb := b.isLt
      have hlow : (b.toNat + 256 * wordOfBytes bs) % 256 = b.toNat := by omega
      have hhigh : (b.toNat + 256 * wordOfBytes bs) / 256 = wordOfBytes bs := by omega
      rw [List.take_succ_cons, wordOfBytes, wordOfBytes, ih, Nat.pow_succ', Nat.mod_mul, hlow, hhigh]

theorem word_take (bs : List Byte) : BitVec.ofNat 64 (wordOfBytes (bs.take 8)) = BitVec.ofNat 64 (wordOfBytes bs) := by
  apply BitVec.eq_of_toNat_eq
  rw [wordOfBytes_take, BitVec.toNat_ofNat, BitVec.toNat_ofNat]
  exact Nat.mod_mod _ _

/-- Eight bytes or more decode as their word does (00 R6, 01 R13). -/
theorem decodeWord_of_bytes {bs : List Byte} (h : ¬ bs.length < 8) :
    decode bs = match decodeWord (BitVec.ofNat 64 (wordOfBytes bs)) with | .error e => .error (.enc e) | .ok i => .ok (i, bs.drop 8) := by
  unfold decode
  rw [if_neg h, word_take] <;> rfl

theorem decodeWord_of_ok {bs : List Byte} {i : Instr} {rest : List Byte} (h : decode bs = .ok (i, rest)) : decodeWord (BitVec.ofNat 64 (wordOfBytes bs)) = .ok i := by
  by_cases hl : bs.length < 8
  · rw [decode, if_pos hl] at h; cases h
  · rw [decodeWord_of_bytes hl] at h
    split at h
    · cases h
    next hw => rw [hw]; cases h; rfl

theorem decodeWord_of_error {bs : List Byte} {e : EncErr} (h : decode bs = .error (.enc e)) : decodeWord (BitVec.ofNat 64 (wordOfBytes bs)) = .error e := by
  by_cases hl : bs.length < 8
  · rw [decode, if_pos hl] at h; cases h
  · rw [decodeWord_of_bytes hl] at h
    split at h
    next hw => rw [hw]; cases h; rfl
    · cases h

end Sys2Proof

namespace Sys2Proof.Machine

/-! ### Fetching a word (03 R58) -/

variable {s : State} {gr : Grant} {gid : Nat} {slotB : Bool} {pc : DWord}

theorem State.fetchWord_aligned (hp : pc.toNat < 2 ^ 56) (ha : pc.toNat % 8 = 0) :
    s.fetchWord gid pc = match s.slicePeeks (s.group gid).ctx { ex := true } .fetch pc.toNat 8 (some (dieOf gid)) with | .error f => .error f | .ok bs => .ok (BitVec.ofNat 64 (wordOfBytes bs)) := by
  unfold State.fetchWord
  dsimp only
  rw [if_neg (Nat.not_le.2 hp), if_neg (not_not.2 ha)] <;> rfl

theorem State.fetchWord_misaligned (hp : pc.toNat < 2 ^ 56) (ha : pc.toNat % 8 ≠ 0) : s.fetchWord gid pc = .error (fAlign 0 0 3 pc.toNat) := by
  unfold State.fetchWord
  dsimp only
  rw [if_neg (Nat.not_le.2 hp), if_pos ha]

/-- A slot's next word is the instruction that it decodes to, where a header or a word is due (R24). -/
theorem State.nextWord_ok {w : DWord} {i : Instr} (hf : s.fetchWord gid ((s.group gid).slot slotB).pc = .ok w) (hd : decodeWord w = .ok i) :
    s.nextWord gid slotB = if isHeader i = ((s.group gid).slot slotB).cl.isNone then .ok i else .error (fEncoding false 5 w) := by
  unfold State.nextWord
  dsimp only
  rw [hf]
  dsimp only
  rw [decode_bytesOfWord, hd]

theorem State.nextWord_encErr {w : DWord} {e : EncErr} (hf : s.fetchWord gid ((s.group gid).slot slotB).pc = .ok w) (hd : decodeWord w = .error e) :
    s.nextWord gid slotB = .error (fEncoding e.half e.reason.code w) := by
  unfold State.nextWord
  dsimp only
  rw [hf]
  dsimp only
  rw [decode_bytesOfWord, hd]

theorem State.nextWord_fault {f : Flt} (hf : s.fetchWord gid ((s.group gid).slot slotB).pc = .error f) : s.nextWord gid slotB = .error f := by
  unfold State.nextWord
  dsimp only
  rw [hf]

theorem isHeader_iff {i : Instr} : isHeader i = true ↔ ∃ h, i = .clauseStart h := by
  cases i with
  | clauseStart h => exact ⟨fun _ => ⟨h, rfl⟩, fun _ => rfl⟩
  | _ => exact ⟨nofun, fun ⟨_, h⟩ => by cases h⟩

theorem isHeader_due {i : Instr} {cl : Option Clause} : isHeader i = cl.isNone ↔ ((∃ h, i = .clauseStart h) ↔ cl = none) := by
  rw [← isHeader_iff, ← Option.isNone_iff_eq_none, Bool.eq_iff_iff]

/-! ### The step of a granted slot (16 R304, R311, R341) -/

/-- The end of a step: the step commands that are over end (16 R311). -/
def closeStep (o : Host.Outcome State Fault Refusal) : Host.Outcome State Fault Refusal :=
  match o with
  | .next t => .next t.endSteps
  | .fault f => .fault f
  | .refused r => .refused r

theorem step_heldInReset (h : s.hub.failed ≠ none) : step s = .fault .heldInReset := if_pos (Option.isSome_iff_ne_none.2 h)

theorem step_granted (hf : s.hub.failed = none) (hg : s.grant = some gr) : step s = closeStep (s.runGrant gr) := by
  unfold step
  rw [if_neg (by rw [hf]; decide), hg]
  rfl

theorem step_of_granted {i : Instr} (hf : s.hub.failed = none) (hg : s.grant = some gr) (hi : s.granted gr = .ok (some i)) : step s = closeStep (exec i s) := by
  rw [step_granted hf hg, State.runGrant, hi]

theorem step_of_fault {f : Flt} (hf : s.hub.failed = none) (hg : s.grant = some gr) (hi : s.granted gr = .error f) :
    step s = .next ((s.logFetch gr.gid ((s.group gr.gid).slot gr.slotB).pc f).takeTrap gr.gid gr.slotB ((s.group gr.gid).slot gr.slotB).pc f).endSteps := by
  rw [step_granted hf hg, State.runGrant, hi]
  rfl

theorem State.granted_first (hr : s.resident gr.gid = true) (ha : gr.again = false) :
    s.granted gr = match s.nextWord gr.gid gr.slotB with | .error f => .error f | .ok i => .ok (some (stepOf i ((s.group gr.gid).mask gr.slotB))) := by
  unfold State.granted
  rw [hr, ha] <;> rfl

theorem State.granted_again {w : Wait} (hr : s.resident gr.gid = true) (ha : gr.again = true) (hw : (s.group gr.gid).heldAt gr.slotB = some w) : s.granted gr = .ok (some w.instr) := by
  unfold State.granted
  rw [hr, ha, hw]
  rfl

theorem State.logFetch_of_not_memory {f : Flt} (h : f.ofMemory = false) : s.logFetch gid pc f = s := by
  unfold State.logFetch
  rw [h]
  rfl

theorem Group.heldAt_eq_some {g : Group} {w : Wait}
    (h : g.tables.find? (fun y => y.slotB == slotB) = some w ∨ ((∀ y ∈ g.tables, y.slotB ≠ slotB) ∧ g.wait = some w)) : g.heldAt slotB = some w := by
  unfold Group.heldAt
  obtain h | ⟨h, hw⟩ := h
  · rw [h]; rfl
  · rw [find?_none_of (fun y hy => by simpa using h y hy)]; exact hw

/-- Without a step command nothing ends (16 R311). -/
theorem State.endSteps_of_no_step (h : ∀ c ∈ s.contexts, c.2.hb.stepMode = false) : s.endSteps = s := by
  have fold (l : Table Context) (hl : ∀ c ∈ l, c.2.hb.stepMode = false) : l.foldl (fun (s : State) c => if c.2.hb.stepMode then s.endStep c.1 else s) s = s := by
    induction l with
    | nil => rfl
    | cons c l ih =>
      rw [List.foldl_cons, hl c List.mem_cons_self]
      exact ih (fun x hx => hl x (List.mem_cons_of_mem _ hx))
  exact fold _ h

/-- Settles O59: each clause is the step of a granted slot at what the fetch, the decoding and the place of the word give. -/
theorem stepRunsDecoded : Obligations.StepRunsDecoded := by
  intro s gr i bs g x closed live there header traps
  have fetched (h : there) : s.fetchWord gr.gid x.pc = .ok (BitVec.ofNat 64 (wordOfBytes bs)) := by
    obtain ⟨-, hp, ha, hb⟩ := h
    rw [State.fetchWord_aligned hp ha, hb]
  have trapped {f : Flt} (hl : live) (ha : gr.again = false) (hm : f.ofMemory = false) (hn : s.nextWord gr.gid gr.slotB = .error f) : traps f := by
    obtain ⟨hf, hg, hr⟩ := hl
    have := step_of_fault hf hg (f := f) (by rw [State.granted_first hr ha, hn])
    rwa [State.logFetch_of_not_memory hm] at this
  refine ⟨fun hl ht hd hh => ?_, fun w hl ha hw => ?_, fun e hl ht hd => ?_, fun hl ht hd hh => ?_, fun hl ha hp hm => ?_, fun f hl ha hp hm hb => ?_, fun h => State.endSteps_of_no_step h, step_heldInReset⟩
  · obtain ⟨hf, hg, hr⟩ := hl
    refine step_of_granted hf hg ?_
    rw [State.granted_first hr ht.1, State.nextWord_ok (fetched ht) (decodeWord_of_ok hd), if_pos (isHeader_due.2 hh)]
    rfl
  · obtain ⟨hf, hg, hr⟩ := hl
    exact step_of_granted hf hg (State.granted_again hr ha (Group.heldAt_eq_some hw))
  · exact trapped hl ht.1 rfl (State.nextWord_encErr (fetched ht) (decodeWord_of_error hd))
  · exact trapped hl ht.1 rfl ((State.nextWord_ok (fetched ht) (decodeWord_of_ok hd)).trans (if_neg (mt isHeader_due.1 hh)))
  · exact trapped hl ha rfl (State.nextWord_fault (State.fetchWord_misaligned hp hm))
  · obtain ⟨hf, hg, hr⟩ := hl
    refine step_of_fault hf hg ?_
    rw [State.granted_first hr ha, State.nextWord_fault (State.fetchWord_aligned hp hm |>.trans (by rw [hb]))]

end Sys2Proof.Machine

end

section
/-! SUPPORT. What the way of an access keeps of the groups (01 R26, 04 R68, 05 R89, 13 R254, 16 R297, R304): one law per operation, from the
records of faults and the reads and writes of a slice to the sending of a request and the commit of a buffered store. -/

namespace Sys2Proof.Machine

/-! ### What the way of an access keeps of the groups

An access that the model performs at the memories, in whatever order, touches the groups in their flags, path counters and
engine scope, where an operation completes, and in their stop records, where a fault is raised. -/

/-- `h` is `g` but for the completion flags, the path counters, the engine scope and the stop record. -/
def Group.Kept (g h : Group) : Prop := h = { g with flags := h.flags, paths := h.paths, engScope := h.engScope, stop := h.stop }

theorem Group.Kept.refl (g : Group) : g.Kept g := rfl

theorem Group.Kept.trans {g h k : Group} (a : g.Kept h) (b : h.Kept k) : g.Kept k := by
  unfold Group.Kept at a b ⊢
  rw [b, a]

/-- Every group is kept so, and no number is given out twice. -/
structure State.Keeps (s t : State) : Prop where
  groups : ∀ k, (s.group k).Kept (t.group k)
  ids : s.nextId ≤ t.nextId

namespace State.Keeps

theorem of_groups {s t : State} (hg : t.groups = s.groups) (hn : s.nextId ≤ t.nextId) : s.Keeps t :=
  ⟨fun k => by unfold State.group; rw [hg]; exact .refl _, hn⟩

theorem refl (s : State) : s.Keeps s := .of_groups rfl le_rfl

theorem trans {s t u : State} (h : s.Keeps t) (k : t.Keeps u) : s.Keeps u := ⟨fun n => (h.groups n).trans (k.groups n), h.ids.trans k.ids⟩

/-- `trans` with the later step first, so that it names the state between. -/
theorem after {s t u : State} (k : t.Keeps u) (h : s.Keeps t) : s.Keeps u := h.trans k

theorem ite {s t u : State} {p : Prop} [Decidable p] (ht : s.Keeps t) (hu : s.Keeps u) : s.Keeps (if p then t else u) := by split <;> assumption

theorem foldl {α : Type} {f : State → α → State} (h : ∀ (s : State) (a : α), s.Keeps (f s a)) (l : List α) (s : State) : s.Keeps (l.foldl f s) := by
  induction l generalizing s with
  | nil => exact refl s
  | cons a l ih => exact (h s a).trans (ih _)

theorem of_book {s t : State} (h : Book s t) : s.Keeps t := .of_groups (by rw [h.rest]) (by rw [h.rest])

theorem modGroup (s : State) (k : Nat) {f : Group → Group} (h : (s.group k).Kept (f (s.group k))) : s.Keeps (s.modGroup k f) := by
  refine ⟨fun j => ?_, le_rfl⟩
  by_cases hj : j = k
  · subst hj; rw [State.group_modGroup_self]; exact h
  · rw [State.group_modGroup_ne _ _ _ _ hj]; exact .refl _

variable (s : State)

/-! #### Updates of other parts of the state -/

theorem modTeam (k : Nat) (f : Team → Team) : s.Keeps (s.modTeam k f) := .of_groups rfl le_rfl
theorem modContext (k : Nat) (f : Context → Context) : s.Keeps (s.modContext k f) := .of_groups rfl le_rfl
theorem modCore (k : Nat) (f : Core → Core) : s.Keeps (s.modCore k f) := .of_groups rfl le_rfl
theorem modCluster (k : Nat) (f : Cluster → Cluster) : s.Keeps (s.modCluster k f) := .of_groups rfl le_rfl
theorem modSlice (k : Nat) (f : Slice → Slice) : s.Keeps (s.modSlice k f) := .of_groups rfl le_rfl
theorem modDie (k : Nat) (f : Die → Die) : s.Keeps (s.modDie k f) := .of_groups rfl le_rfl
theorem setMemAll (base : Nat) (bs : Table Byte) : s.Keeps (s.setMemAll base bs) := .of_groups rfl le_rfl
theorem putOp (n : Nat) (o : Op) : s.Keeps (s.putOp n o) := .of_groups rfl le_rfl
theorem putReq (n : Nat) (r : Req) : s.Keeps (s.putReq n r) := .of_groups rfl le_rfl
theorem delReq (n : Nat) : s.Keeps (s.delReq n) := .of_groups rfl le_rfl
theorem setL1 (core tenant line : Nat) (l : L1Line) : s.Keeps (s.setL1 core tenant line l) := modCore ..
theorem delL1 (core tenant line : Nat) : s.Keeps (s.delL1 core tenant line) := modCore ..
theorem dropFills (core tenant : Nat) (p : Nat → Bool) : s.Keeps (s.dropFills core tenant p) := .of_groups rfl le_rfl
theorem addReq (r : Req) : s.Keeps (s.addReq r).2 := .of_groups rfl (Nat.le_succ _)

/-! #### Faults, logs and counters -/

theorem logDie (d : Nat) (lasting : Bool) (info ctx addr : Nat) : s.Keeps (s.logDie d lasting info ctx addr) := modDie ..
theorem logMem (ctx slice unit sector : Nat) (lasting : Bool) : s.Keeps (s.logMem ctx slice unit sector lasting) := logDie ..

theorem raise (ctx : Nat) (f : Flt) (a : At) : s.Keeps (s.raise ctx f a) := by
  unfold State.raise
  have h1 : s.Keeps (s.modContext ctx (fun c => c.fault f a (s.faultCycle a) (s.going ctx) s.devTime)) := .of_groups rfl le_rfl
  dsimp only
  split
  · exact h1
  · refine .ite h1 (h1.trans (.modGroup _ _ ?_))
    split <;> rfl

theorem raiseEngine (ctx : Nat) (f : Flt) (r : EngRec) : s.Keeps (s.raiseEngine ctx f r) := (raise s ctx f _).trans (modContext ..)

theorem logLasting (ctx die tenant core : Nat) (f : Flt) : s.Keeps (s.logLasting ctx die tenant core f) := .ite (logDie ..) (refl s)

theorem countCore (core ctx src n : Nat) : s.Keeps (s.countCore core ctx src n) := .of_book (.countCore ..)

theorem countDie (d ctx src n : Nat) : s.Keeps (s.countDie d ctx src n) := by
  unfold State.countDie
  split
  · exact .ite (refl s) (.of_groups rfl le_rfl)
  · exact refl s

theorem readWords (core ctx unit : Nat) (ws : List (FileWord × Nat)) : s.Keeps (s.readWords core ctx unit ws) := .of_book (.readWords ..)

theorem logRead (ctx slice : Nat) (f : Flt) : s.Keeps (s.logRead ctx slice f) := .ite (logMem ..) (refl s)

/-! #### Reads and writes at the home slice -/

theorem memRetried (walker : Bool) (ctx slice : Nat) (sectors : List Nat) : s.Keeps (s.memRetried walker ctx slice sectors) :=
  .ite (refl s) (.foldl (fun s _ => .ite ((modDie ..).trans (logMem ..)) (refl s)) _ _)

theorem accessAt (ma : Nat) (page : Option (Nat × Nat)) : s.Keeps (s.accessAt ma page) := .ite (modDie ..) (refl s)

theorem walkDone (ctx slice va : Nat) (local_ : Bool) (n : Need) (acc : Acc) : s.Keeps (s.walkDone ctx slice va local_ n acc) := by
  unfold State.walkDone
  refine .ite (refl s) ?_
  have h (l m : List Nat) : s.Keeps ((s.memRetried true ctx slice l).walkAccesses ctx slice va m) :=
    (memRetried s ..).trans (.foldl (fun s _ => accessAt s ..) _ _)
  dsimp only
  split
  · exact (h ..).trans (modSlice ..)
  · exact h ..

theorem missed (ctx slice va : Nat) (local_ : Bool) (n : Need) (acc : Acc) : s.Keeps (s.missed ctx slice va local_ n acc) :=
  (countDie s ..).trans ((State.Keeps.ite (refl _) (countDie ..)).trans (walkDone ..))

theorem peekedLine (src : Option Nat) (ctx : Nat) (nd : Need) (acc : Acc) (va n : Nat) : s.Keeps (s.peekedLine src ctx nd acc va n) := by
  have take (p : Prop) [Decidable p] (t : State) (h : s.Keeps t) (l : List Nat) (slice ma : Nat) (page : Option (Nat × Nat)) :
      s.Keeps (if p then t else (t.memRetried false ctx slice l).accessAt ma page) :=
    .ite h (h.trans ((memRetried ..).trans (accessAt ..)))
  unfold State.peekedLine
  dsimp only
  split
  · exact refl s
  · exact take _ _ (.ite (refl s) (countDie ..)) _ _ _ _
  · split
    · exact missed ..
    · exact take _ _ (missed ..) _ _ _ _

theorem peekedRuns (src : Option Nat) (ctx : Nat) (nd : Need) (acc : Acc) (l : List (Nat × Nat)) : s.Keeps (State.peekedRuns src ctx nd acc l s) := by
  induction l generalizing s with
  | nil => exact refl s
  | cons r l ih =>
    unfold State.peekedRuns
    split
    · exact peekedLine ..
    · exact (peekedLine ..).trans (ih _)

theorem slicePeeked (ctx : Nat) (nd : Need) (acc : Acc) (va n : Nat) (src : Option Nat) : s.Keeps (s.slicePeeked ctx nd acc va n src) := by
  refine State.Keeps.trans ?_ (peekedRuns ..)
  unfold State.logPeek
  split
  · exact logRead ..
  · exact refl s

theorem choose (n : Nat) : s.Keeps (s.choose n).2 := by
  unfold State.choose
  split
  · exact refl s
  · exact .of_groups rfl le_rfl

theorem writeMem (slice : Nat) (l : L2Line) : s.Keeps (s.writeMem slice l) := by
  unfold State.writeMem
  refine .ite (refl s) ?_
  split
  · exact .foldl (fun s _ => raiseEngine s ..) _ _
  · exact (accessAt ..).trans (setMemAll ..)

theorem dropLine (slice : Nat) (l : L2Line) : s.Keeps (s.dropLine slice l) := by
  have h : s.Keeps ((s.writeMem slice l).modSlice slice (fun x => (if l.prefetched then x.countPf 3 l.tenant else x).dropLine l.tenant l.line)) :=
    (writeMem ..).trans (modSlice ..)
  exact .ite (h.trans (countDie ..)) h

theorem openLine (slice ctx line : Nat) (t : Tlb) : s.Keeps (s.openLine slice ctx line t).2 := by
  unfold State.openLine
  dsimp only
  split
  · exact refl s
  · refine .ite (refl s) ?_
    split
    · exact (choose ..).trans (dropLine ..)
    · exact choose ..

variable {s}

theorem slicePoke {t : State} {ctx line : Nat} {bs : Table Byte} {n : Need} {acc : Acc} {src : Option Nat} (h : s.slicePoke ctx line bs n acc src = .ok t) : s.Keeps t := by
  unfold State.slicePoke at h
  dsimp only at h
  split at h
  · cases h
  · cases h; exact .of_groups rfl le_rfl
  · split at h
    · cases h
    · cases h
      exact ((missed ..).trans (openLine ..)).trans (modSlice ..)

theorem pokeLines {t : State} {src : Option Nat} {ctx : Nat} {nd : Need} {acc : Acc} {l : Table (Table Byte)} (h : s.pokeLines src ctx nd acc l = .ok t) : s.Keeps t := by
  induction l generalizing s with
  | nil => cases h; exact refl _
  | cons x l ih =>
    unfold State.pokeLines at h
    split at h
    · cases h
    next hx => exact (slicePoke hx).trans (ih h)

theorem slicePokes {t : State} {ctx : Nat} {nd : Need} {acc : Acc} {l : Table (Table Byte)} {src : Option Nat} (h : s.slicePokes ctx nd acc l src = .ok t) : s.Keeps t := by
  unfold State.slicePokes at h
  split at h
  · cases h
  · exact pokeLines h

variable (s)

/-! #### Operations -/

theorem finishOp (n : Nat) (o : Op) : s.Keeps (s.finishOp n o) := by
  have h : s.Keeps { s with ops := tdel n s.ops } := .of_groups rfl le_rfl
  unfold State.finishOp
  refine .ite h (h.trans (.modGroup _ _ ?_))
  rcases o.path with _ | p <;> rcases o.scope with _ | sc <;> rcases o.flag with _ | f <;> rfl

theorem partDone (n : Nat) : s.Keeps (s.partDone n) := by
  unfold State.partDone
  split
  · exact refl s
  · exact .ite (finishOp ..) (putOp ..)

theorem partsDone (ops : List Nat) : s.Keeps (s.partsDone ops) := .foldl (fun s _ => partDone s _) _ _

theorem reqDone (n : Nat) (r : Req) : s.Keeps (s.reqDone n r) := (delReq ..).trans (partsDone ..)

theorem deliver (n : Nat) (bs : List (Nat × Byte)) : s.Keeps (s.deliver n bs) := by
  unfold State.deliver
  split
  · exact refl s
  · exact .of_groups rfl le_rfl

theorem handOp (r : Req) (xs : List (Nat × Byte)) (n : Nat) : s.Keeps (s.handOp r xs n) :=
  .ite ((deliver ..).after (.of_groups rfl le_rfl)) (deliver ..)

theorem handBytes (r : Req) (offs : List Nat) (f : Nat → Byte) : s.Keeps (s.handBytes r offs f) := .foldl (fun s _ => handOp s ..) _ _

/-! #### The race detector -/

theorem raceSector (o : Op) (lane : Nat) (write : Bool) (scope va : Nat) : s.Keeps (s.raceSector o lane write scope va) := by
  unfold State.raceSector
  extract_lets ctx gid d sh die r t s0 at_
  have ht : s.Keeps t := slicePeeked ..
  refine .ite (refl s) ?_
  split
  · exact ht
  · extract_lets w escope int wg n lrs diff covered here race kind bs s1
    have h0 : t.Keeps s0 := modContext ..
    have h1 : t.Keeps s1 := by
      refine .ite (refl t) (h0.trans (.ite ?_ (raise ..)))
      split
      next hp => exact (slicePokes hp).trans (modContext ..)
      · exact refl _
    clear_value s1
    refine (ht.trans h1).trans (.ite ?_ (refl s1))
    split
    next hp => exact (slicePokes hp).trans (modContext ..)
    · exact refl _

theorem raceReq (r : Req) (write : Bool) (offs : List Nat) : s.Keeps (s.raceReq r write offs) := by
  have op (s : State) (n lane scope : Nat) (vas : List Nat) : s.Keeps (s.raceOp n lane write scope vas) := by
    unfold State.raceOp
    split
    · exact .ite (.foldl (fun s _ => raceSector s ..) _ _) (refl s)
    · exact refl s
  exact .ite (refl s) (.foldl (fun s _ => op s ..) _ _)

/-! #### Lines of an L1 -/

theorem readDirty (core tenant line : Nat) (l : L1Line) : s.Keeps (s.readDirty core tenant line l).2 := by
  unfold State.readDirty
  split
  · exact refl s
  · refine State.Keeps.trans ?_ (readWords ..)
    split
    · exact (logLasting ..).trans (raise ..)
    · exact refl s

theorem sendDirty (core tenant line : Nat) (l : L1Line) : s.Keeps (s.sendDirty core tenant line l).2 := by
  unfold State.sendDirty
  dsimp only
  split
  · exact readDirty ..
  · exact (readDirty ..).trans (addReq ..)

theorem yieldLine (core tenant line : Nat) (pools : Bool) : s.Keeps (s.yieldLine core tenant line pools) := by
  unfold State.yieldLine
  split
  · exact .ite (refl s) (((sendDirty ..).trans (.ite (setL1 ..) (delL1 ..))).trans (dropFills ..))
  · exact dropFills ..

/-! #### Requests -/

theorem leave (n : Nat) (r : Req) : s.Keeps (s.leave n r) := by
  unfold State.leave
  split
  · exact (State.Keeps.ite (countCore ..) (refl s)).trans (putReq ..)
  · exact putReq ..

theorem maintain (n : Nat) (r : Req) (inv l2 : Bool) : s.Keeps (s.maintain n r inv l2) := by
  have go {p : Prop} [Decidable p] {t : State} (h : s.Keeps t) (r : Req) : s.Keeps (if p then t.leave n r else t.reqDone n r) :=
    h.trans (.ite (leave ..) (reqDone ..))
  unfold State.maintain
  dsimp only
  split
  · exact go (refl s) _
  · exact .ite (reqDone ..) (go ((sendDirty ..).trans (.ite ((delL1 ..).trans (dropFills ..)) (setL1 ..))) _)

theorem raiseOps (n : Nat) (r : Req) (f : Flt) : s.Keeps (s.raiseOps n r f) := by
  unfold State.raiseOps
  split
  · exact raise ..
  · refine .foldl (fun s _ => ?_) _ _
    split
    · exact .ite (raise ..) (raise ..)
    · exact refl s

theorem hitL1 (n : Nat) (r : Req) (l : L1Line) (have_ : Nat) {go : State → State} (hgo : ∀ t : State, t.Keeps (go t)) : s.Keeps (s.hitL1 n r l have_ go) := by
  unfold State.hitL1
  dsimp only
  split
  · exact ((logLasting ..).trans (putReq ..)).trans (raiseOps ..)
  · exact ((readWords ..).trans (handBytes ..)).trans (hgo _)

theorem mendL1 (core tenant line : Nat) (offs : List Nat) : s.Keeps (s.mendL1 core tenant line offs) := .ite (refl s) (modCore ..)

theorem send (n : Nat) (r : Req) : s.Keeps (s.send n r) := by
  unfold State.send
  dsimp only
  split
  case h_1 | h_2 =>
    split
    · exact .ite ((yieldLine ..).trans (leave ..)) (hitL1 _ _ _ _ _ (fun t => .ite ((raceReq ..).trans (reqDone ..)) (leave ..)))
    · exact leave ..
  · split
    · exact .ite ((((setL1 ..).trans (mendL1 ..)).trans (raceReq ..)).trans (reqDone ..)) (leave ..)
    · exact leave ..
  · exact (State.Keeps.foldl (fun s _ => yieldLine s ..) _ _).trans (leave ..)
  · exact (yieldLine ..).trans (leave ..)
  · exact (yieldLine ..).trans (leave ..)
  · exact (yieldLine ..).trans (leave ..)
  · refine .ite (.ite (leave ..) (reqDone ..)) ?_
    split
    · exact .ite ((putReq ..).trans (maintain ..)) (leave ..)
    · exact leave ..
  · split
    · exact .ite (reqDone ..) (leave ..)
    · exact leave ..
  · exact leave ..
  · exact leave ..
  · exact putReq ..

theorem enter (n : Nat) (r : Req) (again : Bool) : s.Keeps (s.enter n r again) := by
  unfold State.enter
  split
  · exact send ..
  · exact putReq ..

theorem request1 (r : Req) (behind : Option Nat) : s.Keeps (s.request1 r behind) := by
  unfold State.request1
  dsimp only
  split
  · exact (addReq ..).trans (enter ..)
  · exact (addReq s r).trans (putReq ..)
  · exact addReq ..

theorem flushCombine (cl : Nat) (p : Combine → Bool) : s.Keeps (s.flushCombine cl p) :=
  .foldl (fun _ _ => (modCluster ..).trans (request1 ..)) _ _

theorem request (r : Req) (behind : Option Nat) : s.Keeps (s.request r behind) := (flushCombine ..).trans (request1 ..)

/-! #### The commit of a region -/

theorem writeScratch (team : Nat) (bs : List (Nat × Byte)) : s.Keeps (s.writeScratch team bs) :=
  (modTeam ..).trans (.ite (refl _) (modCore ..))

theorem commitEntry (gid : Nat) (retire : Bool) (e : BufEntry) : s.Keeps (s.commitEntry gid retire e) := by
  unfold State.commitEntry
  dsimp only
  split
  · exact (writeScratch ..).trans (partsDone ..)
  · exact .ite (partsDone ..) (request ..)
  · exact request ..

end State.Keeps

end Sys2Proof.Machine
end

section
/-! SUPPORT. The group of an issue, of a long-latency word too (01 R25, R26), and the scratchpad loads, the buffered stores and the commit
of a region (02 R41, 04 R73, 16 R297) in the terms of its registers, slots and buffer. -/

namespace Sys2Proof.Machine

/-! ### The group of an issue, of any word -/

/-- Marks are made, and nothing else (01 R26). -/
theorem Group.addMarks_eq (l : List Reg) (f : Reg → Mark) (g : Group) : l.foldl (fun (g : Group) r => g.addMark (f r)) g = { g with marks := (l.foldl (fun (g : Group) r => g.addMark (f r)) g).marks } := by
  induction l generalizing g with
  | nil => rfl
  | cons r l ih => rw [List.foldl_cons, ih]; rfl

theorem Group.pending_addMark (g : Group) (m : Mark) (cls idx : Nat) : (g.addMark m).pending cls idx = if m.cls = cls ∧ m.idx = idx then some m else g.pending cls idx := by
  unfold Group.addMark Group.pending
  dsimp only
  rw [List.find?_cons]
  by_cases h : m.cls = cls ∧ m.idx = idx
  · simp [h]
  · have hm : (m.cls == cls && m.idx == idx) = false := by simpa using h
    rw [hm, if_neg h, List.find?_filter]
    refine congrArg (g.marks.find? ·) (funext fun x => ?_)
    by_cases hx : x.cls = cls ∧ x.idx = idx
    · obtain ⟨rfl, rfl⟩ := hx
      have hne : (x.cls == m.cls && x.idx == m.idx) = false := by simpa using fun a b => h ⟨a.symm, b.symm⟩
      simp [hne]
    · have : (x.cls == cls && x.idx == idx) = false := by simpa using hx
      simp [this]

/-- Registers marked with a flag are pending on it (01 R26). -/
theorem Group.pending_addMarks {l : List Reg} {f : Reg → Mark} {n : Nat} (hf : ∀ r, (f r).cls = r.cls.code ∧ (f r).idx = r.idx ∧ (f r).flag = n) {g : Group} {r : Reg}
    (h : r ∈ l ∨ ∃ m, g.pending r.cls.code r.idx = some m ∧ m.flag = n) : ∃ m, (l.foldl (fun (g : Group) r => g.addMark (f r)) g).pending r.cls.code r.idx = some m ∧ m.flag = n := by
  induction l generalizing g with
  | nil => exact h.resolve_left nofun
  | cons x l ih =>
    rw [List.foldl_cons]
    refine ih ?_
    obtain ⟨hc, hi, hn⟩ := hf x
    rw [Group.pending_addMark, hc, hi]
    by_cases hx : x.cls.code = r.cls.code ∧ x.idx = r.idx
    · rw [if_pos hx]; exact .inr ⟨f x, rfl, hn⟩
    · rw [if_neg hx]
      rcases h with h | h
      · rcases List.mem_cons.1 h with rfl | h
        · exact absurd ⟨rfl, rfl⟩ hx
        · exact .inl h
      · exact .inr h

/-- The group that is left as it is but for its slots, its flags and marks, and the marks of the issue. -/
def Group.Issued (g h : Group) : Prop := h = { g with a := h.a, b := h.b, nextB := h.nextB, due := h.due, last := h.last, yielded := h.yielded, flags := h.flags, marks := h.marks }

section
variable (c : Iss) (i : Instr) (n : Nat)

theorem Iss.issued_eq : c.g.Issued (c.issued i n) := by
  unfold Group.Issued
  cases h : i.longLat with
  | none => simp only [Iss.issued, h, Group.setSlot]; split <;> rfl
  | some sb => simp only [Iss.issued, h, Group.setSlot]; rw [Group.addMarks_eq]; split <;> rfl

/-- The slot goes on to the next word of its clause, or past its end (01 R23). -/
theorem Iss.issued_advanced : advanced c (c.issued i n) := by
  cases h : i.longLat with
  | none => exact c.issued_slots i n h
  | some sb =>
    have e : (c.cl.left - 1 = 0) = (c.cl.left ≤ 1) := by rw [eq_iff_iff]; omega
    simp only [advanced, Iss.issued, h]
    rw [Group.addMarks_eq]
    simp only [Group.assignFlag, Group.setSlot, Group.slot, e]
    cases c.slotB <;> exact ⟨rfl, rfl⟩

/-- A long-latency word counts on its flag, and its destinations are pending on it (01 R25, R26). -/
theorem Iss.issued_pendsOn : pendsOn i c (c.issued i n) := by
  intro f hf
  unfold Iss.carried at hf
  cases h : i.longLat with
  | none => rw [h] at hf; cases hf
  | some sb =>
    rw [h] at hf
    simp only [Iss.issued, h, hf, Option.getD_some]
    refine ⟨?_, fun r hr => Group.pending_addMarks (f := fun r => ⟨r.cls.code, r.idx, f, i.isMatrix⟩) (fun _ => ⟨rfl, rfl, rfl⟩) (.inl hr)⟩
    rw [Group.addMarks_eq]
    simp only [Group.flagCount, Group.assignFlag, tget_tset_self, Group.setSlot]
    split <;> rfl

end

theorem pendsOn_congr {i : Instr} {c : Iss} {g h : Group} (hf : h.flags = g.flags) (hm : h.marks = g.marks) (hp : pendsOn i c g) : pendsOn i c h := by
  simpa only [pendsOn, Group.flagCount, Group.pending, hf, hm] using hp

/-! ### The group after a word -/

/-- The registers, the store buffer and the slots of a group stand as in another. -/
structure Group.Stays (g h : Group) : Prop where
  regs : g.sameRegs h
  a : h.a = g.a
  b : h.b = g.b

theorem Group.Stays.trans {g h k : Group} (x : g.Stays h) (y : h.Stays k) : g.Stays k :=
  ⟨⟨y.regs.1.trans x.regs.1, y.regs.2.1.trans x.regs.2.1, y.regs.2.2.1.trans x.regs.2.2.1, y.regs.2.2.2.1.trans x.regs.2.2.2.1, y.regs.2.2.2.2.trans x.regs.2.2.2.2⟩, y.a.trans x.a, y.b.trans x.b⟩

theorem Group.Kept.stays {g h : Group} (k : g.Kept h) : g.Stays h := by
  rw [k]; exact ⟨⟨rfl, rfl, rfl, rfl, rfl⟩, rfl, rfl⟩

theorem Group.Issued.regs {g h : Group} (k : g.Issued h) : g.sameRegs h := by
  rw [k]; exact ⟨rfl, rfl, rfl, rfl, rfl⟩

theorem Group.Issued.buf {g h : Group} (k : g.Issued h) : h.buf = g.buf := by rw [k]

theorem Group.Stays.advanced {c : Iss} {g h : Group} (k : g.Stays h) (ha : advanced c g) : advanced c h := by
  simpa only [Machine.advanced, Group.slot, k.a, k.b] using ha

theorem Group.OnlyRegs.rest {f : Group → Group} (ho : Group.OnlyRegs f) (g : Group) : (f g).a = g.a ∧ (f g).b = g.b ∧ (f g).t = g.t ∧ (f g).acc = g.acc := by
  rw [ho]; exact ⟨rfl, rfl, rfl, rfl⟩

theorem Group.OnlyRegs.marks {f : Group → Group} (ho : Group.OnlyRegs f) (g : Group) : (f g).flags = g.flags ∧ (f g).marks = g.marks ∧ (f g).buf = g.buf := by
  rw [ho]; exact ⟨rfl, rfl, rfl⟩

/-- A word whose group stays as it was issued, but for a change of its registers. -/
theorem Gives.of_issued {i : Instr} {s t : State} {gr : Grant} {f : Group → Group} {w : Writes} {post : State → Prop} {n : Nat} {u : Group}
    (he : exec i s = .next t) (hst : ((s.seen gr).issued i n).Stays u) (ht : t.after gr = f u) (ho : Group.OnlyRegs f)
    (hv : ∀ (g : Group) (r L : Nat), L < 32 → (f g).rv r L = (w.v r L).getD (g.rv r L)) (hs : ∀ (g : Group) (r : Nat), (f g).rs r = (w.s r).getD (g.rs r))
    (hq : ∀ (g : Group) (r : Nat), (f g).rq r = (w.q r).getD (g.rq r)) (hp : post t) : Gives i s gr w post := by
  obtain ⟨hv1, hs1, hq1, ht1, ha1⟩ := hst.regs
  obtain ⟨hv0, hs0, hq0, ht0, ha0⟩ := ((s.seen gr).issued_eq i n).regs
  obtain ⟨ha, hb, htile, hacc⟩ := ho.rest u
  have hadv := hst.advanced ((s.seen gr).issued_advanced i n)
  refine ⟨t, he, ?_, ?_, ?_, fun r L hL => ?_, fun r => ?_, fun r => ?_, hp⟩ <;> rw [ht]
  · simpa only [Machine.advanced, Group.slot, ha, hb] using hadv
  · exact htile.trans (ht1.trans ht0)
  · exact hacc.trans (ha1.trans ha0)
  · rw [hv _ r L hL, Group.rv_congr (hv1.trans hv0)]; rfl
  · rw [hs, Group.rs_congr (hs1.trans hs0)]; rfl
  · rw [hq, Group.rq_congr (hq1.trans hq0)]; rfl

/-! ### Operations that a word starts -/

theorem Book.op {s t : State} (h : Book s t) (n : Nat) : t.op n = s.op n := by rw [h.rest]; rfl
theorem Book.group {s t : State} (h : Book s t) (k : Nat) : t.group k = s.group k := by rw [h.rest]; rfl
theorem Book.team {s t : State} (h : Book s t) (k : Nat) : t.team k = s.team k := by rw [h.rest]; rfl

theorem Book.spRead (s : State) (team : Nat) (as : List Nat) : Book s (s.spRead team as) := .ite (.refl s) (.readWords ..)

/-- A new operation counts on its path, and its group keeps the rest (05 R89). -/
theorem State.newOp_group (s : State) (c : Iss) (i : Instr) (path : Option Nat) (dest : Dest) (parts : Nat) :
    (s.newOp c i path dest parts).2.group c.gid = { s.group c.gid with paths := ((s.newOp c i path dest parts).2.group c.gid).paths } := by
  unfold State.newOp
  cases path with
  | none => rfl
  | some p => dsimp only; rw [State.group_modGroup_self]; rfl

theorem Group.Kept.of_paths {g h : Group} (k : h = { g with paths := h.paths }) : g.Kept h := by rw [k]; rfl

theorem State.begin_nextId (s : State) (c : Iss) (i : Instr) : (s.begin c i).nextId = s.nextId := by rw [(s.begin_book c i).rest]; rfl

theorem State.begin_team (s : State) (c : Iss) (i : Instr) (k : Nat) : (s.begin c i).team k = s.team k := (s.begin_book c i).team k

/-! ### The scratchpad accesses of a word (04 R73) -/

theorem State.begin_scratchNum (s : State) (c d : Iss) (i : Instr) (a n : Nat) : (s.begin c i).scratchNum d a n = s.scratchNum d a n := by
  unfold State.scratchNum
  rw [State.begin_team]

/-- The registers that a scratchpad load of the lanes given will write. -/
def State.loadCells (s : State) (c : Iss) (d width : Nat) (lanes : List (Nat × Nat)) : List (RCell × Word) :=
  lanes.flatMap (fun x => (loadWords width (s.scratchNum c x.2 (widthBytes width))).zipIdx.map (fun w => ((⟨0, 32 * (d + w.2) + x.1⟩ : RCell), w.1)))

section
variable (s : State) (c : Iss) (i : Instr) (d width : Nat) (lanes : List (Nat × Nat))

theorem State.scratchLoad_book : Book (s.newOp c i (if lanes = [] then none else some 0) (.cells (s.loadCells c d width lanes)) 0).2 (s.scratchLoad c i d width lanes) :=
  (Book.countCore ..).trans (Book.spRead ..)

theorem State.scratchLoad_group : (s.scratchLoad c i d width lanes).group c.gid = { s.group c.gid with paths := ((s.scratchLoad c i d width lanes).group c.gid).paths } := by
  rw [(s.scratchLoad_book c i d width lanes).group]
  exact s.newOp_group ..

theorem State.scratchLoad_op : ∃ z, (s.scratchLoad c i d width lanes).op s.nextId = some z ∧ z.gid = c.gid ∧ z.instr = i ∧ z.flag = c.carried i ∧
    z.dest = .cells (s.loadCells c d width lanes) ∧ z.path = if lanes = [] then none else some 0 := by
  obtain ⟨z, -, hop, hgid, hinstr, hpath, hflag, hdest, -⟩ := s.newOp_spec c i (if lanes = [] then none else some 0) (.cells (s.loadCells c d width lanes)) 0
  exact ⟨z, by rw [(s.scratchLoad_book c i d width lanes).op, hop], hgid, hinstr, hflag, hdest, hpath⟩

end

/-- A commit empties the store buffer and leaves the registers and the slots (16 R297). -/
theorem State.commitRegion_group (s : State) (gid : Nat) (slotB retire : Bool) :
    (s.group gid).Stays ((s.commitRegion gid slotB retire).group gid) ∧ ((s.commitRegion gid slotB retire).group gid).buf = [] ∧ s.nextId ≤ (s.commitRegion gid slotB retire).nextId := by
  unfold State.commitRegion
  extract_lets g s1 s2
  have hk : s1.Keeps s2 := .foldl (fun s e => .commitEntry s gid retire e) _ _
  have h1 : s1.group gid = { g with buf := [], staged := none } := State.group_setGroup_self ..
  have h2 := hk.groups gid
  rw [h1] at h2
  rw [State.group_modGroup_self, h2]
  exact ⟨⟨⟨rfl, rfl, rfl, rfl, rfl⟩, rfl, rfl⟩, rfl, hk.ids⟩

/-- A store that enters the region store buffer: the buffer commits first if its bytes do not fit (02 R41). -/
theorem State.putStore_spec (s : State) (c : Iss) (i : Instr) (space : Space) (strong : Bool) (hint scope : Nat) (bs : List (Nat × Byte)) (who : List (Nat × Nat)) :
    ∃ n z, s.nextId ≤ n ∧ (s.putStore c i space strong hint scope bs who).op n = some z ∧ z.gid = c.gid ∧ z.instr = i ∧ z.path = some 1 ∧
      (s.group c.gid).Stays ((s.putStore c i space strong hint scope bs who).group c.gid) ∧
      ((s.putStore c i space strong hint scope bs who).group c.gid).buf = bufferStore space c.g.tenant n strong hint scope bs
        (if 64 < (s.group c.gid).buf.length + (newSectors space bs (s.group c.gid).buf).length then [] else (s.group c.gid).buf) := by
  unfold State.putStore
  extract_lets g s1 n buf s2
  have h1 : g.Stays (s1.group c.gid) ∧ (s1.group c.gid).buf = (if 64 < g.buf.length + (newSectors space bs g.buf).length then [] else g.buf) ∧ s.nextId ≤ s1.nextId := by
    unfold s1
    split
    · exact s.commitRegion_group ..
    · exact ⟨⟨⟨rfl, rfl, rfl, rfl, rfl⟩, rfl, rfl⟩, rfl, le_rfl⟩
  obtain ⟨hst, hbuf, hid⟩ := h1
  obtain ⟨x, hn, hx, hgid, hinstr, hpath, -⟩ := s1.newOp_spec c i (some 1) .none 0
  have hk : (s1.group c.gid).Kept (n.2.group c.gid) := .of_paths (s1.newOp_group ..)
  have h2 : s2 = n.2.putOp n.1 { x with parts := storeParts n.1 buf, who := who, lane := (who.headD (0, 0)).2 } := by
    unfold s2
    rw [hn, hx]
  have hg : (s2.modGroup c.gid (fun g => { g with buf := buf })).group c.gid = { n.2.group c.gid with buf := buf } := by
    rw [State.group_modGroup_self, h2]; rfl
  refine ⟨n.1, { x with parts := storeParts n.1 buf, who := who, lane := (who.headD (0, 0)).2 }, hn ▸ hid, (by rw [h2]; exact tfind_tput_self ..), hgid, hinstr, hpath, ?_, ?_⟩
  · rw [hg]
    have := hst.trans hk.stays
    exact ⟨this.regs, this.a, this.b⟩
  · rw [hg, ← hbuf]
    show bufferStore space c.g.tenant n.1 strong hint scope bs (n.2.group c.gid).buf = _
    rw [hk]

theorem State.scratchStore_book (s : State) (c : Iss) (i : Instr) (size : Nat) (word : Nat → Nat → Word) {lanes : List (Nat × Nat)} (h : lanes ≠ []) :
    Book (s.putStore c i .scratch false 0 0 (storeBytes size word lanes)) (s.scratchStore c i size word lanes) := by
  rw [State.scratchStore, if_neg h]
  exact .countCore ..

end Sys2Proof.Machine
end

section
/-! SUPPORT. The P-form (01 R19 to R22): the lanes, values, faults and accesses of a half, the word of two halves, and the statement about
it. -/

namespace Sys2Proof.Machine

/-! ### The halves of a word -/

/-- The lanes of a half: those of its slot's mask in which its guard holds (01 R20). -/
theorem Iss.pActive_eq (c : Iss) (h : PHalf) : c.pActive h = c.g.mask c.slotB &&& (match h.f.g with | some q => c.g.rq q.toNat | none => 0xFFFFFFFF) := by
  unfold Iss.pActive Iss.active
  cases h.f.g <;> rfl

theorem Iss.pFloat_eq (c : Iss) (h : PHalf) (f : Fmt) (k L : Nat) :
    c.pFloat h f k L = if h.f.imm then (f.round .rne false (.ofInt h.f.s.toInt)).1 else (c.g.rv h.f.s.toNat L).toNat / 2 ^ (f.width * k) % 2 ^ f.width := by
  unfold Iss.pFloat nbits
  rw [Nat.shiftRight_eq_div_pow]

/-- A half that accesses no scratchpad. -/
def isStill (h : PHalf) : Prop := h.op ≠ .lds ∧ h.op ≠ .sts

/-- What a half writes at its issue (01 R20). -/
def Iss.pWrites (c : Iss) (h : PHalf) : Writes where
  v r L := if r = h.f.d.toNat ∧ (c.pActive h).getLsbD L = true ∧ POp.kind h.op = .vector then some (BitVec.ofNat 32 (c.pValue h L).1) else none
  s r := if r = h.f.d.toNat ∧ POp.kind h.op = .scalar then some (c.pScalarValue h) else none

/-- No enabled exception is found in an active lane of a half (07 R133). -/
def Iss.pClean (c : Iss) (h : PHalf) : Prop := POp.kind h.op = .vector → ∀ L, L < 32 → (c.pActive h).getLsbD L = true → (c.pValue h L).2.bits &&& c.g.fpx = 0

/-! ### The registers that a half writes -/

theorem Group.rv_wcells_lanes (ls : List Nat) (hls : ∀ L ∈ ls, L < 32) (d : Nat) (f : Nat → Word) (g : Group) (r L : Nat) (hL : L < 32) :
    (g.wcells (ls.map (fun L => (⟨0, 32 * d + L⟩, f L)))).rv r L = if r = d ∧ L ∈ ls then f L else g.rv r L := by
  induction ls generalizing g with
  | nil => simp [Group.wcells]
  | cons K ls ih =>
    have hK := hls K List.mem_cons_self
    have step : g.wcell ⟨0, 32 * d + K⟩ (f K) = g.wv d K (f K) := by
      simp only [Group.wcell]
      rw [show (32 * d + K) / 32 = d by omega, show (32 * d + K) % 32 = K by omega]
    have := ih (fun x hx => hls x (List.mem_cons_of_mem _ hx)) (g.wv d K (f K))
    simp only [Group.wcells, List.map_cons, List.foldl_cons, step] at this ⊢
    rw [this, Group.rv_wv _ _ _ _ _ _ hK hL]
    by_cases e : L = K
    · subst e; by_cases er : r = d <;> simp [er]
    · simp [e]

theorem Group.wcells_lanes_sq (ls : List Nat) (d : Nat) (f : Nat → Word) (g : Group) :
    (g.wcells (ls.map (fun L => (⟨0, 32 * d + L⟩, f L)))).s = g.s ∧ (g.wcells (ls.map (fun L => (⟨0, 32 * d + L⟩, f L)))).q = g.q := by
  induction ls generalizing g with
  | nil => exact ⟨rfl, rfl⟩
  | cons K ls ih => exact ih _

theorem Group.wcells_append (g : Group) (x y : List (RCell × Word)) : g.wcells (x ++ y) = (g.wcells x).wcells y := List.foldl_append

section
variable (c : Iss) (h : PHalf) (g : Group)

theorem Group.rv_pCells (r L : Nat) (hL : L < 32) : (g.wcells (c.pCells h)).rv r L = ((c.pWrites h).v r L).getD (g.rv r L) := by
  unfold Iss.pCells Iss.pWrites
  cases hk : POp.kind h.op
  case vector =>
    dsimp only
    rw [Group.rv_wcells_lanes _ (fun _ hx => (mem_lanesIn.1 hx).1) _ (fun L => BitVec.ofNat 32 (c.pValue h L).1) _ _ _ hL]
    simp only [mem_lanesIn, hL, true_and, and_true]
    split <;> rfl
  case scalar => simp [Group.wcells, Group.wcell, Group.rv]
  case load | store | nothing => simp [Group.wcells]

theorem Group.rs_pCells (r : Nat) : (g.wcells (c.pCells h)).rs r = ((c.pWrites h).s r).getD (g.rs r) := by
  unfold Iss.pCells Iss.pWrites
  cases hk : POp.kind h.op
  case vector =>
    simp only [reduceCtorEq, and_false, if_false, Option.getD_none]
    exact Group.rs_congr (Group.wcells_lanes_sq _ _ (fun L => BitVec.ofNat 32 (c.pValue h L).1) _).1 r
  case scalar =>
    simp only [and_true]
    refine (Group.rs_ws _ _ _ _).trans ?_
    split <;> rfl
  case load | store | nothing => simp [Group.wcells]

theorem Group.rq_pCells (r : Nat) : (g.wcells (c.pCells h)).rq r = g.rq r := by
  unfold Iss.pCells
  cases hk : POp.kind h.op
  case vector => exact Group.rq_congr (Group.wcells_lanes_sq _ _ (fun L => BitVec.ofNat 32 (c.pValue h L).1) _).2 r
  case scalar | load | store | nothing => rfl

theorem Group.OnlyRegs.pCells : Group.OnlyRegs (fun g => g.wcells (c.pCells h)) := by
  unfold Iss.pCells
  cases hk : POp.kind h.op
  case vector =>
    have (ls : List Nat) : Group.OnlyRegs (fun g => g.wcells (ls.map (fun L => (⟨0, 32 * h.f.d.toNat + L⟩, BitVec.ofNat 32 (c.pValue h L).1)))) := by
      simp only [Group.wcells, List.foldl_map]
      exact .foldl _ _ (fun L => .wv _ _ _)
    exact this _
  case scalar => exact .ws _ _
  case load | store | nothing => exact .id

end

/-- Two lists of registers written: those of the second stay. -/
def Writes.over (w u : Writes) : Writes where
  v r L := (w.v r L).or (u.v r L)
  s r := (w.s r).or (u.s r)

section
variable (c : Iss) (x y : PHalf)

/-- The registers that a word writes at its issue, those of the second half last. -/
def Iss.pairCells : Group → Group := fun g => g.wcells (c.pCells x ++ c.pCells y)

theorem Iss.pairCells_onlyRegs : Group.OnlyRegs (c.pairCells x y) := by
  have h := Group.OnlyRegs.comp (.pCells c y) (.pCells c x)
  intro g
  simpa only [Iss.pairCells, Group.wcells_append] using h g

theorem Iss.rv_pairCells (g : Group) (r L : Nat) (hL : L < 32) : (c.pairCells x y g).rv r L = (((c.pWrites y).over (c.pWrites x)).v r L).getD (g.rv r L) := by
  rw [Iss.pairCells, Group.wcells_append, Group.rv_pCells _ _ _ _ _ hL, Group.rv_pCells _ _ _ _ _ hL, Writes.over, Option.getD_or]

theorem Iss.rs_pairCells (g : Group) (r : Nat) : (c.pairCells x y g).rs r = (((c.pWrites y).over (c.pWrites x)).s r).getD (g.rs r) := by
  rw [Iss.pairCells, Group.wcells_append, Group.rs_pCells, Group.rs_pCells, Writes.over, Option.getD_or]

theorem Iss.rq_pairCells (g : Group) (r : Nat) : (c.pairCells x y g).rq r = g.rq r := by
  rw [Iss.pairCells, Group.wcells_append, Group.rq_pCells, Group.rq_pCells]

end

/-! ### The faults of a half -/

theorem arithFault_cause {opc en : Nat} {fs : List (Nat × FFlags)} {f : Flt} (h : arithFault opc en fs = some f) : ∃ d, f = ⟨4, d⟩ := by
  unfold arithFault at h
  dsimp only at h
  split at h
  · cases h
  · cases h; exact ⟨_, rfl⟩

theorem arithFault_eq_none {opc en : Nat} {fs : List (Nat × FFlags)} : arithFault opc en fs = none ↔ ∀ x ∈ fs, x.2.bits &&& en = 0 := by
  refine ⟨fun h => ?_, arithFault_none opc en fs⟩
  have key (l : List (Nat × FFlags)) (a : FFlags) (hl : (l.foldl (fun (a : FFlags) x => a.or x.2) a).bits &&& en = 0) : a.bits &&& en = 0 ∧ ∀ x ∈ l, x.2.bits &&& en = 0 := by
    induction l generalizing a with
    | nil => exact ⟨hl, nofun⟩
    | cons x l ih =>
      obtain ⟨ha, hx⟩ := ih _ hl
      rw [FFlags.or_bits, Nat.and_or_distrib_right, Nat.or_eq_zero_iff] at ha
      exact ⟨ha.1, List.forall_mem_cons.2 ⟨ha.2, hx⟩⟩
  unfold arithFault at h
  dsimp only at h
  split at h
  next hf => exact (key _ _ hf).2
  · cases h

theorem checkSp_eq_none {limit size : Nat} {l : List (Nat × Nat)} (h : ∀ z ∈ l, z.2 % size = 0 ∧ z.2 + size ≤ limit) : checkSp limit size l = none := by
  induction l with
  | nil => rfl
  | cons z l ih =>
    obtain ⟨hz, hl⟩ := List.forall_mem_cons.1 h
    rw [checkSp, if_neg (not_not.2 hz.1), if_neg (by omega), ih hl]

section
variable {c : Iss} {t : State} {h : PHalf}

theorem kind_of_still (hs : isStill h) : POp.kind h.op = .vector ∨ POp.kind h.op = .scalar ∨ POp.kind h.op = .nothing := by
  obtain ⟨hl, hs⟩ := hs
  cases ho : h.op <;> simp_all [POp.kind]

theorem Iss.pFault_of_vector (hk : POp.kind h.op = .vector) : c.pFault t h = arithFault (POp.fOpcode h.op) c.g.fpx ((lanesIn (c.pActive h)).map (fun L => (L, (c.pValue h L).2))) := by
  unfold Iss.pFault
  rw [hk]

/-- A half without a scratchpad access faults where an enabled exception is found. -/
theorem Iss.pFault_eq_none_of_still (hs : isStill h) : c.pFault t h = none ↔ c.pClean h := by
  rcases kind_of_still hs with hk | hk | hk
  case inl =>
    rw [Iss.pFault_of_vector hk, arithFault_eq_none]
    simp only [List.forall_mem_map, mem_lanesIn, Iss.pClean, hk, true_imp_iff, and_imp]
  case inr.inl | inr.inr =>
    refine ⟨fun _ hv => ?_, fun _ => by unfold Iss.pFault; rw [hk]⟩
    rw [hk] at hv; cases hv

theorem Iss.pFault_cause_of_still (hs : isStill h) {f : Flt} (hf : c.pFault t h = some f) : ∃ d, f = ⟨4, d⟩ := by
  rcases kind_of_still hs with hk | hk | hk
  case inl => exact arithFault_cause (Iss.pFault_of_vector hk ▸ hf)
  case inr.inl | inr.inr => unfold Iss.pFault at hf; rw [hk] at hf; cases hf

theorem Iss.pFault_of_lds (ho : h.op = .lds) (hf : checkSp (t.team c.g.team).scratchSize (widthBytes (halfWidth h)) (c.pAddrs h) = none)
    (hp : t.spPoison c.g.team (spBytes (widthBytes (halfWidth h)) ((c.pAddrs h).map (·.2))) = none) : c.pFault t h = none := by
  unfold Iss.pFault
  rw [ho]
  simp only [POp.kind, hf, hp]

theorem Iss.pFault_of_sts (ho : h.op = .sts) : c.pFault t h = checkSp (t.team c.g.team).scratchSize (widthBytes (halfWidth h)) (c.pAddrs h) := by
  unfold Iss.pFault
  rw [ho]
  rfl

theorem State.pAccess_of_still (hs : isStill h) (i : Instr) : t.pAccess c i h = t := by
  unfold State.pAccess
  rcases kind_of_still hs with hk | hk | hk <;> rw [hk]

theorem State.pAccess_of_lds (ho : h.op = .lds) (i : Instr) : t.pAccess c i h = t.scratchLoad c i h.f.d.toNat (halfWidth h) (c.pAddrs h) := by
  unfold State.pAccess
  rw [ho]
  rfl

theorem State.pAccess_of_sts (ho : h.op = .sts) (i : Instr) : t.pAccess c i h = t.scratchStore c i (widthBytes (halfWidth h)) (fun _ L => c.g.rv h.f.d.toNat L) (c.pAddrs h) := by
  unfold State.pAccess
  rw [ho]
  rfl

end

/-- A fault that is no lasting error is taken, and nothing else is logged (16 R304). -/
theorem State.trapAt_of_cause {s : State} {c : Iss} {f : Flt} (h : f.cause ≠ 16) : s.trapAt c f = s.takeTrap c.gid c.slotB c.pc f := by
  have hm : f.ofMemory = false := by simp [Flt.ofMemory, h]
  have hl : s.logLasting c.g.ctx (dieOf c.gid) c.g.tenant (coreOf c.gid) f = s := if_neg (by simp [h])
  rw [State.trapAt, hl, State.logStack, hm]
  rfl

/-! ### The lanes, addresses and bytes of a half -/

theorem lanesIn_eq_nil {m : Word} : lanesIn m = [] ↔ m = 0 := by
  refine ⟨fun h => ?_, fun h => by rw [h]; rfl⟩
  ext L hL
  have := mem_lanesIn.not.1 (h ▸ List.not_mem_nil : L ∉ lanesIn m)
  rw [← BitVec.getLsbD_eq_getElem]
  simpa [hL] using this

theorem halfWidth_eq (h : PHalf) : halfWidth h = if h.f.sub = 1 then 2 else if h.f.sub = 2 then 0 else 4 := by
  unfold halfWidth
  generalize h.f.sub = x
  revert x; decide

theorem widthBytes_halfWidth (h : PHalf) : widthBytes (halfWidth h) = if h.f.sub = 1 then 2 else if h.f.sub = 2 then 1 else 4 := by
  rw [halfWidth_eq]
  repeat' split
  all_goals rfl

theorem halfWidth_one_word (h : PHalf) : (widthBytes (halfWidth h) + 3) / 4 = 1 := by
  rw [widthBytes_halfWidth]
  repeat' split
  all_goals rfl

theorem Iss.pAddrs_eq_nil {c : Iss} {h : PHalf} : c.pAddrs h = [] ↔ c.pActive h = 0 := by
  rw [Iss.pAddrs, List.map_eq_nil_iff, lanesIn_eq_nil]

/-- The bytes of one register of each lane. -/
theorem storeBytes_word {size : Nat} (h : (size + 3) / 4 = 1) (f : Nat → Word) (l : List (Nat × Nat)) : storeBytes size (fun _ L => f L) l = l.flatMap (fun x => bytesAt x.2 (f x.1).toNat size) := by
  unfold storeBytes
  rw [h]
  simp [List.range_succ]

/-! ### The word -/

theorem longLat_ofHalves (x y : PHalf) : (Instr.ofHalves x y).longLat = if x.op = .lds ∨ y.op = .lds then some false else none := by
  unfold Instr.longLat
  rw [halves_ofHalves]

/-- The effect of a word of two halves. -/
def pairEffect (x y : PHalf) (c : Iss) (t : State) : Except Flt State :=
  match (c.pFault t x).or (c.pFault t y) with
  | some f => .error f
  | none => .ok (((t.pAccess c (.ofHalves x y) x).pAccess c (.ofHalves x y) y).modGroup c.gid (c.pairCells x y))

theorem exec_ofHalves (x y : PHalf) (s : State) : exec (.ofHalves x y) s = issue (.ofHalves x y) s free_ (pairEffect x y) := by
  have hp : exec (.ofHalves x y) s = execPair x y s := by
    obtain ⟨op, f⟩ := x
    cases op <;> rfl
  rw [hp, execPair]
  refine congrArg (issue _ s free_) (funext fun c => funext fun t => ?_)
  rw [pairEffect]
  cases c.pFault t x <;> cases c.pFault t y <;> rfl

/-- The state in which a word has been issued. -/
abbrev State.begun (s : State) (gr : Grant) (i : Instr) : State := s.begin (s.seen gr) i

theorem State.group_begun (s : State) (gr : Grant) (i : Instr) : (s.begun gr i).group gr.gid = (s.seen gr).issued i (s.issues + 1) :=
  State.group_begin_self s (s.seen gr) i

/-- The state after the scratchpad access of the half `a`, where the other makes none. -/
def State.accessed (s : State) (gr : Grant) (i : Instr) (a : PHalf) : State := (s.begun gr i).pAccess (s.seen gr) i a

/-- An enabled exception in an active lane of a half that accesses no scratchpad stops the word (07 R133). -/
theorem pair_traps {x y : PHalf} {s : State} {gr : Grant} (hr : Ready (.ofHalves x y) s gr) (hx : isStill x) (hy : isStill y)
    (hn : ¬ ((s.seen gr).pClean x ∧ (s.seen gr).pClean y)) : ∃ d, Traps (.ofHalves x y) s gr ⟨4, d⟩ := by
  have hf : ∃ d, ((s.seen gr).pFault (s.begun gr (.ofHalves x y)) x).or ((s.seen gr).pFault (s.begun gr (.ofHalves x y)) y) = some ⟨4, d⟩ := by
    rw [← Iss.pFault_eq_none_of_still (t := s.begun gr (.ofHalves x y)) hx, ← Iss.pFault_eq_none_of_still (t := s.begun gr (.ofHalves x y)) hy] at hn
    rcases ex : (s.seen gr).pFault (s.begun gr (.ofHalves x y)) x with _ | f
    case none =>
      obtain ⟨f, ey⟩ := Option.ne_none_iff_exists'.1 fun ey => hn ⟨ex, ey⟩
      obtain ⟨d, rfl⟩ := Iss.pFault_cause_of_still hy ey
      exact ⟨d, ey⟩
    case some =>
      obtain ⟨d, rfl⟩ := Iss.pFault_cause_of_still hx ex
      exact ⟨d, rfl⟩
  obtain ⟨d, hf⟩ := hf
  refine ⟨d, ?_⟩
  rw [Traps, exec_ofHalves, issue_ready hr _ rfl, pairEffect, hf]
  exact congrArg Host.Outcome.next (State.trapAt_of_cause (by simp))

/-- `a` is one half of a word and `b`, which accesses no scratchpad and finds no enabled exception, the other. -/
structure BesideStill (c : Iss) (a b x y : PHalf) : Prop where
  halves : (a = x ∧ b = y) ∨ (a = y ∧ b = x)
  still : isStill b
  clean : c.pClean b

section
variable {a b x y : PHalf} {s : State} {gr : Grant}

/-- A word whose half `a` finds no fault makes its access, and writes its registers. -/
theorem pairEffect_of_still (h : BesideStill (s.seen gr) a b x y) (ha : (s.seen gr).pFault (s.begun gr (.ofHalves x y)) a = none) :
    pairEffect x y (s.seen gr) (s.begun gr (.ofHalves x y)) = .ok ((s.accessed gr (.ofHalves x y) a).modGroup gr.gid ((s.seen gr).pairCells x y)) := by
  obtain ⟨h, hb, hc⟩ := h
  have hb0 := (Iss.pFault_eq_none_of_still (t := s.begun gr (.ofHalves x y)) hb).2 hc
  obtain ⟨rfl, rfl⟩ | ⟨rfl, rfl⟩ := h <;> rw [pairEffect, ha, hb0, Option.or_none, State.pAccess_of_still hb] <;> rfl

/-- Without an access the word completes. -/
theorem pair_completes (hr : Ready (.ofHalves x y) s gr) (h : BesideStill (s.seen gr) a b x y) (hl : a.op ≠ .lds)
    (ha : (s.seen gr).pFault (s.begun gr (.ofHalves x y)) a = none) (hn : s.accessed gr (.ofHalves x y) a = s.begun gr (.ofHalves x y)) :
    Completes (.ofHalves x y) s gr (((s.seen gr).pWrites y).over ((s.seen gr).pWrites x)) := by
  have hshort : (Instr.ofHalves x y).longLat = none := by
    rw [longLat_ofHalves, if_neg]
    obtain ⟨rfl, rfl⟩ | ⟨rfl, rfl⟩ := h.halves
    · exact not_or.2 ⟨hl, h.still.1⟩
    · exact not_or.2 ⟨h.still.1, hl⟩
  have heff := pairEffect_of_still h ha
  rw [hn] at heff
  refine completes_of hr hshort (exec_ofHalves x y s) rfl heff (Iss.pairCells_onlyRegs _ _ _)
    (fun g hg r L hL => ?_) (fun g hg r => ?_) (fun g hg r => ?_)
  · rw [Iss.rv_pairCells _ _ _ _ _ _ hL, Group.rv_congr hg]
  · rw [Iss.rs_pairCells, Group.rs_congr hg]
  · rw [Iss.rq_pairCells, Group.rq_congr hg]; rfl

/-- With an access that leaves the registers and the slots, what holds of the state after the access is said of the word. -/
theorem pair_gives {post : State → Prop} (hr : Ready (.ofHalves x y) s gr) (h : BesideStill (s.seen gr) a b x y)
    (ha : (s.seen gr).pFault (s.begun gr (.ofHalves x y)) a = none) (hst : ((s.begun gr (.ofHalves x y)).group gr.gid).Stays ((s.accessed gr (.ofHalves x y) a).group gr.gid))
    (hp : ∀ t : State, t.ops = (s.accessed gr (.ofHalves x y) a).ops → (t.after gr).flags = ((s.accessed gr (.ofHalves x y) a).after gr).flags →
      (t.after gr).marks = ((s.accessed gr (.ofHalves x y) a).after gr).marks → (t.after gr).buf = ((s.accessed gr (.ofHalves x y) a).after gr).buf → post t) :
    Gives (.ofHalves x y) s gr (((s.seen gr).pWrites y).over ((s.seen gr).pWrites x)) post := by
  have he : exec (.ofHalves x y) s = .next (((s.accessed gr (.ofHalves x y) a).modGroup gr.gid ((s.seen gr).pairCells x y)).written (s.seen gr) (.ofHalves x y)) := by
    rw [exec_ofHalves, issue_ready hr _ rfl, pairEffect_of_still h ha]
  have hafter : (((s.accessed gr (.ofHalves x y) a).modGroup gr.gid ((s.seen gr).pairCells x y)).written (s.seen gr) (.ofHalves x y)).after gr =
      (s.seen gr).pairCells x y ((s.accessed gr (.ofHalves x y) a).group gr.gid) := by
    rw [State.after, State.group_written, State.group_modGroup_self]
  obtain ⟨hf, hm, hb⟩ := (Iss.pairCells_onlyRegs (s.seen gr) x y).marks ((s.accessed gr (.ofHalves x y) a).group gr.gid)
  refine Gives.of_issued he (s.group_begun gr (.ofHalves x y) ▸ hst) hafter (Iss.pairCells_onlyRegs _ _ _) (fun g r L hL => Iss.rv_pairCells _ _ _ _ _ _ hL) (fun g r => Iss.rs_pairCells ..)
    (fun g r => Iss.rq_pairCells ..) (hp _ ?_ ?_ ?_ ?_)
  · rw [(Book.written ..).rest]; rfl
  · rw [hafter, hf]
  · rw [hafter, hm]
  · rw [hafter, hb]

/-- A half that loads: its words are read at the issue, and a new operation holds them (04 R73). -/
theorem pair_load (hr : Ready (.ofHalves x y) s gr) (h : BesideStill (s.seen gr) a b x y) (ho : a.op = .lds) (ha : (s.seen gr).pFault (s.begun gr (.ofHalves x y)) a = none) :
    Gives (.ofHalves x y) s gr (((s.seen gr).pWrites y).over ((s.seen gr).pWrites x)) (fun t => pendsOn (.ofHalves x y) (s.seen gr) (t.after gr) ∧
      ∃ n z, s.nextId ≤ n ∧ t.op n = some z ∧ z.gid = gr.gid ∧ z.instr = .ofHalves x y ∧ z.flag = (s.seen gr).carried (.ofHalves x y) ∧
        z.dest = .cells ((s.begun gr (.ofHalves x y)).loadCells (s.seen gr) a.f.d.toNat (halfWidth a) ((s.seen gr).pAddrs a)) ∧
        z.path = if (s.seen gr).pAddrs a = [] then none else some 0) := by
  have haccess : s.accessed gr (.ofHalves x y) a = (s.begun gr (.ofHalves x y)).scratchLoad (s.seen gr) (.ofHalves x y) a.f.d.toNat (halfWidth a) ((s.seen gr).pAddrs a) :=
    State.pAccess_of_lds ho _
  have hg := (s.begun gr (.ofHalves x y)).scratchLoad_group (s.seen gr) (.ofHalves x y) a.f.d.toNat (halfWidth a) ((s.seen gr).pAddrs a)
  obtain ⟨z, hz, hop⟩ := (s.begun gr (.ofHalves x y)).scratchLoad_op (s.seen gr) (.ofHalves x y) a.f.d.toNat (halfWidth a) ((s.seen gr).pAddrs a)
  rw [← haccess] at hg hz
  refine pair_gives hr h ha (Group.Kept.of_paths hg).stays (fun t hops hf hm _ => ⟨?_, s.nextId, z, le_rfl, ?_, hop⟩)
  · have hi : pendsOn (.ofHalves x y) (s.seen gr) ((s.begun gr (.ofHalves x y)).group gr.gid) := by
      rw [State.group_begun]
      exact (s.seen gr).issued_pendsOn _ _
    exact pendsOn_congr (hf.trans (congrArg Group.flags hg)) (hm.trans (congrArg Group.marks hg)) hi
  · rw [State.op, hops, ← State.begin_nextId s (s.seen gr) (.ofHalves x y)]
    exact hz

/-- A half that stores in some lane enters the region store buffer (04 R73, 02 R41). -/
theorem pair_store (hr : Ready (.ofHalves x y) s gr) (h : BesideStill (s.seen gr) a b x y) (ho : a.op = .sts) (ha : (s.seen gr).pFault (s.begun gr (.ofHalves x y)) a = none)
    (hn : (s.seen gr).pAddrs a ≠ []) {bs : List (Nat × Byte)} (hbs : bs = storeBytes (widthBytes (halfWidth a)) (fun _ L => (s.seen gr).g.rv a.f.d.toNat L) ((s.seen gr).pAddrs a)) :
    Gives (.ofHalves x y) s gr (((s.seen gr).pWrites y).over ((s.seen gr).pWrites x)) (fun t => ∃ n z, s.nextId ≤ n ∧ t.op n = some z ∧ z.gid = gr.gid ∧ z.instr = .ofHalves x y ∧ z.path = some 1 ∧
      (t.after gr).buf = bufferStore .scratch (s.group gr.gid).tenant n false 0 0 bs
        (if 64 < (s.group gr.gid).buf.length + (newSectors .scratch bs (s.group gr.gid).buf).length then [] else (s.group gr.gid).buf)) := by
  have haccess : s.accessed gr (.ofHalves x y) a = (s.begun gr (.ofHalves x y)).scratchStore (s.seen gr) (.ofHalves x y) _ _ _ := State.pAccess_of_sts ho _
  have hbook := (s.begun gr (.ofHalves x y)).scratchStore_book (s.seen gr) (.ofHalves x y) (widthBytes (halfWidth a)) (fun _ L => (s.seen gr).g.rv a.f.d.toNat L) hn
  rw [← haccess, ← hbs] at hbook
  obtain ⟨n, z, hid, hz, hgid, hinstr, hpath, hst, hbuf⟩ := (s.begun gr (.ofHalves x y)).putStore_spec (s.seen gr) (.ofHalves x y) .scratch false 0 0 bs []
  have hb0 : ((s.begun gr (.ofHalves x y)).group (s.seen gr).gid).buf = (s.group gr.gid).buf :=
    (congrArg Group.buf (s.group_begun gr _)).trans (Group.Issued.buf ((s.seen gr).issued_eq _ _))
  have hid : s.nextId ≤ n := State.begin_nextId s (s.seen gr) (.ofHalves x y) ▸ hid
  refine pair_gives hr h ha ?_ (fun t hops _ _ hb => ⟨n, z, hid, ?_, hgid, hinstr, hpath, ?_⟩)
  · rw [hbook.group]; exact hst
  · rw [State.op, hops]
    exact (hbook.op n).trans hz
  · rw [hb, State.after, hbook.group]
    exact hbuf.trans (by rw [hb0]; rfl)

end

theorem nbits_eq (x lo w : Nat) : nbits x lo w = x / 2 ^ lo % 2 ^ w := by rw [nbits, Nat.shiftRight_eq_div_pow]

/-- Settles O26: both halves read the state of the issue, each in its own lanes; the access of a half that makes one leaves the
registers and the slots of the group, also where its store commits the region first. -/
theorem pairResults : Obligations.PairResults := by
  intro x y s gr c g i m old src rm el int fp two value S T scalar v w writes clean still code size at_ fits cells bytes
  have hm (h : PHalf) : m h = c.pActive h := (c.pActive_eq h).symm
  have hel : el = c.pFloat := funext fun h => funext fun f => funext fun k => funext fun L => (c.pFloat_eq h f k L).symm
  have hvalue (h : PHalf) (L : Nat) : value h L = if POp.kind h.op = .vector then some (c.pValue h L) else none := by
    obtain ⟨op, f⟩ := h
    cases op
    case fadd | fsub | fmul | fmin | fmax => simp only [value, fp, hel]; rfl
    case hadd2 | hmul2 => simp only [value, two, hel, POp.kind, if_true, Iss.pValue, joinHalves, nbits_eq]; rfl
    all_goals rfl
  have hscalar (h : PHalf) : scalar h = if POp.kind h.op = .scalar then some (c.pScalarValue h) else none := by
    obtain ⟨op, f⟩ := h
    cases op <;> rfl
  have hwrites : writes = (c.pWrites y).over (c.pWrites x) := by
    have hv (h : PHalf) (r L : Nat) : v h r L = (c.pWrites h).v r L := by
      by_cases hk : POp.kind h.op = .vector <;> simp [v, hm, hvalue, Iss.pWrites, hk]
    have hw (h : PHalf) (r : Nat) : w h r = (c.pWrites h).s r := by simp only [w, hscalar, Iss.pWrites, ite_and]
    simp only [writes, Writes.over, hv, hw, Iss.pWrites]
  have hclean (h : PHalf) : clean h ↔ c.pClean h := by
    simp only [clean, hm, hvalue, Iss.pClean]
    by_cases hk : POp.kind h.op = .vector
    · simp only [hk, if_true, Option.some.injEq, true_imp_iff]
      exact ⟨fun hz L hL ha => hz L _ hL ha rfl, fun hz L _ hL ha hv => hv ▸ hz L hL ha⟩
    · simp [hk]
  have hat (h : PHalf) : at_ h = c.pAddrs h := by simp only [at_, hm]; rfl
  have hcode (h : PHalf) : code h = halfWidth h := (halfWidth_eq h).symm
  have hsize (h : PHalf) : size h = widthBytes (halfWidth h) := (widthBytes_halfWidth h).symm
  have hfits (h : PHalf) (hf : fits h) : checkSp ((s.begun gr i).team c.g.team).scratchSize (widthBytes (halfWidth h)) (c.pAddrs h) = none := by
    rw [State.begun, State.begin_team, ← hsize, ← hat]
    exact checkSp_eq_none hf
  have hbytes (h : PHalf) : bytes h = storeBytes (widthBytes (halfWidth h)) (fun _ L => c.g.rv h.f.d.toNat L) (c.pAddrs h) := by
    rw [storeBytes_word (halfWidth_one_word h) (fun L => c.g.rv h.f.d.toNat L), ← hsize, ← hat]
    rfl
  have hcells (h : PHalf) : cells h = (s.begun gr i).loadCells c h.f.d.toNat (halfWidth h) (c.pAddrs h) := by
    simp only [cells, hat, hcode, hsize, State.loadCells, State.begun, State.begin_scratchNum]
  have hempty (h : PHalf) : m h = 0 ↔ c.pAddrs h = [] := by rw [hm, Iss.pAddrs_eq_nil]
  rw [hwrites]
  refine ⟨fun hr hx hy cx cy => ?_, fun hr hx hy hn => ?_, fun a b hab hr ho hb hc hf hp => ?_, fun a b hab hr ho hb hc hf h0 => ?_, fun a b hab hr ho hb hc hf h0 => ?_⟩
  · exact pair_completes hr ⟨.inl ⟨rfl, rfl⟩, hy, (hclean y).1 cy⟩ hx.1 ((Iss.pFault_eq_none_of_still hx).2 ((hclean x).1 cx)) (State.pAccess_of_still hx _)
  · rw [hclean, hclean] at hn
    exact pair_traps hr hx hy hn
  · rw [hat, hsize] at hp
    rw [hcells, if_congr (hempty a) rfl rfl]
    exact pair_load hr ⟨hab, hb, (hclean b).1 hc⟩ ho (Iss.pFault_of_lds ho (hfits a hf) hp)
  · exact pair_completes hr ⟨hab, hb, (hclean b).1 hc⟩ (by rw [ho]; decide) ((Iss.pFault_of_sts ho).trans (hfits a hf))
      ((State.pAccess_of_sts ho _).trans (if_pos ((hempty a).1 h0)))
  · exact pair_store hr ⟨hab, hb, (hclean b).1 hc⟩ ho ((Iss.pFault_of_sts ho).trans (hfits a hf)) (mt (hempty a).2 h0) (hbytes a)

end Sys2Proof.Machine
end

section
/-! SUPPORT. The start of a team (02 R39, R40, R43; 15 R286 to R289): the task unit serves a record of its context, the free slots of a
core and the next of them, what the taking of places leaves alone, and a group as its launch gives it; then the statement about
it, and that about the reset state. -/

namespace Sys2Proof.Machine

/-! ### The reset state -/

/-- Without a valid delegation entry no chain reaches a root (17 R329). -/
theorem effective_nil (fuel i : Nat) : effective [] fuel i = none := by cases fuel <;> rfl

/-- Settles O55: every unit that reset does not list reads as its reset value. -/
theorem resetState : Obligations.ResetState :=
  have hubTables (k : Nat) := ⟨rfl, rfl, rfl, rfl, effective_nil 256 k⟩
  have dies (_ : Nat) := ⟨rfl, rfl, rfl, rfl, rfl, rfl, rfl, rfl⟩
  have clusters (_ : Nat) := ⟨rfl, rfl, rfl, rfl⟩
  have contexts (_ : Nat) := ⟨rfl, rfl, rfl, rfl⟩
  ⟨rfl, rfl, rfl, rfl, rfl, rfl, rfl, rfl, rfl, rfl, hubTables, rfl, rfl, dies, clusters, contexts⟩

/-! ### The record served (15 R284, R286) -/

/-- The record served first of a list is one of the list. -/
theorem firstServed_mem {l : List (Nat × Grid)} {x : Nat × Grid} (h : firstServed l = some x) : x ∈ l := by
  cases l with
  | nil => cases h
  | cons y l =>
    obtain rfl := Option.some.inj h
    clear h
    induction l generalizing y with
    | nil => simp
    | cons z l ih =>
      rw [List.foldl_cons]
      split
      · exact List.mem_cons_of_mem _ (ih z)
      · exact (List.cons_subset_cons y (List.subset_cons_self z l)) (ih y)

/-- A task unit serves records of the context it serves for. -/
theorem State.serving_ctx {s : State} {ctx die : Nat} {x : Nat × Grid} (h : s.serving ctx die = some x) : x.2.ctx = ctx := by
  have hx : x ∈ s.readyGrids ctx die := List.mem_of_mem_filter (firstServed_mem h)
  obtain ⟨y, hy, rfl⟩ := List.mem_map.1 hx
  obtain ⟨-, hkept⟩ := List.mem_filter.1 hy
  simp only [Bool.and_eq_true, beq_iff_eq] at hkept
  obtain ⟨⟨⟨hctx, -⟩, -⟩, -⟩ := hkept
  exact hctx

/-! ### The end of a pre-emption (16 R302) -/

/-- A team of a context whose pre-emption has ended is no longer passing. -/
def endPassing (ctx : Nat) (t : Nat × Team) : Nat × Team := if t.2.ctx = ctx then (t.1, { t.2 with passing := false }) else t

/-- The end of a pre-emption, where the context itself is not pre-empted. -/
def State.passed (s : State) (ctx : Nat) : State := { s with teams := s.teams.map (endPassing ctx) }

/-- With no team leaving there is nothing to save. -/
theorem State.savePass_of_none_leaving {s : State} {ctx : Nat} (hl : s.leavingTeams ctx = []) (hh : (s.context ctx).hb.halt = false) (hp : (s.context ctx).hb.preempt = false) :
    s.savePass ctx = s.passed ctx := by
  unfold State.savePass State.endPass
  simp only [hh, hl, Bool.false_eq_true, if_false, List.foldl_nil, ne_eq, not_true_eq_false]
  exact if_pos (by simpa [State.context] using hp)

section
variable (ctx : Nat) (t : Nat × Team)
theorem endPassing_id : (endPassing ctx t).1 = t.1 := by unfold endPassing; split <;> rfl
theorem endPassing_eq : (endPassing ctx t).2 = { t.2 with passing := (endPassing ctx t).2.passing } := by unfold endPassing; split <;> rfl
theorem endPassing_ctx : (endPassing ctx t).2.ctx = t.2.ctx := by rw [endPassing_eq]
theorem endPassing_core : (endPassing ctx t).2.core = t.2.core := by rw [endPassing_eq]
theorem endPassing_grid : (endPassing ctx t).2.grid = t.2.grid := by rw [endPassing_eq]
theorem endPassing_saved : (endPassing ctx t).2.saved = t.2.saved := by rw [endPassing_eq]
theorem endPassing_palCap : (endPassing ctx t).2.palCap = t.2.palCap := by rw [endPassing_eq]
end

theorem State.usedOn_passed (s : State) (ctx core : Nat) : (s.passed ctx).usedOn core [] = s.usedOn core [] := by
  simp only [State.usedOn, State.passed, List.filter_map, List.map_map, Function.comp_def, endPassing_id, endPassing_core, endPassing_saved, endPassing_palCap]
  rfl

theorem State.resumesFirst_passed (s : State) (ctx c eff : Nat) : (s.passed ctx).resumesFirst c eff = s.resumesFirst c eff := by
  simp only [State.resumesFirst, State.passed, List.any_map, Function.comp_def, endPassing_ctx, endPassing_grid, endPassing_saved]
  rfl

theorem State.teamCore_passed (s : State) (ctx grid : Nat) : (s.passed ctx).teamCore grid = s.teamCore grid := by
  have hlacks (core : Nat) (needs : List Nat) : (s.passed ctx).lacks core needs [] = s.lacks core needs [] := by
    simp only [State.lacks, State.usedOn_passed]
  simp only [State.teamCore, State.coreFor, hlacks]
  rfl

/-- TEAM_PLACE with nothing to save (R286 to R289): the next team of the record served starts on the core of its place. -/
theorem execTeamPlace_starts {s : State} {ctx die grid core : Nat} {g : Grid} (hl : s.leavingTeams ctx = []) (hh : (s.context ctx).hb.halt = false) (hp : (s.context ctx).hb.preempt = false)
    (he : (s.context ctx).sliceEnded = false) (hs : s.serving ctx die = some (grid, g)) (hr : s.resumesFirst ctx g.eff = false) (hc : s.teamCore grid = some core) :
    execTeamPlace ctx die s = .next ((s.passed ctx).startTeam grid core) := by
  have hcontext : (s.passed ctx).context ctx = s.context ctx := rfl
  have hserving : (s.passed ctx).serving ctx die = some (grid, g) := hs
  simp only [execTeamPlace, State.savePass_of_none_leaving hl hh hp, hcontext, hh, hp, he, hserving, State.resumesFirst_passed, hr, State.teamCore_passed, hc, Bool.or_self, Bool.false_eq_true, if_false]

/-! ### What the taking of places leaves alone -/

/-- `t` holds the memory, the groups, the teams and the grids of `s`. -/
structure State.SameWork (s t : State) : Prop where
  mem : t.mem = s.mem
  groups : t.groups = s.groups
  teams : t.teams = s.teams
  grids : t.grids = s.grids

namespace State.SameWork

theorem refl (s : State) : s.SameWork s := ⟨rfl, rfl, rfl, rfl⟩

theorem trans {s t u : State} (h : s.SameWork t) (k : t.SameWork u) : s.SameWork u :=
  ⟨k.mem.trans h.mem, k.groups.trans h.groups, k.teams.trans h.teams, k.grids.trans h.grids⟩

theorem ite {s t u : State} {p : Prop} [Decidable p] (ht : s.SameWork t) (hu : s.SameWork u) : s.SameWork (if p then t else u) := by split <;> assumption

theorem foldl {α : Type} {f : State → α → State} (h : ∀ (s : State) (a : α), s.SameWork (f s a)) (l : List α) (s : State) : s.SameWork (l.foldl f s) := by
  induction l generalizing s with
  | nil => exact refl s
  | cons a l ih => exact (h s a).trans (ih _)

theorem of_book {s t : State} (h : Book s t) : s.SameWork t := by
  constructor <;> rw [h.rest]

theorem group {s t : State} (h : s.SameWork t) (k : Nat) : t.group k = s.group k := by unfold State.group; rw [h.groups]
theorem resident {s t : State} (h : s.SameWork t) (k : Nat) : t.resident k = s.resident k := by unfold State.resident; rw [h.groups]
theorem grid {s t : State} (h : s.SameWork t) (k : Nat) : t.grid k = s.grid k := by unfold State.grid; rw [h.grids]

variable (s : State)

theorem modContext (k : Nat) (f : Context → Context) : s.SameWork (s.modContext k f) := ⟨rfl, rfl, rfl, rfl⟩

theorem choose (n : Nat) : s.SameWork (s.choose n).2 := by
  unfold State.choose
  split
  · exact refl s
  · exact ⟨rfl, rfl, rfl, rfl⟩

theorem logLasting (ctx die tenant core : Nat) (f : Flt) : s.SameWork (s.logLasting ctx die tenant core f) := .ite ⟨rfl, rfl, rfl, rfl⟩ (refl s)

/-- A fault of no group stops none. -/
theorem raise_die (ctx : Nat) (f : Flt) (die : Nat) : s.SameWork (s.raise ctx f { die := die }) := ⟨rfl, rfl, rfl, rfl⟩

theorem readDirty (core tenant line : Nat) (l : L1Line) : s.SameWork (s.readDirty core tenant line l).2 := by
  unfold State.readDirty
  split
  · exact refl s
  · refine State.SameWork.trans ?_ (of_book (.readWords ..))
    split
    · exact (logLasting ..).trans (raise_die ..)
    · exact refl s

theorem sendDirty (core tenant line : Nat) (l : L1Line) : s.SameWork (s.sendDirty core tenant line l).2 := by
  unfold State.sendDirty
  dsimp only
  split
  · exact readDirty ..
  · exact (readDirty ..).trans ⟨rfl, rfl, rfl, rfl⟩

theorem evictL1 (core tenant line : Nat) (l : L1Line) : s.SameWork (s.evictL1 core tenant line l) := (sendDirty ..).trans ⟨rfl, rfl, rfl, rfl⟩

theorem roomL1 (core : Nat) : s.SameWork (s.roomL1 core) := by
  unfold State.roomL1
  dsimp only
  split
  · exact refl s
  · split
    · exact (choose ..).trans (evictL1 ..)
    · exact choose ..

theorem shrinkL1 (core fuel : Nat) : s.SameWork (s.shrinkL1 core fuel) := by
  induction fuel generalizing s with
  | zero => exact refl s
  | succ n ih => exact .ite (refl s) ((roomL1 s core).trans (ih _))

theorem takeScratch (core n : Nat) : s.SameWork (s.takeScratch core n).2 := State.SameWork.trans (t := s.modCore core _) ⟨rfl, rfl, rfl, rfl⟩ (shrinkL1 ..)

theorem grantedPoint (cl : Nat) : s.SameWork (s.grantedPoint cl).2 := by
  unfold State.grantedPoint
  split
  · exact refl s
  · dsimp only
    split
    · exact refl s
    · exact choose ..

theorem retarget (cl : Nat) : s.SameWork (s.retarget cl) := by
  unfold State.retarget
  dsimp only
  refine .ite (refl s) ((grantedPoint s cl).trans (.ite ⟨rfl, rfl, rfl, rfl⟩ ⟨rfl, rfl, rfl, rfl⟩))

theorem retargetDie (die : Nat) : s.SameWork (s.retargetDie die) := foldl (fun s _ => retarget s _) _ _

end State.SameWork

/-! ### Free slots of a core (02 R40) -/

/-- The slots of a core that hold no group. -/
def State.freeSlots (s : State) (core : Nat) : List Nat := (List.range 64).filter (fun k => !s.resident (64 * core + k))

theorem State.mem_freeSlots {s : State} {core k : Nat} : k ∈ s.freeSlots core ↔ k < 64 ∧ s.resident (64 * core + k) = false := by
  simp [State.freeSlots]

theorem State.SameWork.freeSlots {s t : State} (h : s.SameWork t) (core : Nat) : t.freeSlots core = s.freeSlots core := by
  simp only [State.freeSlots, h.resident]

/-- The first quadrant with the most of something has at least what each of them has. -/
theorem quadrant_most (f : Nat → Nat) :
    let q := [1, 2, 3].foldl (fun b q => if f b < f q then q else b) 0
    q < 4 ∧ ∀ r < 4, f r ≤ f q := by
  have most : ∀ r < 4, r = 0 ∨ r = 1 ∨ r = 2 ∨ r = 3 := by omega
  simp only [List.foldl_cons, List.foldl_nil]
  refine ⟨by grind, fun r hr => ?_⟩
  rcases most r hr with rfl | rfl | rfl | rfl <;> grind

/-- Where a slot of the core is free, the next slot is one that is. -/
theorem State.nextSlot_free {s : State} {core : Nat} (h : s.freeSlots core ≠ []) : ∃ k ∈ s.freeSlots core, s.nextSlot core = 64 * core + k := by
  obtain ⟨k, hk⟩ := List.exists_mem_of_ne_nil _ h
  obtain ⟨hk64, hfree⟩ := State.mem_freeSlots.1 hk
  unfold State.nextSlot
  extract_lets free q
  have hmem (r gid : Nat) : gid ∈ free r ↔ ∃ j < 16, 64 * core + 16 * r + j = gid ∧ s.resident gid = false := by
    simp only [free, List.mem_filter, List.mem_map, List.mem_range, Bool.not_eq_true', ← exists_and_right, and_assoc]
  obtain ⟨hq4, hmost⟩ := quadrant_most (fun r => (free r).length)
  have hin : 64 * core + k ∈ free (k / 16) := (hmem _ _).2 ⟨k % 16, by omega, by omega, hfree⟩
  have hne : free q ≠ [] := by
    have hpos := List.length_pos_of_mem hin
    have hle : (free (k / 16)).length ≤ (free q).length := hmost _ (by omega)
    exact List.ne_nil_of_length_pos (by omega)
  obtain ⟨j, hj, hgid, hfr⟩ := (hmem q _).1 (List.head_mem hne)
  refine ⟨16 * q + j, State.mem_freeSlots.2 ⟨by omega, ?_⟩, ?_⟩
  · rw [← hfr, ← hgid, Nat.add_assoc]
  · rw [List.headD_eq_head?_getD, List.head?_eq_some_head hne, Option.getD_some, ← hgid, Nat.add_assoc]

/-- A slot of the core that is taken is one free slot less. -/
theorem State.length_freeSlots_setGroup (s : State) (core k : Nat) (g : Group) (hk : k ∈ s.freeSlots core) :
    ((s.setGroup (64 * core + k) g).freeSlots core).length + 1 = (s.freeSlots core).length := by
  have h : (s.setGroup (64 * core + k) g).freeSlots core = (s.freeSlots core).erase k := by
    have hnodup : (s.freeSlots core).Nodup := List.nodup_range.filter _
    rw [hnodup.erase_eq_filter, State.freeSlots, State.freeSlots, List.filter_filter]
    refine List.filter_congr fun j _ => ?_
    by_cases hj : j = k
    · subst hj; simp
    · simp [hj, State.resident, State.setGroup, tfind_tput_ne (show 64 * core + j ≠ 64 * core + k by omega)]
  rw [h, List.length_erase_of_mem hk]
  have := List.length_pos_of_mem hk
  omega

/-! ### Seating the groups of a team (02 R40) -/

/-- `y` is the group `x` in its place: with a number and granules of its own. -/
def Group.InPlace (x y : Group) : Prop := ∃ n v t a, y = { x with serial := n, vmap := v, tmap := t, amap := a }

/-- A place gives a group no register. -/
theorem Group.InPlace.rs {x y : Group} (h : x.InPlace y) (r : Nat) : y.rs r = x.rs r := by
  obtain ⟨n, v, t, a, rfl⟩ := h
  rfl

/-- Seating takes granules of the core and lists the group. -/
theorem State.seat_eq (s : State) (gid : Nat) (g : Group) : ∃ u v t a, s.SameWork u ∧ s.seat gid g = u.setGroup gid { g with vmap := v, tmap := t, amap := a } := by
  refine ⟨_, _, _, _, ?_, rfl⟩
  exact ⟨rfl, rfl, rfl, rfl⟩

/-- The next group of a team without per-thread memory takes its place: the slots taken so far, and the state. -/
def State.seatNext (core : Nat) (x : Nat → Group) (a : List (Option Nat) × State) (i : Nat) : List (Option Nat) × State :=
  (a.1 ++ [some (a.2.nextSlot core)], a.2.fresh.2.seat (a.2.nextSlot core) { x i with serial := a.2.nextId })

/-- The next group is listed at a slot that was free. -/
theorem State.seatNext_eq {a : List (Option Nat) × State} {core : Nat} (x : Nat → Group) (i : Nat) (h : a.2.freeSlots core ≠ []) :
    ∃ k ∈ a.2.freeSlots core, ∃ u y, a.2.SameWork u ∧ (x i).InPlace y ∧ State.seatNext core x a i = (a.1 ++ [some (64 * core + k)], u.setGroup (64 * core + k) y) := by
  obtain ⟨k, hk, hslot⟩ := State.nextSlot_free h
  obtain ⟨u, v, t, m, hu, hseat⟩ := a.2.fresh.2.seat_eq (64 * core + k) { x i with serial := a.2.nextId }
  have hfresh : a.2.SameWork a.2.fresh.2 := ⟨rfl, rfl, rfl, rfl⟩
  exact ⟨k, hk, u, _, hfresh.trans hu, ⟨_, v, t, m, rfl⟩, by rw [State.seatNext, hslot, hseat]⟩

/-- The first `n` groups `x` of a team are in their places, on slots of the core that were free in `s`: each took one free slot, and
memory, grids and the groups that were there have stayed. -/
structure State.Seated (s : State) (core : Nat) (x : Nat → Group) (n : Nat) (a : List (Option Nat) × State) : Prop where
  length : a.1.length = n
  mem : a.2.mem = s.mem
  grids : a.2.grids = s.grids
  free : (a.2.freeSlots core).length + n = (s.freeSlots core).length
  kept : ∀ k, a.2.resident k = false → s.resident k = false
  places : ∀ i o, a.1[i]? = some o → ∃ gid, o = some gid ∧ gid / 64 = core ∧ s.resident gid = false ∧ a.2.resident gid = true ∧ (x i).InPlace (a.2.group gid)

theorem State.resident_setGroup_ne (s : State) {k j : Nat} (g : Group) (h : j ≠ k) : (s.setGroup k g).resident j = s.resident j := by
  simp [State.resident, State.setGroup, tfind_tput_ne h]

/-- A further group keeps the others in their places. -/
theorem State.Seated.next {s : State} {core n : Nat} {x : Nat → Group} {a : List (Option Nat) × State} (h : s.Seated core x n a) (hn : n < (s.freeSlots core).length) :
    s.Seated core x (n + 1) (State.seatNext core x a n) := by
  have hsome : a.2.freeSlots core ≠ [] := List.ne_nil_of_length_pos (by have := h.free; omega)
  obtain ⟨k, hk, u, y, hu, hy, heq⟩ := State.seatNext_eq x n hsome
  have hlisted (j : Nat) (hj : j ≠ 64 * core + k) : (u.setGroup (64 * core + k) y).resident j = a.2.resident j := by
    rw [State.resident_setGroup_ne _ _ hj, hu.resident]
  obtain ⟨hk64, hfree⟩ := State.mem_freeSlots.1 hk
  rw [heq]
  refine ⟨by simp [h.length], hu.mem.trans h.mem, hu.grids.trans h.grids, ?_, fun j hj => ?_, fun i o ho => ?_⟩
  · have := State.length_freeSlots_setGroup u core k y (by rwa [hu.freeSlots])
    rw [hu.freeSlots] at this
    have := h.free
    dsimp only
    omega
  · by_cases hjk : j = 64 * core + k
    · subst hjk; simp at hj
    · exact h.kept j (by rw [← hlisted j hjk]; exact hj)
  · rcases Nat.lt_or_ge i a.1.length with hi | hi
    · rw [List.getElem?_append_left hi] at ho
      obtain ⟨gid, hgid, hcore, hwas, his, hplace⟩ := h.places i o ho
      have hne : gid ≠ 64 * core + k := fun e => by rw [e, hfree] at his; cases his
      refine ⟨gid, hgid, hcore, hwas, (hlisted gid hne).trans his, ?_⟩
      dsimp only
      rwa [State.group_setGroup_ne _ _ _ _ hne, hu.group]
    · rw [List.getElem?_append_right hi, List.getElem?_singleton] at ho
      obtain ⟨hlast, ho⟩ := Option.ite_none_right_eq_some.1 ho
      obtain rfl : i = n := by have := h.length; omega
      exact ⟨64 * core + k, (Option.some.inj ho).symm, by omega, h.kept _ hfree, State.resident_setGroup_self .., by simpa using hy⟩

/-- As many groups as the core has free slots take their places. -/
theorem State.seated (s : State) (core : Nat) (x : Nat → Group) (n : Nat) (hn : n ≤ (s.freeSlots core).length) :
    s.Seated core x n ((List.range n).foldl (State.seatNext core x) ([], s)) := by
  induction n with
  | zero => exact ⟨rfl, rfl, rfl, rfl, fun _ h => h, fun _ _ h => by simp at h⟩
  | succ n ih =>
    rw [List.range_succ, List.foldl_append]
    exact (ih (by omega)).next hn

/-! ### A group as its launch gives it (02 R43) -/

theorem Launch.rs_group (l : Launch) (g : Grid) (c : Context) (team i : Nat) (area : Option Nat) (r : Nat) :
    (l.group g c team i area).rs r = match r with
      | 0 => l.mask | 2 => loWord l.arg | 3 => hiWord l.arg | 4 => BitVec.ofNat 32 i | 5 => BitVec.ofNat 32 g.nextTeam | 6 => BitVec.ofNat 32 l.teams
      | 7 => BitVec.ofNat 32 (if l.pgrp = 0 then 0 else if i < l.pgrp then 1 else 2) | _ => 0 := by
  have h : (l.group g c team i area).rs r = ((((((({} : Group).ws 0 l.mask).wpair 2 l.arg).ws 4 (BitVec.ofNat 32 i)).ws 5 (BitVec.ofNat 32 g.nextTeam)).ws 6 (BitVec.ofNat 32 l.teams)).ws 7
      (BitVec.ofNat 32 (if l.pgrp = 0 then 0 else if i < l.pgrp then 1 else 2))).rs r := rfl
  rw [h]
  simp only [Group.rs_ws, Group.rs_wpair]
  match r with
  | 0 | 1 | 2 | 3 | 4 | 5 | 6 | 7 => rfl
  | r + 8 => rfl

/-! ### Starting a team (02 R39, R43) -/

/-- `m` is the next team of the record `g`, the grid numbered `grid`, as it starts on a core with groups at some slots, not held for its clocks. -/
structure Team.StartsOf (m : Team) (grid : Nat) (g : Grid) (core : Nat) (gids : List (Option Nat)) : Prop where
  ctx : m.ctx = g.ctx
  grid : m.grid = grid
  core : m.core = core
  index : m.index = g.nextTeam
  scratch : m.scratchSize = 8192 * g.launch.scr
  pal : m.palCap = g.launch.pal
  clock : m.heldClock = false
  gids : m.gids = gids

/-- The groups that the launch of a record gives its next team, numbered `id`. -/
def State.nextGroups (s : State) (g : Grid) (id i : Nat) : Group := g.launch.group g (s.context g.ctx) id i none

/-- The next team of a record without dependence, hint and per-thread memory starts: once its groups are in their places it is listed and
the record counts it, and the clocks that follow change nothing of that. -/
theorem State.startTeam_spec {s : State} {grid : Nat} {g : Grid} (core : Nat) (hg : s.grid grid = g) (hptm : g.launch.ptm = 0) (hhint : g.launch.hint = 0) (hdep : g.launch.dep = false) (hfired : g.fired = false) :
    let a := (List.range g.launch.grp).foldl (State.seatNext core (s.nextGroups g s.nextId)) ([], (s.fresh.2.takeScratch core g.launch.scr).2)
    ∃ (m : Team) (f : Grid → Grid), m.StartsOf grid g core a.1 ∧ (∀ x, (f x).nextTeam = x.nextTeam + 1) ∧
      (({ a.2 with teams := tput s.nextId m a.2.teams } : State).modGrid grid f).SameWork (s.startTeam grid core) := by
  intro a
  subst hg
  unfold State.startTeam
  simp only [hptm, hhint, hdep, hfired, Nat.zero_min, if_true, Bool.or_self, Bool.false_eq_true, if_false, ne_eq, not_true_eq_false, decide_false, Bool.false_and]
  refine ⟨_, _, ?starts, ?counts, State.SameWork.trans (.modContext _ (s.grid grid).ctx _) (.retargetDie _ _)⟩
  case starts => exact ⟨rfl, rfl, rfl, rfl, rfl, rfl, rfl, rfl⟩
  case counts => exact fun _ => rfl

/-- Settles O40: nothing is saved, the record served has a core, its groups take free slots there, and the team is listed. -/
theorem teamStarts : Obligations.TeamStarts := by
  intro s ctx die grid core g c l role pick free hl hh hp he hs hg hr hc hdep hfired hhint hptm hgrp
  have hctx : g.ctx = ctx := State.serving_ctx hs
  let p := s.passed ctx
  have hgrid : p.grid grid = g := by rw [State.grid, tget_eq_tfind]; exact congrArg (·.getD {}) hg
  obtain ⟨m, f, hm, hf, hsame⟩ := State.startTeam_spec core hgrid hptm hhint hdep hfired
  let u := (p.fresh.2.takeScratch core l.scr).2
  have hu : p.SameWork u := State.SameWork.trans (t := p.fresh.2) ⟨rfl, rfl, rfl, rfl⟩ (.takeScratch ..)
  have hfree : u.freeSlots core = free := hu.freeSlots core
  have hseated := u.seated core (p.nextGroups g p.nextId) l.grp (by rw [hfree]; exact hgrp)
  refine ⟨p.startTeam grid core, m, ?_, ?_, hm.ctx.trans hctx, hm.grid, hm.core, hm.index, hm.scratch, hm.pal, hm.clock, ?_, ?_, ?_, fun i x hx => ?_⟩
  · exact execTeamPlace_starts hl hh hp he hs hr hc
  · rw [hsame.teams]; exact tfind_tput_self ..
  · rw [hm.gids]; exact hseated.length
  · rw [hsame.grid, State.grid_modGrid_self, hf, State.grid, hseated.grids, hu.grids]
    exact congrArg (·.nextTeam + 1) hgrid
  · exact hsame.mem.trans (hseated.mem.trans hu.mem)
  · obtain ⟨gid, hgid, hcore, hwas, -, hplace⟩ := hseated.places i x (hm.gids ▸ hx)
    have hnext : p.nextGroups g p.nextId i = l.group g (s.context g.ctx) s.nextId i none := rfl
    rw [hnext] at hplace
    have hrs := fun r => (hplace.rs r).trans (l.rs_group ..)
    obtain ⟨n, v, t, a, hy⟩ := hplace
    have hgroup : (p.startTeam grid core).group gid = _ := (hsame.group gid).trans hy
    rw [hy] at hrs
    refine ⟨gid, hgid, hcore, (hu.resident gid).symm.trans hwas, ?_⟩
    rw [hgroup]
    subst hctx
    exact ⟨rfl, rfl, rfl, rfl, rfl, rfl, rfl, rfl, rfl, rfl, rfl, rfl, rfl, rfl, hrs, fun _ _ => rfl, fun _ => rfl⟩

end Sys2Proof.Machine
end

-- ==== Memory keeps its canonical form (O57, O56) ====
section
/-! SUPPORT. What leaves machine memory alone: of every operation of the model that writes no byte of it, the equation
that says so, in the order of the model's files. `simp` then carries `mem` through any chain of them. -/

namespace Sys2Proof.Machine

@[simp] theorem State.mem_ite (p : Prop) [Decidable p] (s t : State) : (if p then s else t).mem = if p then s.mem else t.mem := apply_ite ..

@[simp] theorem State.mem_foldl {α : Type} {f : State → α → State} (h : ∀ (s : State) (a : α), (f s a).mem = s.mem) (l : List α) (s : State) : (l.foldl f s).mem = s.mem :=
  foldl_mem f h l s

theorem State.mem_ite_modHub (p : Prop) [Decidable p] (s : State) (f : Hub → Hub) : (if p then s.modHub f else s).mem = s.mem := by split <;> rfl

/-! #### Ops -/

@[simp] theorem State.choose_mem (s : State) (n : Nat) : (s.choose n).2.mem = s.mem := by unfold State.choose; split <;> simp
@[simp] theorem State.freeBits_mem (s : State) (w : Nat) : (s.freeBits w).2.mem = s.mem := rfl
@[simp] theorem State.fresh_mem (s : State) : s.fresh.2.mem = s.mem := rfl
@[simp] theorem State.mendScratch_mem (s : State) (team : Nat) (as : List Nat) : (s.mendScratch team as).mem = s.mem := by simp [State.mendScratch]
@[simp] theorem State.writeScratch_mem (s : State) (team : Nat) (bs : List (Nat × Byte)) : (s.writeScratch team bs).mem = s.mem := by simp [State.writeScratch]
@[simp] theorem State.interrupt_mem (s : State) (row : Nat) (l : Nat) (who : Nat) (detail : BitVec 96) : (s.interrupt row l who detail).mem = s.mem := rfl
@[simp] theorem State.logDie_mem (s : State) (d : Nat) (lasting : Bool) (info : Nat) (ctx : Nat) (addr : Nat) : (s.logDie d lasting info ctx addr).mem = s.mem := rfl
@[simp] theorem State.logLasting_mem (s : State) (ctx : Nat) (die : Nat) (tenant : Nat) (core : Nat) (f : Flt) : (s.logLasting ctx die tenant core f).mem = s.mem := by simp [State.logLasting]
@[simp] theorem State.readWords_mem (s : State) (core ctx unit : Nat) (ws : List (FileWord × Nat)) : (s.readWords core ctx unit ws).mem = s.mem := by
  rw [(Book.readWords s core ctx unit ws).rest]
@[simp] theorem State.spRead_mem (s : State) (team : Nat) (as : List Nat) : (s.spRead team as).mem = s.mem := by simp [State.spRead]
@[simp] theorem State.logHub_mem (s : State) (lasting : Bool) (info : Nat) (ctx : Nat) (addr : Nat) : (s.logHub lasting info ctx addr).mem = s.mem := rfl
@[simp] theorem State.countCore_mem (s : State) (core : Nat) (ctx : Nat) (src : Nat) (n : Nat) : (s.countCore core ctx src n).mem = s.mem := by unfold State.countCore; split <;> simp
@[simp] theorem State.countDie_mem (s : State) (d : Nat) (ctx : Nat) (src : Nat) (n : Nat) : (s.countDie d ctx src n).mem = s.mem := by unfold State.countDie; split <;> simp
@[simp] theorem State.modMeet_mem (s : State) (key : Nat) (f : Meet → Meet) : (s.modMeet key f).mem = s.mem := rfl
@[simp] theorem State.meetArrive_mem (s : State) (key : Nat) (cluster : Nat) : (s.meetArrive key cluster).mem = s.mem := rfl
@[simp] theorem State.meetDone_mem (s : State) (key : Nat) : (s.meetDone key).mem = s.mem := rfl
@[simp] theorem State.stopNow_mem (s : State) (ctx : Nat) (gid : Nat) : (s.stopNow ctx gid).mem = s.mem := by simp [State.stopNow]
@[simp] theorem State.endSkids_mem (s : State) (cl : Nat) : (s.endSkids cl).mem = s.mem := by simp [State.endSkids]
@[simp] theorem State.takeTrap_mem (s : State) (gid : Nat) (slotB : Bool) (pc : DWord) (f : Flt) : (s.takeTrap gid slotB pc f).mem = s.mem := State.raise_mem ..
@[simp] theorem State.endHalt_mem (s : State) (ctx : Nat) : (s.endHalt ctx).mem = s.mem := rfl

/-! #### Translate -/

@[simp] theorem State.logMem_mem (s : State) (ctx : Nat) (slice : Nat) (unit : Nat) (sector : Nat) (lasting : Bool) : (s.logMem ctx slice unit sector lasting).mem = s.mem := rfl
@[simp] theorem State.logRead_mem (s : State) (ctx : Nat) (slice : Nat) (f : Flt) : (s.logRead ctx slice f).mem = s.mem := by simp [State.logRead]
@[simp] theorem State.memRetried_mem (s : State) (walker : Bool) (ctx : Nat) (slice : Nat) (sectors : List Nat) : (s.memRetried walker ctx slice sectors).mem = s.mem := by simp [State.memRetried]
@[simp] theorem State.accessAt_mem (s : State) (ma : Nat) (page : Option (Nat × Nat)) : (s.accessAt ma page).mem = s.mem := by simp [State.accessAt]
@[simp] theorem State.accessLine_mem (s : State) (l : L2Line) : (s.accessLine l).mem = s.mem := by simp [State.accessLine]
@[simp] theorem State.walkAccesses_mem (s : State) (ctx : Nat) (slice : Nat) (va : Nat) (as : List Nat) : (s.walkAccesses ctx slice va as).mem = s.mem := by simp [State.walkAccesses]
@[simp] theorem State.walkDone_mem (s : State) (ctx : Nat) (slice : Nat) (va : Nat) (local_ : Bool) (n : Need) (acc : Acc) : (s.walkDone ctx slice va local_ n acc).mem = s.mem := by
  unfold State.walkDone
  dsimp only
  repeat' split
  all_goals simp
@[simp] theorem State.raiseWriteback_mem (s : State) (tenant part slice line : Nat) (f : Flt) : (s.raiseWriteback tenant part slice line f).mem = s.mem :=
  foldl_mem _ (fun s _ => s.raiseEngine_mem ..) _ _
@[simp] theorem State.missed_mem (s : State) (ctx : Nat) (slice : Nat) (va : Nat) (local_ : Bool) (n : Need) (acc : Acc) : (s.missed ctx slice va local_ n acc).mem = s.mem := by simp [State.missed]
@[simp] theorem State.peekedLine_mem (s : State) (src : Option Nat) (ctx : Nat) (nd : Need) (acc : Acc) (va : Nat) (n : Nat) : (s.peekedLine src ctx nd acc va n).mem = s.mem := by
  unfold State.peekedLine
  dsimp only
  repeat' split
  all_goals simp
@[simp] theorem State.peekedRuns_mem (s : State) (src : Option Nat) (ctx : Nat) (nd : Need) (acc : Acc) (l : List (Nat × Nat)) : (State.peekedRuns src ctx nd acc l s).mem = s.mem := by
  induction l generalizing s with
  | nil => rfl
  | cons r l ih => unfold State.peekedRuns; split <;> simp [ih]
@[simp] theorem State.logPeek_mem (s : State) (ctx : Nat) (nd : Need) (acc : Acc) (va : Nat) (n : Nat) (src : Option Nat) : (s.logPeek ctx nd acc va n src).mem = s.mem := by unfold State.logPeek; split <;> simp
@[simp] theorem State.slicePeeked_mem (s : State) (ctx : Nat) (nd : Need) (acc : Acc) (va n : Nat) (src : Option Nat) : (s.slicePeeked ctx nd acc va n src).mem = s.mem :=
  (State.peekedRuns_mem ..).trans (State.logPeek_mem ..)
@[simp] theorem State.peekRun_mem (s : State) (ctx : Nat) (nd : Need) (acc : Acc) (va : Nat) (n : Nat) (src : Option Nat) : (s.peekRun ctx nd acc va n src).2.mem = s.mem := by simp [State.peekRun]
@[simp] theorem State.pokeMet_mem (s : State) (ctx : Nat) (line : Nat) (bs : Table Byte) (n : Need) (acc : Acc) (f : Flt) : (s.pokeMet ctx line bs n acc f).mem = s.mem := by simp [State.pokeMet]
@[simp] theorem State.hintLine_mem (s : State) (ctx : Nat) (line : Nat) (hint : Nat) : (s.hintLine ctx line hint).mem = s.mem := by
  unfold State.hintLine
  dsimp only
  repeat' split
  all_goals simp
@[simp] theorem State.readRun_mem (s : State) (ctx : Nat) (va : Nat) (n : Nat) (acc : Acc) (src : Option Nat) : (s.readRun ctx va n acc src).2.mem = s.mem := by simp [State.readRun]

/-! #### Path -/

@[simp] theorem State.readDirty_mem (s : State) (core tenant line : Nat) (l : L1Line) : (s.readDirty core tenant line l).2.mem = s.mem := (SameWork.readDirty ..).mem
@[simp] theorem State.sendDirty_mem (s : State) (core : Nat) (tenant : Nat) (line : Nat) (l : L1Line) : (s.sendDirty core tenant line l).2.mem = s.mem := by
  unfold State.sendDirty
  dsimp only
  split <;> simp
@[simp] theorem State.replaced_mem (s : State) (n : Nat) (r : Req) : (s.replaced n r).mem = s.mem := rfl
@[simp] theorem State.evictL1_mem (s : State) (core : Nat) (tenant : Nat) (line : Nat) (l : L1Line) : (s.evictL1 core tenant line l).mem = s.mem := by simp [State.evictL1]
@[simp] theorem State.dropFills_mem (s : State) (core : Nat) (tenant : Nat) (p : Nat → Bool) : (s.dropFills core tenant p).mem = s.mem := rfl
@[simp] theorem State.yieldLine_mem (s : State) (core : Nat) (tenant : Nat) (line : Nat) (pools : Bool) : (s.yieldLine core tenant line pools).mem = s.mem := by unfold State.yieldLine; split <;> simp
@[simp] theorem State.roomL1_mem (s : State) (core : Nat) : (s.roomL1 core).mem = s.mem := by
  unfold State.roomL1
  dsimp only
  repeat' split
  all_goals simp
@[simp] theorem State.acquireL1_mem (s : State) (core : Nat) (tenant : Nat) : (s.acquireL1 core tenant).mem = s.mem := by simp [State.acquireL1]
@[simp] theorem State.releaseL1_mem (s : State) (core : Nat) (tenant : Nat) : (s.releaseL1 core tenant).mem = s.mem := by simp [State.releaseL1]
@[simp] theorem State.dropOp_mem (s : State) (n : Nat) : (s.dropOp n).mem = s.mem := rfl
@[simp] theorem State.joinReq_mem (s : State) (m : Nat) (ops : List Nat) : (s.joinReq m ops).mem = s.mem := by
  unfold State.joinReq
  split
  · exact foldl_mem _ (fun s k => by split <;> rfl) _ _
  · rfl
@[simp] theorem State.leave_mem (s : State) (n : Nat) (r : Req) : (s.leave n r).mem = s.mem := by unfold State.leave; split <;> simp
@[simp] theorem State.maintain_mem (s : State) (n : Nat) (r : Req) (inv : Bool) (l2 : Bool) : (s.maintain n r inv l2).mem = s.mem := by unfold State.maintain; split <;> simp
@[simp] theorem State.raiseOps_mem (s : State) (n : Nat) (r : Req) (f : Flt) : (s.raiseOps n r f).mem = s.mem := by
  unfold State.raiseOps
  split
  · exact State.raise_mem ..
  · refine foldl_mem _ (fun s k => ?_) _ _
    split
    · split <;> exact State.raise_mem ..
    · rfl
@[simp] theorem State.mendL1_mem (s : State) (core : Nat) (tenant : Nat) (line : Nat) (offs : List Nat) : (s.mendL1 core tenant line offs).mem = s.mem := by simp [State.mendL1]
@[simp] theorem State.startAcquire_mem (s : State) (gid : Nat) (scope : Nat) (waits : List Nat) (after : Option Nat) (join : Bool) : (s.startAcquire gid scope waits after join).mem = s.mem := rfl

/-! #### Issue -/

@[simp] theorem State.mendCells_mem (s : State) (gid : Nat) (cs : List RCell) : (s.mendCells gid cs).mem = s.mem := by simp [State.mendCells]
@[simp] theorem State.putCells_mem (s : State) (gid : Nat) (ws : List (RCell × Word)) : (s.putCells gid ws).mem = s.mem := by simp [State.putCells]
@[simp] theorem State.correct_mem (s : State) (c : Iss) (reads : List Reg) : (s.correct c reads).mem = s.mem := by simp [State.correct]
@[simp] theorem State.endYields_mem (s : State) (gid : Nat) : (s.endYields gid).mem = s.mem := rfl
@[simp] theorem State.noteStep_mem (s : State) (c : Iss) (i : Instr) : (s.noteStep c i).mem = s.mem := rfl
@[simp] theorem State.begin_mem (s : State) (c : Iss) (i : Instr) : (s.begin c i).mem = s.mem := by simp [State.begin]
@[simp] theorem State.written_mem (s : State) (c : Iss) (i : Instr) : (s.written c i).mem = s.mem := by simp [State.written]
@[simp] theorem State.block_mem (s : State) (c : Iss) (i : Instr) (k : WaitKind) : (s.block c i k).mem = s.mem := rfl
@[simp] theorem State.trapHeld_mem (s : State) (gid : Nat) (w : Wait) (f : Flt) : (s.trapHeld gid w f).mem = s.mem := by simp [State.trapHeld]
@[simp] theorem State.holdSlot_mem (s : State) (c : Iss) (i : Instr) (k : WaitKind) : (s.holdSlot c i k).mem = s.mem := rfl
@[simp] theorem State.trapSlot_mem (s : State) (gid : Nat) (n : Nat) (w : Wait) (f : Flt) : (s.trapSlot gid n w f).mem = s.mem := by simp [State.trapSlot]
@[simp] theorem State.newOp_mem (s : State) (c : Iss) (i : Instr) (path : Option Nat) (dest : Dest) (parts : Nat) : (s.newOp c i path dest parts).2.mem = s.mem := by
  unfold State.newOp
  dsimp only
  split <;> simp
@[simp] theorem State.emptyOp_mem (s : State) (c : Iss) (i : Instr) : (s.emptyOp c i).mem = s.mem := rfl

/-! #### GlobalMem -/

@[simp] theorem State.maintainAll_mem (s : State) (c : Iss) (i : Instr) (inv : Bool) : (s.maintainAll c i inv).mem = s.mem := by simp [State.maintainAll]

/-! #### Atomic -/

@[simp] theorem State.engineAcquire_mem (s : State) (gid : Nat) (sc : Nat) : (s.engineAcquire gid sc).mem = s.mem := by simp [State.engineAcquire]
@[simp] theorem State.waitnReturns_mem (s : State) (gid : Nat) : (s.waitnReturns gid).mem = s.mem := by simp [State.waitnReturns]

/-! #### Clock -/

@[simp] theorem State.grantedPoint_mem (s : State) (cl : Nat) : (s.grantedPoint cl).2.mem = s.mem := by
  unfold State.grantedPoint
  dsimp only
  repeat' split
  all_goals simp
@[simp] theorem State.retarget_mem (s : State) (cl : Nat) : (s.retarget cl).mem = s.mem := by simp [State.retarget]
@[simp] theorem State.retargetDie_mem (s : State) (die : Nat) : (s.retargetDie die).mem = s.mem := by simp [State.retargetDie]
@[simp] theorem State.advanceTimers_mem (s : State) (cl : Nat) (ns : Nat) : (s.advanceTimers cl ns).mem = s.mem := rfl

/-! #### NearMem -/

@[simp] theorem State.countPasses_mem (s : State) (c : Iss) (size : Nat) (l : List (Nat × Nat)) : (s.countPasses c size l).mem = s.mem := by simp [State.countPasses]
@[simp] theorem State.scratchLoad_mem (s : State) (c : Iss) (i : Instr) (d : Nat) (width : Nat) (lanes : List (Nat × Nat)) : (s.scratchLoad c i d width lanes).mem = s.mem := by simp [State.scratchLoad]

/-! #### Palette -/

@[simp] theorem State.releaseLine_mem (s : State) (team line : Nat) (pin : Bool) : (s.releaseLine team line pin).mem = s.mem := by
  unfold State.releaseLine
  extract_lets t
  split
  · rfl
  · extract_lets pool w s1
    have h1 : s1.mem = s.mem := by
      have hw : w.2.mem = s.mem := State.sendDirty_mem ..
      unfold s1
      split
      · exact (foldl_mem _ (fun s m => by split <;> rfl) _ _).trans hw
      · exact hw
    simp [h1]
@[simp] theorem State.releaseLines_mem (s : State) (team : Nat) (ls : List Nat) (pin : Bool) : (s.releaseLines team ls pin).mem = s.mem := by simp [State.releaseLines]
@[simp] theorem State.completeFill_mem (s : State) (team : Nat) (slot : Nat) : (s.completeFill team slot).mem = s.mem := by simp [State.completeFill]

/-! #### Retire -/

@[simp] theorem State.dropPtm_mem (s : State) (gid : Nat) : (s.dropPtm gid).mem = s.mem := by
  refine (foldl_mem _ (fun s r => s.reqDone_mem ..) _ _).trans ((foldl_mem _ (fun s l => ?_) _ _).trans rfl)
  split
  · simp
  · rfl
@[simp] theorem State.freeGranules_mem (s : State) (gid : Nat) : (s.freeGranules gid).mem = s.mem := rfl
@[simp] theorem State.unlinkOps_mem (s : State) (gid : Nat) : (s.unlinkOps gid).mem = s.mem := rfl
@[simp] theorem State.reapTeam_mem (s : State) (t : Nat) : (s.reapTeam t).mem = s.mem := by unfold State.reapTeam; split <;> simp
@[simp] theorem State.releasePool_mem (s : State) (t : Nat) : (s.releasePool t).mem = s.mem := by simp [State.releasePool]
@[simp] theorem State.retireTeam_mem (s : State) (t : Nat) : (s.retireTeam t).mem = s.mem := by simp [State.retireTeam]

/-! #### Control -/

@[simp] theorem State.goto_mem (s : State) (gid : Nat) (slotB : Bool) (pc : DWord) : (s.goto gid slotB pc).mem = s.mem := rfl
@[simp] theorem State.stackTook_mem (s : State) (gid : Nat) (as : List Nat) : (s.stackTook gid as).mem = s.mem := by simp [State.stackTook]
@[simp] theorem State.recordAfter_mem (s : State) (gid : Nat) (pc : DWord) : (s.recordAfter gid pc).mem = s.mem := rfl
@[simp] theorem State.regroupAll_mem (s : State) (ps : List (Nat × Nat)) (a : Nat) (n : Nat) : (s.regroupAll ps a n).mem = s.mem := by simp [State.regroupAll]

/-! #### Matrix -/

@[simp] theorem State.queueMx_mem (s : State) (c : Iss) (op : Nat) (work : MxWork) (sp : Bool) (rows : List Nat) : (s.queueMx c op work sp rows).mem = s.mem := rfl

/-! #### Nodes -/

@[simp] theorem State.modNode_mem (s : State) (ctx : Nat) (key : Nat) (f : Node → Node) : (s.modNode ctx key f).mem = s.mem := rfl
@[simp] theorem State.taskFault_mem (s : State) (ctx : Nat) (die : Nat) (f : Flt) (req : Nat) : (s.taskFault ctx die f req).mem = s.mem := rfl
@[simp] theorem State.getRing_mem (s : State) (ctx key i : Nat) : (s.getRing ctx key i).2.mem = s.mem := by
  unfold State.getRing
  dsimp only
  split <;> simp
@[simp] theorem State.fromRing_mem (s : State) (ctx key k : Nat) : (s.fromRing ctx key k).mem = s.mem := by
  unfold State.fromRing
  dsimp only
  split
  · rfl
  · refine foldl_mem _ (fun s i => ?_) _ _
    split <;> simp
@[simp] theorem State.spawn_mem (s : State) (ctx : Nat) (key : Nat) (recs : List (List Word)) (fired : Bool) (arg : Option DWord) : (s.spawn ctx key recs fired arg).mem = s.mem := by unfold State.spawn; split <;> simp
@[simp] theorem State.batch_mem (s : State) (ctx : Nat) (key : Nat) (fired : Bool) (arg : Option DWord) : (s.batch ctx key fired arg).mem = s.mem := by simp [State.batch]
@[simp] theorem State.batches_mem (s : State) (ctx key fuel : Nat) : (s.batches ctx key fuel).mem = s.mem := by
  induction fuel generalizing s with
  | zero => rfl
  | succ k ih => simp [State.batches, ih]
@[simp] theorem State.give_mem (s : State) (gid : Nat) (slotB : Bool) (i : Instr) (recs : List (List Word)) (bits : Nat) : (s.give gid slotB i recs bits).mem = s.mem := by unfold State.give; split <;> simp
theorem State.deqServe_mem {s t : State} {gid key : Nat} {slotB : Bool} {i : Instr} (h : s.deqServe gid key slotB i = some t) : t.mem = s.mem := by
  unfold State.deqServe at h
  dsimp only at h
  split at h
  · cases h
  · cases h; simp
  · cases h; simp
@[simp] theorem State.serveNode_mem (s : State) (ctx key fuel : Nat) : (s.serveNode ctx key fuel).mem = s.mem := by
  induction fuel generalizing s with
  | zero => rfl
  | succ k ih =>
    unfold State.serveNode
    split
    · rfl
    · split
      · rfl
      · split
        · rfl
        next h => exact (ih _).trans (State.deqServe_mem h)
@[simp] theorem State.settleNode_mem (s : State) (ctx : Nat) (key : Nat) : (s.settleNode ctx key).mem = s.mem := by simp [State.settleNode]
@[simp] theorem State.entryFromRing_mem (s : State) (die : Nat) (r : Router) : (s.entryFromRing die r).2.mem = s.mem := by unfold State.entryFromRing; split <;> simp
@[simp] theorem State.raiseSaved_mem (s : State) (ctx : Nat) (team : Nat) (gid : Nat) (f : Flt) : (s.raiseSaved ctx team gid f).mem = s.mem := rfl

/-! #### SliceEvents -/

@[simp] theorem State.sendPrefetch_mem (s : State) (slice : Nat) (ctx : Nat) (tenant : Nat) (line : Nat) : (s.sendPrefetch slice ctx tenant line).mem = s.mem := by simp [State.sendPrefetch]
@[simp] theorem State.track_mem (s : State) (r : Req) : (s.track r).mem = s.mem := by
  unfold State.track
  dsimp only
  repeat' split
  all_goals simp
@[simp] theorem State.arrive_mem (s : State) (n : Nat) (r : Req) : (s.arrive n r).2.mem = s.mem := by unfold State.arrive; split <;> simp
@[simp] theorem State.endPrefetch_mem (s : State) (n : Nat) (r : Req) : (s.endPrefetch n r).mem = s.mem := by simp [State.endPrefetch]
@[simp] theorem State.useful_mem (s : State) (r : Req) (l : L2Line) : (s.useful r l).mem = s.mem := by simp [State.useful]
@[simp] theorem State.pinRow_mem (s : State) (core entry row : Nat) (d : Drain) (f : Flt) (die : Nat) : (s.pinRow core entry row d f die).mem = s.mem := by
  unfold State.pinRow
  dsimp only
  split <;> exact State.raise_mem ..
@[simp] theorem State.endReplay_mem (s : State) (core : Nat) (entry : Nat) (d : Drain) : (s.endReplay core entry d).mem = s.mem := by unfold State.endReplay; split <;> simp
@[simp] theorem State.pinDrain_mem (s : State) (n : Nat) (r : Req) (f : Flt) (entry : Nat) (row : Nat) : (s.pinDrain n r f entry row).mem = s.mem := by unfold State.pinDrain; split <;> simp
@[simp] theorem State.sliceFault_mem (s : State) (n : Nat) (r : Req) (f : Flt) : (s.sliceFault n r f).mem = s.mem := by
  unfold State.sliceFault
  dsimp only
  repeat' split
  all_goals simp
@[simp] theorem State.reach_mem (s : State) (n : Nat) : (s.reach n).2.mem = s.mem := by
  unfold State.reach
  dsimp only
  repeat' split
  all_goals simp
@[simp] theorem State.toWalk_mem (s : State) (n : Nat) (r : Req) : (s.toWalk n r).mem = s.mem := by simp [State.toWalk]
@[simp] theorem State.applied_mem (s : State) (n : Nat) (r : Req) (l : L2Line) (bs : Table Byte) (reply : List Nat) : (s.applied n r l bs reply).mem = s.mem := by simp [State.applied]

/-! #### CoreEvents -/

@[simp] theorem State.fillL1_mem (s : State) (r : Req) : (s.fillL1 r).mem = s.mem := by unfold State.fillL1; split <;> simp
@[simp] theorem State.strike_mem (s : State) (core : Nat) (w : FileWord) (a : WordError) : (s.strike core w a).mem = s.mem := by unfold State.strike; split <;> simp

/-! #### Engines -/

@[simp] theorem State.bwaitReturns_mem (s : State) (gid : Nat) (a : Nat) (p : Bool) : (s.bwaitReturns gid a p).mem = s.mem := by simp [State.bwaitReturns]
@[simp] theorem State.wakeObject_mem (s : State) (team a : Nat) : (s.wakeObject team a).mem = s.mem := by
  refine foldl_mem _ (fun s x => ?_) _ _
  split
  · split <;> simp
  · rfl
@[simp] theorem State.touchObject_mem (s : State) (team : Nat) (a : Nat) (ends : Bool) : (s.touchObject team a ends).mem = s.mem := by simp [State.touchObject]
@[simp] theorem State.arriveAt_mem (s : State) (team : Nat) (a : Nat) (n : Nat) (sc : Nat) : (s.arriveAt team a n sc).mem = s.mem := by simp [State.arriveAt]

/-! #### EngineEvents -/

@[simp] theorem State.handPieces_mem (s : State) (c : Copy) (total fuel k : Nat) : (s.handPieces c total fuel k).mem = s.mem := by
  induction fuel generalizing s k with
  | zero => rfl
  | succ n ih => exact ih ..
@[simp] theorem State.engineTook_mem (s : State) (team : Nat) (ctx : Nat) (sp : Bool) (va : Nat) (n : Nat) : (s.engineTook team ctx sp va n).mem = s.mem := by simp [State.engineTook]
@[simp] theorem State.copyAccess_mem (s : State) (c : Copy) (k : Nat) : (s.copyAccess c k).mem = s.mem := by simp [State.copyAccess]
@[simp] theorem State.logEngine_mem (s : State) (ctx : Nat) (die : Nat) (f : Flt) : (s.logEngine ctx die f).mem = s.mem := by simp [State.logEngine]
@[simp] theorem State.countByte_mem (s : State) (c : Copy) : (s.countByte c).mem = s.mem := by unfold State.countByte; split <;> simp
@[simp] theorem State.commTook_mem (s : State) (c : Collective) : (s.commTook c).mem = s.mem := by simp [State.commTook]
@[simp] theorem State.logInput_mem (s : State) (c : Collective) (ranks : List (Nat × Nat)) : (s.logInput c ranks).mem = s.mem := by unfold State.logInput; split <;> simp

/-! #### Fetch -/

@[simp] theorem State.fetched_mem (s : State) (gid : Nat) (pc : DWord) : (s.fetched gid pc).mem = s.mem := by
  unfold State.fetched
  split <;> simp
@[simp] theorem State.logFetch_mem (s : State) (gid : Nat) (pc : DWord) (f : Flt) : (s.logFetch gid pc f).mem = s.mem := by simp [State.logFetch]

/-! #### Launch -/

@[simp] theorem State.govern_mem (s : State) (ctx : Nat) (die : Nat) (ring : Nat) : (s.govern ctx die ring).mem = s.mem := by
  unfold State.govern
  dsimp only
  repeat' split
  all_goals simp
@[simp] theorem State.dropMeets_mem (s : State) (ctx : Nat) : (s.dropMeets ctx).mem = s.mem := by simp [State.dropMeets]

/-! #### MatrixEvents -/

@[simp] theorem State.dropMx_mem (s : State) (core : Nat) (op : Nat) : (s.dropMx core op).mem = s.mem := rfl
@[simp] theorem State.morePart_mem (s : State) (k : Nat) : (s.morePart k).mem = s.mem := by unfold State.morePart; split <;> simp

/-! #### TeamSync -/

@[simp] theorem State.returnWaits_mem (s : State) (team : Nat) (p : Wait → Bool) : (s.returnWaits team p).mem = s.mem := rfl
@[simp] theorem State.doPush_mem (s : State) (gid : Nat) (i : Nat) (o : FOps) : (s.doPush gid i o).mem = s.mem := by simp [State.doPush]
@[simp] theorem State.doPop_mem (s : State) (gid : Nat) (i : Nat) (o : FOps) : (s.doPop gid i o).mem = s.mem := by simp [State.doPop]
@[simp] theorem State.serveQueue_mem (s : State) (team i fuel : Nat) : (s.serveQueue team i fuel).mem = s.mem := by
  induction fuel generalizing s with
  | zero => rfl
  | succ n ih =>
    unfold State.serveQueue
    dsimp only
    split
    · refine (ih _).trans ?_
      split
      · unfold State.popChecked
        split
        next h => split at h <;> cases h; simp
        · simp
      · rfl
    · split
      · refine (ih _).trans ?_
        split <;> simp
      · rfl
@[simp] theorem State.blockQueue_mem (s : State) (c : Iss) (i : Instr) (k : Nat → WaitKind) : (s.blockQueue c i k).mem = s.mem := rfl

/-! #### Preempt -/

@[simp] theorem State.rollback_mem (s : State) (gid : Nat) : (s.rollback gid).mem = s.mem := rfl
@[simp] theorem State.saveRead_mem (s : State) (team : Nat) : (s.saveRead team).2.mem = s.mem := by
  unfold State.saveRead
  dsimp only
  repeat' split
  all_goals simp
@[simp] theorem State.saveFault_mem (s : State) (ctx : Nat) (gid : Nat) (f : Flt) : (s.saveFault ctx gid f).mem = s.mem := rfl
@[simp] theorem State.endPass_mem (s : State) (ctx : Nat) : (s.endPass ctx).mem = s.mem := by simp [State.endPass]

/-! #### Place -/

@[simp] theorem State.seat_mem (s : State) (gid : Nat) (g : Group) : (s.seat gid g).mem = s.mem := rfl
@[simp] theorem State.shrinkL1_mem (s : State) (core fuel : Nat) : (s.shrinkL1 core fuel).mem = s.mem := (SameWork.shrinkL1 ..).mem
@[simp] theorem State.takeScratch_mem (s : State) (core : Nat) (n : Nat) : (s.takeScratch core n).2.mem = s.mem := by simp [State.takeScratch]
@[simp] theorem State.startTeam_mem (s : State) (grid core : Nat) : (s.startTeam grid core).mem = s.mem := by
  have seated (f : List (Option Nat) × State → Nat → List (Option Nat) × State) (hf : ∀ a i, (f a i).2.mem = a.2.mem) (l : List Nat) (a : List (Option Nat) × State) :
      (l.foldl f a).2.mem = a.2.mem := by
    induction l generalizing a with
    | nil => rfl
    | cons i l ih => exact (ih _).trans (hf a i)
  unfold State.startTeam
  extract_lets g l c f id sc place hint held t s1 s2 s3 s4
  have hp : place.2.mem = sc.2.mem := by
    refine seated _ (fun a i => ?_) _ _
    dsimp only
    generalize (if l.ptm = 0 then none else _ : Option Nat) = area
    cases area <;> rfl
  have h1 : s1.mem = s.mem := hp.trans (State.takeScratch_mem ..)
  simp [s4, s3, s2, h1]
@[simp] theorem State.resumeFault_mem (s : State) (team : Nat) (gid : Nat) (f : Flt) : (s.resumeFault team gid f).mem = s.mem := rfl
@[simp] theorem State.areasTook_mem (s : State) (ctx core : Nat) (rs : List (Acc × Nat × Nat)) : (s.areasTook ctx core rs).mem = s.mem :=
  (foldl_mem _ (fun s _ => s.peekedRuns_mem ..) _ _).trans (foldl_mem _ (fun s _ => s.logPeek_mem ..) _ _)

/-! #### RouterEvents -/

@[simp] theorem State.setOutbox_mem (s : State) (ctx : Nat) (key : Nat) (st : Option Nat) : (s.setOutbox ctx key st).mem = s.mem := rfl
@[simp] theorem State.pulled_mem (s : State) (die : Nat) (ctx : Nat) (key : Nat) : (s.pulled die ctx key).mem = s.mem := by simp [State.pulled]

/-! #### Tasks -/

@[simp] theorem State.deqBatch_mem (s : State) (gid : Nat) (slotB : Bool) (i : Instr) : (s.deqBatch gid slotB i).mem = s.mem := by simp [State.deqBatch]
@[simp] theorem State.report_mem (s : State) (c : Iss) (o : FOps) (pass : Bool) : (s.report c o pass).mem = s.mem := by
  refine foldl_mem _ (fun s L => ?_) _ _
  split
  · rfl
  · dsimp only
    split <;> rfl

/-! #### HaltEvents -/

@[simp] theorem State.noteCmd_mem (s : State) (w : Writer) (ctx : Nat) (v : Nat) : (s.noteCmd w ctx v).mem = s.mem := by simp [State.noteCmd]
@[simp] theorem State.stopFault_mem (s : State) (ctx : Nat) (die : Nat) (addr : Nat) : (s.stopFault ctx die addr).mem = s.mem := rfl
@[simp] theorem State.dropTable_mem (s : State) (gid : Nat) (slotB : Bool) : (s.dropTable gid slotB).mem = s.mem := by
  refine foldl_mem _ (fun s w => ?_) _ _
  split <;> simp
@[simp] theorem State.applyStop_mem (s : State) (gid : Nat) (r : DWord × DWord × Nat) : (s.applyStop gid r).1.mem = s.mem := by unfold State.applyStop; split <;> simp
@[simp] theorem State.restartWaits_mem (s : State) (ctx : Nat) : (s.restartWaits ctx).mem = s.mem := rfl
@[simp] theorem State.serveBatches_mem (s : State) (ctx : Nat) : (s.serveBatches ctx).mem = s.mem := by
  refine foldl_mem _ (fun s gid => ?_) _ _
  split
  · split <;> simp
  · rfl
@[simp] theorem State.writeTenant_mem (s : State) (ctx : Nat) : (s.writeTenant ctx).mem = s.mem := by simp [State.writeTenant]

/-! #### Slots -/

@[simp] theorem State.countCycle_mem (s : State) (cl : Nat) (stretched : Bool) : (s.countCycle cl stretched).mem = s.mem := by
  unfold State.countCycle
  extract_lets gs s1 full s2
  have h1 : s1.mem = s.mem := by
    refine foldl_mem _ (fun s g => ?_) _ _
    split
    · split <;> simp
    · rfl
  have h2 : s2.mem = s1.mem := foldl_mem _ (fun s k => foldl_mem _ (fun s c => s.countCore_mem ..) _ _) _ _
  split
  · exact (foldl_mem _ (fun s c => s.countDie_mem ..) _ _).trans (h2.trans h1)
  · exact h2.trans h1
@[simp] theorem State.endCycle_mem (s : State) (cl : Nat) : (s.endCycle cl).mem = s.mem := by simp [State.endCycle]
@[simp] theorem State.opportunity_mem (s : State) (core : Nat) (quad : Nat) : (s.opportunity core quad).mem = s.mem := by
  unfold State.opportunity
  dsimp only
  split <;> simp

/-! #### PowerEvents -/

@[simp] theorem State.lends_mem (s : State) (l : List (Nat × Nat)) : (s.lends l).2.mem = s.mem := by
  induction l generalizing s with
  | nil => rfl
  | cons x l ih =>
    refine (ih _).trans ?_
    split <;> simp
@[simp] theorem State.gift_mem (s : State) (donor : Nat) (own : List (Nat × Nat)) (budgets : List (Nat × Nat)) : (s.gift donor own budgets).2.mem = s.mem := by simp [State.gift]
@[simp] theorem State.balance_mem (s : State) (m : Meet) (own : List (Nat × Nat)) (budgets : List (Nat × Nat)) : (s.balance m own budgets).mem = s.mem := by
  unfold State.balance
  dsimp only
  split <;> simp
@[simp] theorem State.followDeficit_mem (s : State) (m : Meet) (own : List (Nat × Nat)) (budgets : List (Nat × Nat)) : (s.followDeficit m own budgets).mem = s.mem := by
  unfold State.followDeficit
  dsimp only
  repeat' split
  all_goals simp
@[simp] theorem State.endMoves_mem (s : State) : s.endMoves.mem = s.mem := rfl
@[simp] theorem State.capUnruled_mem (s : State) (ruled : List Nat) : (s.capUnruled ruled).mem = s.mem := by simp [State.capUnruled]

/-! #### Tracker -/

@[simp] theorem State.trackNext_mem (s : State) (die : Nat) : (s.trackNext die).mem = s.mem := by
  unfold State.trackNext
  dsimp only
  repeat' split
  all_goals simp
@[simp] theorem State.dropCached_mem (s : State) (p : Tlb → Bool) (w : Nat → Bool) : (s.dropCached p w).mem = s.mem := rfl

/-! #### TcEvents -/

@[simp] theorem State.devAccess_mem (s : State) (ma : Nat) (n : Nat) : (s.devAccess ma n).mem = s.mem := by simp [State.devAccess]
@[simp] theorem State.readDesc_mem (s : State) (ctx : Nat) (die : Nat) (va : Nat) (n : Nat) : (s.readDesc ctx die va n).2.mem = s.mem := by
  unfold State.readDesc
  dsimp only
  split <;> simp
@[simp] theorem State.loadNode_mem (s : State) (ctx : Nat) (key : Nat) : (s.loadNode ctx key).mem = s.mem := by
  unfold State.loadNode
  dsimp only
  repeat' split
  all_goals simp
@[simp] theorem State.loadTasks_mem (s : State) (ctx : Nat) : (s.loadTasks ctx).mem = s.mem := by simp [State.loadTasks]
@[simp] theorem State.releaseRouter_mem (s : State) (die : Nat) (idx : Nat) : (s.releaseRouter die idx).mem = s.mem := rfl
@[simp] theorem State.loadRouter.take_mem (s : State) (die : Nat) (y : Router) : (loadRouter.take s die y).2.mem = s.mem := by
  unfold State.loadRouter.take
  split <;> rfl
@[simp] theorem State.loadRouter_mem (s : State) (ctx set : Nat) : (s.loadRouter ctx set).2.mem = s.mem := by
  unfold State.loadRouter
  dsimp only
  repeat' split
  all_goals simp
@[simp] theorem State.loadRouters_mem (s : State) (ctx : Nat) : (s.loadRouters ctx).2.mem = s.mem := by
  have each (l : List Nat) (a : Bool × State) : (l.foldl (fun (a : Bool × State) k => let r := a.2.loadRouter ctx k; (a.1 && r.1, r.2)) a).2.mem = a.2.mem := by
    induction l generalizing a with
    | nil => rfl
    | cons k l ih => exact (ih _).trans (State.loadRouter_mem ..)
  exact each _ _
@[simp] theorem State.tcRefuse_mem (s : State) : s.tcRefuse.mem = s.mem := rfl
@[simp] theorem State.tcRun_mem (s : State) (cmd : Nat) : (s.tcRun cmd).mem = s.mem := rfl
@[simp] theorem State.tcSweep_mem (s : State) : s.tcSweep.mem = s.mem := by simp [State.tcSweep]
@[simp] theorem State.tcInvalidateS1_mem (s : State) (w : Writer) : (s.tcInvalidateS1 w).mem = s.mem := by simp [State.tcInvalidateS1]
@[simp] theorem State.tcInvalidateS2_mem (s : State) (w : Writer) : (s.tcInvalidateS2 w).mem = s.mem := by simp [State.tcInvalidateS2]
@[simp] theorem State.tcReloadContext_mem (s : State) (w : Writer) : (s.tcReloadContext w).mem = s.mem := by
  unfold State.tcReloadContext
  dsimp only
  split <;> simp
@[simp] theorem State.tcReloadTask_mem (s : State) (w : Writer) : (s.tcReloadTask w).mem = s.mem := by unfold State.tcReloadTask; split <;> simp
@[simp] theorem State.tcWrite_mem (s : State) (w : Writer) (cmd : Nat) : (s.tcWrite w cmd).mem = s.mem := by
  unfold State.tcWrite
  repeat' split
  all_goals simp

/-! #### Registers -/

theorem State.eachWord_mem (s : State) (o n v : Nat) {f : State → Nat → Nat → State} (hf : ∀ (t : State) a b, (f t a b).mem = t.mem) : (s.eachWord o n v f).mem = s.mem := by
  simp [State.eachWord, hf]
@[simp] theorem State.stageEntry_mem (s : State) (index : Nat) (v : Nat) : (s.stageEntry index v).mem = s.mem := by simp [State.stageEntry]
@[simp] theorem State.commitEntryWrite_mem (s : State) (w : Writer) (index : Nat) (v : Nat) : (s.commitEntryWrite w index v).mem = s.mem := rfl
@[simp] theorem State.revoke_mem (s : State) (w : Writer) (v : Nat) : (s.revoke w v).mem = s.mem := rfl
@[simp] theorem State.writeDl_mem (s : State) (w : Writer) (o : Nat) (n : Nat) (v : Nat) : (s.writeDl w o n v).mem = s.mem := by simp [State.writeDl]
@[simp] theorem State.writeRow_mem (s : State) (w : Writer) (row : Nat) (part : RowPart) (v : Nat) : (s.writeRow w row part v).mem = s.mem := State.mem_ite_modHub ..
@[simp] theorem State.writePwShare_mem (s : State) (w : Writer) (index value : Nat) : (s.writePwShare w index value).mem = s.mem := State.mem_ite_modHub ..
@[simp] theorem State.writeBwShare_mem (s : State) (w : Writer) (die : Nat) (index : Nat) (value : Nat) : (s.writeBwShare w die index value).mem = s.mem := by simp [State.writeBwShare]
@[simp] theorem State.undefine_mem (s : State) (entry : Nat) : (s.undefine entry).mem = s.mem := rfl
@[simp] theorem State.putPartition_mem (s : State) (entry : Nat) (q : Partition) : (s.putPartition entry q).mem = s.mem := by simp [State.putPartition]
@[simp] theorem State.writePartition_mem (s : State) (entry : Nat) (field : PartField) (v : Nat) : (s.writePartition entry field v).mem = s.mem := by unfold State.writePartition; split <;> simp
@[simp] theorem State.writePt_mem (s : State) (w : Writer) (o : Nat) (n : Nat) (v : Nat) : (s.writePt w o n v).mem = s.mem := by simp [State.writePt]
@[simp] theorem State.writeModule_mem (s : State) (w : Writer) (v : Nat) : (s.writeModule w v).mem = s.mem := by simp [State.writeModule]
@[simp] theorem State.writeSel_mem (s : State) (w : Writer) (slice : Nat) (index : Nat) (v : Nat) : (s.writeSel w slice index v).mem = s.mem := by simp [State.writeSel]
@[simp] theorem State.writeRmf_mem (s : State) (w : Writer) (core : Nat) (index : Nat) (canon : Bool) (value : Nat) : (s.writeRmf w core index canon value).mem = s.mem := by simp [State.writeRmf]
@[simp] theorem State.writeHpt_mem (s : State) (w : Writer) (die : Nat) (v : Nat) : (s.writeHpt w die v).mem = s.mem := by simp [State.writeHpt]
@[simp] theorem State.writeDie_mem (s : State) (w : Writer) (die o n v : Nat) : (s.writeDie w die o n v).mem = s.mem := by
  simp [State.writeDie, State.eachWord_mem]
@[simp] theorem State.writeHub_mem (s : State) (w : Writer) (o n v : Nat) : (s.writeHub w o n v).mem = s.mem := by
  simp [State.writeHub, State.eachWord_mem]
@[simp] theorem State.writeRd_mem (s : State) (w : Writer) (ctx : Nat) (v : Nat) : (s.writeRd w ctx v).mem = s.mem := by simp [State.writeRd]
@[simp] theorem State.writeRace_mem (s : State) (w : Writer) (ctx : Nat) (o : Nat) (v : Nat) : (s.writeRace w ctx o v).mem = s.mem := by simp [State.writeRace]
@[simp] theorem State.noteRead_mem (s : State) (w : Writer) (addr : Nat) (size : Nat) : (s.noteRead w addr size).mem = s.mem := by
  unfold State.noteRead
  repeat' split
  all_goals simp

/-! #### HubEvents -/

@[simp] theorem State.linkFault_mem (s : State) (req : Option Nat) (ctx : Nat) (die : Nat) (f : Flt) : (s.linkFault req ctx die f).mem = s.mem := by
  unfold State.linkFault
  repeat' split
  all_goals simp [State.raise_mem]

/-! #### System -/

@[simp] theorem State.setRequest_mem (s : State) (team : Nat) (p : Nat) : (s.setRequest team p).mem = s.mem := by simp [State.setRequest]

/-! #### Choices -/

@[simp] theorem State.stepTrap_mem (s : State) (ctx : Nat) (x : Stepped) : (s.stepTrap ctx x).mem = s.mem := State.raise_mem ..
@[simp] theorem State.endStep_mem (s : State) (ctx : Nat) : (s.endStep ctx).mem = s.mem := by simp [State.endStep]
@[simp] theorem State.endSteps_mem (s : State) : s.endSteps.mem = s.mem := by simp [State.endSteps]

end Sys2Proof.Machine
end

section
/-! SUPPORT. The canonical form of memory is kept by every operation that may write memory: by the three that do
(`setMem`, `setMemAll`, the exchange of two pages), and by every other because it is made of these and of operations that
leave memory alone. Each lemma follows its function's own branches; the order is that of the model's files. -/

namespace Sys2Proof.Machine

theorem State.Inv.of_mem {s t : State} (e : t.mem = s.mem) (h : s.Inv) : t.Inv := by
  unfold State.Inv; rw [e]; exact h

/-- A state that differs in other fields than `mem`. -/
theorem State.Inv.update {s : State} {a b c d e f g h i j k l m n o p q r} (hs : s.Inv) : State.Inv ⟨a, s.mem, b, c, d, e, f, g, h, i, j, k, l, m, n, o, p, q, r⟩ := hs

theorem State.Inv.ite {s t : State} {p : Prop} {_ : Decidable p} (hs : s.Inv) (ht : t.Inv) : (if p then s else t).Inv := by
  split <;> assumption

theorem State.Inv.foldl {α : Type} {f : State → α → State} {s : State} (h : ∀ (s : State) (a : α), s.Inv → (f s a).Inv) (l : List α) (hs : s.Inv) : (l.foldl f s).Inv := by
  induction l generalizing s with
  | nil => exact hs
  | cons a l ih => exact ih (h s a hs)

/-- The state of an operation that may find a fault keeps the invariant, where it has one. -/
def OkInv : Except Flt State → Prop
  | .ok t => t.Inv
  | .error _ => True

theorem OkInv.ok {r : Except Flt State} {t : State} (h : OkInv r) (e : r = .ok t) : t.Inv := by subst e; exact h

theorem OkInv.ite {r q : Except Flt State} {p : Prop} {_ : Decidable p} (hs : OkInv r) (ht : OkInv q) : OkInv (if p then r else q) := by
  split <;> assumption

theorem OkInv.foldl {α : Type} {f : Except Flt State → α → Except Flt State} {r : Except Flt State} (h : ∀ (r : Except Flt State) (a : α), OkInv r → OkInv (f r a)) (l : List α) (hr : OkInv r) : OkInv (l.foldl f r) := by
  induction l generalizing r with
  | nil => exact hr
  | cons a l ih => exact ih (h r a hr)

/-- The state of an operation that may not take place keeps the invariant, where it has one. -/
def SomeInv : Option State → Prop
  | some t => t.Inv
  | none => True

theorem SomeInv.some {r : Option State} {t : State} (h : SomeInv r) (e : r = .some t) : t.Inv := by subst e; exact h

/-- The next state of a step keeps the invariant, where there is one. -/
def NextInv : Host.Outcome State Fault Refusal → Prop
  | .next t => t.Inv
  | _ => True

theorem NextInv.ite {r q : Host.Outcome State Fault Refusal} {p : Prop} {_ : Decidable p} (hs : NextInv r) (ht : NextInv q) : NextInv (if p then r else q) := by
  split <;> assumption

/-! #### Translate -/

theorem State.setMem_inv {s : State} {ma : Nat} {b : Byte} (hs : s.Inv) : (s.setMem ma b).Inv := tcanon_tset 0 b (Nat.zero_le _) _ hs
theorem State.setMemAll_inv {s : State} {base : Nat} {bs : Table Byte} (hs : s.Inv) : (s.setMemAll base bs).Inv := tcanon_tsetAll 0 _ _ hs
theorem State.writeMem_inv {s : State} {slice : Nat} {l : L2Line} (hs : s.Inv) : (s.writeMem slice l).Inv := by
  unfold State.writeMem
  split
  · exact hs
  · split
    · exact .of_mem (State.raiseWriteback_mem ..) hs
    · exact State.setMemAll_inv (.of_mem (State.accessLine_mem ..) hs)
theorem State.cleanLine_inv {s : State} {slice : Nat} {l : L2Line} (hs : s.Inv) : (s.cleanLine slice l).Inv := .of_mem (State.modSlice_mem ..) (State.writeMem_inv hs)
theorem State.dropLine_inv {s : State} {slice : Nat} {l : L2Line} (hs : s.Inv) : (s.dropLine slice l).Inv := State.Inv.ite (.of_mem (State.countDie_mem ..) (.of_mem (State.modSlice_mem ..) (State.writeMem_inv hs))) (.of_mem (State.modSlice_mem ..) (State.writeMem_inv hs))
theorem State.openLine_inv {s : State} {slice ctx line : Nat} {t : Tlb} (hs : s.Inv) : (s.openLine slice ctx line t).2.Inv := by
  unfold State.openLine
  extract_lets p tenant ma new x s1
  split
  · exact hs
  · refine .ite hs ?_
    split
    · exact State.dropLine_inv (.of_mem (State.choose_mem ..) hs)
    · exact .of_mem (State.choose_mem ..) hs
theorem State.slicePoke_inv {s : State} {ctx line : Nat} {bs : Table Byte} {n : Need} {acc : Acc} {src : Option Nat} (hs : s.Inv) : OkInv (s.slicePoke ctx line bs n acc src) := by
  unfold State.slicePoke
  dsimp only
  split
  · trivial
  · exact hs
  · split
    · trivial
    · exact .of_mem (State.modSlice_mem ..) (State.openLine_inv (.of_mem (State.missed_mem ..) hs))
theorem State.pokeLines_inv {s : State} {src : Option Nat} {ctx : Nat} {nd : Need} {acc : Acc} {l : Table (Table Byte)} (hs : s.Inv) : OkInv (s.pokeLines src ctx nd acc l) := by
  induction l generalizing s with
  | nil => exact hs
  | cons x l ih =>
    unfold State.pokeLines
    split
    · trivial
    next he => exact ih ((State.slicePoke_inv hs).ok he)
theorem State.slicePokes_inv {s : State} {ctx : Nat} {nd : Need} {acc : Acc} {ls : Table (Table Byte)} {src : Option Nat} (hs : s.Inv) : OkInv (s.slicePokes ctx nd acc ls src) := by
  unfold State.slicePokes
  split
  · trivial
  · exact State.pokeLines_inv hs
theorem State.pokesMet_inv {s : State} {ctx : Nat} {nd : Need} {acc : Acc} {ls : Table (Table Byte)} {src : Option Nat} (hs : s.Inv) : (s.pokesMet ctx nd acc ls src).Inv := by
  unfold State.pokesMet
  split
  · exact .of_mem (State.pokeMet_mem ..) hs
  · exact hs
theorem State.writeCtx_inv {s : State} {ctx va x3 n : Nat} {acc : Acc} {src : Option Nat} (hs : s.Inv) : OkInv (s.writeCtx ctx va x3 n acc src) := State.slicePokes_inv hs
theorem State.writeMet_inv {s : State} {ctx va x3 n : Nat} {acc : Acc} {src : Option Nat} (hs : s.Inv) : (s.writeMet ctx va x3 n acc src).Inv := State.pokesMet_inv hs

/-! #### Path -/

theorem State.raceSector_inv {s : State} {o : Op} {lane : Nat} {write : Bool} {scope va : Nat} (hs : s.Inv) : (s.raceSector o lane write scope va).Inv := by
  unfold State.raceSector
  extract_lets ctx gid d sh die r t s0 at_
  have ht : t.Inv := .of_mem (State.readRun_mem ..) hs
  refine .ite hs ?_
  split
  · exact ht
  · extract_lets w escope int wg n lrs diff covered here race kind bs s1
    have h1 : s1.Inv := by
      refine .ite ht (.ite ?_ (.of_mem (State.raise_mem ..) (.of_mem (State.modContext_mem ..) ht)))
      split
      next hp => exact .of_mem (State.modContext_mem ..) ((State.slicePokes_inv (.of_mem (State.modContext_mem ..) ht)).ok hp)
      · exact .of_mem (State.modContext_mem ..) ht
    clear_value s1
    refine .ite ?_ h1
    split
    next hp => exact .of_mem (State.modContext_mem ..) ((State.writeCtx_inv h1).ok hp)
    · exact h1
theorem State.raceSectors_inv {s : State} {o : Op} {lane : Nat} {write : Bool} {scope : Nat} {vas : List Nat} (hs : s.Inv) : (s.raceSectors o lane write scope vas).Inv := State.Inv.foldl (fun _ _ hs => State.raceSector_inv hs) _ hs
theorem State.raceOp_inv {s : State} {n lane : Nat} {write : Bool} {scope : Nat} {vas : List Nat} (hs : s.Inv) : (s.raceOp n lane write scope vas).Inv := by
  unfold State.raceOp
  split
  · exact State.Inv.ite (State.raceSectors_inv hs) hs
  · exact hs
theorem State.raceReq_inv {s : State} {r : Req} {write : Bool} {offs : List Nat} (hs : s.Inv) : (s.raceReq r write offs).Inv := State.Inv.ite hs (State.Inv.foldl (fun _ _ hs => State.raceOp_inv hs) _ hs)
theorem State.hitL1_inv {s : State} {n : Nat} {r : Req} {l : L1Line} {have_ : Nat} {go : State → State} (hgo : ∀ t : State, t.Inv → (go t).Inv) (hs : s.Inv) : (s.hitL1 n r l have_ go).Inv := by
  unfold State.hitL1
  dsimp only
  split
  · exact .of_mem (State.raiseOps_mem ..) (.of_mem (State.putReq_mem ..) (.of_mem (State.logLasting_mem ..) hs))
  · exact hgo _ (.of_mem (State.handBytes_mem ..) (.of_mem (State.readWords_mem ..) hs))
theorem State.send_inv {s : State} {n : Nat} {r : Req} (hs : s.Inv) : (s.send n r).Inv := by
  unfold State.send
  dsimp only
  split
  · split
    · exact State.Inv.ite (.of_mem (State.leave_mem ..) (.of_mem (State.yieldLine_mem ..) hs)) (State.hitL1_inv (fun _ hs => State.Inv.ite (.of_mem (State.reqDone_mem ..) (State.raceReq_inv hs)) (.of_mem (State.leave_mem ..) hs)) hs)
    · exact .of_mem (State.leave_mem ..) hs
  · split
    · exact State.Inv.ite (.of_mem (State.leave_mem ..) (.of_mem (State.yieldLine_mem ..) hs)) (State.hitL1_inv (fun _ hs => State.Inv.ite (.of_mem (State.reqDone_mem ..) (State.raceReq_inv hs)) (.of_mem (State.leave_mem ..) hs)) hs)
    · exact .of_mem (State.leave_mem ..) hs
  · split
    · exact State.Inv.ite (.of_mem (State.reqDone_mem ..) (State.raceReq_inv (.of_mem (State.mendL1_mem ..) hs))) (.of_mem (State.leave_mem ..) hs)
    · exact .of_mem (State.leave_mem ..) hs
  · exact .of_mem (State.leave_mem ..) (State.Inv.foldl (fun _ _ hs => .of_mem (State.yieldLine_mem ..) hs) _ hs)
  · exact .of_mem (State.leave_mem ..) (.of_mem (State.yieldLine_mem ..) hs)
  · exact .of_mem (State.leave_mem ..) (.of_mem (State.yieldLine_mem ..) hs)
  · exact .of_mem (State.leave_mem ..) (.of_mem (State.yieldLine_mem ..) hs)
  · split
    · exact State.Inv.ite (.of_mem (State.leave_mem ..) hs) (.of_mem (State.reqDone_mem ..) hs)
    · split
      · exact State.Inv.ite (.of_mem (State.maintain_mem ..) hs) (.of_mem (State.leave_mem ..) hs)
      · exact .of_mem (State.leave_mem ..) hs
  · split
    · exact State.Inv.ite (.of_mem (State.reqDone_mem ..) hs) (.of_mem (State.leave_mem ..) hs)
    · exact .of_mem (State.leave_mem ..) hs
  · exact .of_mem (State.leave_mem ..) hs
  · exact .of_mem (State.leave_mem ..) hs
  · exact hs
theorem State.enter_inv {s : State} {n : Nat} {r : Req} {again : Bool} (hs : s.Inv) : (s.enter n r again).Inv := by
  unfold State.enter
  split
  · exact State.send_inv hs
  · exact hs
theorem State.sendQueued_inv {s : State} {n : Nat} (hs : s.Inv) : (s.sendQueued n).Inv := by
  unfold State.sendQueued
  split
  · exact State.Inv.ite (State.send_inv hs) hs
  · exact hs
theorem State.request1_inv {s : State} {r : Req} {behind : Option Nat} (hs : s.Inv) : (s.request1 r behind).Inv := by
  unfold State.request1
  dsimp only
  split
  · exact State.enter_inv hs
  · exact hs
  · exact hs
theorem State.sendCombined_inv {s : State} {cl : Nat} {e : Combine} (hs : s.Inv) : (s.sendCombined cl e).Inv := State.request1_inv hs
theorem State.flushCombine_inv {s : State} {cl : Nat} {p : Combine → Bool} (hs : s.Inv) : (s.flushCombine cl p).Inv := State.Inv.foldl (fun _ _ hs => State.sendCombined_inv hs) _ hs
theorem State.request_inv {s : State} {r : Req} {behind : Option Nat} (hs : s.Inv) : (s.request r behind).Inv := State.request1_inv (State.flushCombine_inv hs)
theorem State.endRelease_inv {s : State} {n : Nat} {x : Hold} (hs : s.Inv) : (s.endRelease n x).Inv := by
  refine .foldl (fun _ _ hs => State.enter_inv (.foldl (fun _ _ hs => ?_) _ hs)) _ (.ite (.of_mem (State.modGroup_mem ..) (.update hs)) (.update hs))
  split
  · exact hs
  · exact hs
theorem State.moveHold_inv {s : State} {n : Nat} (hs : s.Inv) : (s.moveHold n).Inv := by
  unfold State.moveHold
  split
  · exact hs
  · exact State.Inv.ite (State.Inv.ite hs (State.Inv.ite (State.Inv.ite (State.endRelease_inv hs) (State.Inv.ite (State.endRelease_inv (.of_mem (State.releaseL1_mem ..) hs)) (.update (.of_mem (State.releaseL1_mem ..) hs)))) (State.Inv.ite (.of_mem (State.acquireL1_mem ..) hs) hs))) (State.Inv.ite hs (State.endRelease_inv hs))
theorem State.settle_inv {s : State} (hs : s.Inv) : s.settle.Inv := State.Inv.foldl (fun _ _ hs => State.moveHold_inv hs) _ hs
theorem State.startRelease_inv {s : State} {gid scope : Nat} {whole : Bool} (hs : s.Inv) : (s.startRelease gid scope whole).2.Inv :=
  .update (State.flushCombine_inv hs)
/-- A step that opens a release when `p` holds. -/
theorem State.startReleaseIf_inv {s : State} {gid scope : Nat} {p : Prop} [Decidable p] (hs : s.Inv) :
    (if p then (let z := s.startRelease gid scope false; (some z.1, z.2)) else (none, s)).2.Inv := by
  split
  · exact State.startRelease_inv hs
  · exact hs
theorem State.commitEntry_inv {s : State} {gid : Nat} {retire : Bool} {e : BufEntry} (hs : s.Inv) : (s.commitEntry gid retire e).Inv := by
  unfold State.commitEntry
  dsimp only
  split
  · exact .of_mem (State.partsDone_mem ..) (.of_mem (State.writeScratch_mem ..) hs)
  · exact State.Inv.ite (.of_mem (State.partsDone_mem ..) hs) (State.request_inv hs)
  · exact State.request_inv hs
theorem State.commitRegion_inv {s : State} {gid : Nat} {slotB retire : Bool} (hs : s.Inv) : (s.commitRegion gid slotB retire).Inv := .of_mem (State.modGroup_mem ..) (State.Inv.foldl (fun _ _ hs => State.commitEntry_inv hs) _ hs)

/-! #### Issue -/

theorem State.logStack_inv {s : State} {c : Iss} {f : Flt} (hs : s.Inv) : (s.logStack c f).Inv := by
  unfold State.logStack
  split
  · exact hs
  · dsimp only
    split
    · exact .of_mem (State.logRead_mem ..) hs
    · exact hs
theorem State.trapAt_inv {s : State} {c : Iss} {f : Flt} (hs : s.Inv) : (s.trapAt c f).Inv := .of_mem (State.takeTrap_mem ..) (State.logStack_inv (.of_mem (State.logLasting_mem ..) hs))
theorem issue_inv {i : Instr} {s : State} {pre : Iss → Option Flt} {eff : Iss → State → Except Flt State} (heff : ∀ (c : Iss) (t : State), t.Inv → OkInv (eff c t)) (hs : s.Inv) : NextInv (issue i s pre eff) := by
  unfold issue
  split
  · exact hs
  next gr _ =>
    have ht : OkInv (eff (s.issuer gr) (s.begin (s.issuer gr) i)) := heff _ _ (.of_mem (State.begin_mem ..) hs)
    dsimp only
    split
    · exact State.trapAt_inv hs
    · split
      · exact State.trapAt_inv hs
      · split
        · exact State.trapAt_inv hs
        next he => exact State.Inv.of_mem (State.written_mem ..) (ht.ok he)
theorem issue2_inv {i : Instr} {s : State} {pre : Iss → Option Flt} {first : Iss → State → Except Flt State} {again : Iss → Wait → State → Except Flt State}
    (hfirst : ∀ (c : Iss) (t : State), t.Inv → OkInv (first c t)) (hagain : ∀ (c : Iss) (w : Wait) (t : State), t.Inv → OkInv (again c w t)) (hs : s.Inv) : NextInv (issue2 i s pre first again) := by
  unfold issue2
  split
  · exact hs
  · split
    · exact issue_inv hfirst hs
    · dsimp only
      split
      · exact hs
      next w _ =>
        split
        · exact State.Inv.of_mem (State.trapHeld_mem ..) hs
        next he => exact State.Inv.of_mem (State.written_mem ..) (OkInv.ok (hagain _ w _ (.of_mem (State.setGroup_mem ..) (.update hs))) he)

/-! #### Forms -/

theorem lanewise_inv {i : Instr} {o : FOps} {s : State} {f : Iss → State → Nat → Word} (hs : s.Inv) : NextInv (lanewise i o s f) := issue_inv (fun _ _ hs => hs) hs
theorem lanewise2_inv {i : Instr} {o : FOps} {s : State} {f : Word → Word → Word} (hs : s.Inv) : NextInv (lanewise2 i o s f) := lanewise_inv hs
theorem lanewise3_inv {i : Instr} {o : FOps} {s : State} {f : Word → Word → Word → Word} (hs : s.Inv) : NextInv (lanewise3 i o s f) := lanewise_inv hs
theorem lanewise1_inv {i : Instr} {o : FOps} {s : State} {f : Word → Word} (hs : s.Inv) : NextInv (lanewise1 i o s f) := lanewise_inv hs
theorem checked_inv {i : Instr} {o : FOps} {s : State} {chk : Bool} {f : Iss → State → Nat → List Nat × FFlags} (hs : s.Inv) : NextInv (checked i o s chk f) := by
  unfold checked
  refine issue_inv (fun _ _ hs => ?_) hs
  dsimp only
  split
  · trivial
  · exact hs
theorem checked1_inv {i : Instr} {o : FOps} {s : State} {f : Iss → State → Nat → Nat × FFlags} (hs : s.Inv) : NextInv (checked1 i o s f) := checked_inv hs
theorem predwise_inv {i : Instr} {o : FOps} {s : State} {f : Iss → State → Nat → Bool} (hs : s.Inv) : NextInv (predwise i o s f) := issue_inv (fun _ _ hs => hs) hs
theorem scalar_inv {i : Instr} {o : FOps} {s : State} {f : Iss → State → Word} (hs : s.Inv) : NextInv (scalar i o s f) := issue_inv (fun _ _ hs => hs) hs

/-! #### GlobalMem -/

theorem State.requestLines_inv {s : State} {r : Req} {behind : Option Nat} {lines : Table (Table Byte)} (hs : s.Inv) : (s.requestLines r behind lines).Inv := State.Inv.foldl (fun _ _ hs => State.request_inv hs) _ hs
theorem State.flushLines_inv {s : State} {gid : Nat} {lines : List Nat} (hs : s.Inv) : (s.flushLines gid lines).Inv := State.flushCombine_inv hs
theorem State.startLoad_inv {s : State} {c : Iss} {i : Instr} {o : FOps} {hint : Nat} {ptm : Bool} {space : Space} {kind scope size : Nat} {dest : Dest} {lanes : List (Nat × Nat)} (hs : s.Inv) : (s.startLoad c i o hint ptm space kind scope size dest lanes).Inv := by
  have h0 : (if kind = 3 then s.commitRegion c.gid c.slotB else s).Inv := .ite (State.commitRegion_inv hs) hs
  unfold State.startLoad
  extract_lets s0
  split
  · exact .of_mem (State.emptyOp_mem ..) h0
  next lines s1 x h ownB n r =>
    extract_lets s2 s3
    have hn : n.2.Inv := .of_mem (State.newOp_mem ..) (State.startReleaseIf_inv (State.flushLines_inv h0))
    have h2 : s2.Inv := by
      unfold s2
      split
      · exact .of_mem (State.putOp_mem ..) hn
      · exact hn
    exact State.settle_inv (State.requestLines_inv (.ite (.of_mem (State.startAcquire_mem ..) h2) h2))
theorem State.putStore_inv {s : State} {c : Iss} {i : Instr} {space : Space} {strong : Bool} {hint scope : Nat} {bs : List (Nat × Byte)} {who : List (Nat × Nat)} (hs : s.Inv) : (s.putStore c i space strong hint scope bs who).Inv := by
  unfold State.putStore
  dsimp only
  refine .of_mem (State.modGroup_mem ..) ?_
  split
  · exact .of_mem (State.putOp_mem ..) (.of_mem (State.newOp_mem ..) (State.Inv.ite (State.commitRegion_inv hs) hs))
  · exact .of_mem (State.newOp_mem ..) (State.Inv.ite (State.commitRegion_inv hs) hs)
theorem State.startStore_inv {s : State} {c : Iss} {i : Instr} {o : FOps} {kind scope : Nat} {bs : List (Nat × Byte)} {lane : Nat} {who : List (Nat × Nat)} (hs : s.Inv) : (s.startStore c i o kind scope bs lane who).Inv := by
  unfold State.startStore
  dsimp only
  split
  · exact State.Inv.ite (State.commitRegion_inv hs) hs
  · split
    · exact State.putStore_inv (State.flushLines_inv (State.Inv.ite (State.commitRegion_inv hs) hs))
    · refine State.settle_inv ?_
      refine State.requestLines_inv ?_
      split
      · refine .of_mem (State.startAcquire_mem ..) ?_
        split
        · exact .of_mem (State.putOp_mem ..) (.of_mem (State.newOp_mem ..) (State.startRelease_inv (State.flushLines_inv (State.Inv.ite (State.commitRegion_inv hs) hs))))
        · exact .of_mem (State.newOp_mem ..) (State.startRelease_inv (State.flushLines_inv (State.Inv.ite (State.commitRegion_inv hs) hs)))
      · split
        · exact .of_mem (State.putOp_mem ..) (.of_mem (State.newOp_mem ..) (State.startRelease_inv (State.flushLines_inv (State.Inv.ite (State.commitRegion_inv hs) hs))))
        · exact .of_mem (State.newOp_mem ..) (State.startRelease_inv (State.flushLines_inv (State.Inv.ite (State.commitRegion_inv hs) hs)))
theorem execLd_inv {o : FOps} {s : State} (hs : s.Inv) : NextInv (execLd o s) := by
  unfold execLd
  refine issue_inv (fun _ _ hs => ?_) hs
  dsimp only
  split
  · trivial
  · exact State.startLoad_inv hs
theorem execSt_inv {o : FOps} {s : State} (hs : s.Inv) : NextInv (execSt o s) := by
  unfold execSt
  refine issue_inv (fun _ _ hs => ?_) hs
  dsimp only
  split
  · trivial
  · exact State.startStore_inv hs
theorem execSld_inv {o : FOps} {s : State} (hs : s.Inv) : NextInv (execSld o s) := by
  unfold execSld
  refine issue_inv (fun _ _ hs => ?_) hs
  dsimp only
  split
  · trivial
  · exact State.startLoad_inv hs
theorem execSst_inv {o : FOps} {s : State} (hs : s.Inv) : NextInv (execSst o s) := by
  unfold execSst
  refine issue_inv (fun _ _ hs => ?_) hs
  dsimp only
  split
  · trivial
  · exact State.startStore_inv hs
theorem execLdp_inv {o : FOps} {s : State} (hs : s.Inv) : NextInv (execLdp o s) := by
  unfold execLdp
  refine issue_inv (fun _ _ hs => ?_) hs
  split
  · trivial
  · exact State.startLoad_inv hs
theorem execStp_inv {o : FOps} {s : State} (hs : s.Inv) : NextInv (execStp o s) := by
  unfold execStp
  refine issue_inv (fun _ _ hs => ?_) hs
  split
  · trivial
  · exact hs
  · exact State.putStore_inv (State.flushLines_inv hs)
theorem maintainWord_inv {i : Instr} {o : FOps} {s : State} {inv : Bool} (hs : s.Inv) : NextInv (maintainWord i o s inv) := by
  unfold maintainWord
  refine issue_inv (fun _ _ hs => ?_) hs
  dsimp only
  split
  · exact hs
  · split
    · exact .of_mem (State.maintainAll_mem ..) hs
    · split
      · trivial
      · refine State.requestLines_inv ?_
        split
        · exact .of_mem (State.putOp_mem ..) (.of_mem (State.newOp_mem ..) hs)
        · exact .of_mem (State.newOp_mem ..) hs

/-! #### Atomic -/

theorem State.startAtomic_inv {s : State} {c : Iss} {i : Instr} {kind scope : Nat} {dest : Dest} {r : Req} {x y : Nat → Nat} {lanes : List (Nat × Nat)} (hs : s.Inv) : (s.startAtomic c i kind scope dest r x y lanes).Inv := by
  unfold State.startAtomic
  split
  · exact .ite (.of_mem (State.emptyOp_mem ..) hs) hs
  · extract_lets as s1 z h n s2
    have hn : n.2.Inv := .of_mem (State.newOp_mem ..) (State.startReleaseIf_inv (State.flushLines_inv hs))
    exact State.settle_inv (.foldl (fun _ _ hs => State.request_inv hs) _ (.ite (.of_mem (State.startAcquire_mem ..) hn) hn))
theorem atomFront_inv {c : Iss} {t : State} {o : FOps} {go : State → List (Nat × Nat) → State} (hgo : ∀ (u : State) (l : List (Nat × Nat)), u.Inv → (go u l).Inv) (hs : t.Inv) : OkInv (atomFront c t o go) := by
  unfold atomFront
  dsimp only
  split
  · trivial
  · exact hgo _ _ (State.commitRegion_inv hs)
theorem State.combineRed_inv {s0 : State} {c : Iss} {op ty kind scope addr : Nat} {xs : List (Nat × Nat)} (hs : s0.Inv) : (s0.combineRed c op ty kind scope addr xs).Inv := State.Inv.ite (.of_mem (State.modCluster_mem ..) (.of_mem (State.yieldLine_mem ..) hs)) (State.Inv.ite (.of_mem (State.modCluster_mem ..) (.of_mem (State.yieldLine_mem ..) hs)) (State.request_inv (.of_mem (State.yieldLine_mem ..) hs)))
theorem execRed_inv {o : FOps} {s : State} (hs : s.Inv) : NextInv (execRed o s) := by
  unfold execRed
  refine issue_inv (fun _ _ hs => ?_) hs
  refine atomFront_inv (fun _ _ hs => ?_) hs
  dsimp only
  split
  · exact hs
  · split
    · exact State.startAtomic_inv hs
    · refine .foldl (fun _ _ hs => State.combineRed_inv hs) _ ?_
      split
      · exact .of_mem (State.putOp_mem ..) (.of_mem (State.newOp_mem ..) (State.flushCombine_inv hs))
      · exact .of_mem (State.newOp_mem ..) (State.flushCombine_inv hs)
theorem execAcont_inv {o : FOps} {s : State} (hs : s.Inv) : NextInv (execAcont o s) := by
  unfold execAcont
  exact issue_inv (fun _ _ hs => atomFront_inv (fun _ _ hs => State.startAtomic_inv hs) hs) hs
theorem execFence_inv {o : FOps} {s : State} (hs : s.Inv) : NextInv (execFence o s) := by
  refine issue_inv (fun c t ht => ?_) hs
  extract_lets k x h g loads
  have hh : h.2.Inv := by
    unfold h
    split
    · exact State.startRelease_inv (State.commitRegion_inv ht)
    · exact State.flushCombine_inv ht
  exact State.settle_inv (.ite (.of_mem (State.startAcquire_mem ..) hh) hh)

/-! #### Clock -/

theorem execRelockComplete_inv {cluster : Nat} {s : State} (hs : s.Inv) : NextInv (execRelockComplete cluster s) := by
  unfold execRelockComplete
  split
  · exact hs
  · exact .update (.of_mem (State.retarget_mem ..) hs)

/-! #### NearMem -/

theorem State.scratchStore_inv {s : State} {c : Iss} {i : Instr} {size : Nat} {word : Nat → Nat → Word} {lanes : List (Nat × Nat)} (hs : s.Inv) : (s.scratchStore c i size word lanes).Inv := State.Inv.ite hs (.of_mem (State.countPasses_mem ..) (State.putStore_inv hs))
theorem execLds_inv {o : FOps} {s : State} (hs : s.Inv) : NextInv (execLds o s) := by
  unfold execLds
  refine issue_inv (fun _ _ hs => ?_) hs
  dsimp only
  split
  · trivial
  · split
    · trivial
    · exact .of_mem (State.scratchLoad_mem ..) hs
theorem execSts_inv {o : FOps} {s : State} (hs : s.Inv) : NextInv (execSts o s) := by
  unfold execSts
  refine issue_inv (fun _ _ hs => ?_) hs
  dsimp only
  split
  · trivial
  · exact State.scratchStore_inv hs
theorem execTld_inv {o : FOps} {s : State} (hs : s.Inv) : NextInv (execTld o s) := by
  unfold execTld
  refine issue_inv (fun _ _ hs => ?_) hs
  split
  · exact OkInv.ite trivial hs
  · split
    · trivial
    · split
      · trivial
      · exact .of_mem (State.newOp_mem ..) (.of_mem (State.spRead_mem ..) hs)
theorem execTst_inv {o : FOps} {s : State} (hs : s.Inv) : NextInv (execTst o s) := by
  unfold execTst
  refine issue_inv (fun _ _ hs => ?_) hs
  split
  · exact OkInv.ite trivial hs
  · split
    · trivial
    · exact State.putStore_inv hs

/-! #### Palette -/

theorem State.fillLine_inv {s : State} {team slot line : Nat} (hs : s.Inv) : (s.fillLine team slot line).Inv := State.Inv.ite (.of_mem (State.setL1_mem ..) (State.Inv.ite (.of_mem (State.roomL1_mem ..) hs) hs)) (State.request_inv (.of_mem (State.setL1_mem ..) (State.Inv.ite (.of_mem (State.roomL1_mem ..) hs) hs)))
theorem State.refillLines_inv {s : State} {team : Nat} (hs : s.Inv) : (s.refillLines team).Inv := State.Inv.foldl (fun _ _ hs => State.fillLine_inv hs) _ hs
theorem State.admitGroup_inv {s : State} {team slot starter : Nat} {E rem : List Nat} (hs : s.Inv) : (s.admitGroup team slot starter E rem).Inv := State.Inv.foldl (fun _ _ hs => State.fillLine_inv hs) _ (.of_mem (State.countCore_mem ..) (.of_mem (State.releaseLines_mem ..) hs))
theorem State.palMove_inv {s : State} {team fuel : Nat} (hs : s.Inv) : (s.palMove team fuel).Inv := by
  induction fuel generalizing s with
  | zero => exact hs
  | succ n ih =>
    unfold State.palMove
    dsimp only
    split
    · exact ih (.of_mem (State.completeFill_mem ..) hs)
    · split
      · exact hs
      · split
        · exact hs
        · exact ih (State.admitGroup_inv (.of_mem (State.modTeam_mem ..) hs))
theorem execPdecl_inv {o : FOps} {s : State} (hs : s.Inv) : NextInv (execPdecl o s) := by
  unfold execPdecl
  refine issue_inv (fun _ _ hs => ?_) hs
  dsimp only
  split
  · exact State.commitRegion_inv hs
  · split
    · exact .of_mem (State.modGroup_mem ..) (State.commitRegion_inv hs)
    · split
      · exact .of_mem (State.modGroup_mem ..) (State.commitRegion_inv hs)
      · exact OkInv.ite (.of_mem (State.modGroup_mem ..) (State.commitRegion_inv hs)) (.of_mem (State.modGroup_mem ..) (.of_mem (State.modTeam_mem ..) (State.commitRegion_inv hs)))
theorem execPenter_inv {o : FOps} {s : State} (hs : s.Inv) : NextInv (execPenter o s) := by
  unfold execPenter
  refine issue_inv (fun _ _ hs => ?_) hs
  dsimp only
  split
  · exact State.commitRegion_inv hs
  · split
    · trivial
    · split
      · exact .of_mem (State.modTeam_mem ..) (.of_mem (State.modGroup_mem ..) (.of_mem (State.modTeam_mem ..) (State.commitRegion_inv hs)))
      · exact .of_mem (State.modTeam_mem ..) (.of_mem (State.modGroup_mem ..) (.of_mem (State.modTeam_mem ..) (State.commitRegion_inv hs)))
      · exact .of_mem (State.modGroup_mem ..) (.of_mem (State.modTeam_mem ..) (State.commitRegion_inv hs))
      · exact .of_mem (State.modGroup_mem ..) (.of_mem (State.modGroup_mem ..) (.of_mem (State.modTeam_mem ..) (State.commitRegion_inv hs)))
      · split
        · exact .of_mem (State.modTeam_mem ..) (.of_mem (State.modGroup_mem ..) (.of_mem (State.modTeam_mem ..) (State.commitRegion_inv hs)))
        · split
          · exact State.palMove_inv (State.admitGroup_inv (.of_mem (State.modGroup_mem ..) (.of_mem (State.modTeam_mem ..) (State.commitRegion_inv hs))))
          · exact .of_mem (State.modGroup_mem ..) (.of_mem (State.modTeam_mem ..) (.of_mem (State.modGroup_mem ..) (.of_mem (State.modTeam_mem ..) (State.commitRegion_inv hs))))
theorem State.dropPalette_inv {s : State} {team k : Nat} (hs : s.Inv) : (s.dropPalette team k).Inv := State.palMove_inv (.of_mem (State.modTeam_mem ..) (State.Inv.ite (.of_mem (State.releaseLines_mem ..) hs) hs))

/-! #### Retire -/

theorem State.retireGroup_inv {s : State} {gid : Nat} {slotB : Bool} (hs : s.Inv) : (s.retireGroup gid slotB).Inv := State.Inv.ite (.of_mem (State.modTeam_mem ..) (.update (.of_mem (State.modContext_mem ..) (.of_mem (State.unlinkOps_mem ..) (.of_mem (State.freeGranules_mem ..) (.of_mem (State.dropPtm_mem ..) (State.commitRegion_inv hs))))))) (.of_mem (State.retireTeam_mem ..) (.of_mem (State.modTeam_mem ..) (.update (.of_mem (State.modContext_mem ..) (.of_mem (State.unlinkOps_mem ..) (.of_mem (State.freeGranules_mem ..) (.of_mem (State.dropPtm_mem ..) (State.commitRegion_inv hs))))))))

/-! #### Control -/

theorem execRet_inv {o : FOps} {s : State} (hs : s.Inv) : NextInv (execRet o s) := by
  unfold execRet
  refine issue_inv (fun _ _ hs => ?_) hs
  dsimp only
  split
  · trivial
  · exact hs
theorem State.readTable_inv {s : State} {c : Iss} {i : Instr} {o : FOps} {link : Option Nat} (hs : s.Inv) : OkInv (s.readTable c i o link) := OkInv.ite trivial (OkInv.ite trivial (OkInv.ite trivial (.of_mem (State.holdSlot_mem ..) (State.requestLines_inv (.of_mem (State.newOp_mem ..) hs)))))
theorem State.jumpTable_inv {s : State} {c : Iss} {o : FOps} {link : Option Nat} {x : Op} {b a : Nat} (hs : s.Inv) : OkInv (s.jumpTable c o link x b a) := by
  unfold State.jumpTable
  extract_lets base idx pc
  clear_value base idx pc
  refine @OkInv.ite _ _ _ _ ?_ ?_
  · trivial
  refine @OkInv.ite _ _ _ _ ?_ ?_
  · trivial
  split
  · trivial
  · refine State.Inv.of_mem (State.goto_mem ..) ?_
    split
    · exact .of_mem (State.modGroup_mem ..) hs
    · exact hs
theorem tableJump_inv {i : Instr} {o : FOps} {link : Option Nat} {s : State} (hs : s.Inv) : NextInv (tableJump i o link s) := by
  unfold tableJump
  split
  · exact hs
  · split
    · exact issue_inv (fun _ _ hs => State.readTable_inv hs) hs
    · dsimp only
      split
      · exact hs
      · split
        · split
          · exact hs
          · split
            · split
              · exact .of_mem (State.trapSlot_mem ..) hs
              next he6 =>
                exact .of_mem (State.written_mem ..) (OkInv.ok (State.jumpTable_inv (.update (.of_mem (State.setGroup_mem ..) (.update hs)))) he6)
            · exact hs
        · exact hs
theorem State.stackWrite_inv {s : State} {gid x2 : Nat} {e : SEntry} (hs : s.Inv) : OkInv (s.stackWrite gid x2 e) := by
  unfold State.stackWrite
  dsimp only
  split
  · split
    · exact .of_mem (State.mendL1_mem ..) hs
    · split
      · trivial
      next he2 =>
        exact .of_mem (State.mendL1_mem ..) (.of_mem (State.setL1_mem ..) (OkInv.ok (State.slicePoke_inv (.update hs)) he2))
  · exact State.slicePoke_inv hs
theorem State.trimStack_inv {s : State} {gid n : Nat} (hs : s.Inv) : OkInv (s.trimStack gid n) := by
  induction n generalizing s with
  | zero => exact hs
  | succ n ih =>
    unfold State.trimStack
    dsimp only
    split
    · exact hs
    · split
      · trivial
      · exact .ite hs (ih (.of_mem (State.modGroup_mem ..) hs))
theorem State.reown_inv {s : State} {gid : Nat} {who : SEntry → Bool} {to_ : Bool} {l : List (Nat × SEntry)} (hs : s.Inv) : OkInv (s.reown gid who to_ l) := by
  induction l generalizing s with
  | nil => exact hs
  | cons x l ih =>
    unfold State.reown
    split
    · split
      · trivial
      next he => exact ih ((State.stackWrite_inv hs).ok he)
    · exact ih hs
theorem execBrs_inv {o : ImmOps} {s : State} (hs : s.Inv) : NextInv (execBrs o s) := by
  unfold execBrs
  refine issue_inv (fun _ _ hs => ?_) hs
  dsimp only
  split
  · split
    · exact hs
    · split
      · exact hs
      · split
        · exact .of_mem (State.recordAfter_mem ..) (.of_mem (State.modGroup_mem ..) (State.commitRegion_inv hs))
        · split
          · trivial
          · split
            · trivial
            next he5 =>
              exact .of_mem (State.recordAfter_mem ..) (.of_mem (State.modGroup_mem ..) (OkInv.ok (State.stackWrite_inv (State.commitRegion_inv hs)) he5))
  · split
    · exact hs
    · split
      · exact hs
      · split
        · exact .of_mem (State.recordAfter_mem ..) (.of_mem (State.modGroup_mem ..) (State.commitRegion_inv hs))
        · split
          · trivial
          · split
            · trivial
            next he5 =>
              exact .of_mem (State.recordAfter_mem ..) (.of_mem (State.modGroup_mem ..) (OkInv.ok (State.stackWrite_inv (State.commitRegion_inv hs)) he5))
theorem State.reconverge_inv {s : State} {gid : Nat} (hs : s.Inv) : (s.reconverge gid).Inv := State.settle_inv hs
theorem State.joinEntry_inv {s : State} {c : Iss} {J : DWord} {x3 : Nat} {e : SEntry} (hs : s.Inv) : OkInv (s.joinEntry c J x3 e) := by
  unfold State.joinEntry
  dsimp only
  split
  · split
    · trivial
    next he1 =>
      exact .of_mem (State.recordAfter_mem ..) (.of_mem (State.modGroup_mem ..) (.of_mem (State.goto_mem ..) (OkInv.ok (State.stackWrite_inv (State.reconverge_inv (State.commitRegion_inv hs))) he1)))
  · split
    · trivial
    next he1 =>
      split
      · trivial
      next he2 =>
        exact .of_mem (State.recordAfter_mem ..) (.of_mem (State.modGroup_mem ..) (.of_mem (State.goto_mem ..) (OkInv.ok (State.trimStack_inv (OkInv.ok (State.stackWrite_inv (State.reconverge_inv (State.commitRegion_inv hs))) he1)) he2)))
theorem State.joinSlots_inv {s : State} {c : Iss} {J : DWord} (hs : s.Inv) : OkInv (s.joinSlots c J) := by
  unfold State.joinSlots
  dsimp only
  split
  · trivial
  · split
    · trivial
    next he1 =>
      exact .of_mem (State.recordAfter_mem ..) (OkInv.ok (State.reown_inv (.of_mem (State.modGroup_mem ..) (State.reconverge_inv (State.commitRegion_inv hs)))) he1)
theorem execJoin_inv {o : ImmOps} {s : State} (hs : s.Inv) : NextInv (execJoin o s) := by
  unfold execJoin
  refine issue_inv (fun _ _ hs => ?_) hs
  dsimp only
  split
  · trivial
  · split
    · exact State.joinEntry_inv (.of_mem (State.stackTook_mem ..) hs)
    · exact OkInv.ite (State.joinSlots_inv (.of_mem (State.stackTook_mem ..) (.of_mem (State.stackTook_mem ..) hs))) (OkInv.ite (.of_mem (State.modGroup_mem ..) (.of_mem (State.goto_mem ..) (.of_mem (State.stackTook_mem ..) hs))) (.of_mem (State.goto_mem ..) (.of_mem (State.stackTook_mem ..) hs)))
theorem State.freeSlot_inv {s : State} {c : Iss} (hs : s.Inv) : OkInv (s.freeSlot c) := by
  unfold State.freeSlot
  dsimp only
  split
  · trivial
  · split
    · trivial
    next he1 =>
      exact .of_mem (State.modGroup_mem ..) (OkInv.ok (State.reown_inv (.of_mem (State.modGroup_mem ..) (State.commitRegion_inv hs))) he1)
theorem State.takeEntry_inv {s : State} {c : Iss} (hs : s.Inv) : OkInv (s.takeEntry c) := by
  unfold State.takeEntry
  split
  · trivial
  · split
    · exact hs
    · split
      · trivial
      next he2 =>
        split
        · trivial
        next he3 =>
          split
          · trivial
          next he4 =>
            exact .of_mem (State.modGroup_mem ..) (OkInv.ok (State.trimStack_inv (OkInv.ok (State.reown_inv (OkInv.ok (State.stackWrite_inv hs) he2)) he3)) he4)
theorem State.exitSlot_inv {s : State} {c : Iss} {i : Instr} (hs : s.Inv) : OkInv (s.exitSlot c i) := by
  unfold State.exitSlot
  split
  · trivial
  · split
    · exact OkInv.ite (.of_mem (State.block_mem ..) (.of_mem (State.stackTook_mem ..) hs)) (State.retireGroup_inv (.of_mem (State.stackTook_mem ..) hs))
    · split
      · trivial
      next he2 =>
        have h1 := (State.freeSlot_inv hs).ok he2
        split
        · trivial
        next he3 => exact .of_mem (State.stackTook_mem ..) (.of_mem (State.recordAfter_mem ..) ((OkInv.ite (State.takeEntry_inv h1) (q := .ok _) h1).ok he3))
theorem execRegroup_inv {o : FOps} {s : State} (hs : s.Inv) : NextInv (execRegroup o s) := by
  unfold execRegroup
  refine issue2_inv (fun _ _ hs => .of_mem (State.block_mem ..) (State.commitRegion_inv (.of_mem (State.stackTook_mem ..) hs))) (fun _ _ _ hs => ?_) hs
  dsimp only
  split
  · exact .of_mem (State.regroupAll_mem ..) hs
  · refine State.Inv.foldl (fun _ _ hs => ?_) _ hs
    split
    · exact .of_mem (State.trapHeld_mem ..) hs
    · exact hs

/-! #### Packed -/

theorem packed2_inv {i : Instr} {o : FOps} {s : State} {f : Nat → Nat → Nat × FFlags} (hs : s.Inv) : NextInv (packed2 i o s f) := checked1_inv hs

/-! #### Convert -/

theorem convert_inv {i : Instr} {o : FOps} {s : State} {ws wd : Nat} {f : Nat → Nat × FFlags} (hs : s.Inv) : NextInv (convert i o s ws wd f) := by
  unfold convert
  dsimp only
  refine issue_inv (fun _ _ hs => ?_) hs
  split
  · trivial
  · exact hs
theorem execCvtff_inv {o : FOps} {s : State} (hs : s.Inv) : NextInv (execCvtff o s) := by
  unfold execCvtff
  exact convert_inv hs
theorem execCvtfi_inv {o : FOps} {s : State} (hs : s.Inv) : NextInv (execCvtfi o s) := by
  unfold execCvtfi
  exact convert_inv hs
theorem execCvtif_inv {o : FOps} {s : State} (hs : s.Inv) : NextInv (execCvtif o s) := by
  unfold execCvtif
  exact convert_inv hs

/-! #### Matrix -/

theorem mxIssue_inv {i : Instr} {s : State} {work : Iss → State → MxWork} (hs : s.Inv) : NextInv (mxIssue i s work) := issue_inv (fun _ _ hs => .of_mem (State.queueMx_mem ..) (.of_mem (State.newOp_mem ..) hs)) hs
theorem mmaIssue_inv {i : Instr} {o : FOps} {s : State} {sat : Bool} {scales : Iss → Option (List Word × List Word × Nat)} (hs : s.Inv) : NextInv (mmaIssue i o s sat scales) := issue_inv (fun _ _ hs => .of_mem (State.modGroup_mem ..) (.of_mem (State.queueMx_mem ..) (.of_mem (State.newOp_mem ..) hs))) hs
theorem execAload_inv {o : FOps} {s : State} (hs : s.Inv) : NextInv (execAload o s) := by
  unfold execAload
  refine issue_inv (fun _ _ hs => ?_) hs
  dsimp only
  split
  · trivial
  · split
    · split
      · trivial
      · refine .of_mem (State.queueMx_mem ..) ?_
        split
        · exact .of_mem (State.putOp_mem ..) (.of_mem (State.newOp_mem ..) (.of_mem (State.spRead_mem ..) hs))
        · exact .of_mem (State.newOp_mem ..) (.of_mem (State.spRead_mem ..) hs)
    · refine State.requestLines_inv ?_
      refine .of_mem (State.queueMx_mem ..) ?_
      split
      · exact .of_mem (State.putOp_mem ..) (.of_mem (State.newOp_mem ..) (State.flushLines_inv hs))
      · exact .of_mem (State.newOp_mem ..) (State.flushLines_inv hs)
theorem execAtbl_inv {o : FOps} {s : State} (hs : s.Inv) : NextInv (execAtbl o s) := by
  refine issue_inv (fun c t ht => ?_) hs
  extract_lets base as lines s0 ownB n s1
  clear_value base
  refine @OkInv.ite _ _ _ _ ?_ ?_
  · trivial
  refine @OkInv.ite _ _ _ _ ?_ ?_
  · trivial
  refine State.requestLines_inv (.of_mem (State.queueMx_mem ..) ?_)
  have hn : n.2.Inv := .of_mem (State.newOp_mem ..) (State.flushLines_inv ht)
  unfold s1
  split
  · exact .of_mem (State.putOp_mem ..) hn
  · exact hn
theorem execDrain_inv {o : FOps} {s : State} (hs : s.Inv) : NextInv (execDrain o s) := by
  unfold execDrain
  refine issue_inv (fun _ _ hs => ?_) hs
  dsimp only
  split
  · trivial
  · exact .of_mem (State.queueMx_mem ..) (.of_mem (State.newOp_mem ..) (State.commitRegion_inv hs))

/-! #### Nodes -/

theorem State.putRing_inv {s : State} {ctx key i : Nat} {rec : List Word} (hs : s.Inv) : (s.putRing ctx key i rec).Inv := by
  unfold State.putRing
  dsimp only
  split
  next he =>
    exact OkInv.ok (State.slicePokes_inv hs) he
  · exact .of_mem (State.taskFault_mem ..) (State.pokesMet_inv hs)
theorem State.storeRecord_inv {s : State} {ctx key : Nat} {rec : List Word} (hs : s.Inv) : (s.storeRecord ctx key rec).Inv := State.Inv.ite hs (State.putRing_inv hs)
theorem State.addEntry_inv {s : State} {ctx key : Nat} {source : Option Nat} {rec : List Word} (hs : s.Inv) : (s.addEntry ctx key source rec).Inv := by
  unfold State.addEntry
  dsimp only
  split
  · exact State.Inv.ite hs (State.putRing_inv hs)
  · exact hs
theorem State.acceptAll_inv {s : State} {ctx key : Nat} {source : Option Nat} {recs : List (List Word)} (hs : s.Inv) : (s.acceptAll ctx key source recs).Inv := State.Inv.ite (State.Inv.foldl (fun _ _ hs => State.addEntry_inv hs) _ hs) (.of_mem (State.settleNode_mem ..) (State.Inv.foldl (fun _ _ hs => State.storeRecord_inv hs) _ hs))
theorem State.accept_inv {s : State} {ctx key : Nat} {source : Option Nat} {rec : List Word} (hs : s.Inv) : (s.accept ctx key source rec).Inv := State.acceptAll_inv hs
theorem State.routerPush_inv {s : State} {die idx ctx : Nat} {source : Option Nat} {target : Word} {rec : List Word} (hs : s.Inv) : (s.routerPush die idx ctx source target rec).Inv := by
  unfold State.routerPush
  dsimp only
  split
  · exact State.accept_inv hs
  · split
    · exact .of_mem (State.raise_mem ..) hs
    · split
      · exact hs
      · exact .of_mem (State.raiseEngine_mem ..) hs
theorem State.route_inv {s : State} {die idx : Nat} {r : Router} {source : Option Nat} {rec : List Word} (hs : s.Inv) : (s.route die idx r source rec).Inv := by
  unfold State.route
  dsimp only
  split
  · exact State.Inv.ite (State.routerPush_inv hs) hs
  · split
    · exact State.routerPush_inv hs
    · split
      · exact State.Inv.ite (.of_mem (State.modDie_mem ..) (State.routerPush_inv (.of_mem (State.countDie_mem ..) hs))) (State.routerPush_inv (.of_mem (State.countDie_mem ..) hs))
      · exact State.routerPush_inv (.of_mem (State.countDie_mem ..) hs)

/-! #### SliceEvents -/

theorem execWalkComplete_inv {n : Nat} {s : State} (hs : s.Inv) : NextInv (execWalkComplete n s) := by
  unfold execWalkComplete
  split
  · exact hs
  · split
    · exact hs
    · dsimp only
      split
      · exact .of_mem (State.sliceFault_mem ..) (.of_mem (State.walkDone_mem ..) (.of_mem (State.logRead_mem ..) hs))
      · split
        · exact State.settle_inv (.of_mem (State.maintain_mem ..) (.of_mem (State.walkDone_mem ..) hs))
        · exact .of_mem (State.putReq_mem ..) (.of_mem (State.modSlice_mem ..) (State.openLine_inv (.of_mem (State.walkDone_mem ..) hs)))
theorem execMemoryFillReturn_inv {n : Nat} {s : State} (hs : s.Inv) : NextInv (execMemoryFillReturn n s) := by
  unfold execMemoryFillReturn
  split
  · exact hs
  · refine .ite hs ?_
    split
    · exact .of_mem (State.putReq_mem ..) hs
    · split
      next he =>
        obtain ⟨f, _, rfl⟩ := Option.map_eq_some_iff.mp he
        exact State.Inv.of_mem (State.sliceFault_mem ..) (.of_mem (State.logRead_mem ..) hs)
      · extract_lets l1 stream s1
        have h1 : s1.Inv := .of_mem (State.modSlice_mem ..) (.of_mem (State.accessLine_mem ..) (.of_mem (State.memRetried_mem ..) hs))
        exact State.Inv.ite (.of_mem (State.endPrefetch_mem ..) h1) (.of_mem (State.putReq_mem ..) h1)
theorem execSliceLoad_inv {n : Nat} {s : State} (hs : s.Inv) : NextInv (execSliceLoad n s) := by
  unfold execSliceLoad
  dsimp only
  split
  · exact .of_mem (State.reach_mem ..) hs
  · split
    · split
      · exact .of_mem (State.toWalk_mem ..) (.of_mem (State.reach_mem ..) hs)
      · exact NextInv.ite (.of_mem (State.endPrefetch_mem ..) (.of_mem (State.useful_mem ..) (.of_mem (State.reach_mem ..) hs))) (.of_mem (State.putReq_mem ..) (State.raceReq_inv (.of_mem (State.hintLine_mem ..) (.of_mem (State.useful_mem ..) (.of_mem (State.reach_mem ..) hs)))))
    · split
      · exact .of_mem (State.toWalk_mem ..) (.of_mem (State.reach_mem ..) hs)
      · exact NextInv.ite (.of_mem (State.endPrefetch_mem ..) (.of_mem (State.useful_mem ..) (.of_mem (State.reach_mem ..) hs))) (.of_mem (State.putReq_mem ..) (State.raceReq_inv (.of_mem (State.hintLine_mem ..) (.of_mem (State.useful_mem ..) (.of_mem (State.reach_mem ..) hs)))))
    · split
      · exact .of_mem (State.toWalk_mem ..) (.of_mem (State.reach_mem ..) hs)
      · exact NextInv.ite (.of_mem (State.endPrefetch_mem ..) (.of_mem (State.useful_mem ..) (.of_mem (State.reach_mem ..) hs))) (.of_mem (State.putReq_mem ..) (State.raceReq_inv (.of_mem (State.hintLine_mem ..) (.of_mem (State.useful_mem ..) (.of_mem (State.reach_mem ..) hs)))))
    · split
      · exact .of_mem (State.toWalk_mem ..) (.of_mem (State.reach_mem ..) hs)
      · exact NextInv.ite (.of_mem (State.endPrefetch_mem ..) (.of_mem (State.useful_mem ..) (.of_mem (State.reach_mem ..) hs))) (.of_mem (State.putReq_mem ..) (State.raceReq_inv (.of_mem (State.hintLine_mem ..) (.of_mem (State.useful_mem ..) (.of_mem (State.reach_mem ..) hs)))))
    · split
      · exact NextInv.ite (State.settle_inv (.of_mem (State.reqDone_mem ..) (State.Inv.ite (State.dropLine_inv (.of_mem (State.reach_mem ..) hs)) (State.cleanLine_inv (.of_mem (State.reach_mem ..) hs))))) (NextInv.ite (State.settle_inv (.of_mem (State.maintain_mem ..) (.of_mem (State.reach_mem ..) hs))) (.of_mem (State.toWalk_mem ..) (.of_mem (State.reach_mem ..) hs)))
      · exact State.Inv.ite (State.settle_inv (.of_mem (State.reqDone_mem ..) (.of_mem (State.reach_mem ..) hs))) (.of_mem (State.toWalk_mem ..) (.of_mem (State.reach_mem ..) hs))
    · exact hs
theorem execSliceStore_inv {n : Nat} {s : State} (hs : s.Inv) : NextInv (execSliceStore n s) := by
  unfold execSliceStore
  dsimp only
  split
  · exact .of_mem (State.reach_mem ..) hs
  · split
    · split
      · exact hs
      · split
        · exact .of_mem (State.toWalk_mem ..) (.of_mem (State.reach_mem ..) hs)
        · exact NextInv.ite (.of_mem (State.reqDone_mem ..) (.of_mem (State.modContext_mem ..) (State.raceReq_inv (.of_mem (State.modSlice_mem ..) (.of_mem (State.useful_mem ..) (.of_mem (State.reach_mem ..) hs)))))) (.of_mem (State.putReq_mem ..) (.of_mem (State.hintLine_mem ..) (.of_mem (State.replaced_mem ..) (State.raceReq_inv (.of_mem (State.modSlice_mem ..) (.of_mem (State.useful_mem ..) (.of_mem (State.reach_mem ..) hs)))))))
    · split
      · exact hs
      · split
        · exact .of_mem (State.toWalk_mem ..) (.of_mem (State.reach_mem ..) hs)
        · exact .of_mem (State.reqDone_mem ..) (.of_mem (State.modContext_mem ..) (State.raceReq_inv (.of_mem (State.modSlice_mem ..) (.of_mem (State.useful_mem ..) (.of_mem (State.reach_mem ..) hs)))))
    · split
      · exact hs
      · split
        · exact .of_mem (State.toWalk_mem ..) (.of_mem (State.reach_mem ..) hs)
        · exact .of_mem (State.putReq_mem ..) (.of_mem (State.hintLine_mem ..) (.of_mem (State.replaced_mem ..) (State.raceReq_inv (.of_mem (State.modSlice_mem ..) (.of_mem (State.useful_mem ..) (.of_mem (State.reach_mem ..) hs))))))
theorem execSliceWriteback_inv {n : Nat} {s : State} (hs : s.Inv) : NextInv (execSliceWriteback n s) := by
  unfold execSliceWriteback
  dsimp only
  split
  · exact .of_mem (State.reach_mem ..) hs
  · split
    · exact hs
    · split
      · exact .of_mem (State.toWalk_mem ..) (.of_mem (State.reach_mem ..) hs)
      · exact State.settle_inv (.of_mem (State.reqDone_mem ..) (.of_mem (State.modSlice_mem ..) (.of_mem (State.reach_mem ..) hs)))
theorem State.onceOnly_inv {s : State} {n : Nat} {kind : ReqKind → Bool} {f : Req → L2Line → State → State} (hf : ∀ (r : Req) (l : L2Line) (t : State), t.Inv → (f r l t).Inv) (hs : s.Inv) : (s.onceOnly n kind f).Inv := by
  have ha : (s.reach n).2.Inv := .of_mem (State.reach_mem ..) hs
  unfold State.onceOnly
  dsimp only
  split
  · exact ha
  · refine .ite hs (.ite (.of_mem (State.putReq_mem ..) ha) (.ite ha ?_))
    split
    · exact .of_mem (State.toWalk_mem ..) ha
    · exact hf _ _ _ ha
theorem execSliceAtomic_inv {n : Nat} {s : State} (hs : s.Inv) : NextInv (execSliceAtomic n s) := by
  unfold execSliceAtomic
  refine State.onceOnly_inv (fun _ _ _ hs => ?_) hs
  split
  · exact hs
  · split
    · dsimp only
      split
      · exact .of_mem (State.sliceFault_mem ..) hs
      · exact State.Inv.ite (.of_mem (State.meetDone_mem ..) (.of_mem (State.meetArrive_mem ..) (State.raceReq_inv (.of_mem (State.applied_mem ..) hs)))) (.of_mem (State.meetArrive_mem ..) (State.raceReq_inv (.of_mem (State.applied_mem ..) hs)))
    · exact State.raceReq_inv (.of_mem (State.applied_mem ..) hs)
theorem execSliceAddOnStore_inv {n : Nat} {s : State} (hs : s.Inv) : NextInv (execSliceAddOnStore n s) := State.onceOnly_inv (fun _ _ _ hs => State.raceReq_inv (.of_mem (State.applied_mem ..) hs)) hs
theorem execSliceAcont_inv {n : Nat} {s : State} (hs : s.Inv) : NextInv (execSliceAcont n s) := by
  unfold execSliceAcont
  refine State.onceOnly_inv (fun _ _ _ hs => ?_) hs
  split
  · exact hs
  · split
    · exact hs
    · dsimp only
      split
      · exact .of_mem (State.sliceFault_mem ..) hs
      · exact State.raceReq_inv (.of_mem (State.modSlice_mem ..) (.of_mem (State.applied_mem ..) hs))
theorem execSlqEntryPlace_inv {slice : Nat} {s : State} (hs : s.Inv) : NextInv (execSlqEntryPlace slice s) := by
  unfold execSlqEntryPlace
  dsimp only
  split
  · exact hs
  · exact State.accept_inv hs
theorem execReplayFilterAck_inv {slice port tag : Nat} {s : State} (hs : s.Inv) : NextInv (execReplayFilterAck slice port tag s) := by
  unfold execReplayFilterAck
  split
  · exact hs
  · dsimp only
    split
    · exact hs
    · split
      · exact hs
      · split
        · split
          · split
            · exact .of_mem (State.modGroup_mem ..) (.of_mem (State.finishOp_mem ..) hs)
            · exact hs
          · exact hs
        · refine State.settle_inv ?_
          refine .of_mem (State.reqDone_mem ..) ?_
          refine .foldl (fun _ _ hs => ?_) _ hs
          split <;> exact hs
theorem execCombineTimeout_inv {cluster entry : Nat} {s : State} (hs : s.Inv) : NextInv (execCombineTimeout cluster entry s) := by
  unfold execCombineTimeout
  split
  · exact hs
  · exact State.Inv.ite (State.sendCombined_inv hs) hs
theorem execReplyTimeout_inv {op : Nat} {again : Bool} {s : State} (hs : s.Inv) : NextInv (execReplyTimeout op again s) := by
  unfold execReplyTimeout
  split
  · exact hs
  · split
    · exact hs
    · split
      · split <;> exact hs
      · exact .of_mem (State.sliceFault_mem ..) (.of_mem (State.choose_mem ..) hs)

/-! #### CoreEvents -/

theorem execL1FillReturn_inv {n : Nat} {s : State} (hs : s.Inv) : NextInv (execL1FillReturn n s) := by
  unfold execL1FillReturn
  split
  · exact hs
  · exact NextInv.ite hs (State.settle_inv (.of_mem (State.reqDone_mem ..) (.of_mem (State.handBytes_mem ..) (.of_mem (State.fillL1_mem ..) hs))))
theorem execStoreAccepted_inv {n : Nat} {s : State} (hs : s.Inv) : NextInv (execStoreAccepted n s) := by
  unfold execStoreAccepted
  split
  · exact hs
  · split
    · exact hs
    · dsimp only
      refine State.settle_inv ?_
      refine .of_mem (State.reqDone_mem ..) ?_
      split
      · exact hs
      · refine .of_mem (State.mendL1_mem ..) ?_
        split
        · exact hs
        · exact State.Inv.ite hs (.of_mem (State.setL1_mem ..) (.of_mem (State.roomL1_mem ..) hs))
theorem execPaletteLineFilled_inv {n : Nat} {s : State} (hs : s.Inv) : NextInv (execPaletteLineFilled n s) := by
  unfold execPaletteLineFilled
  split
  · exact hs
  · split
    · dsimp only
      refine State.palMove_inv ?_
      refine .of_mem (State.delReq_mem ..) ?_
      split
      · exact .of_mem (State.mendL1_mem ..) hs
      · exact hs
    · exact hs
theorem execLongLatencyComplete_inv {op : Nat} {s : State} (hs : s.Inv) : NextInv (execLongLatencyComplete op s) := by
  unfold execLongLatencyComplete
  split
  · exact hs
  · exact NextInv.ite hs (State.settle_inv (.of_mem (State.finishOp_mem ..) (.of_mem (State.putCells_mem ..) hs)))
theorem execScrubPass_inv {core : Nat} {at_ : FileWord} {found : Finding} {s : State} (hs : s.Inv) : NextInv (execScrubPass core at_ found s) := by
  unfold execScrubPass
  dsimp only
  split
  · exact .of_mem (State.strike_mem ..) hs
  · split
    · exact hs
    · split <;> exact hs

/-! #### Engines -/

theorem objectSound_inv {s : State} {c : Iss} {a : Nat} {go : State → Except Flt State} (hgo : ∀ t : State, t.Inv → OkInv (go t)) (hs : s.Inv) : OkInv (objectSound s c a go) := by
  unfold objectSound
  split
  · trivial
  · exact hgo _ (.of_mem (State.spRead_mem ..) hs)
theorem execBinit_inv {o : FOps} {s : State} (hs : s.Inv) : NextInv (execBinit o s) := by
  unfold execBinit
  refine issue_inv (fun _ _ hs => ?_) hs
  split
  · trivial
  · exact State.Inv.ite (State.commitRegion_inv hs) (.of_mem (State.modTeam_mem ..) (.of_mem (State.mendScratch_mem ..) (State.commitRegion_inv hs)))
theorem execBexp_inv {o : FOps} {s : State} (hs : s.Inv) : NextInv (execBexp o s) := by
  unfold execBexp
  refine issue_inv (fun _ _ hs => ?_) hs
  split
  · trivial
  · exact OkInv.ite (State.commitRegion_inv hs) (objectSound_inv (fun _ hs => OkInv.ite trivial (.of_mem (State.wakeObject_mem ..) (.of_mem (State.modTeam_mem ..) (.of_mem (State.touchObject_mem ..) hs)))) (State.commitRegion_inv hs))
theorem execBwait_inv {o : FOps} {s : State} (hs : s.Inv) : NextInv (execBwait o s) := by
  unfold execBwait
  refine issue2_inv (fun _ _ hs => ?_) (fun _ _ _ hs => ?_) hs
  · split
    · trivial
    · exact OkInv.ite (State.commitRegion_inv hs) (objectSound_inv (fun _ hs => State.Inv.ite (.of_mem (State.bwaitReturns_mem ..) hs) hs) (State.commitRegion_inv hs))
  · split
    · exact .of_mem (State.bwaitReturns_mem ..) hs
    · exact hs
theorem State.releaseAt_inv {s : State} {c : Iss} {i : Instr} {scope : Nat} (hs : s.Inv) : (s.releaseAt c i scope).Inv := State.settle_inv (.of_mem (State.block_mem ..) (State.startRelease_inv (State.commitRegion_inv hs)))
theorem requestRead_inv {s : State} {c : Iss} {a : Nat} {go : State → Except Flt State} (hgo : ∀ t : State, t.Inv → OkInv (go t)) (hs : s.Inv) : OkInv (requestRead s c a go) := by
  unfold requestRead
  split
  · trivial
  · exact hgo _ (.of_mem (State.spRead_mem ..) hs)
theorem execCkick_inv {o : FOps} {s : State} (hs : s.Inv) : NextInv (execCkick o s) := by
  unfold execCkick
  refine issue2_inv (fun _ _ hs => ?_) (fun _ _ _ hs => ?_) hs
  · split
    · trivial
    · exact State.releaseAt_inv hs
  · dsimp only
    split
    · exact hs
    · split
      · exact hs
      · refine requestRead_inv (fun _ hs => ?_) hs
        split
        · trivial
        · refine .of_mem (State.modCore_mem ..) ?_
          split
          · exact .of_mem (State.putOp_mem ..) (.of_mem (State.newOp_mem ..) hs)
          · exact .of_mem (State.newOp_mem ..) hs
theorem gatherWord_inv {i : Instr} {o : FOps} {s : State} {scatter : Bool} (hs : s.Inv) : NextInv (gatherWord i o s scatter) := by
  unfold gatherWord
  dsimp only
  refine issue2_inv (fun _ _ hs => ?_) (fun _ _ _ hs => ?_) hs
  · split
    · trivial
    · split
      · trivial
      · exact State.releaseAt_inv hs
  · split
    · trivial
    · exact hs
    · split
      · exact hs
      · refine .of_mem (State.modCore_mem ..) ?_
        split
        · exact .of_mem (State.putOp_mem ..) (.of_mem (State.newOp_mem ..) hs)
        · exact .of_mem (State.newOp_mem ..) hs
theorem execColl_inv {o : FOps} {s : State} (hs : s.Inv) : NextInv (execColl o s) := by
  unfold execColl
  refine issue2_inv (fun _ _ hs => ?_) (fun _ _ _ hs => ?_) hs
  · split
    · trivial
    · exact State.releaseAt_inv hs
  · dsimp only
    split
    · exact hs
    · refine requestRead_inv (fun _ hs => ?_) hs
      split
      · trivial
      · refine .of_mem (State.meetArrive_mem ..) ?_
        refine .of_mem (State.modDie_mem ..) ?_
        split
        · exact .of_mem (State.putOp_mem ..) (.of_mem (State.newOp_mem ..) hs)
        · exact .of_mem (State.newOp_mem ..) hs

/-! #### Fp32 -/

theorem fp2_inv {i : Instr} {o : FOps} {s : State} {f : Nat → Nat → Nat × FFlags} (hs : s.Inv) : NextInv (fp2 i o s f) := checked1_inv hs
theorem special_inv {i : Instr} {o : FOps} {s : State} {f : Special} (hs : s.Inv) : NextInv (special i o s f) := by
  unfold special
  refine issue_inv (fun _ _ hs => ?_) hs
  dsimp only
  split
  · trivial
  · exact .of_mem (State.newOp_mem ..) hs

/-! #### EngineEvents -/

theorem execKickQueueTake_inv {core : Nat} {s : State} (hs : s.Inv) : NextInv (execKickQueueTake core s) := by
  unfold execKickQueueTake
  split
  · exact hs
  · exact NextInv.ite hs (.of_mem (State.handPieces_mem ..) hs)
theorem State.engineWrite_inv {s : State} {team ctx : Nat} {sp : Bool} {bs : List (Nat × Byte)} (hs : s.Inv) : OkInv (s.engineWrite team ctx sp bs) := by
  unfold State.engineWrite
  split
  · exact .of_mem (State.writeScratch_mem ..) hs
  · split
    · trivial
    · exact State.slicePokes_inv hs
theorem State.engineMet_inv {s : State} {team ctx : Nat} {sp : Bool} {bs : List (Nat × Byte)} (hs : s.Inv) : (s.engineMet team ctx sp bs).Inv := State.Inv.ite hs (State.pokesMet_inv hs)
theorem State.copyMet_inv {s : State} {c : Copy} {k : Nat} (hs : s.Inv) : (s.copyMet c k).Inv := by
  unfold State.copyMet
  split
  · exact .of_mem (State.engineTook_mem ..) hs
  · exact State.engineMet_inv hs
theorem State.copyByte_inv {s : State} {c : Copy} {k : Nat} (hs : s.Inv) : OkInv (s.copyByte c k) := by
  unfold State.copyByte
  split
  · trivial
  · trivial
  · dsimp only
    split
    · trivial
    next he1 =>
      exact .of_mem (State.copyAccess_mem ..) (State.Inv.ite (State.Inv.ite (.of_mem (State.spRead_mem ..) (State.Inv.ite (OkInv.ok (State.engineWrite_inv hs) he1) (State.raceOp_inv (OkInv.ok (State.engineWrite_inv hs) he1)))) (State.Inv.ite (OkInv.ok (State.engineWrite_inv hs) he1) (State.raceOp_inv (OkInv.ok (State.engineWrite_inv hs) he1)))) (State.raceOp_inv (.of_mem (State.hintLine_mem ..) (State.Inv.ite (.of_mem (State.spRead_mem ..) (State.Inv.ite (OkInv.ok (State.engineWrite_inv hs) he1) (State.raceOp_inv (OkInv.ok (State.engineWrite_inv hs) he1)))) (State.Inv.ite (OkInv.ok (State.engineWrite_inv hs) he1) (State.raceOp_inv (OkInv.ok (State.engineWrite_inv hs) he1)))))))
theorem State.engineFault_inv {s : State} {ctx : Nat} {f : Flt} {kind number die gid req prog : Nat} (hs : s.Inv) : (s.engineFault ctx f kind number die gid req prog).Inv := .of_mem (State.raiseEngine_mem ..) (.of_mem (State.logEngine_mem ..) hs)
theorem execCopyBytePerformed_inv {op : Nat} {s : State} (hs : s.Inv) : NextInv (execCopyBytePerformed op s) := by
  unfold execCopyBytePerformed
  split
  · exact hs
  · split
    · exact hs
    · split
      · exact hs
      · split
        · exact State.engineFault_inv (.of_mem (State.modDie_mem ..) (State.copyMet_inv hs))
        next he3 =>
          exact .of_mem (State.reapTeam_mem ..) (.of_mem (State.countByte_mem ..) (.of_mem (State.modDie_mem ..) (OkInv.ok (State.copyByte_inv hs) he3)))
theorem State.rowMet_inv {s : State} {x1 : Gather} {g p : Nat} (hs : s.Inv) : (s.rowMet x1 g p).Inv := by
  unfold State.rowMet
  split
  · exact .of_mem (State.engineTook_mem ..) hs
  · exact State.engineMet_inv hs
theorem State.moveRow_inv {s : State} {x1 : Gather} {L g p : Nat} (hs : s.Inv) : OkInv (s.moveRow x1 L g p) := by
  unfold State.moveRow
  dsimp only
  split
  · trivial
  · split
    · trivial
    next he1 =>
      exact State.raceOp_inv (State.Inv.ite (.of_mem (State.spRead_mem ..) (OkInv.ok (State.engineWrite_inv hs) he1)) (.of_mem (State.engineTook_mem ..) (OkInv.ok (State.engineWrite_inv hs) he1)))
theorem execGatherRowPerformed_inv {op lane : Nat} {s : State} (hs : s.Inv) : NextInv (execGatherRowPerformed op lane s) := by
  unfold execGatherRowPerformed
  split
  · exact hs
  · split
    · exact hs
    · split
      · exact hs
      · dsimp only
        split
        · exact hs
        · split
          · exact State.Inv.ite (State.engineFault_inv (.of_mem (State.modCore_mem ..) (State.rowMet_inv hs))) (.of_mem (State.raise_mem ..) (.of_mem (State.logEngine_mem ..) (.of_mem (State.modCore_mem ..) (State.rowMet_inv hs))))
          next he4 =>
            exact .of_mem (State.reapTeam_mem ..) (.of_mem (State.partDone_mem ..) (State.Inv.ite (.of_mem (State.modCore_mem ..) (OkInv.ok (State.moveRow_inv hs) he4)) (.of_mem (State.modCore_mem ..) (OkInv.ok (State.moveRow_inv hs) he4))))
theorem State.finishColl_inv {s : State} {c : Collective} {nrank : Nat} {ins : List (List Byte)} (hs : s.Inv) : OkInv (s.finishColl c nrank ins) := by
  unfold State.finishColl
  extract_lets counted w
  have hw : OkInv w := by
    unfold w
    split
    · trivial
    · split
      · trivial
      next he => exact State.raceOp_inv ((State.engineWrite_inv hs).ok he)
    · exact hs
  clear_value w
  cases w with
  | error f => trivial
  | ok s1 =>
    refine .of_mem (State.reapTeam_mem ..) (.of_mem (State.partDone_mem ..) ?_)
    have h2 (f : Die → Die) : (s1.modDie (dieOf c.gid) f).Inv := hw
    split
    · exact .of_mem (State.arriveAt_mem ..) (h2 _)
    · exact h2 _
theorem State.inputsTook_inv {s : State} {c : Collective} {ranks : List (Nat × Nat)} (hs : s.Inv) : (s.inputsTook c ranks).Inv := by
  unfold State.inputsTook
  refine .foldl (fun _ _ hs => ?_) _ hs
  split
  · exact State.Inv.ite hs (State.raceOp_inv (.of_mem (State.peekedRuns_mem ..) hs))
  · exact hs
theorem State.resultMet_inv {s : State} {c : Collective} {ins : List (List Byte)} (hs : s.Inv) : (s.resultMet c ins).Inv := by
  unfold State.resultMet
  split
  · exact State.engineMet_inv hs
  · exact hs
theorem execCollectiveComplete_inv {op : Nat} {remote : List RankInput} {s : State} (hs : s.Inv) : NextInv (execCollectiveComplete op remote s) := by
  unfold execCollectiveComplete
  split
  · exact hs
  · refine .ite hs ?_
    extract_lets fail
    have hfail {t : State} (f : Flt) (ht : t.Inv) : (fail t f).Inv := State.engineFault_inv (.of_mem (State.modDie_mem ..) ht)
    clear_value fail
    have hc : (s.commTook ‹_›).Inv := .of_mem (State.commTook_mem ..) hs
    split
    · exact hfail _ hc
    · exact hfail _ hc
    · refine .ite (hfail _ hc) ?_
      extract_lets all bad ins s1 done unwritten
      have h1 : s1.Inv := State.inputsTook_inv hc
      have hd : OkInv done := by
        refine OkInv.foldl (fun r m hr => ?_) _ h1
        split
        · exact State.finishColl_inv hr
        · exact hr
      clear_value done bad unwritten
      cases bad with
      | some f => exact hfail _ (State.inputsTook_inv (.of_mem (State.commTook_mem ..) (.of_mem (State.logInput_mem ..) hs)))
      | none =>
        refine .ite hs (.ite ?_ ?_)
        · split
          · exact hfail _ hc
          · exact hs
        · cases done with
          | error f =>
            refine hfail _ ?_
            cases unwritten with
            | none => exact h1
            | some p => exact State.resultMet_inv h1
          | ok s2 => exact .of_mem (State.meetDone_mem ..) hd

/-! #### Fetch -/

theorem execClauseStart_inv {h : Header} {s : State} (hs : s.Inv) : NextInv (execClauseStart h s) := by
  unfold execClauseStart
  split
  · exact hs
  · dsimp only
    split
    · exact hs
    · split
      · exact State.trapAt_inv hs
      · exact .of_mem (State.setGroup_mem ..) (.of_mem (State.fetched_mem ..) (.of_mem (State.correct_mem ..) hs))
theorem execClauseSkip_inv {h : Header} {s : State} (hs : s.Inv) : NextInv (execClauseSkip h s) := by
  unfold execClauseSkip
  split
  · exact hs
  · dsimp only
    split
    · exact hs
    · split
      · exact State.trapAt_inv hs
      · exact .of_mem (State.setGroup_mem ..) (.update (.of_mem (State.correct_mem ..) hs))

/-! #### Launch -/

theorem execLqRecordTake_inv {ctx queue : Nat} {s : State} (hs : s.Inv) : NextInv (execLqRecordTake ctx queue s) := by
  unfold execLqRecordTake
  dsimp only
  split
  · exact hs
  · split
    · exact .of_mem (State.taskFault_mem ..) (.of_mem (State.readRun_mem ..) hs)
    · split
      · exact .of_mem (State.readRun_mem ..) hs
      · split
        · exact .of_mem (State.taskFault_mem ..) (.of_mem (State.readRun_mem ..) hs)
        · split
          · exact .of_mem (State.taskFault_mem ..) (State.writeMet_inv (.of_mem (State.readRun_mem ..) hs))
          next he4 =>
            split
            · exact .of_mem (State.taskFault_mem ..) (State.writeMet_inv (.of_mem (State.readRun_mem ..) hs))
            next he5 =>
              split
              · exact .of_mem (State.interrupt_mem ..) (.of_mem (State.modContext_mem ..) (OkInv.ok (State.writeCtx_inv (OkInv.ok (State.writeCtx_inv (.of_mem (State.readRun_mem ..) hs)) he4)) he5))
              · exact .update (.of_mem (State.fresh_mem ..) (.of_mem (State.modContext_mem ..) (OkInv.ok (State.writeCtx_inv (OkInv.ok (State.writeCtx_inv (.of_mem (State.readRun_mem ..) hs)) he4)) he5)))
theorem execDepPoll_inv {grid : Nat} {s : State} (hs : s.Inv) : NextInv (execDepPoll grid s) := by
  unfold execDepPoll
  split
  · exact hs
  · split
    · exact hs
    · dsimp only
      split
      · exact .of_mem (State.taskFault_mem ..) (.of_mem (State.readRun_mem ..) hs)
      · exact State.Inv.ite (.of_mem (State.modGrid_mem ..) (.of_mem (State.readRun_mem ..) hs)) (.of_mem (State.readRun_mem ..) hs)
theorem execRecordAging_inv {grid : Nat} {s : State} (hs : s.Inv) : NextInv (execRecordAging grid s) := by
  unfold execRecordAging
  split
  · exact hs
  · exact State.Inv.ite hs hs
theorem execBinTimerExpiry_inv {ctx die node : Nat} {s : State} (hs : s.Inv) : NextInv (execBinTimerExpiry ctx die node s) := by
  unfold execBinTimerExpiry
  dsimp only
  split
  · exact hs
  · exact NextInv.ite hs (.of_mem (State.settleNode_mem ..) hs)
theorem execGovernorEval_inv {ctx die : Nat} {s : State} (hs : s.Inv) : NextInv (execGovernorEval ctx die s) := NextInv.ite hs (State.Inv.foldl (fun _ _ hs => .of_mem (State.govern_mem ..) hs) _ hs)
theorem execDeqtTimeout_inv {gid : Nat} {s : State} (hs : s.Inv) : NextInv (execDeqtTimeout gid s) := by
  unfold execDeqtTimeout
  dsimp only
  split
  · exact hs
  · split
    · exact NextInv.ite hs (.of_mem (State.give_mem ..) hs)
    · exact hs
theorem execGridComplete_inv {grid : Nat} {s : State} (hs : s.Inv) : NextInv (execGridComplete grid s) := by
  unfold execGridComplete
  split
  · exact hs
  · dsimp only
    split
    · exact hs
    · split
      · exact .of_mem (State.modGrid_mem ..) (State.Inv.foldl (fun _ _ hs => State.flushCombine_inv hs) _ hs)
      · exact NextInv.ite hs (NextInv.ite (.of_mem (State.modGrid_mem ..) (State.Inv.foldl (fun _ _ hs => .of_mem (State.releaseL1_mem ..) hs) _ hs)) (NextInv.ite hs (.of_mem (State.dropMeets_mem ..) hs)))

/-! #### MatrixEvents -/

theorem State.sendRow_inv {s : State} {core entry : Nat} {d : Drain} {i : Nat} (hs : s.Inv) : (s.sendRow core entry d i).Inv := by
  unfold State.sendRow
  split
  · exact .of_mem (State.putReq_mem ..) (.of_mem (State.morePart_mem ..) hs)
  · exact State.Inv.foldl (fun _ _ hs => State.request_inv (.of_mem (State.morePart_mem ..) hs)) _ hs
theorem State.resendRows_inv {s : State} {core entry : Nat} {d : Drain} (hs : s.Inv) : (s.resendRows core entry d).Inv := State.Inv.ite hs (State.Inv.foldl (fun _ _ hs => State.sendRow_inv hs) _ hs)
theorem execMatrixTake_inv {core : Nat} {s : State} (hs : s.Inv) : NextInv (execMatrixTake core s) := by
  unfold execMatrixTake
  split
  · exact hs
  · split
    · exact hs
    · dsimp only
      split
      · exact .of_mem (State.partDone_mem ..) (.of_mem (State.putCells_mem ..) hs)
      · exact .of_mem (State.partDone_mem ..) (.of_mem (State.putCells_mem ..) hs)
      · exact .of_mem (State.partDone_mem ..) hs
      · exact NextInv.ite hs (.of_mem (State.partDone_mem ..) (.of_mem (State.putCells_mem ..) hs))
      · exact NextInv.ite hs (.of_mem (State.reapTeam_mem ..) (.of_mem (State.partDone_mem ..) hs))
      · split
        · exact NextInv.ite (State.settle_inv (State.resendRows_inv hs)) (.of_mem (State.partDone_mem ..) hs)
        · exact .of_mem (State.partDone_mem ..) hs
      · exact hs
theorem execMatrixOpComplete_inv {op : Nat} {s : State} (hs : s.Inv) : NextInv (execMatrixOpComplete op s) := by
  unfold execMatrixOpComplete
  split
  · exact hs
  · exact NextInv.ite hs (State.settle_inv (.of_mem (State.finishOp_mem ..) (.of_mem (State.putCells_mem ..) hs)))
theorem execDrainEntryTake_inv {core : Nat} {s : State} (hs : s.Inv) : NextInv (execDrainEntryTake core s) := by
  unfold execDrainEntryTake
  split
  · exact hs
  · split
    · exact NextInv.ite (State.settle_inv (State.Inv.foldl (fun _ _ hs => State.sendRow_inv hs) _ (State.flushLines_inv hs))) hs
    · exact hs
theorem execDrainRowPerformed_inv {core entry row : Nat} {s : State} (hs : s.Inv) : NextInv (execDrainRowPerformed core entry row s) := by
  unfold execDrainRowPerformed
  split
  · exact hs
  · dsimp only
    split
    · split
      · exact hs
      · split
        · exact State.settle_inv (.of_mem (State.endReplay_mem ..) (.of_mem (State.pinRow_mem ..) (.of_mem (State.logLasting_mem ..) hs)))
        · split
          · refine State.settle_inv ?_
            refine .of_mem (State.reapTeam_mem ..) ?_
            refine .of_mem (State.partDone_mem ..) ?_
            refine .of_mem (State.endReplay_mem ..) ?_
            refine .of_mem (State.modCore_mem ..) ?_
            split
            · exact .of_mem (State.writeScratch_mem ..) (State.Inv.ite (.of_mem (State.spRead_mem ..) hs) hs)
            · exact hs
            · exact .of_mem (State.putCells_mem ..) hs
          · refine State.settle_inv ?_
            refine .of_mem (State.endReplay_mem ..) ?_
            refine .of_mem (State.modCore_mem ..) ?_
            split
            · exact .of_mem (State.writeScratch_mem ..) (State.Inv.ite (.of_mem (State.spRead_mem ..) hs) hs)
            · exact hs
            · exact .of_mem (State.putCells_mem ..) hs
    · split
      · exact hs
      · split
        · exact State.settle_inv (.of_mem (State.endReplay_mem ..) (.of_mem (State.pinRow_mem ..) (.of_mem (State.logLasting_mem ..) hs)))
        · split
          · refine State.settle_inv ?_
            refine .of_mem (State.reapTeam_mem ..) ?_
            refine .of_mem (State.partDone_mem ..) ?_
            refine .of_mem (State.endReplay_mem ..) ?_
            refine .of_mem (State.modCore_mem ..) ?_
            split
            · exact .of_mem (State.writeScratch_mem ..) (State.Inv.ite (.of_mem (State.spRead_mem ..) hs) hs)
            · exact hs
            · exact .of_mem (State.putCells_mem ..) hs
          · refine State.settle_inv ?_
            refine .of_mem (State.endReplay_mem ..) ?_
            refine .of_mem (State.modCore_mem ..) ?_
            split
            · exact .of_mem (State.writeScratch_mem ..) (State.Inv.ite (.of_mem (State.spRead_mem ..) hs) hs)
            · exact hs
            · exact .of_mem (State.putCells_mem ..) hs

/-! #### TeamSync -/

theorem State.arriveAtBar_inv {s t : State} {c : Iss} {b n : Nat} {ph : Bool} (hs : s.Inv) (he : s.arriveAtBar c b n = .ok (ph, t)) : t.Inv := by
  unfold State.arriveAtBar at he
  dsimp only at he
  split at he
  · cases he
  · cases he
    exact .of_mem (State.returnWaits_mem ..) (.of_mem (State.modTeam_mem ..) hs)
theorem execBarv_inv {o : FOps} {s : State} (hs : s.Inv) : NextInv (execBarv o s) := by
  refine issue2_inv (fun c t ht => ?_) (fun c _ t ht => ?_) hs
  · split
    · trivial
    · exact State.releaseAt_inv ht
  · split
    · trivial
    next he => exact State.Inv.ite (.of_mem (State.modGroup_mem ..) (State.arriveAtBar_inv ht he)) (State.arriveAtBar_inv ht he)
theorem execBsyn_inv {o : FOps} {s : State} (hs : s.Inv) : NextInv (execBsyn o s) := by
  refine issue2_inv (fun c t ht => ?_) (fun c w t ht => ?_) hs
  · split
    · trivial
    · exact State.releaseAt_inv ht
  · split
    · dsimp only
      split
      · trivial
      next he => exact State.Inv.ite (State.arriveAtBar_inv ht he) (.of_mem (State.block_mem ..) (State.arriveAtBar_inv ht he))
    · exact ht
theorem execBphs_inv {o : FOps} {s : State} (hs : s.Inv) : NextInv (execBphs o s) := by
  unfold execBphs
  refine issue2_inv (fun _ _ hs => State.releaseAt_inv hs) (fun _ _ _ hs => ?_) hs
  split
  · exact State.Inv.ite hs hs
  · exact hs
theorem State.popChecked_inv {s : State} {gid i : Nat} {go : State → State} (hgo : ∀ t : State, t.Inv → (go t).Inv) (hs : s.Inv) : OkInv (s.popChecked gid i go) := by
  unfold State.popChecked
  split
  · trivial
  · exact hgo s hs
theorem execQpush_inv {o : FOps} {s : State} (hs : s.Inv) : NextInv (execQpush o s) := by
  unfold execQpush
  refine issue2_inv (fun _ _ hs => ?_) (fun _ _ _ hs => ?_) hs
  · split
    · trivial
    · exact State.releaseAt_inv hs
  · split
    · exact State.Inv.ite (.of_mem (State.serveQueue_mem ..) (.of_mem (State.doPush_mem ..) hs)) hs
    · exact .of_mem (State.serveQueue_mem ..) (.of_mem (State.doPush_mem ..) hs)
theorem execQpop_inv {o : FOps} {s : State} (hs : s.Inv) : NextInv (execQpop o s) := by
  unfold execQpop
  refine issue2_inv (fun _ _ hs => ?_) (fun _ _ _ hs => State.popChecked_inv (fun _ hs => .of_mem (State.serveQueue_mem ..) (.of_mem (State.doPop_mem ..) hs)) hs) hs
  split
  · trivial
  · exact OkInv.ite (State.popChecked_inv (fun _ hs => .of_mem (State.serveQueue_mem ..) (.of_mem (State.doPop_mem ..) hs)) (State.commitRegion_inv hs)) (.of_mem (State.blockQueue_mem ..) (State.commitRegion_inv hs))
theorem execQalw_inv {o : FOps} {s : State} (hs : s.Inv) : NextInv (execQalw o s) := by
  unfold execQalw
  refine issue2_inv (fun _ _ hs => ?_) (fun _ _ _ hs => .of_mem (State.serveQueue_mem ..) hs) hs
  split
  · trivial
  · exact State.releaseAt_inv hs
theorem execQalwInit_inv {o : FOps} {s : State} (hs : s.Inv) : NextInv (execQalwInit o s) := by
  unfold execQalwInit
  refine issue2_inv (fun _ _ hs => ?_) (fun _ _ _ hs => hs) hs
  split
  · trivial
  · exact State.releaseAt_inv hs
theorem execQtryPush_inv {o : FOps} {s : State} (hs : s.Inv) : NextInv (execQtryPush o s) := by
  unfold execQtryPush
  refine issue2_inv (fun _ _ hs => ?_) (fun _ _ _ hs => State.Inv.ite hs (.of_mem (State.serveQueue_mem ..) (.of_mem (State.modGroup_mem ..) (.of_mem (State.doPush_mem ..) hs)))) hs
  split
  · trivial
  · exact State.releaseAt_inv hs
theorem execQtryPop_inv {o : FOps} {s : State} (hs : s.Inv) : NextInv (execQtryPop o s) := by
  unfold execQtryPop
  refine issue2_inv (fun _ _ hs => ?_) (fun _ _ _ hs => OkInv.ite hs (State.popChecked_inv (fun _ hs => .of_mem (State.serveQueue_mem ..) (.of_mem (State.modGroup_mem ..) (.of_mem (State.doPop_mem ..) hs))) hs)) hs
  split
  · trivial
  · exact State.releaseAt_inv hs
theorem execGsync_inv {o : FOps} {s : State} (hs : s.Inv) : NextInv (execGsync o s) := by
  unfold execGsync
  refine issue2_inv (fun _ _ hs => ?_) (fun _ _ _ hs => ?_) hs
  · split
    · trivial
    · exact State.releaseAt_inv hs
  · split
    · exact State.request_inv (.of_mem (State.block_mem ..) (.of_mem (State.newOp_mem ..) hs))
    · exact .of_mem (State.acquireL1_mem ..) hs
    · exact hs

/-! #### Preempt -/

theorem State.startLeaving_inv {s : State} {team : Nat} {byPriority : Bool} (hs : s.Inv) : (s.startLeaving team byPriority).Inv := by
  unfold State.startLeaving
  dsimp only
  refine .foldl (fun _ _ hs => ?_) _ hs
  refine .foldl (fun _ _ hs => ?_) _ (State.flushCombine_inv hs)
  split
  · exact .of_mem (State.evictL1_mem ..) hs
  · exact hs
theorem State.writeArea_inv {s : State} {die ctx base : Nat} {bs : List (Nat × Byte)} (hs : s.Inv) : OkInv (s.writeArea die ctx base bs) := State.slicePokes_inv hs
theorem State.areaMet_inv {s : State} {die ctx base : Nat} {bs : List (Nat × Byte)} (hs : s.Inv) : (s.areaMet die ctx base bs).Inv := State.pokesMet_inv hs
theorem State.saveTeam_inv {s : State} {team : Nat} (hs : s.Inv) : OkInv (s.saveTeam team) := by
  unfold State.saveTeam
  extract_lets t c gs first s1 saved
  have hd : OkInv saved := by
    have h1 : s1.Inv := .foldl (fun _ _ hs => .of_mem (State.rollback_mem ..) hs) _ hs
    refine @OkInv.foldl _ _ _ (fun r gid hr => ?_) _ ?_
    case refine_2 => exact h1
    split
    · trivial
    next u => generalize (u.group gid).saveBytes = bs; exact @State.writeArea_inv u _ _ _ _ hr
  clear_value saved
  split
  · trivial
  · split
    · trivial
    next he =>
      extract_lets keep s4 s5 s6 s7 s8
      have h6 : s6.Inv := .foldl (fun _ _ hs => .of_mem (State.freeGranules_mem ..) hs) _ (.update (.of_mem (State.releasePool_mem ..) ((State.writeArea_inv (hd.ok rfl)).ok he)))
      exact .of_mem (State.retargetDie_mem ..) (.of_mem (State.modCore_mem ..) (.of_mem (State.modTeam_mem ..) (.update h6)))
theorem State.savePass_inv {s : State} {ctx : Nat} (hs : s.Inv) : (s.savePass ctx).Inv := by
  refine .ite hs (.of_mem (State.endPass_mem ..) (.foldl (fun s t hs => .ite hs ?_) _ hs))
  have hr : (s.saveRead t).2.Inv := .of_mem (State.saveRead_mem ..) hs
  dsimp only
  split
  next he => rw [he] at hr; exact .of_mem (State.saveFault_mem ..) hr
  next he =>
    rw [he] at hr
    split
    next hk => exact (State.saveTeam_inv hr).ok hk
    · exact .of_mem (State.saveFault_mem ..) hr
theorem State.preemptAll_inv {s : State} {ctx : Nat} (hs : s.Inv) : (s.preemptAll ctx).Inv := .of_mem (State.modContext_mem ..) (State.Inv.foldl (fun _ _ hs => State.startLeaving_inv hs) _ hs)
theorem execTimeSliceExpiry_inv {ctx : Nat} {s : State} (hs : s.Inv) : NextInv (execTimeSliceExpiry ctx s) := NextInv.ite hs (NextInv.ite (State.savePass_inv hs) (NextInv.ite hs (State.savePass_inv (State.preemptAll_inv hs))))

/-! #### Place -/

theorem execRecordChoice_inv {ctx die : Nat} {s : State} (hs : s.Inv) : NextInv (execRecordChoice ctx die s) := by
  unfold execRecordChoice
  split
  · exact hs
  · dsimp only
    split
    · split <;> exact hs
    · split
      · exact State.Inv.ite hs hs
      · exact hs
theorem State.makeRoom_inv {s : State} {grid : Nat} (hs : s.Inv) : (s.makeRoom grid).Inv := by
  unfold State.makeRoom
  dsimp only
  split
  · split
    · exact State.Inv.foldl (fun _ _ hs => State.startLeaving_inv hs) _ hs
    · exact hs
  · exact hs
theorem execTeamPlace_inv {ctx die : Nat} {s : State} (hs : s.Inv) : NextInv (execTeamPlace ctx die s) := by
  unfold execTeamPlace
  dsimp only
  split
  · exact State.savePass_inv hs
  · split
    · exact State.savePass_inv hs
    · split
      · exact State.savePass_inv hs
      · split
        · exact .of_mem (State.startTeam_mem ..) (State.savePass_inv hs)
        · exact State.Inv.ite (State.makeRoom_inv (State.savePass_inv hs)) (State.savePass_inv hs)
theorem execReservationTimeout_inv {ctx die : Nat} {s : State} (hs : s.Inv) : NextInv (execReservationTimeout ctx die s) := by
  unfold execReservationTimeout
  dsimp only
  split
  · exact hs
  · split
    · exact hs
    · split <;> exact hs
theorem State.readmitPalettes_inv {s : State} {team : Nat} (hs : s.Inv) : (s.readmitPalettes team).Inv := by
  unfold State.readmitPalettes
  extract_lets t ks s1 fills
  have hfill (l : List Nat) (a : List Nat × State) (ha : a.2.Inv) : (l.foldl (fun (a : List Nat × State) k => let ls := (t.palette k).lines.filter (fun l => !a.1.contains l); (a.1 ++ ls, ls.foldl (fun (s : State) l => s.fillLine team k l) a.2)) a).2.Inv := by
    induction l generalizing a with
    | nil => exact ha
    | cons x l ih => exact ih _ (.foldl (fun _ _ hs => State.fillLine_inv hs) _ ha)
  exact State.palMove_inv (hfill _ _ hs)
/-- A fold that carries a list along with the state, and may fail. -/
theorem foldSeat_inv {α : Type} {f : Except Flt (List (Option Nat) × State) → α → Except Flt (List (Option Nat) × State)} (hf : ∀ r a, OkInv (r.map Prod.snd) → OkInv ((f r a).map Prod.snd))
    {l : List α} {ks gids : List (Option Nat)} {s t : State} (hs : s.Inv) (he : l.foldl f (.ok (ks, s)) = .ok (gids, t)) : t.Inv := by
  have h : OkInv ((l.foldl f (.ok (ks, s))).map Prod.snd) := List.foldlRecOn (motive := fun r => OkInv (r.map Prod.snd)) l f (show OkInv (Except.map Prod.snd (.ok (ks, s))) from hs) (fun r hr a _ => hf r a hr)
  rwa [he] at h
theorem State.resumeOn_inv {s : State} {team core : Nat} {saved : List (Option (Nat × Group))} (hs : s.Inv) : OkInv (s.resumeOn team core saved) := by
  unfold State.resumeOn
  extract_lets t base
  split
  · trivial
  · split
    · trivial
    · extract_lets len
      split
      · trivial
      · trivial
      next sc seated _ _ _ _ _ _ _ _ _ _ _ =>
        have h1 (gids : List (Option Nat)) (u : State) (he : seated = .ok (gids, u)) : u.Inv := by
          refine foldSeat_inv (fun r x hr => ?_) (.of_mem (State.takeScratch_mem ..) hs) he
          split
          · trivial
          · exact hr
          · extract_lets gid
            split
            · trivial
            · exact .of_mem (State.seat_mem ..) hr
        clear_value seated
        split
        · trivial
        · exact .of_mem (State.areasTook_mem ..) (.of_mem (State.retargetDie_mem ..) (State.readmitPalettes_inv (.of_mem (State.modGrid_mem ..) (.of_mem (State.modTeam_mem ..) (h1 _ _ rfl)))))
theorem execTeamResume_inv {team : Nat} {s : State} (hs : s.Inv) : NextInv (execTeamResume team s) := by
  unfold execTeamResume
  split
  · exact hs
  · split
    · exact hs
    · dsimp only
      split
      · exact hs
      · split
        · exact hs
        · split
          next he4 =>
            exact OkInv.ok (State.resumeOn_inv hs) he4
          · exact .of_mem (State.resumeFault_mem ..) (.of_mem (State.areasTook_mem ..) hs)

/-! #### RouterEvents -/

theorem execRouterEntry_inv {die router : Nat} {s : State} (hs : s.Inv) : NextInv (execRouterEntry die router s) := by
  unfold execRouterEntry
  split
  · exact State.route_inv (.of_mem (State.entryFromRing_mem ..) hs)
  · exact hs
theorem execRouterRpass_inv {die router : Nat} {s : State} (hs : s.Inv) : NextInv (execRouterRpass die router s) := by
  unfold execRouterRpass
  split
  · exact State.route_inv hs
  · exact hs
theorem execRouterRrej_inv {die router : Nat} {s : State} (hs : s.Inv) : NextInv (execRouterRrej die router s) := by
  unfold execRouterRrej
  split
  · exact State.route_inv hs
  · exact hs
theorem execRemoteTailWrite_inv {push : RemotePush} {s : State} (hs : s.Inv) : NextInv (execRemoteTailWrite push s) := by
  unfold execRemoteTailWrite
  dsimp only
  split
  · exact hs
  · split <;> exact hs
theorem execRemotePullComplete_inv {die : Nat} {record : List (BitVec 32)} {s : State} (hs : s.Inv) : NextInv (execRemotePullComplete die record s) := by
  unfold execRemotePullComplete
  split
  · exact hs
  · dsimp only
    split
    · split
      · exact hs
      · split
        · exact hs
        · exact State.accept_inv hs
    · split
      · exact .of_mem (State.raiseEngine_mem ..) (.of_mem (State.modDie_mem ..) (.of_mem (State.setOutbox_mem ..) (.of_mem (State.pulled_mem ..) hs)))
      · split
        · exact .of_mem (State.modDie_mem ..) (.of_mem (State.modDie_mem ..) (.of_mem (State.pulled_mem ..) hs))
        · exact State.accept_inv (.of_mem (State.modDie_mem ..) (.of_mem (State.pulled_mem ..) hs))
theorem execPushAck_inv {op : Nat} {kind : BitVec 4} {s : State} (hs : s.Inv) : NextInv (execPushAck op kind s) := by
  unfold execPushAck
  split
  · exact hs
  · dsimp only
    split
    · exact hs
    · split
      · exact State.settle_inv (.of_mem (State.partDone_mem ..) hs)
      · split
        · exact NextInv.ite (.of_mem (State.raise_mem ..) hs) (.of_mem (State.raiseEngine_mem ..) hs)
        · exact hs

/-! #### Tasks -/

theorem deqWord_inv {i : Instr} {s : State} {deadline : Iss → State → Option Nat} (hs : s.Inv) : NextInv (deqWord i s deadline) := by
  refine issue2_inv (fun c t ht => ?_) (fun c w t ht => ?_) hs
  · split
    · trivial
    · have h1 : (t.commitRegion c.gid c.slotB).Inv := State.commitRegion_inv ht
      refine .ite (.of_mem (State.block_mem ..) h1) ?_
      split
      · exact .of_mem (State.deqBatch_mem ..) h1
      · dsimp only
        split
        next he =>
          split at he
          · exact .of_mem (State.deqServe_mem he) h1
          · cases he
        · exact OkInv.ite (.of_mem (State.give_mem ..) h1) (.of_mem (State.block_mem ..) h1)
  · split
    · exact .of_mem (State.deqBatch_mem ..) ht
    · split
      next he => exact .of_mem (State.deqServe_mem he) ht
      · exact .of_mem (State.block_mem ..) ht
theorem State.sendRemote_inv {s : State} {c : Iss} {i : Instr} {o : FOps} {l : List Nat} (hs : s.Inv) : (s.sendRemote c i o l).Inv := by
  induction l generalizing s with
  | nil => exact hs
  | cons L l ih =>
    unfold State.sendRemote
    dsimp only
    split
    · exact .of_mem (State.block_mem ..) hs
    · refine ih (State.request_inv (.of_mem (State.modContext_mem ..) ?_))
      split
      · exact .of_mem (State.putOp_mem ..) (.of_mem (State.newOp_mem ..) hs)
      · exact .of_mem (State.newOp_mem ..) hs
theorem execRpush_inv {o : FOps} {s : State} (hs : s.Inv) : NextInv (execRpush o s) := by
  unfold execRpush
  refine issue2_inv (fun _ _ hs => State.releaseAt_inv hs) (fun _ _ _ hs => ?_) hs
  dsimp only
  split
  · exact State.sendRemote_inv hs
  · split
    · exact hs
    · split
      · trivial
      · split
        · exact State.sendRemote_inv hs
        · split
          · trivial
          · exact State.acceptAll_inv hs
theorem reportWord_inv {i : Instr} {o : FOps} {s : State} {pass : Bool} (hs : s.Inv) : NextInv (reportWord i o s pass) := issue2_inv (fun _ _ hs => State.releaseAt_inv hs) (fun _ _ _ hs => .of_mem (State.report_mem ..) hs) hs
theorem State.setSealed_inv {s : State} {ctx key : Nat} {b : Bool} (hs : s.Inv) : OkInv (s.setSealed ctx key b) := by
  unfold State.setSealed
  dsimp only
  split
  · trivial
  · split
    · trivial
    next he1 =>
      exact .of_mem (State.settleNode_mem ..) (.of_mem (State.modNode_mem ..) (OkInv.ok (State.writeCtx_inv (.of_mem (State.readRun_mem ..) hs)) he1))
theorem State.sealMet_inv {s : State} {ctx key : Nat} {b : Bool} {f : Flt} (hs : s.Inv) : (s.sealMet ctx key b f).Inv := by
  unfold State.sealMet
  dsimp only
  split
  · exact hs
  · split
    · exact .of_mem (State.logPeek_mem ..) hs
    · exact State.writeMet_inv hs
theorem sealWord_inv {i : Instr} {o : FOps} {s : State} {b : Bool} (hs : s.Inv) : NextInv (sealWord i o s b) := by
  unfold sealWord
  refine issue2_inv (fun _ _ hs => State.releaseAt_inv hs) (fun _ _ _ hs => ?_) hs
  dsimp only
  split
  next he =>
    exact OkInv.ok (State.setSealed_inv hs) he
  · exact .of_mem (State.trapHeld_mem ..) (State.sealMet_inv hs)
theorem execRbind_inv {o : FOps} {s : State} (hs : s.Inv) : NextInv (execRbind o s) := by
  unfold execRbind
  exact issue_inv (fun _ _ hs => .of_mem (State.modGroup_mem ..) (State.commitRegion_inv hs)) hs

/-! #### HaltEvents -/

theorem State.writeStop_inv {s : State} {ctx die base : Nat} {bs : List (Nat × Byte)} (hs : s.Inv) : (s.writeStop ctx die base bs).Inv := by
  unfold State.writeStop
  split
  next he =>
    exact OkInv.ok (State.writeArea_inv hs) he
  · exact .of_mem (State.stopFault_mem ..) (State.areaMet_inv hs)
theorem stopGroup_inv {ctx gid : Nat} {s : State} (hs : s.Inv) : NextInv (stopGroup ctx gid s) := .of_mem (State.stopNow_mem ..) hs
theorem stopEngines_inv {ctx : Nat} {s : State} (hs : s.Inv) : NextInv (stopEngines ctx s) := hs
theorem execStopRecordsComplete_inv {ctx : Nat} {s : State} (hs : s.Inv) : NextInv (execStopRecordsComplete ctx s) := NextInv.ite hs (.of_mem (State.interrupt_mem ..) (.of_mem (State.modContext_mem ..) (State.Inv.foldl (fun _ _ hs => State.writeStop_inv hs) _ (State.Inv.foldl (fun _ _ hs => State.writeStop_inv hs) _ (State.Inv.foldl (fun _ _ hs => State.writeStop_inv hs) _ hs)))))
theorem State.clearValid_inv {s : State} {ctx : Nat} (hs : s.Inv) : (s.clearValid ctx).Inv := by
  unfold State.clearValid
  dsimp only
  refine .foldl (fun _ _ hs => ?_) _ hs
  split
  · exact State.writeStop_inv (.of_mem (State.readRun_mem ..) hs)
  · exact .of_mem (State.stopFault_mem ..) (.of_mem (State.readRun_mem ..) hs)
theorem State.retryRouters_inv {s : State} {ctx : Nat} (hs : s.Inv) : (s.retryRouters ctx).Inv := by
  refine .foldl (fun _ d hs => .foldl (fun _ r hs => .ite hs (.foldl (fun _ _ hs => State.routerPush_inv hs) _ ?_)) _ hs) _ hs
  exact .of_mem (State.modDie_mem ..) hs
theorem State.goOn_inv {s : State} {ctx : Nat} (hs : s.Inv) : (s.goOn ctx).Inv := State.settle_inv (.of_mem (State.serveBatches_mem ..) (State.Inv.foldl (fun _ _ hs => State.palMove_inv hs) _ (State.Inv.foldl (fun _ _ hs => .of_mem (State.settleNode_mem ..) hs) _ (State.retryRouters_inv (.of_mem (State.modContext_mem ..) (.update (State.Inv.foldl (fun _ _ hs => State.enter_inv hs) _ hs)))))))
theorem State.resumeHalt_inv {s : State} {ctx : Nat} (hs : s.Inv) : (s.resumeHalt ctx).1.Inv := by
  have hap (l : List (Nat × DWord × DWord × Nat)) (a : State × List (Flt × At)) (ha : a.1.Inv) : (l.foldl (fun (a : State × List (Flt × At)) x => let r := a.1.applyStop x.1 x.2; (r.1, match r.2 with | some f => a.2 ++ [f] | none => a.2)) a).1.Inv := by
    induction l generalizing a with
    | nil => exact ha
    | cons x l ih => exact ih _ (.of_mem (State.applyStop_mem ..) ha)
  unfold State.resumeHalt
  extract_lets words s1 done s2 s3 s4
  have h1 : s1.Inv := State.clearValid_inv (.of_mem (State.restartWaits_mem ..) hs)
  have h4 : s4.Inv := .foldl (fun s _ hs => .of_mem (State.raise_mem ..) hs) _ (State.goOn_inv (.of_mem (State.modContext_mem ..) (.of_mem (State.endHalt_mem ..) (hap _ _ h1))))
  exact .ite h4 (.of_mem (State.modContext_mem ..) h4)
theorem State.resumeCmd_inv {s : State} {w : Writer} {ctx : Nat} (hs : s.Inv) : (s.resumeCmd w ctx).Inv := State.Inv.ite (State.resumeHalt_inv hs) hs
theorem State.stepCmd_inv {s : State} {w : Writer} {ctx : Nat} (hs : s.Inv) : (s.stepCmd w ctx).Inv := State.Inv.ite hs (State.Inv.ite (State.resumeHalt_inv hs) (.of_mem (State.modContext_mem ..) (State.resumeHalt_inv hs)))
theorem State.preemptCmd_inv {s : State} {w : Writer} {ctx : Nat} (hs : s.Inv) : (s.preemptCmd w ctx).Inv := State.Inv.ite hs (State.Inv.ite hs (State.savePass_inv (State.preemptAll_inv (State.goOn_inv (.of_mem (State.modContext_mem ..) (.of_mem (State.endHalt_mem ..) (State.clearValid_inv hs)))))))
theorem State.dropPosted_inv {s : State} {ctx queue fuel : Nat} (hs : s.Inv) : (s.dropPosted ctx queue fuel).Inv := by
  induction fuel generalizing s with
  | zero => exact hs
  | succ n ih =>
    unfold State.dropPosted
    extract_lets q slot die r
    have hr : r.2.Inv := .of_mem (State.readRun_mem ..) hs
    clear_value r
    split
    · split
      · exact hr
      next he =>
        have h1 := (State.writeCtx_inv hr).ok he
        split
        · exact h1
        next he2 => exact ih (.of_mem (State.modContext_mem ..) ((State.writeCtx_inv h1).ok he2))
    · exact hr
theorem State.flushContext_inv {s : State} {ctx : Nat} (hs : s.Inv) : (s.flushContext ctx).Inv := State.Inv.foldl (fun _ _ hs => State.flushCombine_inv hs) _ hs
theorem State.discard_inv {s : State} {ctx : Nat} (hs : s.Inv) : (s.discard ctx).Inv := by
  unfold State.discard
  extract_lets c mine gs ts s1 s2 s3 s4 pushes gone s5 s6 s7 replays s7' s8
  have h1 : s1.Inv := .foldl (fun _ _ hs => .of_mem (State.freeGranules_mem ..) hs) _ (.of_mem (State.writeTenant_mem ..) (State.flushContext_inv hs))
  have h6 : s6.Inv := h1
  have h7 : s7'.Inv := .foldl (fun _ _ hs => .of_mem (State.partDone_mem ..) hs) _ (.of_mem (State.modContext_mem ..) h6)
  exact .foldl (fun _ _ hs => .of_mem (State.retargetDie_mem ..) hs) _ (.foldl (fun _ _ hs => State.dropPosted_inv hs) _ h7)
theorem State.terminateCmd_inv {s : State} {w : Writer} {ctx : Nat} (hs : s.Inv) : (s.terminateCmd w ctx).Inv := State.Inv.ite hs (State.discard_inv (.of_mem (State.endHalt_mem ..) (State.clearValid_inv hs)))
theorem State.haltCmd_inv {s : State} {w : Writer} {ctx v : Nat} (hs : s.Inv) : (s.haltCmd w ctx v).Inv := by
  unfold State.haltCmd
  dsimp only
  split
  · exact State.resumeCmd_inv (.of_mem (State.noteCmd_mem ..) hs)
  · exact State.stepCmd_inv (.of_mem (State.noteCmd_mem ..) hs)
  · exact State.preemptCmd_inv (.of_mem (State.noteCmd_mem ..) hs)
  · exact State.terminateCmd_inv (.of_mem (State.noteCmd_mem ..) hs)
  · exact .of_mem (State.noteCmd_mem ..) hs
theorem execWatchdogExpiry_inv {gid : Nat} {s : State} (hs : s.Inv) : NextInv (execWatchdogExpiry gid s) := by
  unfold execWatchdogExpiry
  dsimp only
  split
  · exact hs
  · exact NextInv.ite hs (.of_mem (State.raise_mem ..) hs)

/-! #### Slots -/

theorem issuePick_inv {cl : Nat} {s : State} (hs : s.Inv) : NextInv (issuePick cl s) := by
  unfold issuePick
  split
  · exact hs
  · exact State.Inv.ite (.update (.of_mem (State.fetched_mem ..) hs)) hs
theorem execIssueOpportunity_inv {core quad : Nat} {s : State} (hs : s.Inv) : NextInv (execIssueOpportunity core quad s) := NextInv.ite hs (NextInv.ite (.of_mem (State.modCore_mem ..) (.of_mem (State.modCluster_mem ..) (State.Inv.ite (.of_mem (State.endCycle_mem ..) hs) hs))) (NextInv.ite (.of_mem (State.modCluster_mem ..) (State.Inv.ite (.of_mem (State.endCycle_mem ..) hs) hs)) (.of_mem (State.opportunity_mem ..) (.of_mem (State.modCluster_mem ..) (State.Inv.ite (.of_mem (State.endCycle_mem ..) hs) hs)))))

/-! #### PowerEvents -/

theorem execArbiterEpoch_inv {since : Nat} {s : State} (hs : s.Inv) : NextInv (execArbiterEpoch since s) := by
  unfold execArbiterEpoch
  split
  · exact hs
  · dsimp only
    refine .of_mem (State.modHub_mem ..) ?_
    refine .update ?_
    refine .of_mem (State.capUnruled_mem ..) ?_
    refine .foldl (fun _ _ hs => ?_) _ (State.Inv.foldl (fun _ _ hs => .of_mem (State.followDeficit_mem ..) (.of_mem (State.balance_mem ..) hs)) _ (.of_mem (State.endMoves_mem ..) (.of_mem (State.lends_mem ..) hs)))
    refine .of_mem (State.modCluster_mem ..) ?_
    split
    · exact .of_mem (State.choose_mem ..) hs
    · exact hs
theorem execBudgetApply_inv {cluster : Nat} {s : State} (hs : s.Inv) : NextInv (execBudgetApply cluster s) := by
  unfold execBudgetApply
  dsimp only
  split
  · exact hs
  · exact NextInv.ite hs hs
theorem execDroopHalvingEnd_inv {cluster : Nat} {s : State} (hs : s.Inv) : NextInv (execDroopHalvingEnd cluster s) := State.Inv.ite hs hs
theorem execThermalOverThreshold_inv {die : Nat} {temp : BitVec 12} {s : State} (hs : s.Inv) : NextInv (execThermalOverThreshold die temp s) := by
  unfold execThermalOverThreshold
  dsimp only
  split
  · exact hs
  · split
    · exact .of_mem (State.modDie_mem ..) (.of_mem (State.choose_mem ..) hs)
    · split
      · exact .of_mem (State.interrupt_mem ..) (.of_mem (State.modDie_mem ..) (.of_mem (State.choose_mem ..) hs))
      · exact .of_mem (State.modDie_mem ..) (.of_mem (State.choose_mem ..) hs)
theorem execThermalRestore_inv {die : Nat} {temp : BitVec 12} {s : State} (hs : s.Inv) : NextInv (execThermalRestore die temp s) := hs

/-! #### Tracker -/

theorem execHptEpochEnd_inv {die : Nat} {s : State} (hs : s.Inv) : NextInv (execHptEpochEnd die s) := NextInv.ite hs (.of_mem (State.trackNext_mem ..) hs)
theorem State.dropLines_inv {s : State} {p : Nat → L2Line → Bool} (hs : s.Inv) : (s.dropLines p).Inv := State.Inv.foldl (fun _ _ hs => State.Inv.foldl (fun _ _ hs => State.dropLine_inv hs) _ hs) _ hs
theorem State.swapPair_inv {s : State} {part p q : Nat} (hs : s.Inv) : (s.swapPair part p q).Inv := by
  unfold State.swapPair
  split
  next a b _ _ =>
    extract_lets at_ s1 s2 moved put s3
    have h2 : s2.Inv := Memory.wf_swapMem _ _ _ (State.dropLines_inv hs)
    have hput (t : State) (ma e : Nat) (ht : t.Inv) : (put t ma e).Inv := Memory.wf_tsetAll _ _ ht
    exact .of_mem (State.dropCached_mem ..) (hput _ _ _ (hput _ _ _ h2))
  · exact hs
theorem execHptSwapDone_inv {die : Nat} {s : State} (hs : s.Inv) : NextInv (execHptSwapDone die s) := by
  unfold execHptSwapDone
  split
  · exact hs
  · exact .of_mem (State.trackNext_mem ..) (State.Inv.foldl (fun _ _ hs => State.Inv.ite (.of_mem (State.countDie_mem ..) hs) hs) _ (.of_mem (State.modDie_mem ..) (State.swapPair_inv hs)))

/-! #### TcEvents -/

theorem State.devWrite_inv {s : State} {ma : Nat} {b : Byte} (hs : s.Inv) : (s.devWrite ma b).Inv := by
  unfold State.devWrite
  split
  · exact hs
  · exact State.setMem_inv hs
theorem State.devWrites_inv {s : State} {pages : List (Nat × Option (Nat × Nat))} {ws : List (Nat × Byte)} (hs : s.Inv) : (s.devWrites pages ws).Inv := State.Inv.foldl (fun _ _ hs => .of_mem (State.accessAt_mem ..) hs) _ (State.Inv.foldl (fun _ _ hs => State.devWrite_inv hs) _ hs)
theorem State.tcDrop_inv {s : State} (hs : s.Inv) : s.tcDrop.Inv := by
  refine .update (.of_mem (State.dropCached_mem ..) (State.dropLines_inv (.foldl (fun _ x hs => ?_) _ hs)))
  exact .ite hs hs
theorem State.tcEnd_inv {s : State} (hs : s.Inv) : s.tcEnd.2.Inv := by
  unfold State.tcEnd
  split
  · exact State.tcDrop_inv hs
  · exact State.tcDrop_inv hs
  · exact .of_mem (State.loadRouters_mem ..) (.of_mem (State.loadTasks_mem ..) hs)
  · exact hs
theorem execTcCommandDone_inv {s : State} (hs : s.Inv) : NextInv (execTcCommandDone s) := NextInv.ite hs (NextInv.ite (.of_mem (State.tcSweep_mem ..) hs) (.of_mem (State.modHub_mem ..) (State.tcEnd_inv hs)))

/-! #### Registers -/

theorem State.eachWord_inv {s : State} {o n v : Nat} {f : State → Nat → Nat → State} (hf : ∀ (t : State) (a b : Nat), t.Inv → (f t a b).Inv) (hs : s.Inv) : (s.eachWord o n v f).Inv :=
  .ite (hf _ _ _ (hf _ _ _ hs)) (hf _ _ _ hs)
theorem State.writeHalt_inv {s : State} {w : Writer} {ctx o v : Nat} (hs : s.Inv) : (s.writeHalt w ctx o v).Inv := State.Inv.ite (State.haltCmd_inv hs) (State.Inv.ite hs hs)
theorem State.writeRegister_inv {s : State} {w : Writer} {addr size v : Nat} (hs : s.Inv) : (s.writeRegister w addr size v).Inv := by
  refine .ite hs ?_
  split
  · exact State.eachWord_inv (fun _ _ _ hs => State.writeHalt_inv hs) hs
  · exact State.eachWord_inv (fun _ _ _ hs => .of_mem (State.writeRace_mem ..) hs) hs
  · exact .of_mem (State.writeHub_mem ..) hs
  · exact .of_mem (State.writeDie_mem ..) hs
  · exact hs

/-! #### HubEvents -/

theorem execDlRevokeDone_inv {s : State} (hs : s.Inv) : NextInv (execDlRevokeDone s) := hs
theorem execFirewallFlit_inv {f : Flit} {s : State} (hs : s.Inv) : NextInv (execFirewallFlit f s) := by
  unfold execFirewallFlit
  split
  · exact hs
  · exact .of_mem (State.linkFault_mem ..) hs
theorem execLinkDown_inv {port : Nat} {gid : Option Nat} {ctx : Nat} {addr : BitVec 56} {s : State} (hs : s.Inv) : NextInv (execLinkDown port gid ctx addr s) := by
  unfold execLinkDown
  dsimp only
  split
  · exact State.Inv.ite (.of_mem (State.raise_mem ..) hs) (.of_mem (State.linkFault_mem ..) hs)
  · exact .of_mem (State.linkFault_mem ..) hs
theorem State.hubAccess_inv {s : State} {as : List (Nat × Option (Nat × Nat))} {x : PeerOp} (hs : s.Inv) : (s.hubAccess as x).1.Inv := by
  unfold State.hubAccess
  split
  · exact State.devWrites_inv hs
  · exact State.devWrites_inv hs
theorem State.peerRun_inv {s : State} {p : PeerAccess} (hs : s.Inv) : (s.peerRun p).Inv := by
  unfold State.peerRun
  split
  · exact hs
  · exact State.Inv.ite hs (.of_mem (State.modSlice_mem ..) (.of_mem (State.fresh_mem ..) (State.hubAccess_inv hs)))
theorem State.appAccess_inv {s : State} {addr : Nat} {op : PeerOp} (hs : s.Inv) : (s.appAccess addr op).Inv := by
  unfold State.appAccess
  split
  · exact State.Inv.ite hs (.of_mem (State.modHub_mem ..) (State.hubAccess_inv hs))
  · exact State.Inv.ite hs (State.hubAccess_inv hs)
theorem State.dmaRun_inv {s : State} {function va : Nat} {read : Option Nat} {bytes : List (BitVec 8)} (hs : s.Inv) : (s.dmaRun function va read bytes).Inv := by
  unfold State.dmaRun
  split
  · exact hs
  · split
    · dsimp only
      split
      · exact .of_mem (State.modHub_mem ..) (.of_mem (State.peekRun_mem ..) hs)
      · exact .of_mem (State.raise_mem ..) (.of_mem (State.peekRun_mem ..) hs)
    · dsimp only
      split
      next he2 =>
        exact OkInv.ok (State.slicePokes_inv hs) he2
      · exact .of_mem (State.raise_mem ..) (State.pokesMet_inv hs)
theorem State.hubRun_inv {s : State} {x1 : HubAccess} (hs : s.Inv) : (s.hubRun x1).Inv := by
  unfold State.hubRun
  split
  · exact State.peerRun_inv hs
  · dsimp only
    split
    · exact State.dmaRun_inv hs
    · exact State.dmaRun_inv hs
    · exact State.Inv.ite (.of_mem (State.modHub_mem ..) (.of_mem (State.devAccess_mem ..) hs)) hs
    · exact State.appAccess_inv hs
    · exact State.appAccess_inv hs
    · exact hs
    · exact hs
theorem State.hubArrive_inv {s : State} {x1 : HubAccess} (hs : s.Inv) : (s.hubArrive x1).Inv := State.Inv.ite hs (State.hubRun_inv hs)
theorem execHubAccess_inv {x0 : HubAccess × Nat} {s : State} (hs : s.Inv) : NextInv (execHubAccess x0 s) := State.hubRun_inv hs
theorem execRootPortDma_inv {function : Nat} {addr : BitVec 64} {x2 : HostAccess} {bytes : List (BitVec 8)} {s : State} (hs : s.Inv) : NextInv (execRootPortDma function addr x2 bytes s) := by
  unfold execRootPortDma
  dsimp only
  split
  · exact State.Inv.ite hs hs
  · exact .of_mem (State.modHub_mem ..) (.of_mem (State.noteRead_mem ..) hs)
  · exact State.hubArrive_inv hs
  · exact State.hubArrive_inv hs
  · exact State.hubArrive_inv hs
  · exact State.hubArrive_inv hs
  · exact State.hubArrive_inv hs
theorem execBoot_inv {b : BootImage} {s : State} (hs : s.Inv) : NextInv (execBoot b s) := by
  unfold execBoot
  split
  · exact hs
  · split
    · exact hs
    · exact State.Inv.foldl (fun _ _ hs => .of_mem (State.writePartition_mem ..) (.of_mem (State.writePartition_mem ..) (.of_mem (State.writePartition_mem ..) hs))) _ hs

/-! #### Integer -/

theorem carryChain_inv {i : Instr} {o : FOps} {s : State} {f : Word → Word → Bool → Word × Bool} (hs : s.Inv) : NextInv (carryChain i o s f) := issue_inv (fun _ _ hs => hs) hs

/-! #### PForm -/

theorem State.pAccess_inv {t : State} {c : Iss} {i : Instr} {h : PHalf} (hs : t.Inv) : (t.pAccess c i h).Inv := by
  unfold State.pAccess
  split
  · exact .of_mem (State.scratchLoad_mem ..) hs
  · exact State.scratchStore_inv hs
  · exact hs
  · exact hs
  · exact hs
theorem execPair_inv {x0 y : PHalf} {s : State} (hs : s.Inv) : NextInv (execPair x0 y s) := by
  unfold execPair
  dsimp only
  refine issue_inv (fun _ _ hs => ?_) hs
  split
  · trivial
  · trivial
  · exact .of_mem (State.modGroup_mem ..) (State.pAccess_inv (State.pAccess_inv hs))

/-! #### Scalar -/

theorem scalar2_inv {i : Instr} {o : FOps} {s : State} {f : Word → Word → Word} (hs : s.Inv) : NextInv (scalar2 i o s f) := scalar_inv hs
theorem scalarD_inv {i : Instr} {o : FOps} {s : State} {f : Word → Word → Word} {fd : DWord → DWord → DWord} (hs : s.Inv) : NextInv (scalarD i o s f fd) := issue_inv (fun _ _ hs => hs) hs

/-! #### System -/

theorem execOphintDwellExpiry_inv {team : Nat} {s : State} (hs : s.Inv) : NextInv (execOphintDwellExpiry team s) := by
  unfold execOphintDwellExpiry
  split
  · exact hs
  · split
    · exact hs
    · exact State.Inv.ite (.of_mem (State.setRequest_mem ..) hs) hs
theorem execPhint_inv {o : FOps} {s : State} (hs : s.Inv) : NextInv (execPhint o s) := by
  unfold execPhint
  refine issue_inv (fun _ _ hs => ?_) hs
  dsimp only
  split
  · trivial
  · exact .of_mem (State.modGroup_mem ..) (State.commitRegion_inv hs)
theorem State.trapAfter_inv {s : State} {c : Iss} {f : Flt} (hs : s.Inv) : (s.trapAfter c f).Inv := .of_mem (State.raise_mem ..) hs

/-! #### Dispatch -/

theorem exec_inv {i : Instr} {s : State} (hs : s.Inv) : NextInv (exec i s) := by
  unfold exec
  cases i with
  | iadd _ => exact lanewise2_inv hs
  | isub _ => exact lanewise2_inv hs
  | imul _ => exact lanewise2_inv hs
  | imulh _ => exact lanewise2_inv hs
  | imad _ => exact lanewise3_inv hs
  | imadw _ => exact issue_inv (fun _ _ hs => hs) hs
  | iaddc _ => exact carryChain_inv hs
  | isubb _ => exact carryChain_inv hs
  | iabs _ => exact lanewise1_inv hs
  | ineg _ => exact lanewise1_inv hs
  | imin _ => exact lanewise2_inv hs
  | imax _ => exact lanewise2_inv hs
  | iadds _ => exact lanewise2_inv hs
  | isubs _ => exact lanewise2_inv hs
  | idot4 _ => exact lanewise3_inv hs
  | idot8 _ => exact lanewise3_inv hs
  | lea _ => exact lanewise2_inv hs
  | mov _ => exact lanewise_inv hs
  | movi _ => exact issue_inv (fun _ _ hs => hs) hs
  | sel _ => exact lanewise_inv hs
  | and _ => exact lanewise2_inv hs
  | or _ => exact lanewise2_inv hs
  | xor _ => exact lanewise2_inv hs
  | not _ => exact lanewise1_inv hs
  | tri _ => exact lanewise3_inv hs
  | shl _ => exact lanewise2_inv hs
  | shr _ => exact lanewise2_inv hs
  | sar _ => exact lanewise2_inv hs
  | shf _ => exact lanewise3_inv hs
  | popc _ => exact lanewise1_inv hs
  | clz _ => exact lanewise1_inv hs
  | brev _ => exact lanewise1_inv hs
  | bfe _ => exact lanewise2_inv hs
  | bfi _ => exact lanewise3_inv hs
  | prmb _ => exact lanewise3_inv hs
  | fadd _ => exact fp2_inv hs
  | fsub _ => exact fp2_inv hs
  | fmul _ => exact fp2_inv hs
  | ffma _ => exact checked1_inv hs
  | fmin _ => exact fp2_inv hs
  | fmax _ => exact fp2_inv hs
  | frcp _ => exact special_inv hs
  | frsq _ => exact special_inv hs
  | fsqrt _ => exact special_inv hs
  | fexp2 _ => exact special_inv hs
  | flog2 _ => exact special_inv hs
  | ftanh _ => exact special_inv hs
  | fsinpi _ => exact special_inv hs
  | fcospi _ => exact special_inv hs
  | frnd _ => exact lanewise1_inv hs
  | fclass _ => exact lanewise1_inv hs
  | fscale _ => exact checked1_inv hs
  | hadd2 _ => exact packed2_inv hs
  | hmul2 _ => exact packed2_inv hs
  | hfma2 _ => exact checked1_inv hs
  | hmin2 _ => exact packed2_inv hs
  | hmax2 _ => exact packed2_inv hs
  | fdot2 _ => exact checked1_inv hs
  | cvtff _ => exact execCvtff_inv hs
  | cvtfi _ => exact execCvtfi_inv hs
  | cvtif _ => exact execCvtif_inv hs
  | cvtii _ => exact lanewise_inv hs
  | pack8 _ => exact checked1_inv hs
  | unpk8 _ => exact lanewise1_inv hs
  | packq _ => exact checked_inv hs
  | unpkq _ => exact checked_inv hs
  | keyf _ => exact lanewise1_inv hs
  | qscl _ => exact checked1_inv hs
  | icmp _ => exact predwise_inv hs
  | fcmp _ => exact predwise_inv hs
  | plop _ => exact predwise_inv hs
  | vote _ => exact issue_inv (fun _ _ hs => State.Inv.ite hs hs) hs
  | xch _ => exact lanewise_inv hs
  | gred _ => exact issue_inv (fun _ _ hs => .of_mem (State.newOp_mem ..) hs) hs
  | pmov _ => exact issue_inv (fun _ _ hs => hs) hs
  | sadd _ => exact scalarD_inv hs
  | ssub _ => exact scalarD_inv hs
  | smul _ => exact scalar2_inv hs
  | sand _ => exact scalar2_inv hs
  | sor _ => exact scalar2_inv hs
  | sxor _ => exact scalar2_inv hs
  | sshl _ => exact scalarD_inv hs
  | sshr _ => exact scalarD_inv hs
  | smov _ => exact scalarD_inv hs
  | smovi _ => exact issue_inv (fun _ _ hs => hs) hs
  | spopc _ => exact scalar2_inv hs
  | sffs _ => exact scalar2_inv hs
  | smin _ => exact scalar2_inv hs
  | smax _ => exact scalar2_inv hs
  | scmp _ => exact scalar2_inv hs
  | sld _ => exact execSld_inv hs
  | sst _ => exact execSst_inv hs
  | sread _ => exact scalar_inv hs
  | swrite _ => exact issue_inv (fun _ _ hs => hs) hs
  | ld _ => exact execLd_inv hs
  | st _ => exact execSt_inv hs
  | ldp _ => exact execLdp_inv hs
  | stp _ => exact execStp_inv hs
  | pref _ => exact issue_inv (fun _ _ hs => State.Inv.foldl (fun _ _ hs => State.request_inv hs) _ hs) hs
  | cinv _ => exact maintainWord_inv hs
  | cwb _ => exact maintainWord_inv hs
  | lds _ => exact execLds_inv hs
  | sts _ => exact execSts_inv hs
  | tld _ => exact execTld_inv hs
  | tst _ => exact execTst_inv hs
  | tmov _ => exact issue_inv (fun _ _ hs => .of_mem (State.newOp_mem ..) hs) hs
  | pdecl _ => exact execPdecl_inv hs
  | penter _ => exact execPenter_inv hs
  | pwait _ => exact issue2_inv (fun _ _ hs => OkInv.ite (State.commitRegion_inv hs) (OkInv.ite trivial (State.Inv.ite (State.commitRegion_inv hs) (.of_mem (State.block_mem ..) (State.commitRegion_inv hs))))) (fun _ _ _ hs => hs) hs
  | pleave _ => exact issue_inv (fun _ _ hs => OkInv.ite (State.commitRegion_inv hs) (OkInv.ite trivial (State.palMove_inv (.of_mem (State.modTeam_mem ..) (.of_mem (State.modGroup_mem ..) (State.commitRegion_inv hs)))))) hs
  | pdrop _ => exact issue2_inv (fun _ _ hs => State.Inv.ite (State.commitRegion_inv hs) (State.Inv.ite (.of_mem (State.trapHeld_mem ..) (State.commitRegion_inv hs)) (State.Inv.ite (.of_mem (State.block_mem ..) (State.commitRegion_inv hs)) (State.dropPalette_inv (State.commitRegion_inv hs))))) (fun _ _ _ hs => OkInv.ite hs (OkInv.ite trivial (State.dropPalette_inv hs))) hs
  | pqry _ => exact issue_inv (fun _ _ hs => OkInv.ite hs hs) hs
  | atom _ => exact issue_inv (fun _ _ hs => atomFront_inv (fun _ _ hs => State.startAtomic_inv hs) hs) hs
  | acas _ => exact issue_inv (fun _ _ hs => atomFront_inv (fun _ _ hs => State.startAtomic_inv hs) hs) hs
  | red _ => exact execRed_inv hs
  | acont _ => exact execAcont_inv hs
  | fence _ => exact execFence_inv hs
  | waitn _ => exact issue2_inv (fun _ _ hs => State.Inv.ite (.of_mem (State.waitnReturns_mem ..) (State.Inv.ite (State.flushCombine_inv (State.commitRegion_inv hs)) hs)) (.of_mem (State.block_mem ..) (State.Inv.ite (State.flushCombine_inv (State.commitRegion_inv hs)) hs))) (fun _ _ _ hs => .of_mem (State.waitnReturns_mem ..) hs) hs
  | mma _ => exact mmaIssue_inv hs
  | mmas _ => exact mmaIssue_inv hs
  | aclr _ => exact mxIssue_inv hs
  | amov _ => exact mxIssue_inv hs
  | aload _ => exact execAload_inv hs
  | drain _ => exact execDrain_inv hs
  | drepl _ => exact issue_inv (fun _ _ hs => .of_mem (State.queueMx_mem ..) (.of_mem (State.newOp_mem ..) hs)) hs
  | atbl _ => exact execAtbl_inv hs
  | ckick _ => exact execCkick_inv hs
  | gthr _ => exact gatherWord_inv hs
  | sctr _ => exact gatherWord_inv hs
  | coll _ => exact execColl_inv hs
  | binit _ => exact execBinit_inv hs
  | bexp _ => exact execBexp_inv hs
  | bwait _ => exact execBwait_inv hs
  | cstat _ => exact issue_inv (fun _ _ hs => State.Inv.ite hs hs) hs
  | bra _ => exact issue_inv (fun _ _ hs => hs) hs
  | brc _ => exact issue_inv (fun _ _ hs => State.Inv.ite hs hs) hs
  | brs _ => exact execBrs_inv hs
  | join _ => exact execJoin_inv hs
  | brx _ => exact tableJump_inv hs
  | call _ => exact issue_inv (fun _ _ hs => hs) hs
  | callx _ => exact tableJump_inv hs
  | ret _ => exact execRet_inv hs
  | exit _ => exact issue2_inv (fun _ _ hs => State.exitSlot_inv hs) (fun _ _ _ hs => State.exitSlot_inv hs) hs
  | nop _ => exact issue_inv (fun _ _ hs => hs) hs
  | regroup _ => exact execRegroup_inv hs
  | yield _ => exact issue_inv (fun _ _ hs => hs) hs
  | barv _ => exact execBarv_inv hs
  | bsyn _ => exact execBsyn_inv hs
  | bphs _ => exact execBphs_inv hs
  | qpush _ => exact execQpush_inv hs
  | qpop _ => exact execQpop_inv hs
  | qalw _ => exact execQalw_inv hs
  | qalwInit _ => exact execQalwInit_inv hs
  | qtryPush _ => exact execQtryPush_inv hs
  | qtryPop _ => exact execQtryPop_inv hs
  | gsync _ => exact execGsync_inv hs
  | deq _ => exact deqWord_inv hs
  | deqt _ => exact deqWord_inv hs
  | rpush _ => exact execRpush_inv hs
  | rpass _ => exact reportWord_inv hs
  | rrej _ => exact reportWord_inv hs
  | lnch _ => exact issue2_inv (fun _ _ hs => State.releaseAt_inv hs) (fun _ _ _ hs => State.Inv.ite (.of_mem (State.batch_mem ..) hs) (.of_mem (State.settleNode_mem ..) hs)) hs
  | nodeqQry _ => exact issue_inv (fun _ _ hs => hs) hs
  | nodeqSeal _ => exact sealWord_inv hs
  | nodeqOpen _ => exact sealWord_inv hs
  | rbind _ => exact execRbind_inv hs
  | tstamp _ => exact issue_inv (fun _ _ hs => hs) hs
  | cycles _ => exact issue_inv (fun _ _ hs => hs) hs
  | phint _ => exact execPhint_inv hs
  | phints _ => exact issue_inv (fun _ _ hs => OkInv.ite trivial (OkInv.ite trivial (OkInv.ite trivial hs))) hs
  | ostage _ => exact issue_inv (fun _ _ hs => hs) hs
  | trap _ => exact issue_inv (fun _ _ hs => State.Inv.ite hs (State.trapAfter_inv hs)) hs
  | bkpt _ => exact issue_inv (fun _ _ hs => State.Inv.ite hs (State.trapAfter_inv hs)) hs
  | evrd _ => exact issue_inv (fun _ _ hs => hs) hs
  | evcfg _ => exact issue_inv (fun _ _ hs => OkInv.ite trivial (OkInv.ite hs (State.Inv.ite hs hs))) hs
  | ophint _ => exact issue_inv (fun _ _ hs => State.Inv.ite (.of_mem (State.setRequest_mem ..) hs) hs) hs
  | iaddP _ _ => exact execPair_inv hs
  | isubP _ _ => exact execPair_inv hs
  | iminP _ _ => exact execPair_inv hs
  | imaxP _ _ => exact execPair_inv hs
  | andP _ _ => exact execPair_inv hs
  | orP _ _ => exact execPair_inv hs
  | xorP _ _ => exact execPair_inv hs
  | shlP _ _ => exact execPair_inv hs
  | shrP _ _ => exact execPair_inv hs
  | sarP _ _ => exact execPair_inv hs
  | movP _ _ => exact execPair_inv hs
  | imulP _ _ => exact execPair_inv hs
  | faddP _ _ => exact execPair_inv hs
  | fsubP _ _ => exact execPair_inv hs
  | fmulP _ _ => exact execPair_inv hs
  | fminP _ _ => exact execPair_inv hs
  | fmaxP _ _ => exact execPair_inv hs
  | hadd2P _ _ => exact execPair_inv hs
  | hmul2P _ _ => exact execPair_inv hs
  | saddP _ _ => exact execPair_inv hs
  | ssubP _ _ => exact execPair_inv hs
  | sandP _ _ => exact execPair_inv hs
  | sorP _ _ => exact execPair_inv hs
  | sxorP _ _ => exact execPair_inv hs
  | smovP _ _ => exact execPair_inv hs
  | sshlP _ _ => exact execPair_inv hs
  | sshrP _ _ => exact execPair_inv hs
  | ldsP _ _ => exact execPair_inv hs
  | stsP _ _ => exact execPair_inv hs
  | nopP _ _ => exact execPair_inv hs
  | clauseStart _ => exact execClauseStart_inv hs
  | clauseSkip _ => exact execClauseSkip_inv hs
  | issueOpportunity _ _ => exact execIssueOpportunity_inv hs
  | longLatencyComplete _ => exact execLongLatencyComplete_inv hs
  | scrubPass _ _ _ => exact execScrubPass_inv hs
  | sliceLoad _ => exact execSliceLoad_inv hs
  | sliceStore _ => exact execSliceStore_inv hs
  | sliceWriteback _ => exact execSliceWriteback_inv hs
  | sliceAtomic _ => exact execSliceAtomic_inv hs
  | sliceAddOnStore _ => exact execSliceAddOnStore_inv hs
  | sliceAcont _ => exact execSliceAcont_inv hs
  | replayFilterAck _ _ _ => exact execReplayFilterAck_inv hs
  | walkComplete _ => exact execWalkComplete_inv hs
  | memoryFillReturn _ => exact execMemoryFillReturn_inv hs
  | l1FillReturn _ => exact execL1FillReturn_inv hs
  | storeAccepted _ => exact execStoreAccepted_inv hs
  | combineTimeout _ _ => exact execCombineTimeout_inv hs
  | hptEpochEnd _ => exact execHptEpochEnd_inv hs
  | hptSwapDone _ => exact execHptSwapDone_inv hs
  | slqEntryPlace _ => exact execSlqEntryPlace_inv hs
  | matrixTake _ => exact execMatrixTake_inv hs
  | matrixOpComplete _ => exact execMatrixOpComplete_inv hs
  | drainEntryTake _ => exact execDrainEntryTake_inv hs
  | drainRowPerformed _ _ _ => exact execDrainRowPerformed_inv hs
  | kickQueueTake _ => exact execKickQueueTake_inv hs
  | copyBytePerformed _ => exact execCopyBytePerformed_inv hs
  | gatherRowPerformed _ _ => exact execGatherRowPerformed_inv hs
  | collectiveComplete _ _ => exact execCollectiveComplete_inv hs
  | paletteLineFilled _ => exact execPaletteLineFilled_inv hs
  | lqRecordTake _ _ => exact execLqRecordTake_inv hs
  | depPoll _ => exact execDepPoll_inv hs
  | recordAging _ => exact execRecordAging_inv hs
  | recordChoice _ _ => exact execRecordChoice_inv hs
  | teamPlace _ _ => exact execTeamPlace_inv hs
  | reservationTimeout _ _ => exact execReservationTimeout_inv hs
  | relockComplete _ => exact execRelockComplete_inv hs
  | ophintDwellExpiry _ => exact execOphintDwellExpiry_inv hs
  | gridComplete _ => exact execGridComplete_inv hs
  | binTimerExpiry _ _ _ => exact execBinTimerExpiry_inv hs
  | governorEval _ _ => exact execGovernorEval_inv hs
  | deqtTimeout _ => exact execDeqtTimeout_inv hs
  | routerEntry _ _ => exact execRouterEntry_inv hs
  | routerRpass _ _ => exact execRouterRpass_inv hs
  | routerRrej _ _ => exact execRouterRrej_inv hs
  | remoteTailWrite _ => exact execRemoteTailWrite_inv hs
  | remotePullComplete _ _ => exact execRemotePullComplete_inv hs
  | pushAck _ _ => exact execPushAck_inv hs
  | arbiterEpoch _ => exact execArbiterEpoch_inv hs
  | budgetApply _ => exact execBudgetApply_inv hs
  | deficitReport _ _ => exact State.Inv.ite hs hs
  | droopAlarm _ => exact NextInv.ite hs (State.Inv.foldl (fun _ _ hs => .of_mem (State.countDie_mem ..) hs) _ hs)
  | droopHalvingEnd _ => exact execDroopHalvingEnd_inv hs
  | thermalOverThreshold _ _ => exact execThermalOverThreshold_inv hs
  | thermalRestore _ _ => exact execThermalRestore_inv hs
  | stopRecordsComplete _ => exact execStopRecordsComplete_inv hs
  | haltResume _ _ => exact State.resumeCmd_inv (.of_mem (State.noteCmd_mem ..) hs)
  | haltStep _ _ => exact State.stepCmd_inv (.of_mem (State.noteCmd_mem ..) hs)
  | haltPreempt _ _ => exact State.preemptCmd_inv (.of_mem (State.noteCmd_mem ..) hs)
  | haltTerminate _ _ => exact State.terminateCmd_inv (.of_mem (State.noteCmd_mem ..) hs)
  | watchdogExpiry _ => exact execWatchdogExpiry_inv hs
  | timeSliceExpiry _ => exact execTimeSliceExpiry_inv hs
  | teamResume _ => exact execTeamResume_inv hs
  | tcInvalidateS1 _ => exact .of_mem (State.tcWrite_mem ..) hs
  | tcInvalidateS2 _ => exact .of_mem (State.tcWrite_mem ..) hs
  | tcReloadContext _ => exact .of_mem (State.tcWrite_mem ..) hs
  | tcReloadTask _ => exact .of_mem (State.tcWrite_mem ..) hs
  | tcCommandDone => exact execTcCommandDone_inv hs
  | dlEntryWriteLow _ _ _ => exact .of_mem (State.stageEntry_mem ..) hs
  | dlEntryWriteHigh _ _ _ => exact hs
  | dlRevoke _ _ => exact hs
  | dlRevokeDone => exact execDlRevokeDone_inv hs
  | rtRowWrite _ _ _ _ => exact .of_mem (State.writeRow_mem ..) hs
  | pwShareWrite _ _ _ => exact .of_mem (State.writePwShare_mem ..) hs
  | bwShareWrite _ _ _ _ => exact .of_mem (State.writeBwShare_mem ..) hs
  | partitionTableWrite _ _ _ _ => exact State.Inv.ite (.of_mem (State.writePartition_mem ..) hs) hs
  | lkModuleWrite _ _ => exact .of_mem (State.writeModule_mem ..) hs
  | pfSelWrite _ _ _ _ => exact .of_mem (State.writeSel_mem ..) hs
  | rmfEntryWrite _ _ _ _ _ => exact .of_mem (State.writeRmf_mem ..) hs
  | hptCtlWrite _ _ _ => exact .of_mem (State.writeHpt_mem ..) hs
  | registerWrite _ _ _ _ => exact State.writeRegister_inv hs
  | firewallFlit _ => exact execFirewallFlit_inv hs
  | flitCrcFail _ => exact NextInv.ite hs (State.Inv.ite (.of_mem (State.linkFault_mem ..) (State.Inv.ite hs hs)) (State.Inv.ite hs hs))
  | linkDown _ _ _ _ => exact execLinkDown_inv hs
  | peerDirectWrite _ _ _ => exact State.hubArrive_inv hs
  | rootPortDma _ _ _ _ => exact execRootPortDma_inv hs
  | boot _ => exact execBoot_inv hs
  | attestationRequest _ _ _ => exact State.Inv.ite hs hs
  | replyTimeout _ _ => exact execReplyTimeout_inv hs
  | rdCtlWrite _ _ _ => exact .of_mem (State.writeRd_mem ..) hs

/-! #### Choices -/

theorem goQueued_inv {n : Nat} {s : State} (hs : s.Inv) : NextInv (goQueued n s) := State.settle_inv (State.sendQueued_inv hs)
theorem passTime_inv {s : State} (hs : s.Inv) : NextInv (passTime s) := hs
theorem flushHalted_inv {ctx : Nat} {s : State} (hs : s.Inv) : NextInv (flushHalted ctx s) := State.flushContext_inv hs
theorem refillTeam_inv {team : Nat} {s : State} (hs : s.Inv) : NextInv (refillTeam team s) := State.palMove_inv (State.refillLines_inv hs)
theorem State.runGrant_inv {s : State} {g : Grant} (hs : s.Inv) : NextInv (s.runGrant g) := by
  unfold State.runGrant
  split
  · exact .of_mem (State.takeTrap_mem ..) (.of_mem (State.logFetch_mem ..) hs)
  · exact hs
  · exact exec_inv hs

/-! #### The events, and the step -/

/-- An event that keeps the canonical form of memory. -/
def EvInv (e : Event) : Prop := ∀ s : State, s.Inv → NextInv (e s)

/-- Events that keep it, all of them. -/
def EvsInv (l : List Event) : Prop := ∀ e ∈ l, EvInv e

theorem EvsInv.nil : EvsInv [] := fun _ h => nomatch h
theorem EvsInv.one {e : Event} (h : EvInv e) : EvsInv [e] := fun _ he => List.mem_singleton.mp he ▸ h
theorem EvsInv.cons {e : Event} {l : List Event} (h : EvInv e) (hl : EvsInv l) : EvsInv (e :: l) := List.forall_mem_cons.mpr ⟨h, hl⟩
theorem EvsInv.append {k l : List Event} (hk : EvsInv k) (hl : EvsInv l) : EvsInv (k ++ l) := List.forall_mem_append.mpr ⟨hk, hl⟩
theorem EvsInv.ite {k l : List Event} {p : Prop} {_ : Decidable p} (hk : EvsInv k) (hl : EvsInv l) : EvsInv (if p then k else l) := by
  split <;> assumption
theorem EvsInv.map {α : Type} {f : α → Event} {l : List α} (h : ∀ a, EvInv (f a)) : EvsInv (l.map f) := List.forall_mem_map.mpr fun a _ => h a
theorem EvsInv.flatMap {α : Type} {f : α → List Event} {l : List α} (h : ∀ a, EvsInv (f a)) : EvsInv (l.flatMap f) := fun e he => by
  obtain ⟨a, _, he⟩ := List.mem_flatMap.mp he
  exact h a e he
theorem EvsInv.filterMap {α : Type} {f : α → Option Event} {l : List α} (h : ∀ a, EvsInv (f a).toList) : EvsInv (l.filterMap f) := fun e he => by
  obtain ⟨a, _, he⟩ := List.mem_filterMap.mp he
  exact h a e (Option.mem_toList.mpr he)
/-- An event that there is only when `p` holds. -/
theorem EvsInv.given {e : Event} {p : Prop} {_ : Decidable p} (h : EvInv e) : EvsInv (if p then some e else none).toList := by
  split
  · exact .one h
  · exact .nil
theorem EvsInv.unless {e : Event} {p : Prop} {_ : Decidable p} (h : EvInv e) : EvsInv (if p then none else some e).toList := by
  split
  · exact .nil
  · exact .one h

theorem Req.nextEvent_inv (n : Nat) (r : Req) : EvsInv (r.nextEvent n).toList := by
  unfold Req.nextEvent
  split
  · exact .nil
  · exact .nil
  · exact .nil
  · exact .nil
  · exact .one fun _ => execWalkComplete_inv
  · exact .one fun _ => execMemoryFillReturn_inv
  · exact .one fun _ => execSliceLoad_inv
  · exact .one fun _ => execSliceLoad_inv
  · exact .one fun _ => execSliceLoad_inv
  · exact .one fun _ => execSliceLoad_inv
  · exact .one fun _ => execSliceLoad_inv
  · exact .one fun _ => execSliceStore_inv
  · exact .one fun _ => execSliceStore_inv
  · exact .one fun _ => execSliceWriteback_inv
  · exact .one fun _ => execSliceAtomic_inv
  · exact .one fun _ => execSliceAtomic_inv
  · exact .one fun _ => execSliceAddOnStore_inv
  · exact .one fun _ => execSliceAcont_inv
  · exact .one fun _ => execL1FillReturn_inv
  · exact .one fun _ => execL1FillReturn_inv
  · exact .one fun _ => execL1FillReturn_inv
  · exact .one fun _ => execStoreAccepted_inv
  · exact .one fun _ => execPaletteLineFilled_inv
  · exact .nil

theorem Op.nextEvent_inv (n : Nat) (o : Op) : EvsInv (o.nextEvent n).toList := by
  unfold Op.nextEvent
  split
  · exact .nil
  · split
    · exact .one fun _ => execMatrixOpComplete_inv
    · exact .given fun _ => execLongLatencyComplete_inv

theorem State.coreEvents_inv (s : State) (k : Nat) (c : Core) : EvsInv (s.coreEvents k c) := by
  refine .append (.append (.append ?_ (.flatMap fun _ => .ite .nil (.map fun _ _ => execGatherRowPerformed_inv))) ?_) (.flatMap fun _ => .map fun _ _ => execDrainRowPerformed_inv)
  · split
    · exact .ite .nil (.one fun _ => execKickQueueTake_inv)
    · exact .nil
  · split
    · split
      · exact .one fun _ => execDrainEntryTake_inv
      · exact .one fun _ => execMatrixTake_inv
    · exact .nil

theorem routerEvent_inv (die idx : Nat) (x : RouterEvent) : EvInv (routerEvent die idx x) := by
  cases x with
  | entry _ _ => exact fun _ => execRouterEntry_inv
  | pass _ _ _ _ _ => exact fun _ => execRouterRpass_inv
  | rej _ _ _ _ _ => exact fun _ => execRouterRrej_inv

theorem State.dieEvents_inv (s : State) (k : Nat) (d : Die) : EvsInv (s.dieEvents k d) := by
  have hrouter (r : Nat × Router) : EvsInv (if (s.context r.2.ctx).hb.halt then none else r.2.events.head?.map (routerEvent k r.1)).toList := by
    split
    · exact .nil
    · cases r.2.events.head? with
      | none => exact .nil
      | some x => exact .one (routerEvent_inv _ _ _)
  refine .append (.append (.append (.append (.append (.append (.append (.filterMap fun _ => .unless fun _ => execCopyBytePerformed_inv) (.filterMap fun _ => .unless fun _ => execCollectiveComplete_inv)) (.filterMap hrouter)) ?_)
    (.map fun _ _ => execPushAck_inv)) (.ite .nil (.one fun _ => execHptSwapDone_inv))) ?_) (.ite (.one fun _ => execHptEpochEnd_inv) .nil)
  · split
    · exact .ite (.one fun _ => execRemotePullComplete_inv) .nil
    · exact .nil
  · split
    · exact .ite (.one fun _ => execThermalRestore_inv) .nil
    · exact .nil

theorem State.sliceEvents_inv (s : State) (k : Nat) (x : Slice) : EvsInv (s.sliceEvents k x) :=
  .append (.ite (.one fun _ => execSlqEntryPlace_inv) .nil) (.filterMap fun _ => .given fun _ => execReplayFilterAck_inv)

theorem Cluster.cycleEvent_inv (k : Nat) (c : Cluster) : EvInv (c.cycleEvent k) := by
  unfold Cluster.cycleEvent
  split
  · exact fun _ => issuePick_inv
  · split
    · exact fun _ => execBudgetApply_inv
    · split
      · exact fun _ => execDroopHalvingEnd_inv
      · exact fun _ => execIssueOpportunity_inv

theorem State.clusterEvents_inv (s : State) : EvsInv s.clusterEvents :=
  .append (.ite (.one fun _ => passTime_inv) (.map fun _ => Cluster.cycleEvent_inv _ _))
    (.flatMap fun _ => .append (.ite (.one fun _ => execRelockComplete_inv) .nil) (.map fun _ _ => execCombineTimeout_inv))

theorem State.tails_inv (s : State) (c : Context) : EvsInv (s.tails c) := .filterMap fun _ => .given fun _ => execRemoteTailWrite_inv

theorem State.contextEvents_inv (s : State) (k : Nat) (c : Context) : EvsInv (s.contextEvents k c) := by
  unfold State.contextEvents
  extract_lets now dies leaving
  split
  · exact .append (.append (.ite .nil (.append (.cons (fun _ => execStopRecordsComplete_inv) (.map fun _ _ => stopGroup_inv)) (.ite (.one fun _ => stopEngines_inv) .nil)))
      (.ite (.one fun _ => flushHalted_inv) .nil)) (tails_inv _ _)
  · refine .append (.append (.append (.append (.append (.append (tails_inv _ _) (.filterMap fun _ => .given fun _ => execLqRecordTake_inv))
      (.flatMap fun d => .append (.append (.ite (.one fun _ => execRecordChoice_inv) .nil) (.ite (.one fun _ => execTeamPlace_inv) .nil)) ?_))
      (.ite (.ite (.one fun _ => execTimeSliceExpiry_inv) .nil) (.ite (.one fun _ => execTeamPlace_inv) .nil))) (.ite (.one fun _ => execTimeSliceExpiry_inv) .nil))
      (.filterMap fun n => ?_)) (.map fun _ _ => execGovernorEval_inv)
    · split
      · exact .ite (.one fun _ => execReservationTimeout_inv) .nil
      · exact .nil
    · split
      · exact .given fun _ => execBinTimerExpiry_inv
      · exact .nil

theorem State.workEvents_inv (s : State) : EvsInv s.workEvents := by
  refine .append (.append (.flatMap fun _ => .append (.append (.ite .nil (.one fun _ => execDepPoll_inv)) (.ite (.one fun _ => execRecordAging_inv) .nil)) (.ite (.one fun _ => execGridComplete_inv) .nil))
    (.flatMap fun _ => .append (.append (.ite (.one fun _ => execTeamResume_inv) .nil) (.ite .nil (.one fun _ => refillTeam_inv))) (.ite (.one fun _ => execOphintDwellExpiry_inv) .nil)))
    (.flatMap fun g => ?_)
  extract_lets c
  refine .append ?_ ?_
  · split
    · split
      · exact .ite (.one fun _ => execDeqtTimeout_inv) .nil
      · exact .nil
    · exact .nil
  · split
    · exact .ite (.one fun _ => execWatchdogExpiry_inv) .nil
    · exact .nil

theorem State.hubEvents_inv (s : State) : EvsInv s.hubEvents :=
  .append (.append (.ite (.one fun _ => execTcCommandDone_inv) .nil) (.ite (.one fun _ => execDlRevokeDone_inv) .nil)) (.map fun _ _ => execHubAccess_inv)

theorem State.dueNow_inv (s : State) : EvsInv s.dueNow :=
  .append (.ite (.one fun _ => execArbiterEpoch_inv) .nil) (.filterMap fun _ => .given fun _ => execRelockComplete_inv)

theorem State.queuedEvents_inv (s : State) : EvsInv s.queuedEvents := .filterMap fun _ => .given fun _ => goQueued_inv

theorem State.ready_inv (s : State) : EvsInv s.ready :=
  .append (.append (.append (.append (.append (.append (.append (.append (.append s.clusterEvents_inv (.filterMap fun _ => Req.nextEvent_inv _ _)) s.queuedEvents_inv) (.filterMap fun _ => Op.nextEvent_inv _ _))
    (.flatMap fun _ => coreEvents_inv _ _ _)) (.flatMap fun _ => dieEvents_inv _ _ _)) (.flatMap fun _ => sliceEvents_inv _ _ _)) (.flatMap fun _ => contextEvents_inv _ _ _)) s.workEvents_inv) s.hubEvents_inv

theorem State.events_inv (s : State) : EvsInv s.events := by
  unfold State.events
  split
  · exact s.ready_inv
  · exact s.dueNow_inv

theorem State.runChoice_inv {s : State} (hs : s.Inv) : NextInv s.runChoice := by
  unfold State.runChoice
  extract_lets ins es ws r
  have hr : r.2.Inv := .of_mem (State.choose_mem ..) hs
  split
  · exact exec_inv (.update hr)
  · split
    next h => exact s.events_inv _ (List.mem_of_getElem? h) _ hr
    · split
      · exact State.Inv.update hr
      · exact hr

theorem NextInv.endSteps {r : Host.Outcome State Fault Refusal} : NextInv r → NextInv (match r with | .next t => .next t.endSteps | .fault f => .fault f | .refused r => .refused r) := by
  cases r with
  | next t => exact State.Inv.of_mem (State.endSteps_mem t)
  | fault f => exact id
  | refused r => exact id

theorem step_inv {s : State} (hs : s.Inv) : NextInv (step s) := by
  unfold step
  split
  · trivial
  · refine .endSteps ?_
    split
    · exact State.runGrant_inv hs
    · exact State.runChoice_inv hs

/-- Settles O57: memory is written by `setMem`, `setMemAll` and the exchange of two pages alone, and each keeps the
canonical form. -/
theorem invariantKept : Obligations.InvariantKept := fun s t hs h => by
  have hn := step_inv hs
  rwa [h] at hn

/-- Settles O56: the reset state lists no byte. -/
theorem invariantAtReset : Obligations.InvariantAtReset := rfl

end Sys2Proof.Machine
end

-- ==== What an access to memory leaves (O8, O9, O10) ====
section
/-! SUPPORT. What the steps of an access leave alone: a record of a fault or a read of a slice (`State.Beside`), and the way of a
request through the L1, the combining buffer, the slice and the releases (`State.Way`), which keeps the operations that last. -/

namespace Sys2Proof.Machine

/-! #### Beside the cores' requests

A record of a fault, a log, a counter, and a read or a write of a slice leave alone the operations, the requests in flight, the releases, the lines of
every L1, what each detector is set to, and the groups, of which a fault changes the stop record. -/

structure State.Beside (s t : State) : Prop where
  ops : t.ops = s.ops
  reqs : t.reqs = s.reqs
  holds : t.holds = s.holds
  ids : t.nextId = s.nextId
  groups : ∀ k, t.group k = { s.group k with stop := (t.group k).stop }
  l1 : ∀ k, (t.core k).l1 = (s.core k).l1
  combine : ∀ k, (t.cluster k).combine = (s.cluster k).combine
  detects : ∀ k, (t.context k).rd.en = (s.context k).rd.en

namespace State.Beside

theorem refl (s : State) : s.Beside s := ⟨rfl, rfl, rfl, rfl, fun _ => rfl, fun _ => rfl, fun _ => rfl, fun _ => rfl⟩

theorem trans {s t u : State} (h : s.Beside t) (k : t.Beside u) : s.Beside u :=
  ⟨k.ops.trans h.ops, k.reqs.trans h.reqs, k.holds.trans h.holds, k.ids.trans h.ids, fun n => by rw [k.groups, h.groups],
    fun n => (k.l1 n).trans (h.l1 n), fun n => (k.combine n).trans (h.combine n), fun n => (k.detects n).trans (h.detects n)⟩

theorem ite {s t u : State} {p : Prop} {_ : Decidable p} (ht : s.Beside t) (hu : s.Beside u) : s.Beside (if p then t else u) := by split <;> assumption

theorem foldl {α : Type} {f : State → α → State} (h : ∀ (s : State) (a : α), s.Beside (f s a)) (l : List α) (s : State) : s.Beside (l.foldl f s) := by
  induction l generalizing s with
  | nil => exact refl s
  | cons a l ih => exact (h s a).trans (ih _)

theorem of_book {s t : State} (h : Book s t) : s.Beside t := by
  have hr := h.rest
  refine ⟨?_, ?_, ?_, ?_, fun k => ?_, fun k => ?_, fun k => ?_, fun k => ?_⟩
  · rw [hr]
  · rw [hr]
  · rw [hr]
  · rw [hr]
  · rw [hr]; rfl
  · have e := congrArg Core.l1 (h.cores k); exact e
  · have e := congrArg Cluster.combine (h.clusters k); exact e
  · have e := congrArg (fun c : Context => c.rd.en) (h.contexts k); exact e

variable (s : State)

theorem modContext (k : Nat) {f : Context → Context} (h : (f (s.context k)).rd.en = (s.context k).rd.en) : s.Beside (s.modContext k f) := by
  refine ⟨rfl, rfl, rfl, rfl, fun _ => rfl, fun _ => rfl, fun _ => rfl, fun j => ?_⟩
  by_cases hj : j = k
  · subst hj; rw [State.context_modContext_self]; exact h
  · rw [State.context_modContext_ne _ _ _ _ hj]

theorem modTeam (k : Nat) (f : Team → Team) : s.Beside (s.modTeam k f) := ⟨rfl, rfl, rfl, rfl, fun _ => rfl, fun _ => rfl, fun _ => rfl, fun _ => rfl⟩
theorem modSlice (k : Nat) (f : Slice → Slice) : s.Beside (s.modSlice k f) := ⟨rfl, rfl, rfl, rfl, fun _ => rfl, fun _ => rfl, fun _ => rfl, fun _ => rfl⟩
theorem modDie (k : Nat) (f : Die → Die) : s.Beside (s.modDie k f) := ⟨rfl, rfl, rfl, rfl, fun _ => rfl, fun _ => rfl, fun _ => rfl, fun _ => rfl⟩
theorem setMemAll (base : Nat) (bs : Table Byte) : s.Beside (s.setMemAll base bs) := ⟨rfl, rfl, rfl, rfl, fun _ => rfl, fun _ => rfl, fun _ => rfl, fun _ => rfl⟩
theorem draw (n : Nat) : s.Beside { s with draws := n } := ⟨rfl, rfl, rfl, rfl, fun _ => rfl, fun _ => rfl, fun _ => rfl, fun _ => rfl⟩

theorem modCore (k : Nat) {f : Core → Core} (h : (f (s.core k)).l1 = (s.core k).l1) : s.Beside (s.modCore k f) := by
  refine ⟨rfl, rfl, rfl, rfl, fun _ => rfl, fun j => ?_, fun _ => rfl, fun _ => rfl⟩
  by_cases hj : j = k
  · subst hj; rw [State.core_modCore_self]; exact h
  · rw [State.core_modCore_ne _ _ _ _ hj]

theorem logDie (d : Nat) (lasting : Bool) (info ctx addr : Nat) : s.Beside (s.logDie d lasting info ctx addr) := modDie ..
theorem logMem (ctx slice unit sector : Nat) (lasting : Bool) : s.Beside (s.logMem ctx slice unit sector lasting) := logDie ..

theorem raise (ctx : Nat) (f : Flt) (a : At) : s.Beside (s.raise ctx f a) := by
  have stop (t : State) (k : Nat) (g : Group → Group) (hg : g (t.group k) = { t.group k with stop := (g (t.group k)).stop }) : t.Beside (t.modGroup k g) := by
    refine ⟨rfl, rfl, rfl, rfl, fun j => ?_, fun _ => rfl, fun _ => rfl, fun _ => rfl⟩
    by_cases hj : j = k
    · subst hj; rw [State.group_modGroup_self]; exact hg
    · rw [State.group_modGroup_ne _ _ _ _ hj]
  unfold State.raise
  have h1 : s.Beside (s.modContext ctx (fun c => c.fault f a (s.faultCycle a) (s.going ctx) s.devTime)) := modContext _ _ (by unfold Context.fault; split <;> rfl)
  dsimp only
  split
  · exact h1
  · refine .ite h1 (h1.trans (stop _ _ _ ?_))
    split <;> rfl

theorem raiseEngine (ctx : Nat) (f : Flt) (r : EngRec) : s.Beside (s.raiseEngine ctx f r) := (raise s ctx f _).trans (modContext _ _ rfl)
theorem logLasting (ctx die tenant core : Nat) (f : Flt) : s.Beside (s.logLasting ctx die tenant core f) := .ite (logDie ..) (refl s)
theorem countCore (core ctx src n : Nat) : s.Beside (s.countCore core ctx src n) := .of_book (.countCore ..)
theorem readWords (core ctx unit : Nat) (ws : List (FileWord × Nat)) : s.Beside (s.readWords core ctx unit ws) := .of_book (.readWords ..)
theorem logRead (ctx slice : Nat) (f : Flt) : s.Beside (s.logRead ctx slice f) := .ite (logMem ..) (refl s)

theorem countDie (d ctx src n : Nat) : s.Beside (s.countDie d ctx src n) := by
  unfold State.countDie
  split
  · exact .ite (refl s) (modDie ..)
  · exact refl s

theorem memRetried (walker : Bool) (ctx slice : Nat) (sectors : List Nat) : s.Beside (s.memRetried walker ctx slice sectors) :=
  .ite (refl s) (.foldl (fun s _ => .ite ((modDie ..).trans (logMem ..)) (refl s)) _ _)

theorem accessAt (ma : Nat) (page : Option (Nat × Nat)) : s.Beside (s.accessAt ma page) := .ite (modDie ..) (refl s)

theorem walkDone (ctx slice va : Nat) (local_ : Bool) (n : Need) (acc : Acc) : s.Beside (s.walkDone ctx slice va local_ n acc) := by
  unfold State.walkDone
  have h (l m : List Nat) : s.Beside ((s.memRetried true ctx slice l).walkAccesses ctx slice va m) :=
    (memRetried s ..).trans (.foldl (fun s _ => accessAt s ..) _ _)
  refine .ite (refl s) ?_
  dsimp only
  split
  · exact (h ..).trans (modSlice ..)
  · exact h ..

theorem missed (ctx slice va : Nat) (local_ : Bool) (n : Need) (acc : Acc) : s.Beside (s.missed ctx slice va local_ n acc) :=
  (countDie s ..).trans ((State.Beside.ite (refl _) (countDie ..)).trans (walkDone ..))

theorem peekedLine (src : Option Nat) (ctx : Nat) (nd : Need) (acc : Acc) (va n : Nat) : s.Beside (s.peekedLine src ctx nd acc va n) := by
  have take (p : Prop) [Decidable p] (t : State) (h : s.Beside t) (l : List Nat) (slice ma : Nat) (page : Option (Nat × Nat)) :
      s.Beside (if p then t else (t.memRetried false ctx slice l).accessAt ma page) :=
    .ite h (h.trans ((memRetried ..).trans (accessAt ..)))
  unfold State.peekedLine
  dsimp only
  split
  · exact refl s
  · exact take _ _ (.ite (refl s) (countDie ..)) _ _ _ _
  · split
    · exact missed ..
    · exact take _ _ (missed ..) _ _ _ _

theorem peekedRuns (src : Option Nat) (ctx : Nat) (nd : Need) (acc : Acc) (l : List (Nat × Nat)) : s.Beside (State.peekedRuns src ctx nd acc l s) := by
  induction l generalizing s with
  | nil => exact refl s
  | cons r l ih =>
    unfold State.peekedRuns
    split
    · exact peekedLine ..
    · exact (peekedLine ..).trans (ih _)

theorem slicePeeked (ctx : Nat) (nd : Need) (acc : Acc) (va n : Nat) (src : Option Nat) : s.Beside (s.slicePeeked ctx nd acc va n src) := by
  refine State.Beside.trans ?_ (peekedRuns ..)
  unfold State.logPeek
  split
  · exact logRead ..
  · exact refl s

theorem choose (n : Nat) : s.Beside (s.choose n).2 := by
  unfold State.choose
  split
  · exact refl s
  · exact draw ..

theorem writeMem (slice : Nat) (l : L2Line) : s.Beside (s.writeMem slice l) := by
  unfold State.writeMem
  refine .ite (refl s) ?_
  split
  · exact .foldl (fun s _ => raiseEngine s ..) _ _
  · exact (accessAt ..).trans (setMemAll ..)

theorem dropLine (slice : Nat) (l : L2Line) : s.Beside (s.dropLine slice l) := by
  have h : s.Beside ((s.writeMem slice l).modSlice slice (fun x => (if l.prefetched then x.countPf 3 l.tenant else x).dropLine l.tenant l.line)) :=
    (writeMem ..).trans (modSlice ..)
  exact .ite (h.trans (countDie ..)) h

theorem openLine (slice ctx line : Nat) (t : Tlb) : s.Beside (s.openLine slice ctx line t).2 := by
  unfold State.openLine
  dsimp only
  split
  · exact refl s
  · refine .ite (refl s) ?_
    split
    · exact (choose ..).trans (dropLine ..)
    · exact choose ..

variable {s}

theorem slicePoke {t : State} {ctx line : Nat} {bs : Table Byte} {n : Need} {acc : Acc} {src : Option Nat} (h : s.slicePoke ctx line bs n acc src = .ok t) : s.Beside t := by
  unfold State.slicePoke at h
  dsimp only at h
  split at h
  · cases h
  · cases h; exact modSlice ..
  · split at h
    · cases h
    · cases h
      exact ((missed ..).trans (openLine ..)).trans (modSlice ..)

theorem pokeLines {t : State} {src : Option Nat} {ctx : Nat} {nd : Need} {acc : Acc} {l : Table (Table Byte)} (h : s.pokeLines src ctx nd acc l = .ok t) : s.Beside t := by
  induction l generalizing s with
  | nil => cases h; exact refl _
  | cons x l ih =>
    unfold State.pokeLines at h
    split at h
    · cases h
    next hx => exact (slicePoke hx).trans (ih h)

theorem slicePokes {t : State} {ctx : Nat} {nd : Need} {acc : Acc} {l : Table (Table Byte)} {src : Option Nat} (h : s.slicePokes ctx nd acc l src = .ok t) : s.Beside t := by
  unfold State.slicePokes at h
  split at h
  · cases h
  · exact pokeLines h

variable (s)

theorem raceSector (o : Op) (lane : Nat) (write : Bool) (scope va : Nat) : s.Beside (s.raceSector o lane write scope va) := by
  unfold State.raceSector
  extract_lets ctx gid d sh die r t s0 at_
  have ht : s.Beside t := slicePeeked ..
  refine .ite (refl s) ?_
  split
  · exact ht
  · extract_lets w escope int wg n lrs diff covered here race kind bs s1
    have h0 : t.Beside s0 := modContext _ _ rfl
    have h1 : t.Beside s1 := by
      refine .ite (refl t) (h0.trans (.ite ?_ (raise ..)))
      split
      next hp => exact (slicePokes hp).trans (modContext _ _ rfl)
      · exact refl _
    clear_value s1
    refine (ht.trans h1).trans (.ite ?_ (refl s1))
    split
    next hp => exact (slicePokes hp).trans (modContext _ _ rfl)
    · exact refl _

theorem raceOp (n lane : Nat) (write : Bool) (scope : Nat) (vas : List Nat) : s.Beside (s.raceOp n lane write scope vas) := by
  unfold State.raceOp
  split
  · exact .ite (.foldl (fun s _ => raceSector s ..) _ _) (refl s)
  · exact refl s

theorem raceReq (r : Req) (write : Bool) (offs : List Nat) : s.Beside (s.raceReq r write offs) := .ite (refl s) (.foldl (fun s _ => raceOp s ..) _ _)

theorem readDirty (core tenant line : Nat) (l : L1Line) : s.Beside (s.readDirty core tenant line l).2 := by
  unfold State.readDirty
  split
  · exact refl s
  · refine State.Beside.trans ?_ (readWords ..)
    split
    · exact (logLasting ..).trans (raise ..)
    · exact refl s

theorem raiseOps (n : Nat) (r : Req) (f : Flt) : s.Beside (s.raiseOps n r f) := by
  unfold State.raiseOps
  split
  · exact raise ..
  · refine .foldl (fun s _ => ?_) _ _
    split
    · exact .ite (raise ..) (raise ..)
    · exact refl s

theorem mendL1 (core tenant line : Nat) (offs : List Nat) : s.Beside (s.mendL1 core tenant line offs) := by
  refine .ite (refl s) (modCore _ _ ?_)
  obtain ⟨_, _, _, _, e⟩ := (s.core core).mend_eq (fun w => w.file = .l1 ∧ w.index / 32 = tenant * 2 ^ 49 + line ∧ offs.any (fun o => o / 4 == w.index % 32))
  rw [e]

theorem writeScratch (team : Nat) (bs : List (Nat × Byte)) : s.Beside (s.writeScratch team bs) := by
  refine (modTeam ..).trans (.ite (refl _) (modCore _ _ ?_))
  unfold Core.mend
  split <;> rfl

end State.Beside

theorem mem_of_tfind {β : Type} {k : Nat} {v : β} {t : Table β} (h : tfind k t = some v) : (k, v) ∈ t := by
  induction t with
  | nil => cases h
  | cons x t ih =>
    obtain ⟨j, w⟩ := x
    rw [tfind_cons] at h
    split at h
    next e => cases h; rw [e]; exact List.mem_cons_self
    · exact List.mem_cons_of_mem _ (ih h)

/-- A detector that is off performs no access (13 R254). -/
theorem State.raceReq_off {s : State} (h : ∀ o ∈ s.ops, o.2.race = false) (r : Req) (write : Bool) (offs : List Nat) : s.raceReq r write offs = s := by
  have op (n lane scope : Nat) (vas : List Nat) : s.raceOp n lane write scope vas = s := by
    unfold State.raceOp
    split
    next o ho => rw [h _ (mem_of_tfind ho)]; rfl
    · rfl
  unfold State.raceReq
  split
  · rfl
  · generalize r.ops = l
    induction l with
    | nil => rfl
    | cons n l ih => rw [List.foldl_cons, op, ih]

/-! #### The way of an access keeps the operations that last

An operation that carries a flag or has a destination is not ended by its last part: it stays, on its path, until it
completes. -/

def Op.Lasts (o : Op) : Prop := o.flag ≠ none ∨ o.dest ≠ .none

/-- `y` is `x` but for its parts, the bytes returned and laid over them, the lanes noted, and its place among its group's releases. -/
def Op.Same (x y : Op) : Prop := y = { x with parts := y.parts, got := y.got, laid := y.laid, rc := y.rc, who := y.who, lane := y.lane }

theorem Op.Same.refl (x : Op) : x.Same x := rfl
theorem Op.Same.trans {x y z : Op} (h : x.Same y) (k : y.Same z) : x.Same z := by unfold Op.Same at *; rw [k, h]
theorem Op.Same.of_parts (x : Op) (n : Nat) : x.Same { x with parts := n } := rfl
theorem Op.Same.of_got (x : Op) (t : Table Nat) : x.Same { x with got := t } := rfl
theorem Op.Same.of_rc (x : Op) (n : Nat) : x.Same { x with rc := n } := rfl
theorem Op.Same.lasts {x y : Op} (h : x.Same y) (hx : x.Lasts) : y.Lasts := by rw [h]; exact hx

theorem mem_tput {β : Type} {k : Nat} {v : β} {t : Table β} {x : Nat × β} (h : x ∈ tput k v t) : x = (k, v) ∨ x ∈ t := by
  induction t with
  | nil => exact .inl (List.mem_singleton.mp h)
  | cons y t ih =>
    obtain ⟨j, w⟩ := y
    unfold tput at h
    split at h
    · exact (List.mem_cons.mp h).imp_right (List.mem_cons_of_mem _)
    · split at h
      · exact List.mem_cons.mp h
      · rcases List.mem_cons.mp h with rfl | h
        · exact .inr List.mem_cons_self
        · exact (ih h).imp_right (List.mem_cons_of_mem _)

theorem mem_of_mem_tdel {β : Type} {k : Nat} {t : Table β} {x : Nat × β} (h : x ∈ tdel k t) : x ∈ t := by
  induction t with
  | nil => exact h
  | cons y t ih =>
    unfold tdel at h
    split at h
    · exact List.mem_cons_of_mem _ (ih h)
    · rcases List.mem_cons.mp h with rfl | h
      · exact List.mem_cons_self
      · exact List.mem_cons_of_mem _ (ih h)

/-- An operation that has not completed stays on its path while others leave it (05 R89). -/
theorem Group.mem_leave {g : Group} {p : PathOp} {q n : Nat} (h : p ∈ g.paths) (hd : p.done = false) (hn : p.op ≠ n) : p ∈ (g.leave q n).paths := by
  have settle (l : List PathOp) (hl : p ∈ l) : p ∈ settlePath q l := by
    induction l with
    | nil => exact hl
    | cons x l ih =>
      unfold settlePath
      split
      · split
        next hx =>
          rcases List.mem_cons.mp hl with rfl | hl
          · rw [hd] at hx; cases hx
          · exact ih hl
        · exact hl
      · exact (List.mem_cons.mp hl).elim (fun e => e ▸ List.mem_cons_self) (fun hl => List.mem_cons_of_mem _ (ih hl))
  refine settle _ (List.mem_map.mpr ⟨p, h, if_neg fun e => hn e.2⟩)

/-- `h` is `g` but for what completions, releases, faults and commits of its region change. -/
def Group.Went (g h : Group) : Prop :=
  h = { g with paths := h.paths, flags := h.flags, engScope := h.engScope, stop := h.stop, rc := h.rc, lr := h.lr, buf := h.buf, staged := h.staged, region := h.region, engTaken := h.engTaken } ∧ h.flags = g.flags

theorem Group.Went.refl (g : Group) : g.Went g := ⟨rfl, rfl⟩
theorem Group.Went.trans {g h k : Group} (a : g.Went h) (b : h.Went k) : g.Went k := by
  obtain ⟨a, af⟩ := a
  obtain ⟨b, bf⟩ := b
  exact ⟨by rw [b, a], bf.trans af⟩

structure State.Way (s t : State) : Prop where
  ops : ∀ n x, s.op n = some x → x.Lasts → ∃ y, t.op n = some y ∧ x.Same y
  paths : ∀ k p x, p ∈ (s.group k).paths → p.done = false → s.op p.op = some x → x.Lasts → p ∈ (t.group k).paths
  groups : ∀ k, (s.group k).Went (t.group k)
  ids : s.nextId ≤ t.nextId
  detects : ∀ k, (t.context k).rd.en = (s.context k).rd.en
  calm : (∀ o ∈ s.ops, o.2.race = false) → (∀ o ∈ t.ops, o.2.race = false) ∧ t.mem = s.mem

namespace State.Way

theorem refl (s : State) : s.Way s := ⟨fun _ x h _ => ⟨x, h, .refl x⟩, fun _ _ _ h _ _ _ => h, fun _ => .refl _, le_rfl, fun _ => rfl, fun h => ⟨h, rfl⟩⟩

theorem trans {s t u : State} (h : s.Way t) (k : t.Way u) : s.Way u := by
  refine ⟨fun n x hx hl => ?_, fun j p x hp hd hx hl => ?_, fun j => (h.groups j).trans (k.groups j), h.ids.trans k.ids, fun n => (k.detects n).trans (h.detects n), fun hs => ?_⟩
  · obtain ⟨y, hy, e⟩ := h.ops n x hx hl
    obtain ⟨z, hz, e'⟩ := k.ops n y hy (e.lasts hl)
    exact ⟨z, hz, e.trans e'⟩
  · obtain ⟨y, hy, e⟩ := h.ops _ x hx hl
    exact k.paths j p y (h.paths j p x hp hd hx hl) hd hy (e.lasts hl)
  · obtain ⟨ht, hm⟩ := h.calm hs
    obtain ⟨hu, hn⟩ := k.calm ht
    exact ⟨hu, hn.trans hm⟩

/-- `trans` with the later step first, so that it names the state between. -/
theorem after {s t u : State} (k : t.Way u) (h : s.Way t) : s.Way u := h.trans k

theorem ite {s t u : State} {p : Prop} {_ : Decidable p} (ht : s.Way t) (hu : s.Way u) : s.Way (if p then t else u) := by split <;> assumption

theorem foldl {α : Type} {f : State → α → State} (h : ∀ (s : State) (a : α), s.Way (f s a)) (l : List α) (s : State) : s.Way (l.foldl f s) := by
  induction l generalizing s with
  | nil => exact refl s
  | cons a l ih => exact (h s a).trans (ih _)

/-- A change of other parts of the state. -/
theorem of_eq {s t : State} (hg : t.groups = s.groups) (ho : t.ops = s.ops) (hm : t.mem = s.mem) (hc : t.contexts = s.contexts) (hn : s.nextId ≤ t.nextId) : s.Way t := by
  have hgr (k : Nat) : t.group k = s.group k := by unfold State.group; rw [hg]
  have hop (n : Nat) : t.op n = s.op n := by unfold State.op; rw [ho]
  exact ⟨fun n x h _ => ⟨x, (hop n).trans h, .refl x⟩, fun k _ _ h _ _ _ => hgr k ▸ h, fun k => hgr k ▸ .refl _, hn, fun k => by unfold State.context; rw [hc], fun h => ⟨ho ▸ h, hm⟩⟩

theorem of_beside {s t : State} (h : s.Beside t) (hm : (∀ o ∈ s.ops, o.2.race = false) → t.mem = s.mem) : s.Way t := by
  have hop (n : Nat) : t.op n = s.op n := by unfold State.op; rw [h.ops]
  refine ⟨fun n x hx _ => ⟨x, (hop n).trans hx, .refl x⟩, fun k p x hp _ _ _ => ?_, fun k => ?_, h.ids.ge, h.detects, fun hs => ⟨h.ops ▸ hs, hm hs⟩⟩
  · rw [h.groups k]; exact hp
  · rw [h.groups k]; exact ⟨rfl, rfl⟩

variable (s : State)

theorem putReq (n : Nat) (r : Req) : s.Way (s.putReq n r) := of_eq rfl rfl rfl rfl le_rfl
theorem delReq (n : Nat) : s.Way (s.delReq n) := of_eq rfl rfl rfl rfl le_rfl
theorem setL1 (core tenant line : Nat) (l : L1Line) : s.Way (s.setL1 core tenant line l) := of_eq rfl rfl rfl rfl le_rfl
theorem delL1 (core tenant line : Nat) : s.Way (s.delL1 core tenant line) := of_eq rfl rfl rfl rfl le_rfl
theorem dropFills (core tenant : Nat) (p : Nat → Bool) : s.Way (s.dropFills core tenant p) := of_eq rfl rfl rfl rfl le_rfl
theorem addReq (r : Req) : s.Way (s.addReq r).2 := of_eq rfl rfl rfl rfl (Nat.le_succ _)
theorem modCluster (k : Nat) (f : Cluster → Cluster) : s.Way (s.modCluster k f) := of_eq rfl rfl rfl rfl le_rfl
theorem holds (h : Table Hold) : s.Way { s with holds := h } := of_eq rfl rfl rfl rfl le_rfl
theorem raiseOps (n : Nat) (r : Req) (f : Flt) : s.Way (s.raiseOps n r f) := of_beside (.raiseOps ..) (fun _ => raiseOps_mem ..)
theorem readWords (core ctx unit : Nat) (ws : List (FileWord × Nat)) : s.Way (s.readWords core ctx unit ws) := of_beside (.readWords ..) (fun _ => readWords_mem ..)
theorem countCore (core ctx src n : Nat) : s.Way (s.countCore core ctx src n) := of_beside (.countCore ..) (fun _ => countCore_mem ..)
theorem logLasting (ctx die tenant core : Nat) (f : Flt) : s.Way (s.logLasting ctx die tenant core f) := of_beside (.logLasting ..) (fun _ => logLasting_mem ..)
theorem mendL1 (core tenant line : Nat) (offs : List Nat) : s.Way (s.mendL1 core tenant line offs) := of_beside (.mendL1 ..) (fun _ => mendL1_mem ..)
theorem raceReq (r : Req) (write : Bool) (offs : List Nat) : s.Way (s.raceReq r write offs) := of_beside (.raceReq ..) (fun h => by rw [raceReq_off h])

/-! #### Operations -/

/-- An operation is put in the place of one that it is but for its parts, its bytes and its releases. -/
theorem putOp {n : Nat} {x o : Op} (hx : s.op n = some x) (h : x.Same o) : s.Way (s.putOp n o) := by
  refine ⟨fun m y hy _ => ?_, fun _ _ _ h _ _ _ => h, fun _ => .refl _, le_rfl, fun _ => rfl, fun hs => ⟨fun z hz => ?_, rfl⟩⟩
  · by_cases hm : m = n
    · subst hm
      cases hx.symm.trans hy
      exact ⟨o, tfind_tput_self .., h⟩
    · exact ⟨y, (tfind_tput_ne hm ..).trans hy, .refl y⟩
  · rcases mem_tput hz with rfl | hz
    · show o.race = false
      rw [h]
      exact hs _ (mem_of_tfind hx)
    · exact hs _ hz

/-- An operation that does not last ends: it leaves its path. -/
theorem finishOp {n : Nat} {x o : Op} (hx : s.op n = some x) (hl : ¬ x.Lasts) (ho : x.Same o) : s.Way (s.finishOp n o) := by
  have hflag : o.flag = none := by rw [ho]; by_contra h; exact hl (.inl h)
  have hne {m : Nat} {y : Op} (hy : s.op m = some y) (hm : y.Lasts) : m ≠ n := by
    rintro rfl
    cases hx.symm.trans hy
    exact hl hm
  have hdel : s.Way { s with ops := tdel n s.ops } :=
    ⟨fun m y hy hm => ⟨y, (tfind_tdel_ne (hne hy hm) ..).trans hy, .refl y⟩, fun _ _ _ h _ _ _ => h, fun _ => .refl _, le_rfl, fun _ => rfl, fun hs => ⟨fun z hz => hs z (mem_of_mem_tdel hz), rfl⟩⟩
  unfold State.finishOp
  refine .ite hdel ?_
  refine ⟨hdel.ops, fun k p y hp hd hy hm => ?_, fun k => ?_, le_rfl, fun _ => rfl, hdel.calm⟩
  · by_cases hk : k = o.gid
    · subst hk
      rw [State.group_modGroup_self, hflag]
      have hpn : p ∈ (match o.path with | some q => (s.group o.gid).leave q n | none => s.group o.gid).paths := by
        split
        · exact Group.mem_leave hp hd (hne hy hm)
        · exact hp
      cases o.scope <;> exact hpn
    · rw [State.group_modGroup_ne _ _ _ _ hk]; exact hp
  · by_cases hk : k = o.gid
    · subst hk
      rw [State.group_modGroup_self, hflag]
      rcases o.path with _ | q <;> rcases o.scope with _ | c <;> exact ⟨rfl, rfl⟩
    · rw [State.group_modGroup_ne _ _ _ _ hk]; exact .refl _

theorem partDone (n : Nat) : s.Way (s.partDone n) := by
  unfold State.partDone
  split
  · exact refl s
  next o ho =>
    extract_lets o1
    by_cases hl : o.Lasts
    · rw [if_neg]
      · exact putOp s ho (.of_parts ..)
      · rcases hl with hl | hl
        · simp [hl]
        · cases hd : o.dest with
          | none => exact absurd hd hl
          | _ => simp
    · exact .ite (finishOp s ho hl (.of_parts ..)) (putOp s ho (.of_parts ..))

theorem partsDone (ops : List Nat) : s.Way (s.partsDone ops) := .foldl (fun s _ => partDone s _) _ _

theorem reqDone (n : Nat) (r : Req) : s.Way (s.reqDone n r) := (delReq ..).trans (partsDone ..)

theorem deliver (n : Nat) (bs : List (Nat × Byte)) : s.Way (s.deliver n bs) := by
  unfold State.deliver
  split
  · exact refl s
  next ho => exact putOp s ho (.of_got ..)

theorem handOp (r : Req) (xs : List (Nat × Byte)) (n : Nat) : s.Way (s.handOp r xs n) :=
  .ite ((deliver ..).after (of_eq rfl rfl rfl rfl le_rfl)) (deliver ..)

theorem handBytes (r : Req) (offs : List Nat) (f : Nat → Byte) : s.Way (s.handBytes r offs f) := .foldl (fun s _ => handOp s ..) _ _

/-! #### Lines of an L1 -/

theorem sendDirty (core tenant line : Nat) (l : L1Line) : s.Way (s.sendDirty core tenant line l).2 := by
  have hread : s.Way (s.readDirty core tenant line l).2 := of_beside (.readDirty ..) (fun _ => readDirty_mem ..)
  unfold State.sendDirty
  dsimp only
  split
  · exact hread
  · exact hread.trans (addReq ..)

theorem yieldLine (core tenant line : Nat) (pools : Bool) : s.Way (s.yieldLine core tenant line pools) := by
  unfold State.yieldLine
  split
  · exact .ite (refl s) (((sendDirty ..).trans (.ite (setL1 ..) (delL1 ..))).trans (dropFills ..))
  · exact dropFills ..

theorem evictL1 (core tenant line : Nat) (l : L1Line) : s.Way (s.evictL1 core tenant line l) := (sendDirty ..).trans (delL1 ..)

/-! #### Requests -/

theorem leave (n : Nat) (r : Req) : s.Way (s.leave n r) := by
  unfold State.leave
  split
  · exact (State.Way.ite (countCore ..) (refl s)).trans (putReq ..)
  · exact putReq ..

theorem maintain (n : Nat) (r : Req) (inv l2 : Bool) : s.Way (s.maintain n r inv l2) := by
  have go {p : Prop} [Decidable p] {t : State} (h : s.Way t) (r : Req) : s.Way (if p then t.leave n r else t.reqDone n r) :=
    h.trans (.ite (leave ..) (reqDone ..))
  unfold State.maintain
  dsimp only
  split
  · exact go (refl s) _
  · exact .ite (reqDone ..) (go ((sendDirty ..).trans (.ite ((delL1 ..).trans (dropFills ..)) (setL1 ..))) _)

theorem hitL1 (n : Nat) (r : Req) (l : L1Line) (have_ : Nat) {go : State → State} (hgo : ∀ t : State, t.Way (go t)) : s.Way (s.hitL1 n r l have_ go) := by
  unfold State.hitL1
  dsimp only
  split
  · exact ((logLasting ..).trans (putReq ..)).trans (raiseOps ..)
  · exact ((readWords ..).trans (handBytes ..)).trans (hgo _)

theorem send (n : Nat) (r : Req) : s.Way (s.send n r) := by
  unfold State.send
  dsimp only
  split
  case h_1 | h_2 =>
    split
    · exact .ite ((yieldLine ..).trans (leave ..)) (hitL1 _ _ _ _ _ (fun t => .ite ((raceReq ..).trans (reqDone ..)) (leave ..)))
    · exact leave ..
  · split
    · exact .ite ((((setL1 ..).trans (mendL1 ..)).trans (raceReq ..)).trans (reqDone ..)) (leave ..)
    · exact leave ..
  · exact (State.Way.foldl (fun s _ => yieldLine s ..) _ _).trans (leave ..)
  · exact (yieldLine ..).trans (leave ..)
  · exact (yieldLine ..).trans (leave ..)
  · exact (yieldLine ..).trans (leave ..)
  · refine .ite (.ite (leave ..) (reqDone ..)) ?_
    split
    · exact .ite ((putReq ..).trans (maintain ..)) (leave ..)
    · exact leave ..
  · split
    · exact .ite (reqDone ..) (leave ..)
    · exact leave ..
  · exact leave ..
  · exact leave ..
  · exact putReq ..

theorem enter (n : Nat) (r : Req) (again : Bool) : s.Way (s.enter n r again) := by
  unfold State.enter
  split
  · exact send ..
  · exact putReq ..

theorem request1 (r : Req) (behind : Option Nat) : s.Way (s.request1 r behind) := by
  unfold State.request1
  dsimp only
  split
  · exact (addReq ..).trans (enter ..)
  · exact (addReq s r).trans (putReq ..)
  · exact addReq ..

theorem flushCombine (cl : Nat) (p : Combine → Bool) : s.Way (s.flushCombine cl p) :=
  .foldl (fun _ _ => (modCluster ..).trans (request1 ..)) _ _

theorem request (r : Req) (behind : Option Nat) : s.Way (s.request r behind) := (flushCombine ..).trans (request1 ..)

theorem requestLines (r : Req) (behind : Option Nat) (lines : Table (Table Byte)) : s.Way (s.requestLines r behind lines) := .foldl (fun s _ => request s ..) _ _

theorem flushLines (gid : Nat) (lines : List Nat) : s.Way (s.flushLines gid lines) := flushCombine ..

/-! #### Releases and acquires, and the commit of a region -/

/-- A change of what a group keeps of its releases, its buffer and its region. -/
theorem modGroup (k : Nat) {f : Group → Group} (h : (s.group k).Went (f (s.group k))) (hp : (f (s.group k)).paths = (s.group k).paths) : s.Way (s.modGroup k f) := by
  refine ⟨fun _ x h _ => ⟨x, h, .refl x⟩, fun j p x hm _ _ _ => ?_, fun j => ?_, le_rfl, fun _ => rfl, fun hs => ⟨hs, rfl⟩⟩
  · by_cases hj : j = k
    · subst hj; rw [State.group_modGroup_self, hp]; exact hm
    · rw [State.group_modGroup_ne _ _ _ _ hj]; exact hm
  · by_cases hj : j = k
    · subst hj; rw [State.group_modGroup_self]; exact h
    · rw [State.group_modGroup_ne _ _ _ _ hj]; exact .refl _

theorem startRelease (gid scope : Nat) (whole : Bool) : s.Way (s.startRelease gid scope whole).2 :=
  (flushCombine ..).trans (of_eq rfl rfl rfl rfl (Nat.le_succ _))

theorem startAcquire (gid scope : Nat) (waits : List Nat) (after : Option Nat) (join : Bool) : s.Way (s.startAcquire gid scope waits after join) :=
  of_eq rfl rfl rfl rfl (Nat.le_succ _)

theorem releaseL1 (core tenant : Nat) : s.Way (s.releaseL1 core tenant) :=
  .foldl (fun s _ => .ite (refl s) ((sendDirty ..).trans (setL1 ..))) _ _

theorem acquireL1 (core tenant : Nat) : s.Way (s.acquireL1 core tenant) :=
  (State.Way.foldl (fun s _ => .ite (refl s) (evictL1 ..)) _ _).trans (dropFills ..)

theorem endRelease (n : Nat) (h : Hold) : s.Way (s.endRelease n h) := by
  unfold State.endRelease
  extract_lets s1 s2 rc
  have h2 : s.Way s2 := (holds s _).trans (.ite (modGroup _ _ ⟨rfl, rfl⟩ rfl) (refl _))
  refine h2.trans (.foldl (fun s r => State.Way.trans (.foldl (fun s k => ?_) _ _) (enter ..)) _ _)
  split
  next ho => exact putOp s ho (.of_rc ..)
  · exact refl s

theorem moveHold (n : Nat) : s.Way (s.moveHold n) := by
  unfold State.moveHold
  split
  · exact refl s
  next h _ =>
    have hr : s.Way (s.releaseL1 (coreOf h.gid) (s.group h.gid).tenant) := releaseL1 ..
    refine .ite (.ite (refl s) (.ite (.ite (endRelease ..) (.ite (hr.trans (endRelease ..)) (hr.trans (holds ..)))) ?_)) (.ite (refl s) (endRelease ..))
    exact .ite ((holds s _).trans (acquireL1 ..)) (holds ..)

theorem settle : s.Way s.settle := .foldl (fun s _ => moveHold s _) _ _

theorem commitEntry (gid : Nat) (retire : Bool) (e : BufEntry) : s.Way (s.commitEntry gid retire e) := by
  unfold State.commitEntry
  dsimp only
  split
  · exact (of_beside (.writeScratch ..) (fun _ => writeScratch_mem ..)).trans (partsDone ..)
  · exact .ite (partsDone ..) (request ..)
  · exact request ..

theorem commitRegion (gid : Nat) (slotB retire : Bool) : s.Way (s.commitRegion gid slotB retire) := by
  unfold State.commitRegion
  extract_lets g s1 s2
  have h1 : s.Way s1 := modGroup s gid (f := fun g => { g with buf := [], staged := none }) ⟨rfl, rfl⟩ rfl
  have h2 : s1.Way s2 := .foldl (fun s e => commitEntry s gid retire e) _ _
  exact (h1.trans h2).trans (modGroup _ _ ⟨rfl, rfl⟩ rfl)

end State.Way

/-! #### What a word starts -/

/-- An operation just made lasts if its word is long-latency or it has a destination. -/
theorem State.newOp_new (s : State) (c : Iss) (i : Instr) (path : Option Nat) (dest : Dest) (parts : Nat) :
    ∃ x, (s.newOp c i path dest parts).2.op s.nextId = some x ∧ x.gid = c.gid ∧ x.instr = i ∧ x.path = path ∧ x.flag = c.carried i ∧ x.dest = dest ∧
      (∀ p, path = some p → (⟨p, s.nextId, false⟩ : PathOp) ∈ ((s.newOp c i path dest parts).2.group c.gid).paths) := by
  obtain ⟨x, hn, hx, hgid, hinstr, hpath, hflag, hdest, -⟩ := s.newOp_spec c i path dest parts
  refine ⟨x, hx, hgid, hinstr, hpath, hflag, hdest, fun p hp => ?_⟩
  subst hp
  unfold State.newOp
  dsimp only
  rw [State.group_modGroup_self]
  exact List.mem_append_right _ (List.mem_singleton.mpr rfl)

/-- What an operation's making leaves of the rest. -/
theorem State.newOp_rest (s : State) (c : Iss) (i : Instr) (path : Option Nat) (dest : Dest) (parts : Nat) :
    (s.newOp c i path dest parts).2.mem = s.mem ∧ (∀ k, (s.group k).Went ((s.newOp c i path dest parts).2.group k)) ∧
      ((s.context c.g.ctx).rd.en = false → (∀ o ∈ s.ops, o.2.race = false) → ∀ o ∈ (s.newOp c i path dest parts).2.ops, o.2.race = false) := by
  have hg (g : Group) (l : List PathOp) : g.Went { g with paths := l } := ⟨rfl, rfl⟩
  refine ⟨State.newOp_mem .., fun k => ?_, fun hd hs o ho => ?_⟩
  · unfold State.newOp
    cases path with
    | none => exact .refl _
    | some p =>
      dsimp only
      by_cases hk : k = c.gid
      · subst hk; rw [State.group_modGroup_self]; exact hg ..
      · rw [State.group_modGroup_ne _ _ _ _ hk]; exact .refl _
  · have split (x : Op) (hx : x.race = false) (ho : o ∈ tput s.nextId x s.ops) : o.2.race = false :=
      (mem_tput ho).elim (fun e => by rw [e]; exact hx) (hs o)
    unfold State.newOp at ho
    cases path with
    | none => exact split _ hd ho
    | some p => exact split _ hd ho

/-- The issue leaves the operations, memory and the detectors. -/
theorem State.begin_rest (s : State) (c : Iss) (i : Instr) : (s.begin c i).ops = s.ops ∧ (s.begin c i).mem = s.mem ∧ ∀ k, ((s.begin c i).context k).rd.en = (s.context k).rd.en := by
  have hb := s.begin_book c i
  refine ⟨by rw [hb.rest]; rfl, by rw [hb.rest]; rfl, fun k => ?_⟩
  have e := congrArg (fun c : Context => c.rd.en) (hb.contexts k)
  exact e

/-- The registers, slots and marks of a group that went the way of an access from its issue. -/
theorem Group.Went.of_issued {c : Iss} {i : Instr} {n : Nat} {h : Group} (k : (c.issued i n).Went h) : c.g.sameRegs h ∧ advanced c h ∧ pendsOn i c h := by
  obtain ⟨e, hf⟩ := k
  have hst : (c.issued i n).Stays h := by rw [e]; exact ⟨⟨rfl, rfl, rfl, rfl, rfl⟩, rfl, rfl⟩
  obtain ⟨a1, a2, a3, a4, a5⟩ := (c.issued_eq i n).regs
  obtain ⟨b1, b2, b3, b4, b5⟩ := hst.regs
  exact ⟨⟨b1.trans a1, b2.trans a2, b3.trans a3, b4.trans a4, b5.trans a5⟩, hst.advanced (c.issued_advanced i n), pendsOn_congr hf (by rw [e]) (c.issued_pendsOn i n)⟩

/-- Without a detector, and with none on when the operations in flight were issued, memory stays on the way. -/
theorem State.Way.mem_of_begin {s v t : State} {c d : Iss} {i j : Instr} {path : Option Nat} {dest : Dest} {parts : Nat} (hv : (s.begin c i).Way v) (ht : (v.newOp d j path dest parts).2.Way t)
    (hd : (s.context d.g.ctx).rd.en = false) (hr : ∀ o ∈ s.ops, o.2.race = false) : t.mem = s.mem := by
  obtain ⟨bo, bm, bd⟩ := s.begin_rest c i
  obtain ⟨hvr, hvm⟩ := hv.calm (bo ▸ hr)
  obtain ⟨nm, -, nr⟩ := v.newOp_rest d j path dest parts
  obtain ⟨-, htm⟩ := ht.calm (nr (((hv.detects _).trans (bd _)).trans hd) hvr)
  rw [htm, nm, hvm, bm]

theorem State.op_written (t : State) (c : Iss) (i : Instr) (n : Nat) : (t.written c i).op n = t.op n := (Book.written t c i).op n
@[simp] theorem State.mem_written (t : State) (c : Iss) (i : Instr) : (t.written c i).mem = t.mem := by rw [(Book.written t c i).rest]

/-- A ready word that makes an operation and goes the way of an access before it and after it starts the operation. -/
theorem starts_of_way {i : Instr} {s : State} {gr : Grant} {path : Option Nat} {dest : Dest} {parts : Nat} {v t : State}
    (he : exec i s = .next (t.written (s.seen gr) i)) (hv : (s.begin (s.seen gr) i).Way v) (ht : (v.newOp (s.seen gr) i path dest parts).2.Way t)
    (hl : (s.seen gr).carried i ≠ none ∨ dest ≠ .none) : Starts i s gr path dest := by
  obtain ⟨x, hx, hgid, hinstr, hpath, hflag, hdest, hp⟩ := v.newOp_new (s.seen gr) i path dest parts
  have hlx : x.Lasts := by unfold Op.Lasts; rw [hflag, hdest]; exact hl
  obtain ⟨y, hy, e⟩ := ht.ops _ x hx hlx
  obtain ⟨-, hn, -⟩ := v.newOp_rest (s.seen gr) i path dest parts
  have hw : ((s.seen gr).issued i (s.issues + 1)).Went (t.group gr.gid) := by
    have h := ((hv.groups gr.gid).trans (hn gr.gid)).trans (ht.groups gr.gid)
    rwa [show (s.begin (s.seen gr) i).group gr.gid = _ from State.group_begin_self s (s.seen gr) i] at h
  obtain ⟨hregs, hadv, hpend⟩ := hw.of_issued
  refine ⟨_, v.nextId, y, he, (s.begin_nextId ..).symm.trans_le hv.ids, (State.op_written ..).trans hy, ?_, ?_, ?_, ?_, ?_, fun p hq => ?_, ?_, ?_, ?_, fun hd hr _ => ?_⟩
  · rw [e]; exact hgid
  · rw [e]; exact hinstr
  · rw [e]; exact hpath
  · rw [e]; exact hflag
  · rw [e]; exact hdest
  · rw [State.after, State.group_written]; exact ht.paths gr.gid ⟨p, v.nextId, false⟩ x (hp p hq) rfl hx hlx
  · rw [State.after, State.group_written]; exact hregs
  · rw [State.after, State.group_written]; exact hadv
  · rw [State.after, State.group_written]; exact hpend
  · rw [State.mem_written]; exact hv.mem_of_begin ht hd hr

/-- A ready long-latency word carries the flag that it selects (01 R25). -/
theorem Ready.carried {i : Instr} {s : State} {gr : Grant} (h : Ready i s gr) (hl : i.longLat.isSome = true) : (s.seen gr).carried i ≠ none := by
  obtain ⟨sb, hsb⟩ := Option.isSome_iff_exists.mp hl
  unfold Iss.carried
  rw [hsb]
  exact Option.isSome_iff_ne_none.mp (h.flag sb hsb)

/-! #### Loads -/

section
variable (s : State) (c : Iss) (i : Instr) (o : FOps) (hint : Nat) (ptm : Bool) (space : Space) (kind scope size : Nat) (dest : Dest)

theorem State.startLoad_nil : ∃ v, s.Way v ∧ s.startLoad c i o hint ptm space kind scope size dest [] = v.emptyOp c i :=
  ⟨_, .ite (.commitRegion ..) (.refl s), rfl⟩

theorem State.startLoad_way {lanes : List (Nat × Nat)} (h : lanes ≠ []) :
    ∃ v n, s.Way v ∧ (v.newOp c i (some 0) dest n).2.Way (s.startLoad c i o hint ptm space kind scope size dest lanes) := by
  have h0 : s.Way (if kind = 3 then s.commitRegion c.gid c.slotB else s) := .ite (.commitRegion ..) (.refl s)
  unfold State.startLoad
  extract_lets s0
  split
  · exact absurd rfl h
  next lines s1 x h ownB n r =>
    extract_lets s2 s3
    have hh : s.Way h.2 := by
      refine (h0.trans (.flushLines s0 c.gid (lines.map (·.1)))).trans ?_
      show s1.Way h.2
      unfold h
      split
      · exact .startRelease ..
      · exact .refl _
    have h2 : n.2.Way s2 := by
      unfold s2
      split
      next hx => exact .putOp _ hx rfl
      · exact .refl _
    exact ⟨h.2, _, hh, ((h2.trans (.ite (.startAcquire ..) (.refl _))).trans (.requestLines ..)).trans (.settle _)⟩

end

/-- A ready long-latency word whose effect is a load starts it, or an operation without a destination where no lane is active. -/
theorem starts_startLoad {i : Instr} {s : State} {gr : Grant} {o : FOps} {hint : Nat} {ptm : Bool} {space : Space} {kind scope size : Nat} {dest : Dest} {lanes : List (Nat × Nat)}
    (hr : Ready i s gr) (hl : i.longLat.isSome = true)
    (he : exec i s = .next (((s.begin (s.seen gr) i).startLoad (s.seen gr) i o hint ptm space kind scope size dest lanes).written (s.seen gr) i)) :
    Starts i s gr (if lanes = [] then none else some 0) (if lanes = [] then .none else dest) := by
  by_cases h : lanes = []
  · subst h
    obtain ⟨v, hv, e⟩ := (s.begin (s.seen gr) i).startLoad_nil (s.seen gr) i o hint ptm space kind scope size dest
    rw [e] at he
    exact starts_of_way he hv (.refl _) (.inl (hr.carried hl))
  · obtain ⟨v, n, hv, ht⟩ := (s.begin (s.seen gr) i).startLoad_way (s.seen gr) i o hint ptm space kind scope size dest h
    rw [if_neg h, if_neg h]
    exact starts_of_way he hv ht (.inl (hr.carried hl))

end Sys2Proof.Machine

end

-- ==== Loads start (O8) ====
section
/-! SUPPORT. The address checks of the loads and stores, and the words that start a load; then O8. -/

namespace Sys2Proof.Machine

/-! #### A ready word and the result of its effect -/

section
variable {i : Instr} {s : State} {gr : Grant} {eff : Iss → State → Except Flt State}

theorem exec_of_effect {t : State} (hr : Ready i s gr) (he : exec i s = issue i s free_ eff) (hf : eff (s.seen gr) (s.begun gr i) = .ok t) :
    exec i s = .next (t.written (s.seen gr) i) := by
  rw [he, issue_ready hr free_ rfl, hf]

theorem traps_of_effect {f : Flt} (hr : Ready i s gr) (he : exec i s = issue i s free_ eff) (hf : eff (s.seen gr) (s.begun gr i) = .error f) (hc : f.cause ≠ 16) :
    Traps i s gr f := by
  unfold Traps
  rw [he, issue_ready hr free_ rfl, hf]
  exact congrArg Host.Outcome.next (State.trapAt_of_cause hc)

end

/-! #### The address checks -/

theorem checkVa_of_good {acc size : Nat} {l : List (Nat × Nat)} (h : goodAddrs size l) : checkVa acc size l = none := by
  induction l with
  | nil => rfl
  | cons x l ih =>
    obtain ⟨⟨hc, ha⟩, hl⟩ := List.forall_mem_cons.mp h
    rw [checkVa, if_neg (Nat.not_le.mpr hc), if_neg (not_not.mpr ha), ih hl]

/-- The lowest lane with a bad address decides, and its canonical form is checked first (03 R62, log 9). -/
theorem checkVa_of_bad {acc size L va : Nat} {before after : List (Nat × Nat)} (hb : goodAddrs size before) (h : 2 ^ 56 ≤ va ∨ va % size ≠ 0) :
    checkVa acc size (before ++ (L, va) :: after) = some (if 2 ^ 56 ≤ va then fTranslation acc 3 0 3 va else fAlign 0 L (lg2 size) va) := by
  induction before with
  | nil =>
    rw [List.nil_append, checkVa]
    split
    · rfl
    next hn => rw [if_pos (h.resolve_left hn)]
  | cons x l ih =>
    obtain ⟨⟨hc, ha⟩, hl⟩ := List.forall_mem_cons.mp hb
    rw [List.cons_append, checkVa, if_neg (Nat.not_le.mpr hc), if_neg (not_not.mpr ha), ih hl]

theorem State.begin_core_remap (s : State) (c : Iss) (i : Instr) (k tenant va : Nat) : ((s.begin c i).core k).remap tenant va = (s.core k).remap tenant va := by
  have e := congrArg (fun c : Core => c.remap tenant va) ((s.begin_book c i).cores k)
  exact e

theorem Iss.remapAll_eq_nil {c : Iss} {s : State} {l : List (Nat × Nat)} : c.remapAll s l = [] ↔ l = [] := List.map_eq_nil_iff

theorem Iss.addrs_eq_nil {c : Iss} {s : State} {o : FOps} {size : Nat} {m : Word} : c.addrs s o size m = [] ↔ m = 0 := List.map_eq_nil_iff.trans lanesIn_eq_nil

/-- The fault of a bad address is not one of memory's errors. -/
theorem badAddr_cause (acc L size va : Nat) : (if 2 ^ 56 ≤ va then fTranslation acc 3 0 3 va else fAlign 0 L (lg2 size) va).cause ≠ 16 := by
  split <;> simp [fTranslation, fAlign]

/-! #### Per-thread addresses (03 R65) -/

section
variable (c : Iss) (s : State) (o : FOps) (acc : Nat)

/-- The first word of a lane's access outside its per-thread area. -/
def Iss.ptmBad (L : Nat) : Option Nat :=
  (List.range (ptmWords o)).find? (fun (k : Nat) => decide ((c.b s o L).toInt + (k : Int) < 0) || decide ((c.g.ptmWords : Int) ≤ (c.b s o L).toInt + (k : Int)))

/-- `Iss.ptmAddrs` over a list of lanes. -/
def Iss.ptmFold (l : List Nat) : Except Flt (List (Nat × Nat)) :=
  l.foldr (fun L rest => match c.ptmBad s o L with
    | some k => .error (fTranslation acc 3 0 7 (wrap (ptmAddr c.g (c.b s o L).toInt k L) 56))
    | none => match rest with
      | .error f => .error f
      | .ok l => .ok ((L, (ptmAddr c.g (c.b s o L).toInt 0 L).toNat) :: l)) (.ok [])

theorem Iss.ptmAddrs_eq : c.ptmAddrs s o acc = c.ptmFold s o acc (lanesIn (c.active o.g)) := rfl

variable {c s o acc}

theorem Iss.ptmFold_ok {l : List Nat} {as : List (Nat × Nat)} (h : c.ptmFold s o acc l = .ok as) : as.map (·.1) = l := by
  induction l generalizing as with
  | nil => cases h; rfl
  | cons L l ih =>
    rw [Iss.ptmFold, List.foldr_cons, ← Iss.ptmFold] at h
    split at h
    · cases h
    · split at h
      · cases h
      next hl => cases h; rw [List.map_cons, ih hl]

theorem Iss.ptmFold_error {before after : List Nat} {L k : Nat} (hb : ∀ j ∈ before, c.ptmBad s o j = none) (hL : c.ptmBad s o L = some k) :
    c.ptmFold s o acc (before ++ L :: after) = .error (fTranslation acc 3 0 7 (wrap (ptmAddr c.g (c.b s o L).toInt k L) 56)) := by
  induction before with
  | nil => rw [Iss.ptmFold, List.nil_append, List.foldr_cons, hL]
  | cons j l ih =>
    obtain ⟨hj, hl⟩ := List.forall_mem_cons.mp hb
    rw [Iss.ptmFold, List.cons_append, List.foldr_cons, ← Iss.ptmFold, hj, ih hl]

theorem Iss.ptmAddrs_eq_nil {as : List (Nat × Nat)} (h : c.ptmAddrs s o acc = .ok as) : as = [] ↔ c.active o.g = 0 := by
  rw [← lanesIn_eq_nil, ← Iss.ptmFold_ok h, List.map_eq_nil_iff]

theorem Iss.ptmBad_eq_none {L : Nat} (h : ∀ k, k < ptmWords o → 0 ≤ (c.b s o L).toInt + (k : Int) ∧ (c.b s o L).toInt + (k : Int) < c.g.ptmWords) : c.ptmBad s o L = none := by
  refine find?_none_of fun k hk => ?_
  obtain ⟨h0, h1⟩ := h k (List.mem_range.mp hk)
  simp only [Bool.or_eq_false_iff, decide_eq_false_iff_not]
  omega

theorem Iss.ptmBad_eq_some {L k : Nat} (hk : k < ptmWords o) (h : ¬ (0 ≤ (c.b s o L).toInt + (k : Int) ∧ (c.b s o L).toInt + (k : Int) < c.g.ptmWords))
    (hn : ∀ n, n < k → 0 ≤ (c.b s o L).toInt + (n : Int) ∧ (c.b s o L).toInt + (n : Int) < c.g.ptmWords) : c.ptmBad s o L = some k := by
  refine List.find?_range_eq_some.mpr ⟨?_, List.mem_range.mpr hk, fun n hlt => ?_⟩
  · simp only [Bool.or_eq_true, decide_eq_true_eq]
    omega
  · have := hn n hlt
    simp only [Bool.not_eq_true', Bool.or_eq_false_iff, decide_eq_false_iff_not]
    omega

/-- The lanes below an active lane, the lane, and those above it. -/
theorem lanesIn_split {m : Word} {L : Nat} (hL : L < 32) (h : m.getLsbD L = true) : ∃ before after, lanesIn m = before ++ L :: after ∧ ∀ j ∈ before, j < L ∧ m.getLsbD j = true := by
  obtain ⟨before, after, e⟩ := List.append_of_mem (mem_lanesIn.mpr ⟨hL, h⟩)
  refine ⟨before, after, e, fun j hj => ⟨?_, (mem_lanesIn.mp (e ▸ List.mem_append_left _ hj)).2⟩⟩
  have hs : (lanesIn m).Pairwise (· < ·) := List.pairwise_lt_range.filter _
  rw [e, List.pairwise_append] at hs
  exact hs.2.2 j hj L List.mem_cons_self

/-- The first word outside the area of the lowest lane that has one (03 R65). -/
theorem Iss.ptmAddrs_error {L k : Nat} (hL : L < 32) (hm : (c.active o.g).getLsbD L = true) (hk : k < ptmWords o)
    (h : ¬ (0 ≤ (c.b s o L).toInt + (k : Int) ∧ (c.b s o L).toInt + (k : Int) < c.g.ptmWords))
    (hl : ∀ j, j < L → (c.active o.g).getLsbD j = true → ∀ n, n < ptmWords o → 0 ≤ (c.b s o j).toInt + (n : Int) ∧ (c.b s o j).toInt + (n : Int) < c.g.ptmWords)
    (hn : ∀ n, n < k → 0 ≤ (c.b s o L).toInt + (n : Int) ∧ (c.b s o L).toInt + (n : Int) < c.g.ptmWords) :
    c.ptmAddrs s o acc = .error (fTranslation acc 3 0 7 (wrap (ptmAddr c.g (c.b s o L).toInt k L) 56)) := by
  obtain ⟨before, after, e, hb⟩ := lanesIn_split hL hm
  rw [Iss.ptmAddrs_eq, e]
  exact Iss.ptmFold_error (fun j hj => Iss.ptmBad_eq_none (hl j (hb j hj).1 (hb j hj).2)) (Iss.ptmBad_eq_some hk h hn)

end

theorem ptmWords_pos (o : FOps) : 0 < ptmWords o := by
  unfold ptmWords; split <;> decide

theorem Iss.ptmWordsOf_eq_nil {c : Iss} {s : State} {o : FOps} {l : List (Nat × Nat)} : c.ptmWordsOf s (ptmWords o) l = [] ↔ l = [] := by
  have := ptmWords_pos o
  cases l with
  | nil => simp [Iss.ptmWordsOf]
  | cons x l =>
    simp only [Iss.ptmWordsOf, List.flatMap_cons, List.append_eq_nil_iff, List.map_eq_nil_iff, List.range_eq_nil, reduceCtorEq, iff_false]
    omega

/-! #### O8 -/

section
variable {o : FOps} {s : State} {gr : Grant}

theorem exec_ld_ready (hr : Ready (.ld o) s gr) {l : List (Nat × Nat)} (hl : (s.seen gr).addrs (s.begun gr (.ld o)) o (accBytes o) ((s.seen gr).active o.g) = l) (hg : goodAddrs (accBytes o) l) :
    exec (.ld o) s = .next (((s.begun gr (.ld o)).startLoad (s.seen gr) (.ld o) o (hintOf o) false .global (ordKind o) (ordScope o) (accBytes o)
      (.load o.d.toNat (fld o.ox 5 3) ((s.seen gr).remapAll (s.begun gr (.ld o)) l)) ((s.seen gr).remapAll (s.begun gr (.ld o)) l)).written (s.seen gr) (.ld o)) := by
  refine exec_of_effect hr (exec_ld o s) ?_
  subst hl
  simp only [checkVa_of_good hg]

theorem exec_sld_ready (hr : Ready (.sld o) s gr) (hg : goodAddrs (accBytes o) [(0, (s.seen gr).saddr (s.begun gr (.sld o)) o (accBytes o))]) :
    exec (.sld o) s = .next (((s.begun gr (.sld o)).startLoad (s.seen gr) (.sld o) o (hintOf o) false .global (ordKind o) (ordScope o) (accBytes o)
      (.sload o.d.toNat (fld o.ox 5 3) (((s.begun gr (.sld o)).core (coreOf gr.gid)).remap (s.group gr.gid).tenant ((s.seen gr).saddr (s.begun gr (.sld o)) o (accBytes o))))
      ((s.seen gr).remapAll (s.begun gr (.sld o)) [(0, (s.seen gr).saddr (s.begun gr (.sld o)) o (accBytes o))])).written (s.seen gr) (.sld o)) := by
  refine exec_of_effect hr (exec_sld o s) ?_
  simp only [checkVa_of_good hg]
  rfl

theorem exec_ldp_ready (hr : Ready (.ldp o) s gr) {l : List (Nat × Nat)} (hl : (s.seen gr).ptmAddrs (s.begun gr (.ldp o)) o 0 = .ok l) :
    exec (.ldp o) s = .next (((s.begun gr (.ldp o)).startLoad (s.seen gr) (.ldp o) o 0 true .perThread 0 0 4
      (.words o.d.toNat ((s.seen gr).ptmWordsOf (s.begun gr (.ldp o)) (ptmWords o) l)) (((s.seen gr).ptmWordsOf (s.begun gr (.ldp o)) (ptmWords o) l).map (fun x => (x.1, x.2.2)))).written (s.seen gr) (.ldp o)) := by
  refine exec_of_effect hr (exec_ldp o s) ?_
  simp only [hl]

theorem ptmAddrs_of_inactive {c : Iss} {t : State} {acc : Nat} (h : c.active o.g = 0) : c.ptmAddrs t o acc = .ok [] := by
  rw [Iss.ptmAddrs_eq, h]; rfl

/-- A load of lanes, or of none (03 R64). -/
theorem ld_starts (hr : Ready (.ld o) s gr) {l : List (Nat × Nat)} (hl : (s.seen gr).addrs (s.begun gr (.ld o)) o (accBytes o) ((s.seen gr).active o.g) = l) (hg : goodAddrs (accBytes o) l) :
    Starts (.ld o) s gr (if l = [] then none else some 0) (if l = [] then .none else .load o.d.toNat (fld o.ox 5 3) ((s.seen gr).remapAll (s.begun gr (.ld o)) l)) := by
  have h := starts_startLoad hr rfl (exec_ld_ready hr hl hg)
  simpa only [Iss.remapAll_eq_nil] using h

/-- A load of per-thread words, or of none (03 R65). -/
theorem ldp_starts (hr : Ready (.ldp o) s gr) {l : List (Nat × Nat)} (hl : (s.seen gr).ptmAddrs (s.begun gr (.ldp o)) o 0 = .ok l) :
    Starts (.ldp o) s gr (if l = [] then none else some 0) (if l = [] then .none else .words o.d.toNat ((s.seen gr).ptmWordsOf (s.begun gr (.ldp o)) (ptmWords o) l)) := by
  have h := starts_startLoad hr rfl (exec_ldp_ready hr hl)
  simpa only [List.map_eq_nil_iff, Iss.ptmWordsOf_eq_nil] using h

end

/-- An effect behind the check of the addresses is refused with what the check finds. -/
theorem error_of_checkVa {acc size : Nat} {l : List (Nat × Nat)} {f : Flt} (h : checkVa acc size l = some f) (k : Except Flt State) :
    (match checkVa acc size l with | some f => Except.error f | none => k) = Except.error f := by
  rw [h]

/-- Settles O8: a load makes its operation and goes the way of its requests, which keeps every operation that lasts; the
address checks are decided by the lowest lane that fails. -/
theorem loadsStart : Obligations.LoadsStart := by
  unfold Obligations.LoadsStart
  refine ⟨fun o s gr => ?_, fun o s gr before after L va => ?_, fun o s gr L k acc i => ?_⟩
  · intro c size m at_ one
    refine ⟨fun hr hm hg => ?_, fun hr hm => ?_, fun hr hg => ?_, fun hr hm l hl => ?_, fun hr hm => ?_⟩
    · have hne : at_ (.ld o) ≠ [] := Iss.addrs_eq_nil.not.mpr hm
      have h := ld_starts hr rfl hg
      rw [if_neg hne, if_neg hne] at h
      exact h
    · exact ld_starts hr (Iss.addrs_eq_nil.mpr hm) (List.forall_mem_nil _)
    · have h := starts_startLoad hr rfl (exec_sld_ready hr hg)
      rw [State.begin_core_remap] at h
      exact h
    · have hne : l ≠ [] := (Iss.ptmAddrs_eq_nil hl).not.mpr hm
      have h := ldp_starts hr hl
      rw [if_neg hne, if_neg hne] at h
      exact h
    · exact ldp_starts hr (ptmAddrs_of_inactive hm)
  · intro c size fault bad
    have hva (acc : Nat) (l : List (Nat × Nat)) (h : bad l) : checkVa acc (accBytes o) l = some (fault acc) := by
      obtain ⟨rfl, hb, hbad⟩ := h
      exact checkVa_of_bad hb hbad
    refine ⟨fun hr h => ?_, fun hr h => ?_, fun hr h => ?_, fun hr h => ?_⟩
    · exact traps_of_effect hr (exec_ld o s) (error_of_checkVa (hva 0 _ h) _) (badAddr_cause _ _ _ _)
    · exact traps_of_effect hr (exec_st o s) (error_of_checkVa (hva 1 _ h) _) (badAddr_cause _ _ _ _)
    · exact traps_of_effect hr (exec_sld o s) (error_of_checkVa (hva 0 _ h) _) (badAddr_cause _ _ _ _)
    · exact traps_of_effect hr (exec_sst o s) (error_of_checkVa (hva 1 _ h) _) (badAddr_cause _ _ _ _)
  · intro g m word within hi hr hL hm hk hw hl hn
    have hf : (s.seen gr).ptmAddrs (s.begun gr i) o acc = .error (fTranslation acc 3 0 7 (wrap (g.ptmBase + word L k * 128 + L * 4) 56)) := Iss.ptmAddrs_error hL hm hk hw hl hn
    rcases hi with ⟨rfl, rfl⟩ | ⟨rfl, rfl⟩
    · exact traps_of_effect hr (exec_ldp o s) (by simp only [hf]) (by simp [fTranslation])
    · exact traps_of_effect hr (exec_stp o s) (by simp only [hf]) (by simp [fTranslation])

end Sys2Proof.Machine

end

-- ==== States that the statements about buffers and slices admit (O9, O33, O35) ====
section
/-! SUPPORT. Three statements are put of every state. States in which the bytes of a store buffer are not in order, or the tenant of a request is not
its context's, refute them. -/

namespace Sys2Proof.Machine

/-- A table whose keys do not rise: byte 5 stands before byte 3. -/
def unsortedEntry : BufEntry := ⟨.global, 0, 0, [(5, 0), (3, 0)], [], false, 0, 0⟩

/-- Refutes O9: the statement asks of the entries only that they are sectors, not that the keys of their bytes rise. In `unsortedEntry`
a store to byte 3 is put ahead of byte 5, and the older value of byte 3 behind it is the one that is read back. -/
theorem not_storesBuffer : ¬ Obligations.StoresBuffer := by
  unfold Obligations.StoresBuffer
  rintro ⟨-, h⟩
  have hok : ∀ e ∈ [unsortedEntry], e.sector % 32 = 0 ∧ ∀ b ∈ e.bytes, b.1 < 32 := by decide
  obtain ⟨-, hread⟩ := h { buf := [unsortedEntry] } .global 0 0 0 0 false [(3, 1)] hok
  exact absurd (hread .global 3) (by decide)

/-- The copy that a slice lists for line 0 of tenant 1 and that names tenant 0 itself. -/
def strayLine : L2Line := { dirty := [(0, 1)] }

/-- A store of tenant 0 whose context has tenant 1, to line 0, with a cache hint and no byte. -/
def strayStore : Req := { kind := .store, hint := 2, seen := true, race := false }

/-- The slice holds line 0 of tenant 0, clean, and `strayLine`. -/
def strayState : State :=
  { State.reset with contexts := [(0, { tenant := 1 })], slices := [(0, { lines := [(lineKey 0 0, { wr := true }), (lineKey 1 0, strayLine)] })], reqs := [(0, strayStore)] }

/-- The line of tenant 0 that the slice holds after the store. -/
theorem strayState_line {t : State} (h : exec (.sliceStore 0) strayState = .next t) : (t.slice 0).line 0 0 = some { strayLine with hint := 2 } := by
  have hrun : (match exec (.sliceStore 0) strayState with | .next t => (t.slice 0).line 0 0 | _ => none) = some { strayLine with hint := 2 } := by decide
  rwa [h] at hrun

/-- Refutes O33: the statement asks neither that a request's tenant is its context's nor that a slice lists a line under the tenant that
the line names. The cache hint of `strayStore` marks the line that is listed under its context's tenant, `strayLine`, which goes back under
the tenant that it names: over the line that the store has merged its bytes into. -/
theorem not_sliceServes : ¬ Obligations.SliceServes := by
  unfold Obligations.SliceServes
  rintro ⟨h, -⟩
  obtain ⟨-, -, hstore, -⟩ := h strayState 0 strayStore { wr := true }
  obtain ⟨t, he, -, -, ⟨l, hl, hbytes⟩, -⟩ := hstore (by decide) (by decide) (by decide)
  obtain rfl : { strayLine with hint := 2 } = l := Option.some.inj ((strayState_line he).symm.trans hl)
  exact absurd (hbytes 0) (by rw [show t.lineByte { strayLine with hint := 2 } 0 = 1 from rfl]; decide)

/-- A load of tenant 1 whose context has tenant 0, to a line whose memory is at die 1. -/
def strayLoad : Req := { kind := .load, stage := .fetch, tenant := 1, ops := [0] }

/-- Its operation, of which its event is of no account here. -/
def strayOp : Op := { instr := .memoryFillReturn 0 }

/-- The request waits for the fill of its line at a slice of die 0; no firewall lets a packet pass, as at reset. -/
def strayFill : State :=
  { State.reset with ops := [(0, strayOp)], slices := [(0, { lines := [(lineKey 1 0, { tenant := 1, machine := 2 ^ 37 })] })], reqs := [(0, strayLoad)] }

/-- The fault of a packet of a tenant that the port by which it leaves die 0 refuses. -/
def egressFault (tenant : Nat) : Flt := fFirewall 1 tenant 0 false (Config.egress 0 1 % 4) 0

theorem egressFault_tenant : egressFault 0 ≠ egressFault 1 := by
  have h (p : Fin 4) : fFirewall 1 0 0 false p 0 ≠ fFirewall 1 1 0 false p 0 := by decide +revert
  exact h ⟨_, Nat.mod_lt _ (by decide)⟩

/-- The request is held with the fault of its context's tenant. -/
theorem strayFill_req {t : State} (h : exec (.memoryFillReturn 0) strayFill = .next t) : t.req 0 = some { strayLoad with stage := .held (egressFault 0) } := by
  have hrun : (match exec (.memoryFillReturn 0) strayFill with | .next t => t.req 0 | _ => none) = some { strayLoad with stage := .held (egressFault 0) } := rfl
  rwa [h] at hrun

theorem strayFill_crossing : strayFill.crossing (strayLoad.slice / 32) (placeOf (2 ^ 37)).1 1 (strayLoad.line * 128) (some (2 ^ 37)) = some (egressFault 1) := by
  rw [State.crossing, if_neg (by decide)]
  rfl

theorem strayFill_line : (strayFill.slice 0).line 1 0 = some { tenant := 1, machine := 2 ^ 37 } := by decide

/-- Refutes O35: the statement takes the tenant of the request where a firewall sees that of its context, and asks that they are one only
of walks. The fill of `strayLoad` is refused for the tenant 0 of its context, not for its own. -/
theorem not_sliceTranslates : ¬ Obligations.SliceTranslates := by
  unfold Obligations.SliceTranslates
  intro h
  obtain ⟨-, -, -, hfault, -⟩ := h strayFill 0 strayLoad
  obtain ⟨t, he, hreq, -⟩ := hfault { tenant := 1, machine := 2 ^ 37 } (egressFault 1) 0 strayOp rfl rfl (by decide) strayFill_line strayFill_crossing (.inl rfl) rfl rfl rfl
  have hheld := Option.some.inj ((strayFill_req he).symm.trans hreq)
  exact egressFault_tenant (Stage.held.inj (congrArg Req.stage hheld))

end Sys2Proof.Machine

end

-- ==== The page tracker (O45) ====
section
/-! SUPPORT. Reads of a memory in canonical form, the choice of a pair of pages, their exchange, and the write of hpt.ctl; then O45. -/

namespace Sys2Proof.Machine

/-! #### Reads of a memory in canonical form -/

theorem tcanon_le_of_mem {d : Byte} {lo : Nat} {t : Table Byte} (h : tcanon d lo t = true) {x : Nat × Byte} (hx : x ∈ t) : lo ≤ x.1 := by
  induction t generalizing lo with
  | nil => cases hx
  | cons y t ih =>
    obtain ⟨k, v⟩ := y
    obtain ⟨hk, -, ht⟩ := (tcanon_cons ..).mp h
    rcases List.mem_cons.mp hx with rfl | hx
    · exact hk
    · exact hk.trans ((Nat.le_succ k).trans (ih ht hx))

theorem tget_of_mem {d : Byte} {lo : Nat} {t : Table Byte} (h : tcanon d lo t = true) {x : Nat × Byte} (hx : x ∈ t) : tget d x.1 t = x.2 := by
  induction t generalizing lo with
  | nil => cases hx
  | cons y t ih =>
    obtain ⟨k, v⟩ := y
    obtain ⟨-, -, ht⟩ := (tcanon_cons ..).mp h
    rcases List.mem_cons.mp hx with rfl | hx
    · rw [tget_cons, if_pos rfl]
    · have hk : x.1 ≠ k := fun e => absurd (tcanon_le_of_mem ht hx) (by omega)
      rw [tget_cons, if_neg hk, ih ht hx]

theorem tget_of_not_mem {d : Byte} {k : Nat} {t : Table Byte} (h : ∀ x ∈ t, x.1 ≠ k) : tget d k t = d := by
  rw [tget_eq_tfind]
  cases hf : tfind k t with
  | none => rfl
  | some v => exact absurd rfl (h _ (mem_of_tfind hf))

/-- Taking off entries of other keys. -/
theorem tget_filter {d : Byte} {k : Nat} {t : Table Byte} {p : Nat × Byte → Bool} (h : ∀ x ∈ t, x.1 = k → p x = true) : tget d k (t.filter p) = tget d k t := by
  induction t with
  | nil => rfl
  | cons x t ih =>
    have ih := ih fun y hy => h y (List.mem_cons_of_mem _ hy)
    rw [List.filter_cons]
    split
    · rw [tget_cons, tget_cons, ih]
    next hp => rw [tget_cons, if_neg fun e => hp (h x List.mem_cons_self e.symm), ih]

/-- Many writes leave the value that each of them to a key gives it. -/
theorem tget_tsetAll_of_mem {d : Byte} {ws : List (Nat × Byte)} {k : Nat} {v : Byte} (hv : ∀ w ∈ ws, w.1 = k → w.2 = v) (h : ∃ w ∈ ws, w.1 = k) (t : Table Byte) :
    tget d k (tsetAll d ws t) = v := by
  induction ws generalizing t with
  | nil => obtain ⟨w, hw, -⟩ := h; cases hw
  | cons w ws ih =>
    have hvs := fun x hx => hv x (List.mem_cons_of_mem w hx)
    by_cases hs : ∃ x ∈ ws, x.1 = k
    · exact ih hvs hs _
    · have hw : w.1 = k := by
        obtain ⟨x, hx, e⟩ := h
        rcases List.mem_cons.mp hx with rfl | hx
        · exact e
        · exact absurd ⟨x, hx, e⟩ hs
      refine (tget_tsetAll_ne d ws k (fun x hx e => hs ⟨x, hx, e⟩) _).trans ?_
      rw [← hw, tget_tset_self]
      exact hv w List.mem_cons_self hw

/-! #### The exchange of two pages (03 R49) -/

/-- What the exchange leaves at an address of `p`, if `q` is the other page. -/
theorem tget_moved {m : Table Byte} (hm : Memory.wf m = true) {p q a : Nat} (hp : p % 2 ^ 16 = 0) (hq : q % 2 ^ 16 = 0) (hne : p ≠ q) (ha : a / 2 ^ 16 = p / 2 ^ 16)
    {ws : List (Nat × Byte)} (hws : ∀ w, w ∈ ws ↔ ∃ c ∈ m, (c.1 / 2 ^ 16 = q / 2 ^ 16 ∧ w = (p + c.1 % 2 ^ 16, c.2)) ∨ c.1 / 2 ^ 16 = p / 2 ^ 16 ∧ w = (q + c.1 % 2 ^ 16, c.2))
    {t : Table Byte} (ht : ∀ x ∈ t, x.1 ≠ a) : tget 0 a (tsetAll 0 ws t) = tget 0 (q + a % 2 ^ 16) m := by
  have hkey (w : Nat × Byte) (hw : w ∈ ws) (e : w.1 = a) : ∃ c ∈ m, c.1 = q + a % 2 ^ 16 ∧ w.2 = c.2 := by
    obtain ⟨c, hc, ⟨hcq, rfl⟩ | ⟨-, rfl⟩⟩ := (hws w).mp hw
    · exact ⟨c, hc, by dsimp only at e; omega, rfl⟩
    · dsimp only at e; omega
  by_cases h : ∃ w ∈ ws, w.1 = a
  · refine tget_tsetAll_of_mem (fun w hw e => ?_) h t
    obtain ⟨c, hc, ec, hv⟩ := hkey w hw e
    rw [hv, ← ec, tget_of_mem hm hc]
  · rw [tget_tsetAll_ne 0 ws a (fun w hw e => h ⟨w, hw, e⟩), tget_of_not_mem ht, tget_of_not_mem fun c hc e => ?_]
    exact h ⟨(p + c.1 % 2 ^ 16, c.2), (hws _).mpr ⟨c, hc, .inl ⟨by omega, rfl⟩⟩, by dsimp only; omega⟩

theorem tget_swapMem {m : Table Byte} (hm : Memory.wf m = true) {p q : Nat} (hp : p % 2 ^ 16 = 0) (hq : q % 2 ^ 16 = 0) (hne : p ≠ q) (a : Nat) :
    tget 0 a (swapMem p q m) = if a / 2 ^ 16 = p / 2 ^ 16 then tget 0 (q + a % 2 ^ 16) m else if a / 2 ^ 16 = q / 2 ^ 16 then tget 0 (p + a % 2 ^ 16) m else tget 0 a m := by
  unfold swapMem
  extract_lets page cleared
  have hws (w : Nat × Byte) : w ∈ (page p).map (fun c => (q + c.1 % 2 ^ 16, c.2)) ++ (page q).map (fun c => (p + c.1 % 2 ^ 16, c.2)) ↔
      ∃ c ∈ m, (c.1 / 2 ^ 16 = q / 2 ^ 16 ∧ w = (p + c.1 % 2 ^ 16, c.2)) ∨ c.1 / 2 ^ 16 = p / 2 ^ 16 ∧ w = (q + c.1 % 2 ^ 16, c.2) := by
    simp only [page, List.mem_append, List.mem_map, List.mem_filter, beq_iff_eq]
    constructor
    · rintro (⟨c, ⟨hc, e⟩, rfl⟩ | ⟨c, ⟨hc, e⟩, rfl⟩)
      · exact ⟨c, hc, .inr ⟨e, rfl⟩⟩
      · exact ⟨c, hc, .inl ⟨e, rfl⟩⟩
    · rintro ⟨c, hc, ⟨e, rfl⟩ | ⟨e, rfl⟩⟩
      · exact .inr ⟨c, ⟨hc, e⟩, rfl⟩
      · exact .inl ⟨c, ⟨hc, e⟩, rfl⟩
  have hcleared {x : Nat × Byte} (hx : x ∈ cleared) : x.1 / 2 ^ 16 ≠ p / 2 ^ 16 ∧ x.1 / 2 ^ 16 ≠ q / 2 ^ 16 := by
    have h := (List.mem_filter.mp hx).2
    simpa only [Bool.and_eq_true, decide_eq_true_eq] using h
  split
  next ha => exact tget_moved hm hp hq hne ha hws (fun x hx e => (hcleared hx).1 (e ▸ ha))
  next hap =>
    split
    next ha => exact tget_moved hm hq hp hne.symm ha (fun w => (hws w).trans (exists_congr fun c => and_congr_right fun _ => or_comm)) (fun x hx e => (hcleared hx).2 (e ▸ ha))
    next haq =>
      rw [tget_tsetAll_ne, tget_filter]
      · rintro x - rfl
        simpa only [Bool.and_eq_true, decide_eq_true_eq] using ⟨hap, haq⟩
      · intro w hw e
        obtain ⟨c, -, ⟨-, rfl⟩ | ⟨-, rfl⟩⟩ := (hws w).mp hw <;> dsimp only at e <;> omega

/-! #### A number written to memory -/

theorem bytesAt_succ (va x n : Nat) : bytesAt va x (n + 1) = (va, BitVec.ofNat 8 (x % 256)) :: bytesAt (va + 1) (x / 256) n := by
  unfold bytesAt
  rw [toBytes, List.zipIdx_cons', List.map_cons, List.map_map]
  congr 1
  refine List.map_congr_left fun b _ => ?_
  show (va + (b.2 + 1), b.1) = (va + 1 + b.2, b.1)
  rw [Nat.add_right_comm]
  rfl

theorem key_of_mem_bytesAt {va x n : Nat} {w : Nat × Byte} (h : w ∈ bytesAt va x n) : va ≤ w.1 ∧ w.1 < va + n := by
  induction n generalizing va x with
  | zero => cases h
  | succ n ih =>
    rw [bytesAt_succ] at h
    rcases List.mem_cons.mp h with rfl | h
    · exact ⟨le_rfl, by dsimp only; omega⟩
    · have := ih h
      omega

/-- Bytes read as a number (00 R6). -/
theorem State.memNum_congr {s t : State} {ma n : Nat} (h : ∀ a, ma ≤ a → a < ma + n → t.memByte a = s.memByte a) : t.memNum ma n = s.memNum ma n := by
  induction n generalizing ma with
  | zero => rfl
  | succ n ih =>
    rw [State.memNum, State.memNum, h ma le_rfl (by omega), ih fun a h1 h2 => h a (by omega) (by omega)]

theorem State.memNum_bytesAt {s : State} {ma x n : Nat} {m : Table Byte} (h : s.mem = tsetAll 0 (bytesAt ma x n) m) : s.memNum ma n = x % 256 ^ n := by
  induction n generalizing ma x m with
  | zero => simp [State.memNum, Nat.mod_one]
  | succ n ih =>
    rw [bytesAt_succ] at h
    have hb : s.memByte ma = BitVec.ofNat 8 (x % 256) := by
      unfold State.memByte
      rw [h]
      refine (tget_tsetAll_ne 0 (bytesAt (ma + 1) (x / 256) n) ma (fun w hw e => ?_) _).trans (tget_tset_self ..)
      have := key_of_mem_bytesAt hw
      omega
    have hn : s.memNum (ma + 1) n = x / 256 % 256 ^ n := ih h
    rw [State.memNum, hb, hn, Nat.pow_succ', Nat.mod_mul, BitVec.toNat_ofNat]
    omega

/-! #### The choice of a pair of pages (03 R48) -/

section
variable {α : Type} {key : α → Nat} {pinned : α → Bool} {l : List α} {x : α}

theorem foldl_least (key : α → Nat) (x : α) (l : List α) :
    l.foldl (fun m y => if key y < key m then y else m) x ∈ x :: l ∧ ∀ y ∈ x :: l, key (l.foldl (fun m y => if key y < key m then y else m) x) ≤ key y := by
  induction l generalizing x with
  | nil => exact ⟨List.mem_cons_self, fun y hy => by rw [List.mem_singleton.mp hy]; rfl⟩
  | cons z l ih =>
    obtain ⟨hm, hle⟩ := ih (if key z < key x then z else x)
    rw [List.foldl_cons]
    refine ⟨?_, fun y hy => ?_⟩
    · rcases List.mem_cons.mp hm with e | hm
      · rw [e]; split <;> simp
      · exact List.mem_cons_of_mem _ (List.mem_cons_of_mem _ hm)
    · have hif : key (if key z < key x then z else x) ≤ key x ∧ key (if key z < key x then z else x) ≤ key z := by split <;> omega
      have hhead := hle _ List.mem_cons_self
      rcases List.mem_cons.mp hy with rfl | hy
      · exact hhead.trans hif.1
      · rcases List.mem_cons.mp hy with rfl | hy
        · exact hhead.trans hif.2
        · exact hle y (List.mem_cons_of_mem _ hy)

theorem passOver_eq_none : (passOver key pinned l).1 = none ↔ ∀ x ∈ l, pinned x = true := by
  have h : (passOver key pinned l).1 = none ↔ l.filter (fun x => !pinned x) = [] := by
    unfold passOver
    cases l.filter (fun x => !pinned x) <;> simp [passOver.leastBy']
  rw [h, List.filter_eq_nil_iff]
  simp

theorem passOver_eq_some (h : (passOver key pinned l).1 = some x) : (x ∈ l ∧ pinned x = false) ∧ ∀ y ∈ l, pinned y = false → key x ≤ key y := by
  have hmem {y : α} : y ∈ l.filter (fun x => !pinned x) ↔ y ∈ l ∧ pinned y = false := by rw [List.mem_filter, Bool.not_eq_true']
  suffices hs : x ∈ l.filter (fun x => !pinned x) ∧ ∀ y ∈ l.filter (fun x => !pinned x), key x ≤ key y from
    ⟨hmem.mp hs.1, fun y hy hp => hs.2 y (hmem.mpr ⟨hy, hp⟩)⟩
  unfold passOver at h
  cases hl : l.filter (fun x => !pinned x) with
  | nil => rw [hl] at h; cases h
  | cons z r =>
    rw [hl] at h
    obtain rfl := Option.some.inj h
    exact foldl_least key z r

end

theorem State.mapPage_page {s : State} {part page : Nat} {m : MapPage} (h : s.mapPage part page = some m) : m.page = page := by
  unfold State.mapPage at h
  split at h
  · cases h
  · split at h
    · split at h
      · cases h; rfl
      · cases h
    · cases h

/-- A page of the slow table that is to move: its count reaches the threshold, LPDDR6 holds it, and it is not pinned. -/
def State.hot (s : State) (die : Nat) (x : (Nat × Nat) × Nat) : Prop :=
  x ∈ (s.die die).hptSlow ∧ (s.die die).hptThr ≤ x.2 ∧ ∃ m, s.mapPage x.1.1 x.1.2 = some m ∧ (placeOf m.machine).2 = true ∧ isPinned m.leaf = false

/-- A page of a partition that HBM4E holds and that is not pinned. -/
def State.cold (s : State) (part page : Nat) : Prop := ∃ k ∈ s.mappedPages part, k.page = page ∧ (placeOf k.machine).2 = false ∧ isPinned k.leaf = false

/-- The pages that the choice of a hot page looks at, with their partitions and counts. -/
def State.hotList (s : State) (die : Nat) : List (Nat × MapPage × Nat) :=
  ((s.die die).hptSlow.filter (fun x => decide ((s.die die).hptThr ≤ x.2))).filterMap (fun x => match s.mapPage x.1.1 x.1.2 with
    | some m => if (placeOf m.machine).2 then some (x.1.1, m, x.2) else none
    | none => none)

def hotKey (x : Nat × MapPage × Nat) : Nat := (2 ^ 64 - x.2.2 % 2 ^ 64) * 2 ^ 64 + x.2.1.page * 2 ^ 8 + x.1

theorem State.hotPage_fst (s : State) (die : Nat) : (s.hotPage die).1 = (passOver hotKey (fun x => isPinned x.2.1.leaf) (s.hotList die)).1.map (fun x => (x.1, x.2.1)) := rfl

theorem State.mem_hotList {s : State} {die : Nat} {y : Nat × MapPage × Nat} : y ∈ s.hotList die ↔
    ((y.1, y.2.1.page), y.2.2) ∈ (s.die die).hptSlow ∧ (s.die die).hptThr ≤ y.2.2 ∧ s.mapPage y.1 y.2.1.page = some y.2.1 ∧ (placeOf y.2.1.machine).2 = true := by
  unfold State.hotList
  simp only [List.mem_filterMap, List.mem_filter, decide_eq_true_eq]
  constructor
  · rintro ⟨x, ⟨hx, ht⟩, h⟩
    cases hm : s.mapPage x.1.1 x.1.2 with
    | none => rw [hm] at h; cases h
    | some m =>
      simp only [hm] at h
      split at h
      next hp =>
        obtain rfl := Option.some.inj h
        have e := State.mapPage_page hm
        simp only [e]
        exact ⟨hx, ht, hm, hp⟩
      · cases h
  · rintro ⟨hx, ht, hm, hp⟩
    exact ⟨_, ⟨hx, ht⟩, by simp only [hm, hp, if_true]⟩

theorem State.hot_of_hotList {s : State} {die : Nat} {y : Nat × MapPage × Nat} (h : y ∈ s.hotList die) (hp : isPinned y.2.1.leaf = false) : s.hot die ((y.1, y.2.1.page), y.2.2) := by
  obtain ⟨hx, ht, hm, hpl⟩ := State.mem_hotList.mp h
  exact ⟨hx, ht, _, hm, hpl, hp⟩

theorem State.hotList_of_hot {s : State} {die : Nat} {z : (Nat × Nat) × Nat} (h : s.hot die z) : ∃ m, (z.1.1, m, z.2) ∈ s.hotList die ∧ m.page = z.1.2 ∧ isPinned m.leaf = false := by
  obtain ⟨hx, ht, m, hm, hpl, hp⟩ := h
  have e := State.mapPage_page hm
  exact ⟨m, State.mem_hotList.mpr ⟨by rw [e]; exact hx, ht, by rw [e]; exact hm, hpl⟩, e, hp⟩

theorem State.hotPage_eq_none {s : State} {die : Nat} : (s.hotPage die).1 = none ↔ ∀ x, ¬ s.hot die x := by
  rw [State.hotPage_fst, Option.map_eq_none_iff, passOver_eq_none]
  constructor
  · intro h x hx
    obtain ⟨m, hm, -, hp⟩ := State.hotList_of_hot hx
    have hq := h (x.1.1, m, x.2) hm
    rw [hp] at hq
    cases hq
  · intro h y hy
    by_contra hp
    exact h _ (State.hot_of_hotList hy (Bool.eq_false_iff.mpr hp))

/-- Counts, partitions and pages that fit the fields of the key of R48's order. -/
def slowFits (l : List ((Nat × Nat) × Nat)) : Prop := ∀ x ∈ l, x.2 < 2 ^ 64 ∧ x.1.1 < 2 ^ 8 ∧ x.1.2 < 2 ^ 40

theorem State.hotPage_eq_some {s : State} {die part : Nat} {m : MapPage} (hf : slowFits (s.die die).hptSlow) (h : (s.hotPage die).1 = some (part, m)) :
    ∃ n, s.hot die ((part, m.page), n) ∧ ∀ z, s.hot die z → z.2 ≤ n ∧ (z.2 = n → m.page ≤ z.1.2) := by
  rw [State.hotPage_fst] at h
  obtain ⟨y, hy, e⟩ := Option.map_eq_some_iff.mp h
  cases e
  obtain ⟨⟨hl, hp⟩, hmin⟩ := passOver_eq_some hy
  have hhot := State.hot_of_hotList hl hp
  refine ⟨y.2.2, hhot, fun z hz => ?_⟩
  obtain ⟨k, hk, ek, hkp⟩ := State.hotList_of_hot hz
  have hle := hmin _ hk hkp
  obtain ⟨hy1, hy2, hy3⟩ := hf _ hhot.1
  obtain ⟨hz1, hz2, hz3⟩ := hf _ hz.1
  unfold hotKey at hle
  dsimp only at hle hy1 hy2 hy3
  rw [ek, Nat.mod_eq_of_lt hy1, Nat.mod_eq_of_lt hz1] at hle
  omega

theorem State.lt_of_mem_subTables {s : State} {level ma n : Nat} {x : Nat × Nat} (h : x ∈ s.subTables level ma n) : x.1 < n := by
  unfold State.subTables at h
  split at h
  · cases h
  · obtain ⟨k, hk, e⟩ := List.mem_filterMap.mp h
    dsimp only at e
    split at e
    · obtain rfl := Option.some.inj e
      exact List.mem_range.mp hk
    · cases e

theorem State.page_lt_of_mappedPages {s : State} {part : Nat} {k : MapPage} (h : k ∈ s.mappedPages part) : k.page < 2 ^ 40 := by
  unfold State.mappedPages at h
  obtain ⟨r, hr, h⟩ := List.mem_flatMap.mp h
  obtain ⟨m, hm, h⟩ := List.mem_flatMap.mp h
  have hr := State.lt_of_mem_subTables hr
  have hm := State.lt_of_mem_subTables hm
  split at h
  · cases h
  · obtain ⟨j, hj, e⟩ := List.mem_filterMap.mp h
    have hj := List.mem_range.mp hj
    dsimp only at e
    split at e
    · obtain rfl := Option.some.inj e
      dsimp only
      omega
    · cases e

theorem State.partner_eq_none {s : State} {die part : Nat} : (s.partner die part).1 = none ↔ ∀ y, ¬ s.cold part y := by
  have hmem (k : MapPage) : k ∈ (s.mappedPages part).filter (fun m => !(placeOf m.machine).2) ↔ k ∈ s.mappedPages part ∧ (placeOf k.machine).2 = false := by
    rw [List.mem_filter, Bool.not_eq_true']
  unfold State.partner
  rw [passOver_eq_none]
  constructor
  · rintro h y ⟨k, hk, -, hpl, hp⟩
    have hq := h k ((hmem k).mpr ⟨hk, hpl⟩)
    rw [hp] at hq
    cases hq
  · intro h k hk
    by_contra hp
    obtain ⟨hk, hpl⟩ := (hmem k).mp hk
    exact h _ ⟨k, hk, rfl, hpl, Bool.eq_false_iff.mpr hp⟩

theorem scanPlace_lt {last : Option (Nat × Nat)} {page : Nat} (h : page < 2 ^ 40) : scanPlace last page < 2 ^ 64 := by
  unfold scanPlace
  repeat' split
  all_goals omega

theorem State.partner_eq_some {s : State} {die part : Nat} {k : MapPage} (h : (s.partner die part).1 = some k) :
    s.cold part k.page ∧ ∀ z, s.cold part z → pageCount (s.die die).hptFast (part, k.page) ≤ pageCount (s.die die).hptFast (part, z) := by
  unfold State.partner at h
  obtain ⟨⟨hk, hp⟩, hmin⟩ := passOver_eq_some h
  obtain ⟨hk, hpl⟩ := List.mem_filter.mp hk
  rw [Bool.not_eq_true'] at hpl
  refine ⟨⟨k, hk, rfl, hpl, hp⟩, ?_⟩
  rintro z ⟨j, hj, rfl, hjl, hjp⟩
  have hle := hmin j (List.mem_filter.mpr ⟨hj, by rw [hjl]; rfl⟩) hjp
  have hk := scanPlace_lt (last := (s.die die).hptLast) (State.page_lt_of_mappedPages hk)
  have hj := scanPlace_lt (last := (s.die die).hptLast) (State.page_lt_of_mappedPages hj)
  omega

/-! #### The next swap, or the end of the epoch -/

/-- A tracker after the end of an epoch without a further swap: every count is halved. -/
structure Die.Ended (d e : Die) : Prop where
  swaps : e.swaps = d.swaps
  slow : e.hptSlow = d.hptSlow.map (fun x => (x.1, x.2 / 2))
  fast : e.hptFast = d.hptFast.map (fun x => (x.1, x.2 / 2))
  made : e.hptMade = 0
  since : e.hptSince = d.hptSince

/-- A tracker that has started a swap of two pages of a partition. -/
structure Die.Paired (d e : Die) (part p q : Nat) : Prop where
  swaps : e.swaps = [(part, p, q)]
  last : e.hptLast = some (part, q)
  made : e.hptMade = d.hptMade + 1
  since : e.hptSince = d.hptSince
  slow : e.hptSlow = d.hptSlow

section
variable {s : State} {die : Nat}

theorem State.trackNext_ended (h : nbits (s.die die).hptCtl 8 8 ≤ (s.die die).hptMade ∨ (s.hotPage die).1 = none) : (s.die die).Ended ((s.trackNext die).die die) := by
  unfold State.trackNext
  dsimp only
  split
  · rw [State.die_modDie_self]
    exact ⟨rfl, rfl, rfl, rfl, rfl⟩
  next hm =>
    rw [h.resolve_left hm]
    dsimp only
    rw [State.die_modDie_self, State.die_modDie_self]
    exact ⟨rfl, rfl, rfl, rfl, rfl⟩

theorem State.trackNext_paired {part : Nat} {m k : MapPage} (hmade : (s.die die).hptMade < nbits (s.die die).hptCtl 8 8) (hm : (s.hotPage die).1 = some (part, m)) (hk : (s.partner die part).1 = some k) :
    (s.die die).Paired ((s.trackNext die).die die) part m.page k.page := by
  unfold State.trackNext
  dsimp only
  rw [if_neg (Nat.not_le.mpr hmade), hm]
  dsimp only
  rw [hk]
  dsimp only
  rw [State.die_modDie_self, State.die_modDie_self]
  exact ⟨rfl, rfl, rfl, rfl, rfl⟩

/-- Nothing but the tracker's tables changes. -/
theorem State.trackNext_rest (s : State) (die : Nat) : (s.trackNext die).slices = s.slices ∧ (s.trackNext die).groups = s.groups ∧ ((s.trackNext die).die die).hptSwaps = (s.die die).hptSwaps := by
  unfold State.trackNext
  dsimp only
  repeat' split
  all_goals exact ⟨rfl, rfl, by simp only [State.die_modDie_self]⟩

theorem State.hot_modDie {f : Die → Die} (h : ∀ d, (f d).hptSlow = d.hptSlow ∧ (f d).hptThr = d.hptThr) (x : (Nat × Nat) × Nat) : (s.modDie die f).hot die x ↔ s.hot die x := by
  obtain ⟨hs, ht⟩ := h (s.die die)
  unfold State.hot
  rw [State.die_modDie_self, hs, ht]
  rfl

/-- The state in which an epoch of a tracker ends. -/
def State.epochEnd (s : State) (die : Nat) : State := s.modDie die (fun d => { d with hptSince := s.devTime, hptMade := 0 })

theorem State.hot_epochEnd (x : (Nat × Nat) × Nat) : (s.epochEnd die).hot die x ↔ s.hot die x := State.hot_modDie (f := fun d => { d with hptSince := s.devTime, hptMade := 0 }) (fun _ => ⟨rfl, rfl⟩) x

theorem State.die_epochEnd : (s.epochEnd die).die die = { s.die die with hptSince := s.devTime, hptMade := 0 } := State.die_modDie_self ..

theorem exec_hptEpochEnd_due (h : (s.die die).hptCtl.testBit 0 = true ∧ (s.die die).swaps = [] ∧ (s.die die).hptSince + 1000 * (s.die die).hptEpoch ≤ s.devTime) :
    exec (.hptEpochEnd die) s = .next ((s.epochEnd die).trackNext die) := by
  obtain ⟨hen, hsw, ht⟩ := h
  rw [exec_hptEpochEnd, execHptEpochEnd, if_neg]
  · rfl
  · simp [hen, hsw, ht]

theorem exec_hptEpochEnd_early (h : ¬ ((s.die die).hptCtl.testBit 0 = true ∧ (s.die die).swaps = [] ∧ (s.die die).hptSince + 1000 * (s.die die).hptEpoch ≤ s.devTime)) :
    exec (.hptEpochEnd die) s = .next s := by
  rw [exec_hptEpochEnd, execHptEpochEnd, if_pos]
  by_contra hn
  apply h
  simp only [Bool.or_eq_true, Bool.not_eq_true', decide_eq_true_eq, not_or, Bool.not_eq_false, not_not, Nat.not_lt] at hn
  exact ⟨hn.1.1, hn.1.2, hn.2⟩

/-- An epoch that finds a hot page, and a partner of each, starts a swap. -/
theorem State.epoch_pairs (hmost : 0 < nbits (s.die die).hptCtl 8 8) (hhot : ∃ x, s.hot die x) (hcold : ∀ x, s.hot die x → ∃ y, s.cold x.1.1 y) (hf : slowFits (s.die die).hptSlow) :
    ∃ x y, s.hot die x ∧ (∀ z, s.hot die z → z.2 ≤ x.2 ∧ (z.2 = x.2 → x.1.2 ≤ z.1.2)) ∧ s.cold x.1.1 y ∧
      (∀ z, s.cold x.1.1 z → pageCount (s.die die).hptFast (x.1.1, y) ≤ pageCount (s.die die).hptFast (x.1.1, z)) ∧
      ({ s.die die with hptSince := s.devTime, hptMade := 0 } : Die).Paired (((s.epochEnd die).trackNext die).die die) x.1.1 x.1.2 y := by
  obtain ⟨x0, hx0⟩ := hhot
  obtain ⟨⟨part, m⟩, hm⟩ : ∃ p, ((s.epochEnd die).hotPage die).1 = some p :=
    Option.ne_none_iff_exists'.mp fun e => State.hotPage_eq_none.mp e x0 (State.hot_epochEnd x0 |>.mpr hx0)
  have hf' : slowFits ((s.epochEnd die).die die).hptSlow := by rw [State.die_epochEnd]; exact hf
  obtain ⟨n, hn, hmax⟩ := State.hotPage_eq_some hf' hm
  have hn := (State.hot_epochEnd _).mp hn
  obtain ⟨k, hk⟩ : ∃ k, ((s.epochEnd die).partner die part).1 = some k :=
    Option.ne_none_iff_exists'.mp fun e => by
      obtain ⟨y, hy⟩ := hcold _ hn
      exact State.partner_eq_none.mp e y hy
  obtain ⟨hkc, hkmin⟩ := State.partner_eq_some hk
  have hpair := State.trackNext_paired (s := s.epochEnd die) (by rw [State.die_epochEnd]; exact hmost) hm hk
  rw [State.die_epochEnd] at hpair hkmin
  exact ⟨((part, m.page), n), k.page, hn, fun z hz => hmax z ((State.hot_epochEnd z).mpr hz), hkc, hkmin, hpair⟩

end

/-! #### The swap (03 R49) -/

section
variable {s : State}

theorem foldl_dropLine_none (p : Nat → L2Line → Bool) {l : List (Nat × Slice)} (h : ∀ z ∈ l, ∀ x ∈ z.2.lines, p z.1 x.2 = false) (t : State) :
    l.foldl (fun (s : State) x => (x.2.lines.filter (fun l => p x.1 l.2)).foldl (fun (s : State) l => s.dropLine x.1 l.2) s) t = t := by
  induction l with
  | nil => rfl
  | cons z l ih =>
    have hz : z.2.lines.filter (fun x => p z.1 x.2) = [] := List.filter_eq_nil_iff.mpr fun x hx => by rw [h z List.mem_cons_self x hx]; exact Bool.false_ne_true
    rw [List.foldl_cons, hz]
    exact ih fun y hy => h y (List.mem_cons_of_mem _ hy)

theorem State.dropLines_none {p : Nat → L2Line → Bool} (h : ∀ z ∈ s.slices, ∀ x ∈ z.2.lines, p z.1 x.2 = false) : s.dropLines p = s := foldl_dropLine_none p h s

/-- Memory after the exchange of two pages and of the addresses in their leaves, which lie elsewhere. -/
def exchanged (a b : MapPage) (m : Table Byte) : Table Byte :=
  tsetAll 0 (bytesAt b.leafAt (retargetLeaf b.leaf a.machine) 8) (tsetAll 0 (bytesAt a.leafAt (retargetLeaf a.leaf b.machine) 8) (swapMem a.machine b.machine m))

/-- What is asked of two pages that are to be exchanged: they are different pages, and so are the places of their leaves, in neither of them. -/
structure Apart (a b : MapPage) : Prop where
  alignedA : a.machine % 2 ^ 16 = 0
  alignedB : b.machine % 2 ^ 16 = 0
  pages : a.machine ≠ b.machine
  leaves : a.leafAt ≠ b.leafAt
  leafA : a.leafAt % 8 = 0
  leafB : b.leafAt % 8 = 0
  outside : ∀ z, z = a.leafAt ∨ z = b.leafAt → z / 2 ^ 16 ≠ a.machine / 2 ^ 16 ∧ z / 2 ^ 16 ≠ b.machine / 2 ^ 16

/-- Away from the leaves memory holds what the exchange of the pages leaves. -/
theorem tget_exchanged {a b : MapPage} {m : Table Byte} {z : Nat} (ha : z / 8 ≠ a.leafAt / 8) (hb : z / 8 ≠ b.leafAt / 8) (h : Apart a b) :
    tget 0 z (exchanged a b m) = tget 0 z (swapMem a.machine b.machine m) := by
  have hA := h.leafA
  have hB := h.leafB
  refine (tget_tsetAll_ne 0 _ z (fun w hw e => ?_) _).trans (tget_tsetAll_ne 0 _ z (fun w hw e => ?_) _)
  all_goals
    have := key_of_mem_bytesAt hw
    omega

section
variable {t : State} {a b : MapPage} (ht : t.mem = exchanged a b s.mem) (h : Apart a b)
include ht h

theorem State.memByte_exchanged (hs : s.Inv) {o : Nat} (ho : o < 2 ^ 16) : t.memByte (a.machine + o) = s.memByte (b.machine + o) ∧ t.memByte (b.machine + o) = s.memByte (a.machine + o) := by
  have hA := h.alignedA
  have hB := h.alignedB
  have hne := h.pages
  obtain ⟨ha1, ha2⟩ := h.outside _ (.inl rfl)
  obtain ⟨hb1, hb2⟩ := h.outside _ (.inr rfl)
  have hm : Memory.wf s.mem = true := hs
  unfold State.memByte
  rw [ht, tget_exchanged (by omega) (by omega) h, tget_exchanged (by omega) (by omega) h, tget_swapMem hm hA hB hne, tget_swapMem hm hA hB hne]
  rw [if_pos (by omega), if_neg (by omega), if_pos (by omega)]
  exact ⟨congrArg (tget 0 · s.mem) (by omega), congrArg (tget 0 · s.mem) (by omega)⟩

theorem State.memByte_exchanged_ne (hs : s.Inv) {z : Nat} (hpa : z / 2 ^ 16 ≠ a.machine / 2 ^ 16) (hpb : z / 2 ^ 16 ≠ b.machine / 2 ^ 16) (ha : z / 8 ≠ a.leafAt / 8) (hb : z / 8 ≠ b.leafAt / 8) :
    t.memByte z = s.memByte z := by
  unfold State.memByte
  rw [ht, tget_exchanged ha hb h, tget_swapMem hs h.alignedA h.alignedB h.pages, if_neg hpa, if_neg hpb]

theorem State.memNum_exchanged : t.memNum a.leafAt 8 = retargetLeaf a.leaf b.machine % 2 ^ 64 ∧ t.memNum b.leafAt 8 = retargetLeaf b.leaf a.machine % 2 ^ 64 := by
  have hA := h.leafA
  have hB := h.leafB
  have hne := h.leaves
  refine ⟨?_, State.memNum_bytesAt ht⟩
  have hfirst : ∀ z, a.leafAt ≤ z → z < a.leafAt + 8 → t.memByte z = ({ s with mem := tsetAll 0 (bytesAt a.leafAt (retargetLeaf a.leaf b.machine) 8) (swapMem a.machine b.machine s.mem) } : State).memByte z := by
    intro z h1 h2
    unfold State.memByte
    rw [ht]
    refine tget_tsetAll_ne 0 _ z (fun w hw e => ?_) _
    have := key_of_mem_bytesAt hw
    omega
  rw [State.memNum_congr hfirst]
  exact State.memNum_bytesAt rfl

end

/-- A swap of two pages that no slice has a line of. -/
theorem State.swapPair_apart {part p q : Nat} {a b : MapPage} (ha : s.mapPage part p = some a) (hb : s.mapPage part q = some b) (h : Apart a b)
    (hl : ∀ z ∈ s.slices, ∀ l ∈ z.2.lines, l.2.part = part → l.2.machine / 2 ^ 16 ≠ a.machine / 2 ^ 16 ∧ l.2.machine / 2 ^ 16 ≠ b.machine / 2 ^ 16) :
    ∃ w, s.swapPair part p q = ({ s with mem := exchanged a b s.mem } : State).dropCached (fun t => t.part == part && (t.ppage == p || t.ppage == q) && t.bits == 16) w := by
  obtain ⟨ha1, ha2⟩ := h.outside _ (.inl rfl)
  obtain ⟨hb1, hb2⟩ := h.outside _ (.inr rfl)
  unfold State.swapPair
  rw [ha, hb]
  dsimp only
  rw [State.dropLines_none, if_neg ha1, if_neg ha2, if_neg hb1, if_neg hb2]
  · exact ⟨_, rfl⟩
  · intro z hz l hlz
    by_cases hp : l.2.part = part
    · obtain ⟨h1, h2⟩ := hl z hz l hlz hp
      rw [hp, beq_self_eq_true, Bool.true_and, beq_false_of_ne h1, beq_false_of_ne h2, Bool.or_self]
    · simp [hp]

end

/-- Counting an event of a die changes its counters only. -/
theorem State.countDie_rest (s : State) (d ctx src n die : Nat) : (s.countDie d ctx src n).mem = s.mem ∧ (s.countDie d ctx src n).slices = s.slices ∧ (s.countDie d ctx src n).groups = s.groups ∧
    ((s.countDie d ctx src n).die die).hptSwaps = (s.die die).hptSwaps := by
  unfold State.countDie
  split
  · split
    · exact ⟨rfl, rfl, rfl, rfl⟩
    · refine ⟨rfl, rfl, rfl, ?_⟩
      by_cases hd : die = d
      · subst hd; rw [State.die_modDie_self]
      · rw [State.die_modDie_ne _ _ _ _ hd]
  · exact ⟨rfl, rfl, rfl, rfl⟩

/-- The contexts of a partition count a swap. -/
theorem State.countSwap_rest (cs : List (Nat × Context)) (part die : Nat) (s : State) :
    let t := cs.foldl (fun (s : State) c => if c.2.part = part then s.countDie die c.1 0x120 1 else s) s
    t.mem = s.mem ∧ t.slices = s.slices ∧ t.groups = s.groups ∧ (t.die die).hptSwaps = (s.die die).hptSwaps := by
  induction cs generalizing s with
  | nil => exact ⟨rfl, rfl, rfl, rfl⟩
  | cons c cs ih =>
    rw [List.foldl_cons]
    split
    · obtain ⟨h1, h2, h3, h4⟩ := ih (s.countDie die c.1 0x120 1)
      obtain ⟨k1, k2, k3, k4⟩ := s.countDie_rest die c.1 0x120 1 die
      exact ⟨h1.trans k1, h2.trans k2, h3.trans k3, h4.trans k4⟩
    · exact ih s

/-- A swap done leaves memory, slices and groups as the exchange does, and counts. -/
theorem exec_hptSwapDone_of_swaps {s : State} {die part p q : Nat} {rest : List (Nat × Nat × Nat)} (h : (s.die die).swaps = (part, p, q) :: rest) :
    ∃ t, exec (.hptSwapDone die) s = .next t ∧ t.mem = (s.swapPair part p q).mem ∧ t.slices = (s.swapPair part p q).slices ∧ t.groups = (s.swapPair part p q).groups ∧
      (t.die die).hptSwaps = (((s.swapPair part p q).die die).hptSwaps + 1) % 2 ^ 64 := by
  rw [exec_hptSwapDone, execHptSwapDone, h]
  dsimp only
  refine ⟨_, rfl, ?_⟩
  obtain ⟨h1, h2, h3⟩ := State.trackNext_rest _ _
  obtain ⟨k1, k2, k3, k4⟩ := State.countSwap_rest _ part die ((s.swapPair part p q).modDie die (fun d => { d with swaps := rest, hptSwaps := (d.hptSwaps + 1) % 2 ^ 64 }))
  refine ⟨(State.trackNext_mem ..).trans k1, h1.trans k2, h2.trans k3, (h3.trans k4).trans ?_⟩
  rw [State.die_modDie_self]

/-! #### The write of hpt.ctl (03 R50) -/

theorem testBit_ctl (v a b : Nat) : (v % 2 + a * 2 + b * 256).testBit 0 = decide (v % 2 = 1) := by
  rw [Nat.testBit_zero]
  congr 1
  rw [eq_iff_iff]
  omega

theorem Die.writeHpt_eq (d : Die) (v now : Nat) : d.writeHpt v now =
    if v % 2 = 1 then { d with hptCtl := 1 + min 8 (v / 2 % 16) * 2 + v / 256 % 256 * 256, hptSince := if d.hptCtl.testBit 0 then d.hptSince else now, hptMade := if d.hptCtl.testBit 0 then d.hptMade else 0 }
    else { d with hptCtl := min 8 (v / 2 % 16) * 2 + v / 256 % 256 * 256, hptSlow := [], hptFast := [], samplesFast := 0, samplesSlow := 0 } := by
  have hv : nbits v 0 1 + min 8 (nbits v 1 4) * 2 + nbits v 8 8 * 256 = v % 2 + min 8 (v / 2 % 16) * 2 + v / 256 % 256 * 256 := by
    rw [nbits_eq, nbits_eq, nbits_eq, Nat.pow_zero, Nat.div_one]
    rfl
  unfold Die.writeHpt
  dsimp only
  rw [hv]
  by_cases h : v % 2 = 1
  · rw [if_pos (by rw [testBit_ctl]; exact decide_eq_true h), if_pos h, h]
  · rw [if_neg (by rw [testBit_ctl]; exact fun e => h (of_decide_eq_true e)), if_neg h, show v % 2 = 0 by omega, Nat.zero_add]

theorem exec_hptCtlWrite_may {w : Writer} {s : State} {die : Nat} (value : BitVec 32) (h : w.level = 0 ∧ s.writerHolds w 14 = true ∧ die < 24) :
    exec (.hptCtlWrite w die value) s = .next (s.modDie die (fun d => d.writeHpt value.toNat s.devTime)) := by
  obtain ⟨hl, hw, hd⟩ := h
  rw [exec_hptCtlWrite, execHptCtlWrite, State.writeHpt, if_pos]
  simp [hl, hw, hd]

theorem exec_hptCtlWrite_mayNot {w : Writer} {s : State} {die : Nat} (value : BitVec 32) (h : ¬ (w.level = 0 ∧ s.writerHolds w 14 = true ∧ die < 24)) :
    exec (.hptCtlWrite w die value) s = .next s := by
  rw [exec_hptCtlWrite, execHptCtlWrite, State.writeHpt, if_neg]
  intro hn
  simp only [Bool.and_eq_true, decide_eq_true_eq, beq_iff_eq] at hn
  exact h ⟨hn.1.2, hn.2, hn.1.1⟩

/-- Settles O45: the page chosen is the least of the order of R48 among the pages that are not pinned; the exchange of two pages that no
slice holds is one of their bytes and of the addresses in their leaves. -/
theorem pageTracker : Obligations.PageTracker := by
  unfold Obligations.PageTracker
  intro s die part p q w value d most due hot cold count halved v may
  refine ⟨fun hdue hmost hhot hcold hf => ?_, fun hdue hnone => ?_, exec_hptEpochEnd_early, fun rest a b hs hsw ha hb hA hB hne hleaves hleafA hleafB hlines hout => ?_, fun hsw => ?_, fun hmay hv => ?_,
    fun hmay hv => ?_, exec_hptCtlWrite_mayNot value⟩
  · obtain ⟨x, y, hx, hmax, hy, hmin, hpair⟩ := State.epoch_pairs hmost hhot hcold hf
    exact ⟨_, x, y, exec_hptEpochEnd_due hdue, hx, hmax, hy, hmin, hpair.swaps, hpair.last, hpair.made, hpair.since, hpair.slow, State.trackNext_mem ..⟩
  · have hend : (s.epochEnd die).die die = _ := State.die_epochEnd
    have hended := State.trackNext_ended (s := s.epochEnd die) (die := die) (by
      rw [hend]
      exact hnone.imp (fun h : nbits d.hptCtl 8 8 = 0 => h.le) (fun h => State.hotPage_eq_none.mpr fun x hx => h x ((State.hot_epochEnd x).mp hx)))
    rw [hend] at hended
    exact ⟨_, exec_hptEpochEnd_due hdue, hended.swaps.trans hdue.2.1, hended.slow, hended.fast, hended.made, hended.since, State.trackNext_mem ..⟩
  · have hap : Apart a b := ⟨hA, hB, hne, hleaves, hleafA, hleafB, hout⟩
    obtain ⟨walks, hpair⟩ := State.swapPair_apart ha hb hap hlines
    obtain ⟨t, he, hmem, hslices, hgroups, hcount⟩ := exec_hptSwapDone_of_swaps hsw
    rw [hpair] at hmem hslices hgroups hcount
    obtain ⟨hleafa, hleafb⟩ := State.memNum_exchanged hmem hap
    refine ⟨t, he, fun o ho => State.memByte_exchanged hmem hap hs ho, hleafa, hleafb, fun z hpa hpb hza hzb => State.memByte_exchanged_ne hmem hap hs hpa hpb hza hzb, fun z hz e hez hpart hbits => ?_, hcount, hgroups⟩
    rw [hslices] at hz
    obtain ⟨x, -, rfl⟩ := List.mem_map.mp hz
    obtain ⟨-, hkeep⟩ := List.mem_filter.mp hez
    simpa [hpart, hbits] using hkeep
  · rw [exec_hptSwapDone, execHptSwapDone, hsw]
  · refine ⟨_, exec_hptCtlWrite_may value hmay, ?_⟩
    rw [State.die_modDie_self, Die.writeHpt_eq, if_pos hv]
  · refine ⟨_, exec_hptCtlWrite_may value hmay, ?_⟩
    rw [State.die_modDie_self, Die.writeHpt_eq, if_neg (by omega)]
    exact ⟨rfl, rfl, rfl, rfl, rfl, rfl⟩

end Sys2Proof.Machine

end

-- ==== Prefetches and cache maintenance (O10) ====
section
/-! SUPPORT. What a prefetch sends and what CINV and CWB do to the lines of an L1; then O10. -/

namespace Sys2Proof.Machine

/-! #### What a request does to the lines and the requests of a core

`K` says of which lines the cores may lose or clean what they hold, and send requests; `n` is the request that moves. No core comes to
hold a line that it did not hold, and every other request stays, though it may no longer allocate its line. -/

/-- `n` moves, and of the lines in `K` there may be new requests and less in the cores. -/
structure State.Moves (K : Nat → Nat → Prop) (n : Nat) (s t : State) : Prop where
  ids : s.nextId ≤ t.nextId
  combine : ∀ c, (s.cluster c).combine = [] → (t.cluster c).combine = []
  lines : ∀ k j, tfind j (t.core k).l1 = tfind j (s.core k).l1 ∨ tfind j (s.core k).l1 ≠ none ∧ ∃ tenant line, K tenant line ∧ j = lineKey tenant line
  kept : ∀ m r, m ≠ n → m < s.nextId → tfind m s.reqs = some r → ∃ r', tfind m t.reqs = some r' ∧ r' = { r with noAlloc := r'.noAlloc }
  new : ∀ q ∈ t.reqs, K q.2.tenant q.2.line ∨ ∃ p ∈ s.reqs, p.2.tenant = q.2.tenant ∧ p.2.line = q.2.line

theorem tfind_map_value {β : Type} (f : Nat × β → β) (t : Table β) (m : Nat) : tfind m (t.map (fun x => (x.1, f x))) = (tfind m t).map (fun v => f (m, v)) := by
  induction t with
  | nil => rfl
  | cons x t ih =>
    rw [List.map_cons, tfind_cons, show tfind m (x :: t) = _ from tfind_cons m x.1 x.2 t]
    split
    next e => rw [e]; rfl
    · exact ih

namespace State.Moves
variable {K : Nat → Nat → Prop} {n : Nat}

theorem of_eq {s t : State} (hn : t.nextId = s.nextId) (hr : t.reqs = s.reqs) (hc : t.clusters = s.clusters) (hl : ∀ k, (t.core k).l1 = (s.core k).l1) : s.Moves K n t :=
  ⟨hn.ge, fun c h => by unfold State.cluster; rw [hc]; exact h, fun k j => .inl (by rw [hl]), fun m r _ _ h => ⟨r, hr ▸ h, rfl⟩, fun q hq => .inr ⟨q, hr ▸ hq, rfl, rfl⟩⟩

theorem refl (s : State) : s.Moves K n s := of_eq rfl rfl rfl fun _ => rfl

theorem trans {s t u : State} (h : s.Moves K n t) (k : t.Moves K n u) : s.Moves K n u := by
  refine ⟨h.ids.trans k.ids, fun c hc => k.combine c (h.combine c hc), fun c j => ?_, fun m r hm hs hf => ?_, fun q hq => ?_⟩
  · rcases h.lines c j with e | e
    · rw [← e]; exact k.lines c j
    · exact .inr e
  · obtain ⟨x, hx, e⟩ := h.kept m r hm hs hf
    obtain ⟨y, hy, e'⟩ := k.kept m x hm (hs.trans_le h.ids) hx
    exact ⟨y, hy, by rw [e', e]⟩
  · rcases k.new q hq with hk | ⟨p, hp, e1, e2⟩
    · exact .inl hk
    · rcases h.new p hp with hk | ⟨o, ho, e3, e4⟩
      · exact .inl (e1 ▸ e2 ▸ hk)
      · exact .inr ⟨o, ho, e3.trans e1, e4.trans e2⟩

/-- `trans` with the later step first, so that it names the state between. -/
theorem after {s t u : State} (k : t.Moves K n u) (h : s.Moves K n t) : s.Moves K n u := h.trans k

theorem ite {s t u : State} {p : Prop} {_ : Decidable p} (ht : s.Moves K n t) (hu : s.Moves K n u) : s.Moves K n (if p then t else u) := by split <;> assumption

theorem foldl {α : Type} {f : State → α → State} (h : ∀ (s : State) (a : α), s.Moves K n (f s a)) (l : List α) (s : State) : s.Moves K n (l.foldl f s) := by
  induction l generalizing s with
  | nil => exact refl s
  | cons a l ih => exact (h s a).trans (ih _)

/-- A request that is new when it moves leaves every other one in its place. -/
theorem of_fresh {s t : State} (h : s.Moves K s.nextId t) : s.Moves K n t :=
  ⟨h.ids, h.combine, h.lines, fun m r _ hm hr => h.kept m r hm.ne hm hr, h.new⟩

theorem of_beside {s t : State} (h : s.Beside t) : s.Moves K n t :=
  ⟨h.ids.ge, fun c hc => (h.combine c).trans hc, fun k j => .inl (by rw [h.l1]), fun m r _ _ hr => ⟨r, h.reqs ▸ hr, rfl⟩, fun q hq => .inr ⟨q, h.reqs ▸ hq, rfl, rfl⟩⟩

variable (s : State)

theorem putReq {r : Req} (hr : K r.tenant r.line) : s.Moves K n (s.putReq n r) := by
  refine ⟨le_rfl, fun _ h => h, fun _ _ => .inl rfl, fun m x hm _ hx => ⟨x, (tfind_tput_ne hm ..).trans hx, rfl⟩, fun q hq => ?_⟩
  rcases mem_tput hq with rfl | hq
  · exact .inl hr
  · exact .inr ⟨q, hq, rfl, rfl⟩

theorem delReq : s.Moves K n (s.delReq n) :=
  ⟨le_rfl, fun _ h => h, fun _ _ => .inl rfl, fun m x hm _ hx => ⟨x, (tfind_tdel_ne hm ..).trans hx, rfl⟩, fun q hq => .inr ⟨q, mem_of_mem_tdel hq, rfl, rfl⟩⟩

theorem addReq {r : Req} (hr : K r.tenant r.line) : s.Moves K n (s.addReq r).2 := by
  refine ⟨Nat.le_succ _, fun _ h => h, fun _ _ => .inl rfl, fun _ x _ hm hx => ⟨x, (tfind_tput_ne hm.ne ..).trans hx, rfl⟩, fun q hq => ?_⟩
  rcases mem_tput hq with rfl | hq
  · exact .inl hr
  · exact .inr ⟨q, hq, rfl, rfl⟩

theorem dropFills (core tenant : Nat) (p : Nat → Bool) : s.Moves K n (s.dropFills core tenant p) := by
  have hmap : (s.dropFills core tenant p).reqs = s.reqs.map (fun x => (x.1, if x.2.core = core ∧ x.2.tenant = tenant ∧ p x.2.line ∧ (x.2.kind = .load ∨ x.2.kind = .table ∨ x.2.kind = .prefetch ∨ (x.2.kind = .store ∧ x.2.stage = .reply)) then { x.2 with noAlloc := true } else x.2)) :=
    List.map_congr_left fun x _ => by dsimp only; split <;> rfl
  refine ⟨le_rfl, fun _ h => h, fun _ _ => .inl rfl, fun m x _ _ hx => ?_, fun q hq => ?_⟩
  · rw [hmap, tfind_map_value, hx]
    refine ⟨_, rfl, ?_⟩
    dsimp only
    split <;> rfl
  · rw [hmap] at hq
    obtain ⟨x, hx, rfl⟩ := List.mem_map.mp hq
    refine .inr ⟨x, hx, ?_⟩
    dsimp only
    split <;> exact ⟨rfl, rfl⟩

/-- A change of one line in a core that holds it. -/
theorem of_line {t : State} {core tenant line : Nat} (hk : K tenant line) (hn : t.nextId = s.nextId) (hr : t.reqs = s.reqs) (hc : t.clusters = s.clusters)
    (hl : ∀ k j, ¬ (k = core ∧ j = lineKey tenant line) → tfind j (t.core k).l1 = tfind j (s.core k).l1)
    (h : tfind (lineKey tenant line) (s.core core).l1 = none → tfind (lineKey tenant line) (t.core core).l1 = none) : s.Moves K n t := by
  refine ⟨hn.ge, fun c h => by unfold State.cluster; rw [hc]; exact h, fun k j => ?_, fun m r _ _ h => ⟨r, hr ▸ h, rfl⟩, fun q hq => .inr ⟨q, hr ▸ hq, rfl, rfl⟩⟩
  by_cases hj : k = core ∧ j = lineKey tenant line
  · obtain ⟨rfl, rfl⟩ := hj
    by_cases hs : tfind (lineKey tenant line) (s.core k).l1 = none
    · exact .inl ((h hs).trans hs.symm)
    · exact .inr ⟨hs, tenant, line, hk, rfl⟩
  · exact .inl (hl k j hj)

theorem setL1 {core tenant line : Nat} (hk : K tenant line) (h : (s.core core).line tenant line ≠ none) (l : L1Line) : s.Moves K n (s.setL1 core tenant line l) := by
  refine of_line s hk rfl rfl rfl (fun k j hj => ?_) (fun hs => absurd hs h)
  by_cases hkc : k = core
  · subst hkc
    unfold State.setL1
    rw [State.core_modCore_self]
    exact tfind_tput_ne (fun e => hj ⟨rfl, e⟩) ..
  · unfold State.setL1
    rw [State.core_modCore_ne _ _ _ _ hkc]

theorem delL1 {core tenant line : Nat} (hk : K tenant line) : s.Moves K n (s.delL1 core tenant line) := by
  refine of_line s (core := core) hk rfl rfl rfl (fun k j hj => ?_) (fun _ => ?_)
  · by_cases hkc : k = core
    · subst hkc
      unfold State.delL1
      rw [State.core_modCore_self]
      exact tfind_tdel_ne (fun e => hj ⟨rfl, e⟩) ..
    · unfold State.delL1
      rw [State.core_modCore_ne _ _ _ _ hkc]
  · unfold State.delL1
    rw [State.core_modCore_self]
    exact tfind_tdel_self ..

/-! #### Operations -/

theorem putOp (k : Nat) (o : Op) : s.Moves K n (s.putOp k o) := of_eq rfl rfl rfl fun _ => rfl

theorem finishOp (k : Nat) (o : Op) : s.Moves K n (s.finishOp k o) := .ite (of_eq rfl rfl rfl fun _ => rfl) (of_eq rfl rfl rfl fun _ => rfl)

theorem partDone (k : Nat) : s.Moves K n (s.partDone k) := by
  unfold State.partDone
  split
  · exact refl s
  · exact .ite (finishOp ..) (putOp ..)

theorem partsDone (ops : List Nat) : s.Moves K n (s.partsDone ops) := .foldl (fun s _ => partDone s _) _ _

theorem reqDone (r : Req) : s.Moves K n (s.reqDone n r) := (delReq ..).trans (partsDone ..)

theorem deliver (k : Nat) (bs : List (Nat × Byte)) : s.Moves K n (s.deliver k bs) := by
  unfold State.deliver
  split
  · exact refl s
  · exact putOp ..

theorem handOp (r : Req) (xs : List (Nat × Byte)) (k : Nat) : s.Moves K n (s.handOp r xs k) :=
  .ite ((deliver ..).after (of_eq rfl rfl rfl fun _ => rfl)) (deliver ..)

theorem handBytes (r : Req) (offs : List Nat) (f : Nat → Byte) : s.Moves K n (s.handBytes r offs f) := .foldl (fun s _ => handOp s ..) _ _

/-! #### Lines of an L1 -/

theorem sendDirty {core tenant line : Nat} (hk : K tenant line) (l : L1Line) : s.Moves K n (s.sendDirty core tenant line l).2 := by
  have hread : s.Moves K n (s.readDirty core tenant line l).2 := of_beside (.readDirty ..)
  unfold State.sendDirty
  dsimp only
  split
  · exact hread
  · exact hread.trans (addReq _ hk)

end State.Moves

/-- A write-back leaves the lines of every core. -/
theorem State.sendDirty_l1 (s : State) (core tenant line : Nat) (l : L1Line) (k : Nat) : ((s.sendDirty core tenant line l).2.core k).l1 = (s.core k).l1 := by
  have hread := (State.Beside.readDirty s core tenant line l).l1 k
  unfold State.sendDirty
  dsimp only
  split
  · exact hread
  · exact hread

theorem State.sendDirty_line (s : State) (core tenant line : Nat) (l : L1Line) (k tn ln : Nat) : ((s.sendDirty core tenant line l).2.core k).line tn ln = (s.core k).line tn ln :=
  congrArg (tfind (lineKey tn ln)) (s.sendDirty_l1 ..)

namespace State.Moves
variable {K : Nat → Nat → Prop} {n : Nat} (s : State)

theorem yieldLine (core : Nat) {tenant line : Nat} (hk : K tenant line) (pools : Bool) : s.Moves K n (s.yieldLine core tenant line pools) := by
  unfold State.yieldLine
  split
  next l hl =>
    have hset : (s.sendDirty core tenant line l).2.Moves K n ((s.sendDirty core tenant line l).2.setL1 core tenant line l.empty) :=
      setL1 _ hk (by rw [State.sendDirty_line, hl]; exact Option.some_ne_none l) _
    exact .ite (refl s) (((sendDirty _ hk _).trans (.ite hset (delL1 _ hk))).trans (dropFills ..))
  · exact dropFills ..

/-! #### Requests -/

variable {r : Req} (hr : K r.tenant r.line)
include hr

theorem leave : s.Moves K n (s.leave n r) := by
  unfold State.leave
  split
  · exact (State.Moves.ite (of_beside (.countCore ..)) (refl s)).trans (putReq _ hr)
  · exact putReq _ hr

theorem maintain (inv l2 : Bool) : s.Moves K n (s.maintain n r inv l2) := by
  have go {p : Prop} [Decidable p] {t : State} (h : s.Moves K n t) : s.Moves K n (if p then t.leave n { r with passed := true } else t.reqDone n { r with passed := true }) :=
    h.trans (.ite (leave t (r := { r with passed := true }) hr) (reqDone ..))
  unfold State.maintain
  dsimp only
  split
  · exact go (refl s)
  next l hl =>
    have hset : (s.sendDirty r.core r.tenant r.line l).2.Moves K n ((s.sendDirty r.core r.tenant r.line l).2.setL1 r.core r.tenant r.line l.clean) :=
      setL1 _ hr (by rw [State.sendDirty_line, hl]; exact Option.some_ne_none l) _
    exact .ite (reqDone ..) (go ((sendDirty _ hr _).trans (.ite ((delL1 _ hr).trans (dropFills ..)) hset)))

theorem hitL1 (l : L1Line) (have_ : Nat) {go : State → State} (hgo : ∀ t : State, t.Moves K n (go t)) : s.Moves K n (s.hitL1 n r l have_ go) := by
  unfold State.hitL1
  dsimp only
  split
  next f _ => exact ((of_beside (.logLasting ..)).trans (putReq _ (r := { r with stage := .held f }) hr)).trans (of_beside (.raiseOps ..))
  · exact ((of_beside (.readWords ..)).trans (handBytes ..)).trans (hgo _)

theorem send : s.Moves K n (s.send n r) := by
  have hleave (t : State) {q : Req} (ht : q.tenant = r.tenant) (hl : q.line = r.line) : t.Moves K n (t.leave n q) := leave t (by rw [ht, hl]; exact hr)
  unfold State.send
  dsimp only
  split
  case h_1 | h_2 =>
    split
    · exact .ite ((yieldLine s _ hr _).trans (hleave _ rfl rfl)) (hitL1 s hr _ _ (fun t => .ite ((of_beside (.raceReq ..)).trans (reqDone ..)) (hleave _ rfl rfl)))
    · exact hleave s (by split <;> rfl) (by split <;> rfl)
  · split
    next l hl =>
      have hset (l' : L1Line) : s.Moves K n (s.setL1 r.core r.tenant r.line l') := setL1 s hr (by rw [hl]; exact Option.some_ne_none l) _
      exact .ite ((((hset _).trans (of_beside (.mendL1 ..))).trans (of_beside (.raceReq ..))).trans (reqDone ..)) (leave s hr)
    · exact leave s hr
  · exact (State.Moves.foldl (fun s _ => yieldLine s _ hr _) _ _).trans (leave _ hr)
  · exact (yieldLine s _ hr _).trans (leave _ hr)
  · exact (yieldLine s _ hr _).trans (leave _ hr)
  · exact (yieldLine s _ hr _).trans (leave _ hr)
  · refine .ite (.ite (leave s hr) (reqDone ..)) ?_
    split
    · exact .ite ((putReq s hr).trans (maintain _ hr _ _)) (leave s hr)
    · exact leave s hr
  · split
    · exact .ite (reqDone ..) (hleave s rfl rfl)
    · exact leave s hr
  · exact leave s hr
  · exact leave s hr
  · exact putReq s (r := { r with stage := .toSlice, after := [], ahead := [], seen := false }) hr

theorem enter (again : Bool) : s.Moves K n (s.enter n r again) := by
  unfold State.enter
  split
  · exact send s hr
  · exact putReq s (r := { r with stage := .queued, after := _ }) hr

end State.Moves

/-- A new request, as it is added. -/
def State.added (s : State) (r : Req) : Req :=
  { r with local_ := (s.home r.ctx r.line).1, slice := (s.home r.ctx r.line).2, tag := freeTag s.fresh.2.usedTags s.nextId s.fresh.2.usedTags.length }

theorem State.request1_eq (s : State) (r : Req) : s.request1 r none = (s.addReq r).2.enter s.nextId (s.added r) false := by
  have hf : tfind s.nextId (s.addReq r).2.reqs = some (s.added r) := tfind_tput_self ..
  unfold State.request1
  dsimp only
  rw [show (s.addReq r).1 = s.nextId from rfl, hf]

namespace State.Moves
variable {K : Nat → Nat → Prop} {n : Nat} (s : State)

theorem request1 {r : Req} (hr : K r.tenant r.line) : s.Moves K n (s.request1 r none) := by
  rw [State.request1_eq]
  exact of_fresh ((addReq s hr).trans (enter _ (r := s.added r) hr _))

theorem sendCombined (cl : Nat) (e : Combine) : s.Moves (fun _ _ => True) n (s.sendCombined cl e) := by
  have hout : s.Moves (fun _ _ => True) n (s.modCluster cl (fun c => { c with combine := c.combine.filter (fun x => x ≠ e) })) := by
    refine ⟨le_rfl, fun c hc => ?_, fun _ _ => .inl rfl, fun m x _ _ hx => ⟨x, hx, rfl⟩, fun q hq => .inr ⟨q, hq, rfl, rfl⟩⟩
    by_cases h : c = cl
    · subst h
      rw [State.cluster_modCluster_self, hc]
      rfl
    · rw [State.cluster_modCluster_ne _ _ _ _ h]
      exact hc
  exact hout.trans (request1 _ trivial)

theorem flushCombine (cl : Nat) (p : Combine → Bool) : s.Moves (fun _ _ => True) n (s.flushCombine cl p) := .foldl (fun s _ => sendCombined s ..) _ _

theorem request (r : Req) : s.Moves (fun _ _ => True) n (s.request r none) := (flushCombine ..).trans (request1 _ trivial)

end State.Moves

/-! #### Requests, lines and combining entries as they were -/

/-- `t` has the requests, the lines of the cores and the combining entries of `s`. -/
structure State.Idle (s t : State) : Prop where
  reqs : t.reqs = s.reqs
  l1 : ∀ k, (t.core k).l1 = (s.core k).l1
  combine : ∀ k, (t.cluster k).combine = (s.cluster k).combine
  ids : s.nextId ≤ t.nextId

namespace State.Idle

theorem trans {s t u : State} (h : s.Idle t) (k : t.Idle u) : s.Idle u :=
  ⟨k.reqs.trans h.reqs, fun n => (k.l1 n).trans (h.l1 n), fun n => (k.combine n).trans (h.combine n), h.ids.trans k.ids⟩

theorem begin (s : State) (c : Iss) (i : Instr) : s.Idle (s.begin c i) := by
  have hb := s.begin_book c i
  refine ⟨by rw [hb.rest]; rfl, fun k => ?_, fun k => ?_, (State.begin_nextId s c i).ge⟩
  · have e := congrArg Core.l1 (hb.cores k)
    exact e
  · have e := congrArg Cluster.combine (hb.clusters k)
    exact e

theorem written (s : State) (c : Iss) (i : Instr) : s.Idle (s.written c i) := by
  have h := State.Beside.of_book (Book.written s c i)
  exact ⟨h.reqs, h.l1, h.combine, h.ids.ge⟩

theorem newOp (s : State) (c : Iss) (i : Instr) (path : Option Nat) (dest : Dest) (parts : Nat) : s.Idle (s.newOp c i path dest parts).2 := by
  unfold State.newOp
  cases path <;> exact ⟨rfl, fun _ => rfl, fun _ => rfl, Nat.le_succ _⟩

theorem putOp (s : State) (n : Nat) (o : Op) : s.Idle (s.putOp n o) := ⟨rfl, fun _ => rfl, fun _ => rfl, le_rfl⟩

theorem line {s t : State} (h : s.Idle t) (k tenant line : Nat) : (t.core k).line tenant line = (s.core k).line tenant line := congrArg (tfind (lineKey tenant line)) (h.l1 k)

end State.Idle

/-- A ready word whose group has gone the way of an access passes. -/
theorem passes_of_went {i : Instr} {s t : State} {gr : Grant} {post : State → Prop} (he : exec i s = .next (t.written (s.seen gr) i))
    (hw : ((s.begun gr i).group gr.gid).Went (t.group gr.gid)) (hp : post (t.written (s.seen gr) i)) : Passes i s gr post := by
  rw [show (s.begun gr i).group gr.gid = _ from State.group_begin_self s (s.seen gr) i] at hw
  obtain ⟨hregs, hadv, -⟩ := hw.of_issued
  refine ⟨_, he, ?_, ?_, hp⟩
  · rw [State.after, State.group_written]; exact hregs
  · rw [State.after, State.group_written]; exact hadv

/-! #### The lines of a word's addresses -/

theorem pairwise_tput {β : Type} (k : Nat) (v : β) {t : Table β} (h : t.Pairwise (·.1 < ·.1)) : (tput k v t).Pairwise (·.1 < ·.1) := by
  induction t with
  | nil => exact List.pairwise_singleton ..
  | cons x t ih =>
    obtain ⟨j, w⟩ := x
    obtain ⟨hx, ht⟩ := List.pairwise_cons.mp h
    unfold tput
    split
    next e => exact List.pairwise_cons.mpr ⟨fun y hy => by rw [e]; exact hx y hy, ht⟩
    · split
      next hk => exact List.pairwise_cons.mpr ⟨fun y hy => (List.mem_cons.mp hy).elim (fun e => by rw [e]; exact hk) (fun hy => lt_trans hk (hx y hy)), h⟩
      next hne hk =>
        refine List.pairwise_cons.mpr ⟨fun y hy => ?_, ih ht⟩
        rcases mem_tput hy with rfl | hy
        · exact lt_of_le_of_ne (not_lt.mp hk) (fun e => hne e.symm)
        · exact hx y hy

theorem foldl_byLine (bs : List (Nat × Byte)) (t : Table (Table Byte)) (ht : t.Pairwise (·.1 < ·.1)) :
    let u := bs.foldl (fun t b => tput (b.1 / 128) (tput (b.1 % 128) b.2 (tget [] (b.1 / 128) t)) t) t
    u.Pairwise (·.1 < ·.1) ∧ ∀ k, tfind k u ≠ none ↔ tfind k t ≠ none ∨ ∃ b ∈ bs, b.1 / 128 = k := by
  induction bs generalizing t with
  | nil => exact ⟨ht, fun k => by simp⟩
  | cons b bs ih =>
    obtain ⟨hp, hk⟩ := ih _ (pairwise_tput (b.1 / 128) (tput (b.1 % 128) b.2 (tget [] (b.1 / 128) t)) ht)
    refine ⟨hp, fun k => ?_⟩
    rw [List.foldl_cons, hk k]
    simp only [List.mem_cons, exists_eq_or_imp]
    by_cases e : k = b.1 / 128
    · subst e; simp
    · rw [tfind_tput_ne e]
      simp [Ne.symm e]

theorem tfind_ne_none_iff {β : Type} {t : Table β} {k : Nat} : tfind k t ≠ none ↔ k ∈ t.map (·.1) := by
  induction t with
  | nil => simp
  | cons x t ih =>
    obtain ⟨j, v⟩ := x
    rw [tfind_cons, List.map_cons, List.mem_cons]
    split
    next e => simp [e]
    next e => rw [ih]; simp [e]

/-- The lines that accesses of one byte touch: each of them once. -/
theorem touchedLines_one (l : List (Nat × Nat)) : ((touchedLines 1 l).map (·.1)).Nodup ∧ ∀ k, k ∈ (touchedLines 1 l).map (·.1) ↔ ∃ x ∈ l, x.2 / 128 = k := by
  have hl : l.flatMap (fun x => (List.range 1).map (fun k => (x.2 + k, (0 : Byte)))) = l.map (fun x => (x.2, 0)) := List.map_eq_flatMap.symm
  obtain ⟨hp, hk⟩ := foldl_byLine (l.flatMap (fun x => (List.range 1).map (fun k => (x.2 + k, 0)))) [] List.Pairwise.nil
  refine ⟨(List.pairwise_map.mpr hp).imp (fun h => h.ne), fun k => tfind_ne_none_iff.symm.trans ((hk k).trans ?_)⟩
  rw [hl]
  constructor
  · rintro (h | ⟨b, hb, e⟩)
    · exact absurd rfl h
    · obtain ⟨x, hx, rfl⟩ := List.mem_map.mp hb
      exact ⟨x, hx, e⟩
  · rintro ⟨x, hx, e⟩
    exact .inr ⟨_, List.mem_map.mpr ⟨x, hx, rfl⟩, e⟩

/-! #### PREF (03 R66) -/

/-- A request that the L1 does not answer is on its way, or waits at its core. -/
def Req.underway (r : Req) : Prop := r.stage = .toSlice ∨ r.stage = .queued

section
variable {s : State} {n : Nat} {r : Req}

theorem State.leave_underway : ∃ q, tfind n (s.leave n r).reqs = some q ∧ q.kind = r.kind ∧ q.line = r.line ∧ q.underway := by
  unfold State.leave
  split
  · exact ⟨_, tfind_tput_self .., rfl, rfl, .inl rfl⟩
  · exact ⟨_, tfind_tput_self .., rfl, rfl, .inr rfl⟩

theorem State.enter_prefetch (hk : r.kind = .prefetch) (hl : (s.core r.core).line r.tenant r.line = none) (again : Bool) :
    ∃ q, tfind n (s.enter n r again).reqs = some q ∧ q.kind = .prefetch ∧ q.line = r.line ∧ q.underway := by
  unfold State.enter
  split
  · unfold State.send
    dsimp only
    rw [hk, hl]
    dsimp only
    obtain ⟨q, hq, h1, h2, h3⟩ := State.leave_underway (s := s) (n := n) (r := r)
    exact ⟨q, hq, h1.trans hk, h2, h3⟩
  · exact ⟨_, tfind_tput_self .., hk, rfl, .inr rfl⟩

/-- A prefetch of a line that the L1 does not hold is a new request. -/
theorem State.request_prefetch (hk : r.kind = .prefetch) (hl : (s.core r.core).line r.tenant r.line = none) :
    ∃ m q, s.nextId ≤ m ∧ m < (s.request r none).nextId ∧ tfind m (s.request r none).reqs = some q ∧ q.kind = .prefetch ∧ q.line = r.line ∧ q.underway := by
  have hflush := State.Moves.flushCombine (n := 0) s (clusterOfCore r.core) (fun e => e.by r.gid && e.tenant == r.tenant && e.addr / 128 == r.line)
  unfold State.request
  generalize s.flushCombine _ _ = u at hflush
  have hu : (u.core r.core).line r.tenant r.line = none := (hflush.lines _ _).elim (fun e => e.trans hl) (fun e => absurd hl e.1)
  rw [State.request1_eq]
  obtain ⟨q, hq, h⟩ := State.enter_prefetch (s := (u.addReq r).2) (n := u.nextId) (r := u.added r) hk hu false
  exact ⟨_, q, hflush.ids, (State.Moves.enter (K := fun _ _ => True) (n := u.nextId) (u.addReq r).2 (r := u.added r) trivial false).ids, hq, h⟩

/-- Prefetches of lines, one after another. -/
def State.prefetches (s : State) (r : Req) (ls : Table (Table Byte)) : State := ls.foldl (fun s x => s.request { r with line := x.1 } none) s

theorem State.Moves.prefetches (s : State) (r : Req) (ls : Table (Table Byte)) : s.Moves (fun _ _ => True) n (s.prefetches r ls) := .foldl (fun s _ => request s _) _ _

theorem State.prefetches_underway (hk : r.kind = .prefetch) {ls : Table (Table Byte)} {l : Nat} (hx : l ∈ ls.map (·.1)) (hl : (s.core r.core).line r.tenant l = none) :
    ∃ m q, tfind m (s.prefetches r ls).reqs = some q ∧ s.nextId ≤ m ∧ q.kind = .prefetch ∧ q.underway ∧ q.line = l := by
  induction ls generalizing s with
  | nil => cases hx
  | cons y ls ih =>
    have hstep := State.Moves.request (n := 0) s { r with line := y.1 }
    have hfold : s.prefetches r (y :: ls) = (s.request { r with line := y.1 } none).prefetches r ls := List.foldl_cons ..
    rw [hfold]
    rw [List.map_cons] at hx
    rcases List.mem_cons.mp hx with rfl | hx
    · obtain ⟨m, q, hm, hlt, hq, h1, h2, h3⟩ := State.request_prefetch (s := s) (r := { r with line := y.1 }) hk hl
      obtain ⟨q', hq', e⟩ := (State.Moves.prefetches (n := m + 1) (s.request { r with line := y.1 } none) r ls).kept m q (Nat.succ_ne_self m).symm hlt hq
      refine ⟨m, q', hq', hm, ?_, ?_, ?_⟩
      · rw [e]; exact h1
      · rw [e]; exact h3
      · rw [e]; exact h2
    · obtain ⟨m, q, hq, hm, h⟩ := ih hx ((hstep.lines _ _).elim (fun e => e.trans hl) (fun e => absurd hl e.1))
      exact ⟨m, q, hq, hstep.ids.trans hm, h⟩

theorem State.flushCombine_nil {cl : Nat} {p : Combine → Bool} (h : (s.cluster cl).combine = []) : s.flushCombine cl p = s := by
  unfold State.flushCombine
  rw [h]
  rfl

/-- A prefetch of a palette line, alone, sends nothing (04 R81). -/
theorem State.request_pool (hr : s.reqs = []) (hc : (s.cluster (clusterOfCore r.core)).combine = []) (hk : r.kind = .prefetch) (hops : r.ops = []) {l : L1Line}
    (hl : (s.core r.core).line r.tenant r.line = some l) (hp : l.isPool = true) : s.Idle (s.request r none) := by
  have hadd : (s.addReq r).2.reqs = [(s.nextId, s.added r)] := by
    show tput s.nextId (s.added r) s.reqs = _
    rw [hr]
    rfl
  have hbefore : (s.addReq r).2.before s.nextId (s.added r) false = [] := by
    unfold State.before
    rw [hadd]
    simp
  have hsend : (s.addReq r).2.send s.nextId (s.added r) = (s.addReq r).2.delReq s.nextId := by
    have hk' : (s.added r).kind = .prefetch := hk
    have hl' : ((s.addReq r).2.core (s.added r).core).line (s.added r).tenant (s.added r).line = some l := hl
    unfold State.send
    dsimp only
    rw [hk', hl']
    dsimp only
    rw [if_pos (by rw [hp]; rfl), State.reqDone, show (s.added r).ops = [] from hops]
    rfl
  unfold State.request
  rw [State.flushCombine_nil hc, State.request1_eq, State.enter, hbefore, ite_self]
  dsimp only
  rw [hsend]
  refine ⟨?_, fun _ => rfl, fun _ => rfl, Nat.le_succ _⟩
  show tdel s.nextId (s.addReq r).2.reqs = s.reqs
  rw [hadd, hr]
  simp [tdel]

theorem State.prefetches_pool {ls : Table (Table Byte)} (hr : s.reqs = []) (hc : (s.cluster (clusterOfCore r.core)).combine = []) (hk : r.kind = .prefetch) (hops : r.ops = [])
    (hl : ∀ x ∈ ls.map (·.1), ∃ l, (s.core r.core).line r.tenant x = some l ∧ l.isPool = true) : s.Idle (s.prefetches r ls) := by
  induction ls generalizing s with
  | nil => exact ⟨rfl, fun _ => rfl, fun _ => rfl, le_rfl⟩
  | cons y ls ih =>
    obtain ⟨l, hy, hp⟩ := hl y.1 List.mem_cons_self
    have h := State.request_pool (r := { r with line := y.1 }) hr hc hk hops hy hp
    refine h.trans (ih (h.reqs.trans hr) ((h.combine _).trans hc) fun x hx => ?_)
    rw [h.line]
    exact hl x (List.mem_cons_of_mem _ hx)

end

/-! #### CINV and CWB of a line (03 R66) -/

/-- What a line that CINV, or CWB where `inv` is not set, has checked looks like, if the L1 still holds it. -/
def L1Line.maintained (inv : Bool) (l : L1Line) : Prop := l.isPool = true ∨ l.rd = false ∨ l.valid = 0 ∨ inv = false ∧ l.dirty = []

/-- The line of a core, if it holds one, is maintained. -/
def State.tidy (s : State) (core tenant line : Nat) (inv : Bool) : Prop := ∀ l, (s.core core).line tenant line = some l → l.maintained inv

theorem State.tidy_congr {s t : State} {core tenant line : Nat} {inv : Bool} (h : (t.core core).line tenant line = (s.core core).line tenant line) (hs : s.tidy core tenant line inv) :
    t.tidy core tenant line inv := fun l hl => hs l (h.symm.trans hl)

section
variable {s : State} {n : Nat} {r : Req} {inv l2 : Bool}

theorem State.leave_line (s : State) (n : Nat) (r : Req) (k tenant line : Nat) : ((s.leave n r).core k).line tenant line = (s.core k).line tenant line := by
  unfold State.leave
  split
  · have h : s.Beside (if (match r.kind with | .load | .table => true | _ => false) then s.countCore r.core r.ctx 3 1 else s) := .ite (.countCore ..) (.refl s)
    exact congrArg (tfind (lineKey tenant line)) (h.l1 k)
  · rfl

/-- What moves no line leaves every line. -/
theorem State.Moves.line_eq {K : Nat → Nat → Prop} {t : State} (h : s.Moves K n t) {tenant line : Nat} (hk : ∀ tn ln, K tn ln → lineKey tenant line ≠ lineKey tn ln) (k : Nat) :
    (t.core k).line tenant line = (s.core k).line tenant line :=
  (h.lines k _).resolve_right fun ⟨_, tn, ln, hK, e⟩ => hk tn ln hK e

theorem State.reqDone_line (s : State) (n : Nat) (r : Req) (k tenant line : Nat) : ((s.reqDone n r).core k).line tenant line = (s.core k).line tenant line :=
  (State.Moves.reqDone (K := fun _ _ => False) (n := n) s r).line_eq (fun _ _ h => h.elim) k

theorem lineKey_inj {tenant a b : Nat} : lineKey tenant a = lineKey tenant b ↔ a = b := Nat.add_left_cancel_iff

theorem State.setL1_line (s : State) (core tenant a b : Nat) (l : L1Line) : ((s.setL1 core tenant a l).core core).line tenant b = if b = a then some l else (s.core core).line tenant b := by
  unfold State.setL1
  rw [State.core_modCore_self]
  split
  next e => rw [e]; exact tfind_tput_self ..
  next e => exact tfind_tput_ne (fun h => e (lineKey_inj.mp h)) ..

theorem State.delL1_line (s : State) (core tenant a b : Nat) : ((s.delL1 core tenant a).core core).line tenant b = if b = a then none else (s.core core).line tenant b := by
  unfold State.delL1
  rw [State.core_modCore_self]
  split
  next e => rw [e]; exact tfind_tdel_self ..
  next e => exact tfind_tdel_ne (fun h => e (lineKey_inj.mp h)) ..

theorem State.maintain_tidy (s : State) (n : Nat) (r : Req) (inv l2 : Bool) : (s.maintain n r inv l2).tidy r.core r.tenant r.line inv := by
  have go {p : Prop} [Decidable p] {t : State} (h : t.tidy r.core r.tenant r.line inv) :
      State.tidy (if p then t.leave n { r with passed := true } else t.reqDone n { r with passed := true }) r.core r.tenant r.line inv := by
    split
    · exact State.tidy_congr (t.leave_line ..) h
    · exact State.tidy_congr (t.reqDone_line ..) h
  unfold State.maintain
  dsimp only
  split
  next hl => exact go fun l h => by rw [hl] at h; cases h
  next l hl =>
    split
    next hp =>
      refine State.tidy_congr (s.reqDone_line ..) fun l' h => ?_
      rw [hl] at h
      cases h
      exact .inl hp
    · apply go
      intro l' h
      split at h
      · have hgone := State.delL1_line (s.sendDirty r.core r.tenant r.line l).2 r.core r.tenant r.line r.line
        rw [if_pos rfl] at hgone
        cases hgone.symm.trans h
      next hi =>
        rw [State.setL1_line, if_pos rfl] at h
        cases h
        exact .inr (.inr (.inr ⟨Bool.eq_false_iff.mpr hi, rfl⟩))

theorem State.send_check_tidy (hk : r.kind = .check inv l2) (hp : r.passed = false) : (s.send n r).tidy r.core r.tenant r.line inv := by
  unfold State.send
  dsimp only
  rw [hk]
  dsimp only
  rw [hp, if_neg Bool.false_ne_true]
  split
  next l hl =>
    split
    · exact State.maintain_tidy _ n r inv l2
    next h =>
      refine State.tidy_congr (s.leave_line ..) fun l' hl' => ?_
      rw [hl] at hl'
      cases hl'
      by_cases hrd : l.rd = false
      · exact .inr (.inl hrd)
      · refine .inr (.inr (.inl (by_contra fun hv => h ?_)))
        simp [hrd, hv]
  next hl => exact State.tidy_congr (s.leave_line ..) fun l h => by rw [hl] at h; cases h

/-- No request to a line of the tenant is in flight. -/
def State.unmet (s : State) (tenant line : Nat) : Prop := ∀ q ∈ s.reqs, q.2.tenant = tenant → q.2.line ≠ line

theorem State.request_check_tidy (hk : r.kind = .check inv l2) (hp : r.passed = false) (hc : (s.cluster (clusterOfCore r.core)).combine = []) (hu : s.unmet r.tenant r.line) :
    (s.request r none).tidy r.core r.tenant r.line inv := by
  have hbefore : (s.addReq r).2.before s.nextId (s.added r) false = [] := by
    unfold State.before
    rw [List.map_eq_nil_iff, List.filter_eq_nil_iff]
    intro q hq h
    simp only [Bool.and_eq_true, decide_eq_true_eq, State.meets, beq_iff_eq] at h
    rcases mem_tput hq with rfl | hq
    · exact h.1.1.1 rfl
    · exact hu q hq h.1.1.2.1.1.1 h.1.1.2.1.1.2
  unfold State.request
  rw [State.flushCombine_nil hc, State.request1_eq, State.enter, hbefore, ite_self]
  exact State.send_check_tidy (r := s.added r) hk hp

theorem State.Moves.mono {K L : Nat → Nat → Prop} {t : State} (h : s.Moves K n t) (hkl : ∀ tn ln, K tn ln → L tn ln) : s.Moves L n t :=
  ⟨h.ids, h.combine, fun k j => (h.lines k j).imp_right fun ⟨hs, tn, ln, hK, e⟩ => ⟨hs, tn, ln, hkl tn ln hK, e⟩, h.kept, fun q hq => (h.new q hq).imp_left (hkl _ _)⟩

/-- The checks of distinct lines of which no request is in flight: each of the lines is maintained, and no other is touched. -/
theorem State.requestLines_tidy {ls : Table (Table Byte)} (hk : r.kind = .check inv l2) (hp : r.passed = false) (hc : (s.cluster (clusterOfCore r.core)).combine = []) (hd : (ls.map (·.1)).Nodup)
    (hu : ∀ x ∈ ls.map (·.1), s.unmet r.tenant x) :
    s.Moves (fun tn ln => tn = r.tenant ∧ ln ∈ ls.map (·.1)) n (s.requestLines r none ls) ∧ ∀ x ∈ ls.map (·.1), (s.requestLines r none ls).tidy r.core r.tenant x inv := by
  induction ls generalizing s with
  | nil => exact ⟨.refl s, fun x hx => by cases hx⟩
  | cons y ls ih =>
    rw [List.map_cons, List.nodup_cons] at hd
    obtain ⟨hy, hd⟩ := hd
    have hu1 : s.unmet r.tenant y.1 := hu y.1 List.mem_cons_self
    have htidy := State.request_check_tidy (r := { r with line := y.1, sectors := touchedSectors y.2, bytes := y.2 }) hk hp hc hu1
    have hmoves : s.Moves (fun tn ln => tn = r.tenant ∧ ln = y.1) n (s.request { r with line := y.1, sectors := touchedSectors y.2, bytes := y.2 } none) := by
      unfold State.request
      rw [State.flushCombine_nil hc]
      exact .request1 s ⟨rfl, rfl⟩
    have hunmet : ∀ x ∈ ls.map (·.1), (s.request { r with line := y.1, sectors := touchedSectors y.2, bytes := y.2 } none).unmet r.tenant x := by
      intro x hx q hq ht e
      rcases hmoves.new q hq with ⟨-, hl⟩ | ⟨p, hp, e1, e2⟩
      · exact hy (hl ▸ e ▸ hx)
      · exact hu x (List.mem_cons_of_mem _ hx) p hp (e1.trans ht) (e2.trans e)
    obtain ⟨hrest, hall⟩ := ih (hmoves.combine _ hc) hd hunmet
    refine ⟨(hmoves.mono fun tn ln h => ⟨h.1, h.2 ▸ List.mem_cons_self⟩).trans (hrest.mono fun tn ln h => ⟨h.1, List.mem_cons_of_mem _ h.2⟩), fun x hx => ?_⟩
    rcases List.mem_cons.mp hx with rfl | hx
    · refine State.tidy_congr (hrest.line_eq (fun tn ln h e => ?_) r.core) htidy
      obtain ⟨rfl, hl⟩ := h
      exact hy (by rw [show y.1 = ln from lineKey_inj.mp e]; exact hl)
    · exact hall x hx

end

/-! #### `.all` (03 R66) -/

section
variable (s : State) (c : Iss) (i : Instr)

theorem State.Way.joinReq (m : Nat) (ops : List Nat) : s.Way (s.joinReq m ops) := by
  unfold State.joinReq
  split
  · refine State.Way.trans (.foldl (fun s k => ?_) _ _) (.putReq ..)
    split
    next ho => exact .putOp s ho (.of_parts ..)
    · exact .refl s
  · exact .refl s

theorem State.joinReq_core (m : Nat) (ops : List Nat) (k : Nat) : (s.joinReq m ops).core k = s.core k := by
  have hops (l : List Nat) (t : State) : (l.foldl (fun (s : State) k => match s.op k with | some o => s.putOp k { o with parts := o.parts + 1 } | none => s) t).core k = t.core k := by
    induction l generalizing t with
    | nil => rfl
    | cons a l ih => rw [List.foldl_cons, ih]; split <;> rfl
  unfold State.joinReq
  split
  · exact hops ops s
  · rfl

/-- One line of a tenant maintained with `.all`, as a part of operation `n`. -/
def State.maintainOne (core tenant n : Nat) (inv : Bool) (x : Nat × L1Line) : State :=
  if x.2.isPool then s
  else
    let w := s.sendDirty core tenant x.1 x.2
    let s0 := w.1.foldl (fun (s : State) m => s.joinReq m [n]) w.2
    if inv then s0.delL1 core tenant x.1 else s0.setL1 core tenant x.1 x.2.clean

theorem State.maintainAll_eq (inv : Bool) : s.maintainAll c i inv =
    let n := s.newOp c i (some 1) .none 1
    let s1 := ((n.2.core (coreOf c.gid)).tenantLines c.g.tenant).foldl (fun s x => s.maintainOne (coreOf c.gid) c.g.tenant n.1 inv x) n.2
    (if inv then s1.dropFills (coreOf c.gid) c.g.tenant (fun _ => true) else s1).partDone n.1 := rfl

theorem State.Way.maintainOne (core tenant n : Nat) (inv : Bool) (x : Nat × L1Line) : s.Way (s.maintainOne core tenant n inv x) :=
  .ite (.refl s) (((State.Way.sendDirty ..).trans (.foldl (fun s _ => joinReq s ..) _ _)).trans (.ite (.delL1 ..) (.setL1 ..)))

theorem State.maintainAll_way (inv : Bool) : (s.newOp c i (some 1) .none 1).2.Way (s.maintainAll c i inv) := by
  rw [State.maintainAll_eq]
  exact (State.Way.foldl (fun s _ => .maintainOne s ..) _ _).trans ((State.Way.ite (.dropFills ..) (.refl _)).trans (.partDone ..))

/-- What `.all` does to the lines of its core: an ordinary line goes, or stays clean. -/
theorem State.maintainOne_line (core tenant n : Nat) (inv : Bool) (x : Nat × L1Line) (line : Nat) : ((s.maintainOne core tenant n inv x).core core).line tenant line =
    if line = x.1 ∧ x.2.isPool = false then (if inv then none else some x.2.clean) else (s.core core).line tenant line := by
  have hjoin (l : List Nat) (t : State) : (l.foldl (fun (s : State) m => s.joinReq m [n]) t).core core = t.core core := by
    induction l generalizing t with
    | nil => rfl
    | cons a l ih => rw [List.foldl_cons, ih, State.joinReq_core]
  unfold State.maintainOne
  by_cases hp : x.2.isPool = true
  · rw [if_pos hp, if_neg (by simp [hp])]
  · rw [if_neg hp]
    dsimp only
    generalize hs0 : List.foldl _ _ _ = s0
    have h0 : (s0.core core).line tenant line = (s.core core).line tenant line := by
      rw [← hs0, hjoin]
      exact s.sendDirty_line ..
    rw [← h0]
    simp only [Bool.eq_false_iff.mpr hp, and_true]
    cases inv
    · exact State.setL1_line ..
    · exact State.delL1_line ..

theorem State.foldl_maintainOne (core tenant n : Nat) (inv : Bool) (ls : List (Nat × L1Line)) {line : Nat} {y : L1Line}
    (h : ((ls.foldl (fun s x => s.maintainOne core tenant n inv x) s).core core).line tenant line = some y) :
    inv = false ∧ y.dirty = [] ∨ (s.core core).line tenant line = some y ∧ ∀ x ∈ ls, x.1 = line → x.2.isPool = true := by
  induction ls generalizing s with
  | nil => exact .inr ⟨h, fun x hx => by cases hx⟩
  | cons x ls ih =>
    rcases ih _ h with hd | ⟨hl, hls⟩
    · exact .inl hd
    · rw [State.maintainOne_line] at hl
      split at hl
      · split at hl
        · cases hl
        next hi =>
          cases hl
          exact .inl ⟨Bool.eq_false_iff.mpr hi, rfl⟩
      next hx =>
        refine .inr ⟨hl, List.forall_mem_cons.mpr ⟨fun e => ?_, hls⟩⟩
        by_contra hp
        exact hx ⟨e.symm, Bool.eq_false_iff.mpr hp⟩

theorem State.maintainAll_line (inv : Bool) {line : Nat} {y : L1Line} (hlt : line < 2 ^ 49) (h : ((s.maintainAll c i inv).core (coreOf c.gid)).line c.g.tenant line = some y) :
    y.isPool = true ∨ inv = false ∧ y.dirty = [] := by
  rw [State.maintainAll_eq] at h
  dsimp only at h
  have hpart (t : State) (k : Nat) : ((t.partDone k).core (coreOf c.gid)).line c.g.tenant line = (t.core (coreOf c.gid)).line c.g.tenant line :=
    (State.Moves.partDone (K := fun _ _ => False) (n := 0) t k).line_eq (fun _ _ h => h.elim) _
  have hdrop (t : State) : ((if inv then t.dropFills (coreOf c.gid) c.g.tenant (fun _ => true) else t).core (coreOf c.gid)).line c.g.tenant line = (t.core (coreOf c.gid)).line c.g.tenant line := by
    cases inv <;> rfl
  rw [hpart, hdrop] at h
  rcases State.foldl_maintainOne _ _ _ _ _ _ h with hd | ⟨hl, hls⟩
  · exact .inr hd
  · refine .inl (hls (line, y) (List.mem_map.mpr ⟨(lineKey c.g.tenant line, y), List.mem_filter.mpr ⟨mem_of_tfind hl, ?_⟩, ?_⟩) rfl)
    · unfold lineKey
      simp only [beq_iff_eq]
      omega
    · unfold lineKey
      dsimp only
      congr 1
      omega

end

/-! #### O10 -/

theorem Passes.mono {i : Instr} {s : State} {gr : Grant} {post post' : State → Prop} (h : Passes i s gr post) (hp : ∀ t, post t → post' t) : Passes i s gr post' := by
  obtain ⟨t, he, hregs, hadv, ht⟩ := h
  exact ⟨t, he, hregs, hadv, hp t ht⟩

section
variable {i : Instr} {o : FOps} {s : State} {gr : Grant}

theorem mem_remapAll_lines {c : Iss} {t : State} {l : List (Nat × Nat)} {k : Nat} :
    k ∈ (touchedLines 1 (c.remapAll t l)).map (·.1) ↔ ∃ x ∈ l, (t.core (coreOf c.gid)).remap c.g.tenant x.2 / 128 = k := by
  rw [(touchedLines_one _).2 k]
  constructor
  · rintro ⟨z, hz, e⟩
    obtain ⟨x, hx, rfl⟩ := List.mem_map.mp hz
    exact ⟨x, hx, e⟩
  · rintro ⟨x, hx, e⟩
    exact ⟨_, List.mem_map.mpr ⟨x, hx, rfl⟩, e⟩

/-! PREF -/

/-- The prefetch that PREF makes of a line. -/
def prefetchOf (c : Iss) (o : FOps) : Req :=
  { gid := c.gid, core := coreOf c.gid, ctx := c.g.ctx, tenant := c.g.tenant, kind := .prefetch, line := 0, sectors := 0xF, nl1 := o.ox.getLsbD 0, race := false }

/-- The lines of the canonical addresses of PREF. -/
def prefLines (c : Iss) (t : State) (o : FOps) : Table (Table Byte) := touchedLines 1 (c.remapAll t ((c.byteAddrs t o (c.active o.g)).filter (fun x => x.2 < 2 ^ 56)))

theorem mem_prefLines {c : Iss} {t : State} {k : Nat} :
    k ∈ (prefLines c t o).map (·.1) ↔ ∃ x ∈ c.byteAddrs t o (c.active o.g), x.2 < 2 ^ 56 ∧ (t.core (coreOf c.gid)).remap c.g.tenant x.2 / 128 = k := by
  unfold prefLines
  rw [mem_remapAll_lines]
  simp only [List.mem_filter, decide_eq_true_eq, and_assoc]

/-- What holds once the prefetches are made holds of PREF. -/
theorem pref_passes {post : State → Prop} (hr : Ready (.pref o) s gr)
    (hp : post (((s.begun gr (.pref o)).prefetches (prefetchOf (s.seen gr) o) (prefLines (s.seen gr) (s.begun gr (.pref o)) o)).written (s.seen gr) (.pref o))) : Passes (.pref o) s gr post := by
  refine passes_of_went (exec_of_effect hr (exec_pref o s) rfl) ?_ hp
  have hway : (s.begun gr (.pref o)).Way ((s.begun gr (.pref o)).prefetches (prefetchOf (s.seen gr) o) (prefLines (s.seen gr) (s.begun gr (.pref o)) o)) := .foldl (fun s _ => .request s ..) _ _
  exact hway.groups gr.gid

/-! CINV and CWB -/

/-- The check that CINV and CWB make of a line, as a part of operation `n`. -/
def checkOf (c : Iss) (o : FOps) (inv : Bool) (n : Nat) : Req :=
  { ops := [n], gid := c.gid, core := coreOf c.gid, ctx := c.g.ctx, tenant := c.g.tenant, kind := .check inv (o.ox.getLsbD 0), line := 0, race := false }

/-- The operation of CINV and CWB on the lines of addresses. -/
def State.checksOp (t : State) (c : Iss) (i : Instr) (l : List (Nat × Nat)) : Nat × State :=
  let n := t.newOp c i (some 1) .none (touchedLines 1 l).length
  (n.1, match n.2.op n.1 with | some x => n.2.putOp n.1 { x with who := lineLanes 1 l } | none => n.2)

theorem State.checksOp_way (t : State) (c : Iss) (i : Instr) (l : List (Nat × Nat)) : (t.newOp c i (some 1) .none (touchedLines 1 l).length).2.Way (t.checksOp c i l).2 := by
  unfold State.checksOp
  dsimp only
  split
  next hx => exact .putOp _ hx rfl
  · exact .refl _

theorem State.checksOp_idle (t : State) (c : Iss) (i : Instr) (l : List (Nat × Nat)) : t.Idle (t.checksOp c i l).2 := by
  refine (State.Idle.newOp t c i (some 1) .none (touchedLines 1 l).length).trans ?_
  unfold State.checksOp
  dsimp only
  split
  · exact .putOp ..
  · exact ⟨rfl, fun _ => rfl, fun _ => rfl, le_rfl⟩

variable {inv : Bool} (he : exec i s = maintainWord i o s inv) (hr : Ready i s gr)
include he hr

theorem maintain_idle (hm : (s.seen gr).active o.g = 0) : Passes i s gr (fun t => t.reqs = s.reqs ∧ t.mem = s.mem) := by
  have hx : exec i s = .next ((s.begun gr i).written (s.seen gr) i) := exec_of_effect hr he (by simp only [hm, if_true])
  obtain ⟨-, hmem, -⟩ := s.begin_rest (s.seen gr) i
  exact passes_of_went hx (.refl _) ⟨((State.Idle.begin s (s.seen gr) i).trans (.written ..)).reqs, by rw [State.mem_written, hmem]⟩

theorem maintain_all (hm : (s.seen gr).active o.g ≠ 0) (ha : o.ox.getLsbD 1 = true) :
    Passes i s gr (fun t => ∀ l x, (t.core (coreOf gr.gid)).line (s.group gr.gid).tenant l = some x → l < 2 ^ 49 → x.isPool = true ∨ inv = false ∧ x.dirty = []) := by
  have hx : exec i s = .next (((s.begun gr i).maintainAll (s.seen gr) i inv).written (s.seen gr) i) := exec_of_effect hr he (by simp only [hm, ha, if_true, if_false])
  obtain ⟨-, hnew, -⟩ := (s.begun gr i).newOp_rest (s.seen gr) i (some 1) .none 1
  refine passes_of_went hx ((hnew _).trans ((State.maintainAll_way ..).groups _)) fun l x hl hlt => ?_
  rw [(State.Idle.written ..).line] at hl
  exact State.maintainAll_line _ _ _ inv hlt hl

theorem maintain_lines (hm : (s.seen gr).active o.g ≠ 0) (ha : o.ox.getLsbD 1 = false) (hg : goodAddrs 1 ((s.seen gr).byteAddrs (s.begun gr i) o ((s.seen gr).active o.g)))
    (hc : (s.cluster (clusterOfCore (coreOf gr.gid))).combine = [])
    (hu : ∀ y ∈ (s.seen gr).byteAddrs (s.begun gr i) o ((s.seen gr).active o.g), s.unmet (s.group gr.gid).tenant (((s.begun gr i).core (coreOf gr.gid)).remap (s.group gr.gid).tenant y.2 / 128)) :
    Passes i s gr (fun t => ∀ y ∈ (s.seen gr).byteAddrs (s.begun gr i) o ((s.seen gr).active o.g),
      t.tidy (coreOf gr.gid) (s.group gr.gid).tenant (((s.begun gr i).core (coreOf gr.gid)).remap (s.group gr.gid).tenant y.2 / 128) inv) := by
  have hmem {k : Nat} : k ∈ (touchedLines 1 ((s.seen gr).remapAll (s.begun gr i) ((s.seen gr).byteAddrs (s.begun gr i) o ((s.seen gr).active o.g)))).map (·.1) ↔
      ∃ y ∈ (s.seen gr).byteAddrs (s.begun gr i) o ((s.seen gr).active o.g), ((s.begun gr i).core (coreOf gr.gid)).remap (s.group gr.gid).tenant y.2 / 128 = k := mem_remapAll_lines
  have hx : exec i s = .next ((((s.begun gr i).checksOp (s.seen gr) i ((s.seen gr).remapAll (s.begun gr i) ((s.seen gr).byteAddrs (s.begun gr i) o ((s.seen gr).active o.g)))).2.requestLines
      (checkOf (s.seen gr) o inv ((s.begun gr i).checksOp (s.seen gr) i ((s.seen gr).remapAll (s.begun gr i) ((s.seen gr).byteAddrs (s.begun gr i) o ((s.seen gr).active o.g)))).1) none
      (touchedLines 1 ((s.seen gr).remapAll (s.begun gr i) ((s.seen gr).byteAddrs (s.begun gr i) o ((s.seen gr).active o.g))))).written (s.seen gr) i) :=
    exec_of_effect hr he (by simp only [hm, ha, if_false, checkVa_of_good hg, Bool.false_eq_true]; rfl)
  generalize (s.seen gr).remapAll (s.begun gr i) ((s.seen gr).byteAddrs (s.begun gr i) o ((s.seen gr).active o.g)) = l at hmem hx
  have hidle := (State.Idle.begin s (s.seen gr) i).trans ((s.begun gr i).checksOp_idle (s.seen gr) i l)
  have hunmet : ∀ k ∈ (touchedLines 1 l).map (·.1), ((s.begun gr i).checksOp (s.seen gr) i l).2.unmet (s.group gr.gid).tenant k := by
    intro k hk
    obtain ⟨y, hy, rfl⟩ := hmem.mp hk
    unfold State.unmet
    rw [hidle.reqs]
    exact hu y hy
  obtain ⟨-, htidy⟩ := State.requestLines_tidy (n := 0) (r := checkOf (s.seen gr) o inv ((s.begun gr i).checksOp (s.seen gr) i l).1) (inv := inv) rfl rfl ((hidle.combine _).trans hc) (touchedLines_one l).1 hunmet
  obtain ⟨-, hnew, -⟩ := (s.begun gr i).newOp_rest (s.seen gr) i (some 1) .none (touchedLines 1 l).length
  refine passes_of_went hx ((hnew _).trans (((State.checksOp_way ..).trans (.requestLines ..)).groups _)) fun y hy => ?_
  exact State.tidy_congr ((State.Idle.written ..).line ..) (htidy _ (hmem.mpr ⟨y, hy, rfl⟩))

end

/-- Settles O10: a request that finds none of its line ahead of it acts on the L1 at once, or leaves for the slice, and no request brings a line
into the L1 or takes away another request. -/
theorem maintenance : Obligations.Maintenance := by
  unfold Obligations.Maintenance
  intro o s gr c g k m lineOf unmet
  have hcinv : exec (.cinv o) s = maintainWord (.cinv o) o s true := exec_cinv o s
  have hcwb : exec (.cwb o) s = maintainWord (.cwb o) o s false := exec_cwb o s
  refine ⟨fun hr => pref_passes hr fun x hx hcan hnone => ?_, fun hr hreqs hcomb hpool => pref_passes hr ?_, fun hr hm => maintain_idle hcinv hr hm, fun hr hm => maintain_idle hcwb hr hm,
    fun hr hm ha => (maintain_all hcinv hr hm ha).mono fun t h l x hl hlt => ?_, fun hr hm ha => (maintain_all hcwb hr hm ha).mono fun t h l x hl hlt => ?_,
    fun hr hm ha hg hu => (maintain_lines hcinv hr hm ha hg hu.1 (fun y hy q hq => hu.2 y hy q hq)).mono fun t h y hy x hx => ?_,
    fun hr hm ha hg hu => (maintain_lines hcwb hr hm ha hg hu.1 (fun y hy q hq => hu.2 y hy q hq)).mono fun t h y hy x hx => ?_⟩
  · have hbegin := State.Idle.begin s (s.seen gr) (.pref o)
    obtain ⟨n, q, hq, hn, hk, hstage, hline⟩ := State.prefetches_underway (s := s.begun gr (.pref o)) (r := prefetchOf (s.seen gr) o) rfl (mem_prefLines.mpr ⟨x, hx, hcan, rfl⟩) ((hbegin.line ..).trans hnone)
    exact ⟨n, q, by rw [(State.Idle.written ..).reqs]; exact hq, hbegin.ids.trans hn, hk, hstage, hline⟩
  · have hbegin := State.Idle.begin s (s.seen gr) (.pref o)
    have hidle := State.prefetches_pool (s := s.begun gr (.pref o)) (r := prefetchOf (s.seen gr) o) (ls := prefLines (s.seen gr) (s.begun gr (.pref o)) o) (hbegin.reqs.trans hreqs)
      ((hbegin.combine _).trans hcomb) rfl rfl fun y hy => by
        obtain ⟨x, hx, hcan, rfl⟩ := mem_prefLines.mp hy
        rw [hbegin.line]
        exact hpool x hx hcan
    exact ((hidle.trans (.written ..)).reqs.trans hbegin.reqs).trans hreqs
  · exact (h l x hl hlt).resolve_right (fun hd => Bool.noConfusion hd.1)
  · exact (h l x hl hlt).imp_right And.right
  · rcases h y hy x hx with hp | hrd | hv | hd
    · exact .inl hp
    · exact .inr (.inl hrd)
    · exact .inr (.inr hv)
    · exact Bool.noConfusion hd.1
  · rcases h y hy x hx with hp | hrd | hv | hd
    · exact .inl hp
    · exact .inr (.inl hrd)
    · exact .inr (.inr (.inl hv))
    · exact .inr (.inr (.inr hd.2))

end Sys2Proof.Machine

end

-- ==== The scratchpad and tiles (O11) ====
section
/-! SUPPORT. The words that read or store the scratchpad (04 R71 to R75): the checks of their addresses, the load that is read at issue, the store that
enters the region store buffer, and the columns of a tile; then O11. -/

namespace Sys2Proof.Machine

/-! #### The checks of scratchpad addresses (04 R72) -/

theorem accBytes_eq (o : FOps) : accBytes o = widthBytes (fld o.ox 5 3) := by
  unfold accBytes widthBytes
  generalize fld o.ox 5 3 = w
  match w with
  | 0 | 1 | 2 | 3 | 4 | 5 | 6 | _ + 7 => rfl

/-- The lowest lane that fails decides, and its alignment is checked first (log 9). -/
theorem checkSp_of_bad {limit size L a : Nat} {before after : List (Nat × Nat)} (hb : ∀ x ∈ before, x.2 % size = 0 ∧ x.2 + size ≤ limit) (h : ¬ (a % size = 0 ∧ a + size ≤ limit)) :
    checkSp limit size (before ++ (L, a) :: after) = some (if a % size ≠ 0 then fAlign 1 L (lg2 size) a else fScratch a) := by
  induction before with
  | nil =>
    rw [List.nil_append, checkSp]
    split
    · rfl
    next ha => rw [if_pos (by omega)]
  | cons x l ih =>
    obtain ⟨⟨ha, hf⟩, hl⟩ := List.forall_mem_cons.mp hb
    rw [List.cons_append, checkSp, if_neg (not_not.mpr ha), if_neg (by omega), ih hl]

theorem badSp_cause (L size a : Nat) : (if a % size ≠ 0 then fAlign 1 L (lg2 size) a else fScratch a).cause ≠ 16 := by
  split <;> simp [fAlign, fScratch, fRegister]

theorem Iss.spAddrs_eq_nil {c : Iss} {s : State} {o : FOps} {size : Nat} {m : Word} : c.spAddrs s o size m = [] ↔ m = 0 := List.map_eq_nil_iff.trans lanesIn_eq_nil

/-! #### A load of the scratchpad (04 R73) -/

theorem State.Way.of_book {s t : State} (h : Book s t) : s.Way t := .of_beside (.of_book h) (fun _ => by rw [h.rest])

theorem State.begin_loadCells (s : State) (c d : Iss) (i : Instr) (r width : Nat) (lanes : List (Nat × Nat)) : (s.begin c i).loadCells d r width lanes = s.loadCells d r width lanes := by
  unfold State.loadCells
  simp only [State.begin_scratchNum]

/-- A ready word whose effect is a load of the scratchpad starts it. -/
theorem starts_scratchLoad {i : Instr} {s : State} {gr : Grant} {d width : Nat} {lanes : List (Nat × Nat)}
    (he : exec i s = .next (((s.begun gr i).scratchLoad (s.seen gr) i d width lanes).written (s.seen gr) i)) :
    Starts i s gr (if lanes = [] then none else some 0) (.cells (s.loadCells (s.seen gr) d width lanes)) := by
  rw [← State.begin_loadCells s (s.seen gr) (s.seen gr) i]
  exact starts_of_way he (.refl _) (.of_book (State.scratchLoad_book ..)) (.inr nofun)

/-! #### A store that enters the region store buffer (02 R41) -/

section
variable (s : State) (c : Iss) (i : Instr) (space : Space) (strong : Bool) (hint scope : Nat) (bs : List (Nat × Byte)) (who : List (Nat × Nat))

/-- The state once the buffer has room for a store: the region has committed where the store does not fit. -/
def State.withRoom : State := if 64 < (s.group c.gid).buf.length + (newSectors space bs (s.group c.gid).buf).length then s.commitRegion c.gid c.slotB else s

theorem State.withRoom_way : s.Way (s.withRoom c space bs) := .ite (.commitRegion ..) (.refl s)

theorem State.withRoom_buf : ((s.withRoom c space bs).group c.gid).buf = if 64 < (s.group c.gid).buf.length + (newSectors space bs (s.group c.gid).buf).length then [] else (s.group c.gid).buf := by
  unfold State.withRoom
  split
  · exact (s.commitRegion_group ..).2.1
  · rfl

/-- The operation that a store makes, and the buffer that takes its bytes. -/
theorem State.putStore_eq : ∃ x y, let v := s.withRoom c space bs
    (v.newOp c i (some 1) .none 0).2.op v.nextId = some x ∧ x.Same y ∧ x.gid = c.gid ∧ x.instr = i ∧ x.path = some 1 ∧
      s.putStore c i space strong hint scope bs who =
        ((v.newOp c i (some 1) .none 0).2.putOp v.nextId y).modGroup c.gid (fun g => { g with buf := bufferStore space c.g.tenant v.nextId strong hint scope bs (v.group c.gid).buf }) := by
  obtain ⟨x, hx, hgid, hinstr, hpath, -⟩ := (s.withRoom c space bs).newOp_new c i (some 1) .none 0
  have hbuf : (((s.withRoom c space bs).newOp c i (some 1) .none 0).2.group c.gid).buf = ((s.withRoom c space bs).group c.gid).buf := by
    rw [State.newOp_group]
  refine ⟨x, { x with
    parts := storeParts (s.withRoom c space bs).nextId (bufferStore space c.g.tenant (s.withRoom c space bs).nextId strong hint scope bs ((s.withRoom c space bs).group c.gid).buf)
    who := who, lane := (who.headD (0, 0)).2 }, hx, rfl, hgid, hinstr, hpath, ?_⟩
  unfold State.putStore
  extract_lets g s1 n buf s2
  have hs1 : s1 = s.withRoom c space bs := rfl
  have hn : n.1 = s1.nextId := rfl
  rw [← hs1] at hx hbuf ⊢
  simp only [s2, buf, n, hn, hx, hbuf]

end

/-- A ready word whose effect is such a store buffers it. -/
theorem buffers_putStore {i : Instr} {s : State} {gr : Grant} {space : Space} {strong : Bool} {hint scope : Nat} {bs : List (Nat × Byte)} {who : List (Nat × Nat)}
    (he : exec i s = .next (((s.begun gr i).putStore (s.seen gr) i space strong hint scope bs who).written (s.seen gr) i)) : Buffers i s gr space strong hint scope bs := by
  obtain ⟨x, y, hx, hsame, hgid, hinstr, hpath, heq⟩ := (s.begun gr i).putStore_eq (s.seen gr) i space strong hint scope bs who
  have hway := (s.begun gr i).withRoom_way (s.seen gr) space bs
  have hbuf := (s.begun gr i).withRoom_buf (s.seen gr) space bs
  rw [heq] at he
  generalize (s.begun gr i).withRoom (s.seen gr) space bs = v at he hx hway hbuf
  obtain ⟨z, hz, -, -, -, -, -, hpaths⟩ := v.newOp_new (s.seen gr) i (some 1) .none 0
  have hput := State.Way.putOp _ hx hsame
  have hbuf0 : ((s.begun gr i).group gr.gid).buf = (s.group gr.gid).buf := by rw [State.group_begun]; exact Group.Issued.buf ((s.seen gr).issued_eq _ _)
  have hlast : ((v.newOp (s.seen gr) i (some 1) .none 0).2.putOp v.nextId y).Way
      (((v.newOp (s.seen gr) i (some 1) .none 0).2.putOp v.nextId y).modGroup gr.gid (fun g => { g with buf := bufferStore space (s.seen gr).g.tenant v.nextId strong hint scope bs (v.group gr.gid).buf })) :=
    .modGroup _ _ ⟨rfl, rfl⟩ rfl
  obtain ⟨-, hnew, -⟩ := v.newOp_rest (s.seen gr) i (some 1) .none 0
  have hw := ((hway.groups gr.gid).trans (hnew gr.gid)).trans ((hput.trans hlast).groups gr.gid)
  rw [State.group_begun] at hw
  obtain ⟨hregs, hadv, -⟩ := hw.of_issued
  refine ⟨_, v.nextId, y, he, (s.begin_nextId ..).symm.trans_le hway.ids, (State.op_written ..).trans (tfind_tput_self ..), ?_, ?_, ?_, ?_, ?_, ?_, ?_, fun hd hr _ => ?_⟩
  · rw [hsame]; exact hgid
  · rw [hsame]; exact hinstr
  · rw [hsame]; exact hpath
  · rw [State.after, State.group_written]
    exact (congrArg Group.paths (State.group_modGroup_self ..)).symm ▸ hpaths 1 rfl
  · rw [State.after, State.group_written]
    refine (congrArg Group.buf (State.group_modGroup_self ..)).trans (congrArg (bufferStore space _ v.nextId strong hint scope bs) (hbuf.trans ?_))
    rw [show ((s.begun gr i).group (s.seen gr).gid).buf = _ from hbuf0]
  · rw [State.after, State.group_written]; exact hregs
  · rw [State.after, State.group_written]; exact hadv
  · rw [State.mem_written]; exact hway.mem_of_begin (hput.trans hlast) hd hr

/-! #### The columns of a tile (04 R74) -/

/-- The stride of a tile: 64 bytes, or with `.col` that of the word. -/
def tileStride (col : Bool) (st : Nat) : Nat := if col then st else 64

theorem tileStrideBad_eq (col : Bool) (st : Nat) : tileStrideBad col st = decide (tileStride col st < 64) := by
  cases col <;> rfl

theorem tileStride_misaligned (col : Bool) (st : Nat) : (col && decide (st % 16 ≠ 0)) = decide (tileStride col st % 16 ≠ 0) := by
  cases col <;> simp [tileStride]

theorem zipIdx_map_range {α : Type} (f : Nat → α) (n : Nat) : ((List.range n).map f).zipIdx = (List.range n).map (fun j => (f j, j)) :=
  List.ext_getElem (by simp) (by simp)

section
variable {limit base st : Nat} {i : Instr} {col : Bool}

theorem tileColumns_base (hb : base % 16 ≠ 0) : tileColumns limit i col base st = .error (fAlign 1 0 4 base) := if_pos hb

variable (hb : base % 16 = 0)
include hb

theorem tileColumns_stride (hs : tileStride col st % 16 ≠ 0) : tileColumns limit i col base st = .error (fAlign 1 0 4 (base + tileStride col st)) := by
  unfold tileColumns
  rw [if_neg (not_not.mpr hb), tileStride_misaligned, if_pos (decide_eq_true hs)]
  cases col with
  | false => simp [tileStride] at hs
  | true => rfl

variable (hs : tileStride col st % 16 = 0)
include hs

theorem tileColumns_narrow (hw : ¬ 64 ≤ tileStride col st) : tileColumns limit i col base st = .error (fEncoding false 3 i.wordOf) := by
  have hbad : (col && decide (st < 64)) = true := (tileStrideBad_eq col st).trans (decide_eq_true (Nat.not_le.mp hw))
  unfold tileColumns
  rw [if_neg (not_not.mpr hb), tileStride_misaligned, if_neg (by simpa using hs), if_pos hbad]

variable (hw : 64 ≤ tileStride col st)
include hw

/-- The columns of an aligned tile whose stride is wide enough, if `find?` finds none of them past the size. -/
theorem tileColumns_find {r : Option Nat} (h : ((List.range 32).map (fun j => base + j * tileStride col st)).find? (fun a => limit < a + 64) = r) :
    tileColumns limit i col base st = r.elim (.ok ((List.range 32).map (fun j => base + j * tileStride col st))) (fun a => .error (fScratch a)) := by
  have hbad : (col && decide (st < 64)) = false := (tileStrideBad_eq col st).trans (decide_eq_false (Nat.not_lt.mpr hw))
  unfold tileStride at h
  unfold tileColumns
  rw [if_neg (not_not.mpr hb), tileStride_misaligned, if_neg (by simpa using hs), hbad, if_neg Bool.false_ne_true]
  simp only [h]
  cases r <;> rfl

theorem tileColumns_good (hf : base + 31 * tileStride col st + 64 ≤ limit) : tileColumns limit i col base st = .ok ((List.range 32).map (fun j => base + j * tileStride col st)) := by
  refine tileColumns_find hb hs hw (find?_none_of fun a ha => ?_)
  obtain ⟨j, hj, rfl⟩ := List.mem_map.mp ha
  have : j * tileStride col st ≤ 31 * tileStride col st := Nat.mul_le_mul_right _ (Nat.le_of_lt_succ (List.mem_range.mp hj))
  simp only [decide_eq_false_iff_not]
  omega

/-- The lowest column past the size is the one that stops the group. -/
theorem tileColumns_past {j : Nat} (hj : j < 32) (hp : limit < base + j * tileStride col st + 64) (hl : ∀ k, k < j → base + k * tileStride col st + 64 ≤ limit) :
    tileColumns limit i col base st = .error (fScratch (base + j * tileStride col st)) := by
  have hfind : (List.range 32).find? (fun k => decide (limit < base + k * tileStride col st + 64)) = some j :=
    List.find?_range_eq_some.mpr ⟨decide_eq_true hp, List.mem_range.mpr hj, fun k hk => by simpa using hl k hk⟩
  refine tileColumns_find hb hs hw (r := some (base + j * tileStride col st)) ?_
  rw [List.find?_map]
  simp only [Function.comp_def, hfind, Option.map_some]

end

/-! #### O11 -/

section
variable {o : FOps} {s : State} {gr : Grant}

theorem exec_lds_ready (hr : Ready (.lds o) s gr) {l : List (Nat × Nat)} (hl : (s.seen gr).spAddrs (s.begun gr (.lds o)) o (accBytes o) ((s.seen gr).active o.g) = l)
    (hf : ∀ x ∈ l, x.2 % accBytes o = 0 ∧ x.2 + accBytes o ≤ (s.team (s.group gr.gid).team).scratchSize)
    (hp : (s.begun gr (.lds o)).spPoison (s.group gr.gid).team (spBytes (accBytes o) (l.map (·.2))) = none) :
    exec (.lds o) s = .next (((s.begun gr (.lds o)).scratchLoad (s.seen gr) (.lds o) o.d.toNat (fld o.ox 5 3) l).written (s.seen gr) (.lds o)) := by
  refine exec_of_effect hr (exec_lds o s) ?_
  subst hl
  have hc : checkSp (s.team (s.seen gr).g.team).scratchSize (accBytes o) _ = none := checkSp_eq_none hf
  have hp : (s.begun gr (.lds o)).spPoison (s.seen gr).g.team _ = none := hp
  simp only [State.begin_team, hc, hp]

/-- A load of lanes, or of none. -/
theorem lds_starts (hr : Ready (.lds o) s gr) {l : List (Nat × Nat)} (hl : (s.seen gr).spAddrs (s.begun gr (.lds o)) o (accBytes o) ((s.seen gr).active o.g) = l)
    (hf : ∀ x ∈ l, x.2 % accBytes o = 0 ∧ x.2 + accBytes o ≤ (s.team (s.group gr.gid).team).scratchSize)
    (hp : (s.begun gr (.lds o)).spPoison (s.group gr.gid).team (spBytes (accBytes o) (l.map (·.2))) = none) :
    Starts (.lds o) s gr (if l = [] then none else some 0)
      (.cells (l.flatMap (fun x => (loadWords (fld o.ox 5 3) (s.scratchNum (s.seen gr) x.2 (accBytes o))).zipIdx.map (fun w => (⟨0, 32 * (o.d.toNat + w.2) + x.1⟩, w.1))))) := by
  rw [accBytes_eq]
  exact starts_scratchLoad (exec_lds_ready hr hl hf hp)

/-- The columns of the tile that TLD and TST name. -/
def tileOf (s : State) (gr : Grant) (i : Instr) (o : FOps) : Except Flt (List Nat) :=
  tileColumns (s.team (s.group gr.gid).team).scratchSize i (o.ox.getLsbD 0) ((s.group gr.gid).rs o.a.toNat).toNat ((s.group gr.gid).rs o.b.toNat).toNat

/-- TLD and TST stop where the columns of their tile do. -/
theorem tile_traps {i : Instr} (hi : i = .tld o ∨ i = .tst o) (hr : Ready i s gr) (hm : (s.seen gr).active o.g ≠ 0) {f : Flt} (hf : tileOf s gr i o = .error f) (hc : f.cause ≠ 16) : Traps i s gr f := by
  rcases hi with rfl | rfl
  · refine traps_of_effect hr (exec_tld o s) ?_ hc
    rw [if_neg hm, State.begin_team]
    unfold tileOf at hf
    simp only [State.seen, State.issuer, hf]
  · refine traps_of_effect hr (exec_tst o s) ?_ hc
    rw [if_neg hm, State.begin_team]
    unfold tileOf at hf
    simp only [State.seen, State.issuer, hf]

/-- Without an active lane they stop for a narrow stride alone (01 R13). -/
theorem tile_narrow {i : Instr} (hi : i = .tld o ∨ i = .tst o) (hr : Ready i s gr) (hm : (s.seen gr).active o.g = 0)
    (hw : ¬ 64 ≤ tileStride (o.ox.getLsbD 0) ((s.group gr.gid).rs o.b.toNat).toNat) : Traps i s gr (fEncoding false 3 i.wordOf) := by
  have hbad : tileStrideBad (o.ox.getLsbD 0) ((s.seen gr).g.rs o.b.toNat).toNat = true := by rw [tileStrideBad_eq]; exact decide_eq_true (Nat.not_le.mp hw)
  rcases hi with rfl | rfl
  · exact traps_of_effect hr (exec_tld o s) (by rw [if_pos hm, if_pos hbad]) (by simp [fEncoding])
  · exact traps_of_effect hr (exec_tst o s) (by rw [if_pos hm, if_pos hbad]) (by simp [fEncoding])

theorem tld_starts (hr : Ready (.tld o) s gr) (hm : (s.seen gr).active o.g ≠ 0) {f : Nat → Nat} (hf : tileOf s gr (.tld o) o = .ok ((List.range 32).map f))
    (hp : (s.begun gr (.tld o)).spPoison (s.group gr.gid).team (spBytes 64 ((List.range 32).map f)) = none) :
    Starts (.tld o) s gr (some 0) (.cells ((List.range 32).flatMap (fun j => (List.range 16).map (fun k =>
      (⟨3, 512 * o.d.toNat + 16 * j + k⟩, BitVec.ofNat 32 (s.scratchNum (s.seen gr) (f j + 4 * k) 4)))))) := by
  refine starts_of_way (v := (s.begun gr (.tld o)).spRead (s.group gr.gid).team (spBytes 64 ((List.range 32).map f))) (parts := 0) (exec_of_effect hr (exec_tld o s) ?_)
    (.of_book (.spRead ..)) (.refl _) (.inr nofun)
  have hp : (s.begun gr (.tld o)).spPoison (s.seen gr).g.team _ = none := hp
  have hf : tileColumns (s.team (s.seen gr).g.team).scratchSize (.tld o) (o.ox.getLsbD 0) ((s.seen gr).g.rs o.a.toNat).toNat ((s.seen gr).g.rs o.b.toNat).toNat = _ := hf
  simp only [hm, if_false, State.begin_team, hf, hp, zipIdx_map_range, List.flatMap_map, State.begin_scratchNum]
  rfl

theorem tst_buffers (hr : Ready (.tst o) s gr) (hm : (s.seen gr).active o.g ≠ 0) {f : Nat → Nat} (hf : tileOf s gr (.tst o) o = .ok ((List.range 32).map f)) :
    Buffers (.tst o) s gr .scratch false 0 0 ((List.range 32).flatMap (fun j => (List.range 16).flatMap (fun k =>
      bytesAt (f j + 4 * k) ((s.group gr.gid).rt o.d.toNat (16 * j + k)).toNat 4))) := by
  refine buffers_putStore (who := []) (exec_of_effect hr (exec_tst o s) ?_)
  have hf : tileColumns (s.team (s.seen gr).g.team).scratchSize (.tst o) (o.ox.getLsbD 0) ((s.seen gr).g.rs o.a.toNat).toNat ((s.seen gr).g.rs o.b.toNat).toNat = _ := hf
  simp only [hm, if_false, State.begin_team, hf, zipIdx_map_range, List.flatMap_map]
  rfl

end

/-- Settles O11: a scratchpad word that passes the checks of its addresses reads at its issue or enters the buffer; the lowest lane, or the lowest
column, that fails stops it. -/
theorem scratchAndTiles : Obligations.ScratchAndTiles := by
  unfold Obligations.ScratchAndTiles
  refine ⟨fun o s gr => ?_, fun o s gr => ?_⟩
  · intro c g size m limit at_ fits words
    refine ⟨fun hr hm hf hp => ?_, fun hr hm => ?_, fun before after L a i hi hr hat hb hbad => ?_⟩
    · have h := lds_starts hr rfl hf hp
      rwa [if_neg (Iss.spAddrs_eq_nil.not.mpr hm)] at h
    · exact lds_starts hr (Iss.spAddrs_eq_nil.mpr hm) (List.forall_mem_nil _) (by unfold State.spPoison State.errorFault; simp [spBytes, Team.spWords])
    · have hc : checkSp (s.team (s.seen gr).g.team).scratchSize (accBytes o) ((s.seen gr).spAddrs (s.begun gr i) o (accBytes o) ((s.seen gr).active o.g)) =
          some (if a % size ≠ 0 then fAlign 1 L (lg2 size) a else fScratch a) :=
        (congrArg (checkSp _ _) hat).trans (checkSp_of_bad hb hbad)
      rcases hi with rfl | rfl
      · exact traps_of_effect hr (exec_lds o s) (by simp only [State.begin_team, hc]) (badSp_cause _ _ _)
      · exact traps_of_effect hr (exec_sts o s) (by simp only [State.begin_team, hc]) (badSp_cause _ _ _)
  · intro c g m D A base stride wide good tile from_
    have hgood {i : Instr} (h : good) : tileOf s gr i o = .ok ((List.range 32).map (fun j => base + j * stride)) := by
      obtain ⟨hb, hs, hw, hf⟩ := h
      exact tileColumns_good hb hs hw hf
    have hwide (h : wide) : tileStrideBad (o.ox.getLsbD 0) ((s.seen gr).g.rs o.b.toNat).toNat = false := (tileStrideBad_eq ..).trans (decide_eq_false (Nat.not_lt.mpr h))
    refine ⟨fun hr hm hg hp => tld_starts hr hm (hgood hg) hp, fun hr hm hw => ?_, fun hr hm hg => tst_buffers hr hm (hgood hg), fun hr hm hw => ?_, fun i hi hr hm hb => ?_,
      fun i hi hr hm hb hs => ?_, fun i j hi hr hm hb hs hw hj hp hl => ?_, fun i hi hr hw h => ?_, fun hr => ?_⟩
    · exact starts_of_way (v := s.begun gr (.tld o)) (parts := 0) (exec_of_effect hr (exec_tld o s) (by rw [if_pos hm, hwide hw]; rfl)) (.refl _) (.refl _) (.inl (hr.carried rfl))
    · refine passes_of_went (t := s.begun gr (.tst o)) (exec_of_effect hr (exec_tst o s) (by rw [if_pos hm, hwide hw]; rfl)) (.refl _) ⟨?_, ?_⟩
      · rw [State.mem_written, State.begin_mem]
      · rw [State.after, State.group_written, State.group_begun]
        exact Group.Issued.buf ((s.seen gr).issued_eq _ _)
    · exact tile_traps hi hr hm (tileColumns_base hb) (by simp [fAlign])
    · exact tile_traps hi hr hm (tileColumns_stride hb hs) (by simp [fAlign])
    · exact tile_traps hi hr hm (tileColumns_past hb hs hw hj hp hl) (by simp [fScratch, fRegister])
    · by_cases hm : m = 0
      · exact tile_narrow hi hr hm hw
      · obtain ⟨hb, hs⟩ := h.resolve_left hm
        exact tile_traps hi hr hm (tileColumns_narrow hb hs hw) (by simp [fEncoding])
    · exact starts_of_way (exec_of_effect hr (exec_tmov o s) rfl) (.refl _) (.refl _) (.inr nofun)

end Sys2Proof.Machine
end

-- ==== Palettes (O12) ====
section
/-! SUPPORT. What an access leaves of the teams, and what the moves of palettes do to a team and to its groups (04 R76 to R86); then O12. -/

namespace Sys2Proof.Machine

/-! #### The teams on the way of an access

An access, a fault and a commit change no team, but for the bytes of a scratchpad that a commit writes (16 R297). -/

/-- Every team stands as it was, but for the bytes of its scratchpad. -/
structure State.SameTeams (s t : State) : Prop where
  team (k : Nat) : t.team k = { s.team k with scratch := (t.team k).scratch }

namespace State.SameTeams

theorem of_teams {s t : State} (h : t.teams = s.teams) : s.SameTeams t := ⟨fun k => by unfold State.team; rw [h]⟩

theorem refl (s : State) : s.SameTeams s := ⟨fun _ => rfl⟩

theorem trans {s t u : State} (h : s.SameTeams t) (k : t.SameTeams u) : s.SameTeams u := ⟨fun n => by rw [k.team n, h.team n]⟩

theorem ite {s t u : State} {p : Prop} {_ : Decidable p} (ht : s.SameTeams t) (hu : s.SameTeams u) : s.SameTeams (if p then t else u) := by split <;> assumption

theorem foldl {α : Type} {f : State → α → State} (h : ∀ (s : State) (a : α), s.SameTeams (f s a)) (l : List α) (s : State) : s.SameTeams (l.foldl f s) := by
  induction l generalizing s with
  | nil => exact refl s
  | cons a l ih => exact (h s a).trans (ih _)

theorem of_book {s t : State} (h : Book s t) : s.SameTeams t := of_teams (by rw [h.rest])

section
variable {s t : State} (h : s.SameTeams t) (k : Nat)
include h

theorem pals : (t.team k).pals = (s.team k).pals := by rw [h.team k]
theorem palCap : (t.team k).palCap = (s.team k).palCap := by rw [h.team k]
theorem palGen : (t.team k).palGen = (s.team k).palGen := by rw [h.team k]
theorem palQueue : (t.team k).palQueue = (s.team k).palQueue := by rw [h.team k]
theorem palette (j : Nat) : (t.team k).palette j = (s.team k).palette j := congrArg (tget _ j) (h.pals k)

end

variable (s : State)

theorem modGroup (k : Nat) (f : Group → Group) : s.SameTeams (s.modGroup k f) := of_teams rfl
theorem modContext (k : Nat) (f : Context → Context) : s.SameTeams (s.modContext k f) := of_teams rfl
theorem modSlice (k : Nat) (f : Slice → Slice) : s.SameTeams (s.modSlice k f) := of_teams rfl
theorem modDie (k : Nat) (f : Die → Die) : s.SameTeams (s.modDie k f) := of_teams rfl
theorem putOp (n : Nat) (o : Op) : s.SameTeams (s.putOp n o) := of_teams rfl
theorem putReq (n : Nat) (r : Req) : s.SameTeams (s.putReq n r) := of_teams rfl
theorem setL1 (core tenant line : Nat) (l : L1Line) : s.SameTeams (s.setL1 core tenant line l) := of_teams rfl
theorem delL1 (core tenant line : Nat) : s.SameTeams (s.delL1 core tenant line) := of_teams rfl
theorem dropFills (core tenant : Nat) (p : Nat → Bool) : s.SameTeams (s.dropFills core tenant p) := of_teams rfl
theorem addReq (r : Req) : s.SameTeams (s.addReq r).2 := of_teams rfl
theorem logMem (ctx slice unit sector : Nat) (lasting : Bool) : s.SameTeams (s.logMem ctx slice unit sector lasting) := of_teams rfl

theorem raise (ctx : Nat) (f : Flt) (a : At) : s.SameTeams (s.raise ctx f a) := by
  obtain ⟨g, c, h⟩ := s.raise_eq ctx f a
  exact of_teams (by rw [h])

theorem raiseEngine (ctx : Nat) (f : Flt) (r : EngRec) : s.SameTeams (s.raiseEngine ctx f r) := (raise s ctx f _).trans (modContext ..)
theorem logLasting (ctx die tenant core : Nat) (f : Flt) : s.SameTeams (s.logLasting ctx die tenant core f) := of_teams (State.SameWork.logLasting ..).teams
theorem countCore (core ctx src n : Nat) : s.SameTeams (s.countCore core ctx src n) := of_book (.countCore ..)
theorem readWords (core ctx unit : Nat) (ws : List (FileWord × Nat)) : s.SameTeams (s.readWords core ctx unit ws) := of_book (.readWords ..)
theorem sendDirty (core tenant line : Nat) (l : L1Line) : s.SameTeams (s.sendDirty core tenant line l).2 := of_teams (State.SameWork.sendDirty ..).teams
theorem roomL1 (core : Nat) : s.SameTeams (s.roomL1 core) := of_teams (State.SameWork.roomL1 ..).teams
theorem choose (n : Nat) : s.SameTeams (s.choose n).2 := of_teams (State.SameWork.choose ..).teams
theorem logRead (ctx slice : Nat) (f : Flt) : s.SameTeams (s.logRead ctx slice f) := .ite (logMem ..) (refl s)

theorem countDie (d ctx src n : Nat) : s.SameTeams (s.countDie d ctx src n) := by
  unfold State.countDie
  split
  · exact .ite (refl s) (modDie ..)
  · exact refl s

/-! The slices: what a read, a walk and a write leave behind. -/

theorem memRetried (walker : Bool) (ctx slice : Nat) (sectors : List Nat) : s.SameTeams (s.memRetried walker ctx slice sectors) :=
  .ite (refl s) (.foldl (fun s _ => .ite ((modDie ..).trans (logMem ..)) (refl s)) _ _)

theorem accessAt (ma : Nat) (page : Option (Nat × Nat)) : s.SameTeams (s.accessAt ma page) := .ite (modDie ..) (refl s)

theorem walkDone (ctx slice va : Nat) (local_ : Bool) (n : Need) (acc : Acc) : s.SameTeams (s.walkDone ctx slice va local_ n acc) := by
  have h (l m : List Nat) : s.SameTeams ((s.memRetried true ctx slice l).walkAccesses ctx slice va m) := (memRetried s ..).trans (.foldl (fun s _ => accessAt s ..) _ _)
  unfold State.walkDone
  refine .ite (refl s) ?_
  dsimp only
  split
  · exact (h ..).trans (modSlice ..)
  · exact h ..

theorem missed (ctx slice va : Nat) (local_ : Bool) (n : Need) (acc : Acc) : s.SameTeams (s.missed ctx slice va local_ n acc) :=
  (countDie s ..).trans ((State.SameTeams.ite (refl _) (countDie ..)).trans (walkDone ..))

theorem peekedLine (src : Option Nat) (ctx : Nat) (nd : Need) (acc : Acc) (va n : Nat) : s.SameTeams (s.peekedLine src ctx nd acc va n) := by
  have take {p : Prop} [Decidable p] {t : State} (h : s.SameTeams t) (l : List Nat) (slice ma : Nat) (page : Option (Nat × Nat)) :
      s.SameTeams (if p then t else (t.memRetried false ctx slice l).accessAt ma page) := .ite h (h.trans ((memRetried ..).trans (accessAt ..)))
  unfold State.peekedLine
  dsimp only
  split
  · exact refl s
  · exact take (.ite (refl s) (countDie ..)) ..
  · split
    · exact missed ..
    · exact take (missed ..) ..

theorem slicePeeked (ctx : Nat) (nd : Need) (acc : Acc) (va n : Nat) (src : Option Nat) : s.SameTeams (s.slicePeeked ctx nd acc va n src) := by
  have runs (l : List (Nat × Nat)) (t : State) : t.SameTeams (State.peekedRuns src ctx nd acc l t) := by
    induction l generalizing t with
    | nil => exact refl t
    | cons r l ih =>
      unfold State.peekedRuns
      split
      · exact peekedLine ..
      · exact (peekedLine ..).trans (ih _)
  refine State.SameTeams.trans ?_ (runs _ _)
  unfold State.logPeek
  split
  · exact logRead ..
  · exact refl s

theorem dropLine (slice : Nat) (l : L2Line) : s.SameTeams (s.dropLine slice l) := by
  have write : s.SameTeams (s.writeMem slice l) := by
    unfold State.writeMem
    refine .ite (refl s) ?_
    split
    · exact .foldl (fun s _ => raiseEngine s ..) _ _
    · exact (accessAt ..).trans (of_teams rfl)
  have h : s.SameTeams ((s.writeMem slice l).modSlice slice (fun x => (if l.prefetched then x.countPf 3 l.tenant else x).dropLine l.tenant l.line)) :=
    write.trans (modSlice ..)
  exact .ite (h.trans (countDie ..)) h

theorem openLine (slice ctx line : Nat) (t : Tlb) : s.SameTeams (s.openLine slice ctx line t).2 := by
  unfold State.openLine
  dsimp only
  split
  · exact refl s
  · refine .ite (refl s) ?_
    split
    · exact (choose ..).trans (dropLine ..)
    · exact choose ..

variable {s}

theorem slicePoke {t : State} {ctx line : Nat} {bs : Table Byte} {n : Need} {acc : Acc} {src : Option Nat} (h : s.slicePoke ctx line bs n acc src = .ok t) : s.SameTeams t := by
  unfold State.slicePoke at h
  dsimp only at h
  split at h
  · cases h
  · cases h; exact modSlice ..
  · split at h
    · cases h
    · cases h
      exact ((missed ..).trans (openLine ..)).trans (modSlice ..)

theorem slicePokes {t : State} {ctx : Nat} {nd : Need} {acc : Acc} {l : Table (Table Byte)} {src : Option Nat} (h : s.slicePokes ctx nd acc l src = .ok t) : s.SameTeams t := by
  have lines {l : Table (Table Byte)} {s : State} (h : s.pokeLines src ctx nd acc l = .ok t) : s.SameTeams t := by
    induction l generalizing s with
    | nil => cases h; exact refl _
    | cons x l ih =>
      unfold State.pokeLines at h
      split at h
      · cases h
      next hx => exact (slicePoke hx).trans (ih h)
  unfold State.slicePokes at h
  split at h
  · cases h
  · exact lines h

variable (s)

theorem raceSector (o : Op) (lane : Nat) (write : Bool) (scope va : Nat) : s.SameTeams (s.raceSector o lane write scope va) := by
  unfold State.raceSector
  extract_lets ctx gid d sh die r t s0 at_
  have ht : s.SameTeams t := slicePeeked ..
  refine .ite (refl s) ?_
  split
  · exact ht
  · extract_lets w escope int wg n lrs diff covered here race kind bs s1
    have h0 : t.SameTeams s0 := modContext ..
    have h1 : t.SameTeams s1 := by
      refine .ite (refl t) (h0.trans (.ite ?_ (raise ..)))
      split
      next hp => exact (slicePokes hp).trans (modContext ..)
      · exact refl _
    clear_value s1
    refine (ht.trans h1).trans (.ite ?_ (refl s1))
    split
    next hp => exact (slicePokes hp).trans (modContext ..)
    · exact refl _

theorem raceReq (r : Req) (write : Bool) (offs : List Nat) : s.SameTeams (s.raceReq r write offs) := by
  refine .ite (refl s) (.foldl (fun s n => ?_) _ _)
  unfold State.raceOp
  split
  · exact .ite (.foldl (fun s _ => raceSector s ..) _ _) (refl s)
  · exact refl s

/-! The cores: operations, lines of an L1, requests, and the commit of a region. -/

theorem partsDone (ops : List Nat) : s.SameTeams (s.partsDone ops) := by
  refine .foldl (fun s n => ?_) _ _
  unfold State.partDone
  split
  · exact refl s
  · exact .ite (.ite (of_teams rfl) (of_teams rfl)) (putOp ..)

theorem reqDone (n : Nat) (r : Req) : s.SameTeams (s.reqDone n r) := (State.SameTeams.of_teams rfl : s.SameTeams (s.delReq n)).trans (partsDone ..)

theorem handBytes (r : Req) (offs : List Nat) (f : Nat → Byte) : s.SameTeams (s.handBytes r offs f) := by
  refine .foldl (fun s n => ?_) _ _
  have deliver (s : State) (n : Nat) (bs : List (Nat × Byte)) : s.SameTeams (s.deliver n bs) := by
    unfold State.deliver
    split
    · exact refl s
    · exact putOp ..
  have drawn (k : Nat) : s.SameTeams { s with draws := k } := of_teams rfl
  exact .ite ((drawn _).trans (deliver ..)) (deliver ..)

theorem yieldLine (core tenant line : Nat) (pools : Bool) : s.SameTeams (s.yieldLine core tenant line pools) := by
  unfold State.yieldLine
  split
  · exact .ite (refl s) (((sendDirty ..).trans (.ite (setL1 ..) (delL1 ..))).trans (dropFills ..))
  · exact dropFills ..

theorem mendL1 (core tenant line : Nat) (offs : List Nat) : s.SameTeams (s.mendL1 core tenant line offs) := .ite (refl s) (of_teams rfl)

theorem leave (n : Nat) (r : Req) : s.SameTeams (s.leave n r) := by
  unfold State.leave
  split
  · exact (State.SameTeams.ite (countCore ..) (refl s)).trans (putReq ..)
  · exact putReq ..

theorem maintain (n : Nat) (r : Req) (inv l2 : Bool) : s.SameTeams (s.maintain n r inv l2) := by
  have go {p : Prop} [Decidable p] {t : State} (h : s.SameTeams t) (r : Req) : s.SameTeams (if p then t.leave n r else t.reqDone n r) := h.trans (.ite (leave ..) (reqDone ..))
  unfold State.maintain
  dsimp only
  split
  · exact go (refl s) _
  · exact .ite (reqDone ..) (go ((sendDirty ..).trans (.ite ((delL1 ..).trans (dropFills ..)) (setL1 ..))) _)

theorem raiseOps (n : Nat) (r : Req) (f : Flt) : s.SameTeams (s.raiseOps n r f) := by
  unfold State.raiseOps
  split
  · exact raise ..
  · refine .foldl (fun s _ => ?_) _ _
    split
    · exact .ite (raise ..) (raise ..)
    · exact refl s

theorem hitL1 (n : Nat) (r : Req) (l : L1Line) (have_ : Nat) {go : State → State} (hgo : ∀ t : State, t.SameTeams (go t)) : s.SameTeams (s.hitL1 n r l have_ go) := by
  unfold State.hitL1
  dsimp only
  split
  · exact ((logLasting ..).trans (putReq ..)).trans (raiseOps ..)
  · exact ((readWords ..).trans (handBytes ..)).trans (hgo _)

theorem send (n : Nat) (r : Req) : s.SameTeams (s.send n r) := by
  unfold State.send
  dsimp only
  split
  case h_1 | h_2 =>
    split
    · exact .ite ((yieldLine ..).trans (leave ..)) (hitL1 _ _ _ _ _ (fun t => .ite ((raceReq ..).trans (reqDone ..)) (leave ..)))
    · exact leave ..
  · split
    · exact .ite ((((setL1 ..).trans (mendL1 ..)).trans (raceReq ..)).trans (reqDone ..)) (leave ..)
    · exact leave ..
  · exact (State.SameTeams.foldl (fun s _ => yieldLine s ..) _ _).trans (leave ..)
  · exact (yieldLine ..).trans (leave ..)
  · exact (yieldLine ..).trans (leave ..)
  · exact (yieldLine ..).trans (leave ..)
  · refine .ite (.ite (leave ..) (reqDone ..)) ?_
    split
    · exact .ite ((putReq ..).trans (maintain ..)) (leave ..)
    · exact leave ..
  · split
    · exact .ite (reqDone ..) (leave ..)
    · exact leave ..
  · exact leave ..
  · exact leave ..
  · exact putReq ..

theorem enter (n : Nat) (r : Req) (again : Bool) : s.SameTeams (s.enter n r again) := by
  unfold State.enter
  split
  · exact send ..
  · exact putReq ..

theorem request1 (r : Req) (behind : Option Nat) : s.SameTeams (s.request1 r behind) := by
  unfold State.request1
  dsimp only
  split
  · exact (addReq ..).trans (enter ..)
  · exact (addReq s r).trans (putReq ..)
  · exact addReq ..

theorem flushCombine (cl : Nat) (p : Combine → Bool) : s.SameTeams (s.flushCombine cl p) :=
  .foldl (fun s _ => (State.SameTeams.of_teams rfl : s.SameTeams (s.modCluster cl _)).trans (request1 ..)) _ _

theorem request (r : Req) (behind : Option Nat) : s.SameTeams (s.request r behind) := (flushCombine ..).trans (request1 ..)

theorem writeScratch (team : Nat) (bs : List (Nat × Byte)) : s.SameTeams (s.writeScratch team bs) := by
  refine State.SameTeams.trans ⟨fun k => ?_⟩ (.ite (refl _) (of_teams rfl))
  by_cases h : k = team
  · subst h; rw [State.team_modTeam_self]
  · rw [State.team_modTeam_ne _ _ _ _ h]

theorem commitEntry (gid : Nat) (retire : Bool) (e : BufEntry) : s.SameTeams (s.commitEntry gid retire e) := by
  unfold State.commitEntry
  dsimp only
  split
  · exact (writeScratch ..).trans (partsDone ..)
  · exact .ite (partsDone ..) (request ..)
  · exact request ..

theorem commitRegion (gid : Nat) (slotB retire : Bool) : s.SameTeams (s.commitRegion gid slotB retire) := by
  unfold State.commitRegion
  extract_lets g s1 s2
  have h1 : s.SameTeams s1 := of_teams rfl
  exact (h1.trans (.foldl (fun s e => commitEntry s gid retire e) _ _)).trans (modGroup ..)

end State.SameTeams

/-! #### The palettes of a team -/

theorem Team.palette_modPal (t : Team) (k j : Nat) (f : Palette → Palette) : (t.modPal k f).palette j = if j = k then f (t.palette k) else t.palette j := tget_tput ..

theorem Team.palette_modPal_self (t : Team) (k : Nat) (f : Palette → Palette) : (t.modPal k f).palette k = f (t.palette k) := by simp [palette_modPal]

/-- A change of a palette that leaves its entrants leaves those of every palette. -/
theorem Team.entrants_modPal (t : Team) (k j : Nat) {f : Palette → Palette} (hf : ∀ p, (f p).entrants = p.entrants := by intro _; rfl) : ((t.modPal k f).palette j).entrants = (t.palette j).entrants := by
  rw [palette_modPal]
  split
  next h => rw [hf, h]
  · rfl

/-- A valid handle names the palette of its low bits (04 R77). -/
theorem Team.handle_eq {t : Team} {h : Word} {k : Nat} (e : t.handle h = some k) : nbits h.toNat 0 3 = k := by
  unfold Team.handle at e
  dsimp only at e
  split at e
  · exact Option.some.inj e
  · cases e

/-! #### Lines of palettes and the groups -/

namespace State.Keeps

variable (s : State)

theorem evictL1 (core tenant line : Nat) (l : L1Line) : s.Keeps (s.evictL1 core tenant line l) := (sendDirty ..).trans (delL1 ..)

theorem roomL1 (core : Nat) : s.Keeps (s.roomL1 core) := by
  unfold State.roomL1
  dsimp only
  refine .ite (refl s) ?_
  split
  · exact (choose ..).trans (evictL1 ..)
  · exact choose ..

theorem releaseLine (team line : Nat) (pin : Bool) : s.Keeps (s.releaseLine team line pin) := by
  unfold State.releaseLine
  extract_lets t
  split
  · exact refl s
  next l _ =>
    extract_lets pool w s1
    have hw : s.Keeps w.2 := sendDirty ..
    have h1 : s.Keeps s1 := by
      unfold s1
      split
      · refine hw.trans (.foldl (fun s m => ?_) _ _)
        split
        · exact putReq ..
        · exact refl s
      · exact hw
    exact .ite (refl s) (.ite ((h1.trans (delL1 ..)).trans (dropFills ..)) (h1.trans (setL1 ..)))

theorem fillLine (team slot line : Nat) : s.Keeps (s.fillLine team slot line) := by
  unfold State.fillLine
  extract_lets t l s0 s1 need
  have h0 : s.Keeps s0 := .ite (roomL1 ..) (refl s)
  have h1 : s.Keeps s1 := h0.trans (setL1 ..)
  exact .ite h1 (h1.trans (request ..))

end State.Keeps

namespace State.SameTeams

variable (s : State)

theorem releaseLine (team line : Nat) (pin : Bool) : s.SameTeams (s.releaseLine team line pin) := by
  unfold State.releaseLine
  extract_lets t
  split
  · exact refl s
  next l _ =>
    extract_lets pool w s1
    have hw : s.SameTeams w.2 := sendDirty ..
    have h1 : s.SameTeams s1 := by
      unfold s1
      split
      · refine hw.trans (.foldl (fun s m => ?_) _ _)
        split
        · exact putReq ..
        · exact refl s
      · exact hw
    exact .ite (refl s) (.ite ((h1.trans (delL1 ..)).trans (dropFills ..)) (h1.trans (setL1 ..)))

theorem fillLine (team slot line : Nat) : s.SameTeams (s.fillLine team slot line) := by
  unfold State.fillLine
  extract_lets t l s0 s1 need
  have h0 : s.SameTeams s0 := .ite (roomL1 ..) (refl s)
  have h1 : s.SameTeams s1 := h0.trans (setL1 ..)
  exact .ite h1 (h1.trans (request ..))

end State.SameTeams

/-! #### Palettes admitted and filled

The moves of a team's palettes (04 R80) leave the groups, and count no entrant. -/

/-- `h` is `g` but for the completion flags, the path counters, the engine scope, the stop record and the time since which it waits for its palette. -/
def Group.Seated (g h : Group) : Prop := h = { g with flags := h.flags, paths := h.paths, engScope := h.engScope, stop := h.stop, palSince := h.palSince }

namespace Group.Seated

theorem refl (g : Group) : g.Seated g := rfl

theorem trans {g h k : Group} (a : g.Seated h) (b : h.Seated k) : g.Seated k := by
  unfold Seated at a b ⊢
  rw [b, a]

theorem of_kept {g h : Group} (k : g.Kept h) : g.Seated h := by rw [k]; rfl

variable {g h : Group} (k : g.Seated h)
include k

theorem stays : g.Stays h := by rw [k]; exact ⟨⟨rfl, rfl, rfl, rfl, rfl⟩, rfl, rfl⟩

theorem buf : h.buf = g.buf := by rw [k]

theorem pal : h.pal = g.pal := by rw [k]

end Group.Seated

/-- The groups are kept so, and every palette of the team has the entrants it had. -/
structure State.Admits (team : Nat) (s t : State) : Prop where
  groups (n : Nat) : (s.group n).Seated (t.group n)
  entrants (j : Nat) : ((t.team team).palette j).entrants = ((s.team team).palette j).entrants

namespace State.Admits

variable {team : Nat}

theorem refl (s : State) : s.Admits team s := ⟨fun _ => .refl _, fun _ => rfl⟩

theorem trans {s t u : State} (h : s.Admits team t) (k : t.Admits team u) : s.Admits team u := ⟨fun n => (h.groups n).trans (k.groups n), fun j => (k.entrants j).trans (h.entrants j)⟩

theorem of_teams {s t : State} (hk : s.Keeps t) (ht : s.SameTeams t) : s.Admits team t := ⟨fun n => .of_kept (hk.groups n), fun j => congrArg Palette.entrants (ht.palette team j)⟩

theorem foldl {α : Type} {f : State → α → State} (h : ∀ (s : State) (a : α), s.Admits team (f s a)) (l : List α) (s : State) : s.Admits team (l.foldl f s) := by
  induction l generalizing s with
  | nil => exact refl s
  | cons a l ih => exact (h s a).trans (ih _)

theorem modTeam (s : State) {f : Team → Team} (h : ∀ j, ((f (s.team team)).palette j).entrants = ((s.team team).palette j).entrants) : s.Admits team (s.modTeam team f) :=
  ⟨fun _ => .refl _, fun j => by rw [State.team_modTeam_self, h j]⟩

/-- The group waits for its palette from now on. -/
theorem awaits (s : State) (gid : Nat) (x : Option Nat) : s.Admits team (s.modGroup gid (fun g => { g with palSince := x })) := by
  refine ⟨fun n => ?_, fun _ => rfl⟩
  by_cases h : n = gid
  · subst h; rw [State.group_modGroup_self]; rfl
  · rw [State.group_modGroup_ne _ _ _ _ h]; exact .refl _

variable (s : State)

theorem countCore (core ctx src n : Nat) : s.Admits team (s.countCore core ctx src n) := .of_teams (.countCore ..) (.countCore ..)

theorem completeFill (slot : Nat) : s.Admits team (s.completeFill team slot) := by
  unfold State.completeFill
  extract_lets t0 again t rs t1 s1
  have ht (j : Nat) : (t.palette j).entrants = (t0.palette j).entrants := Team.entrants_modPal ..
  have h1 (j : Nat) : (t1.palette j).entrants = (t0.palette j).entrants := by
    refine Eq.trans ?_ (ht j)
    have hrs : (rs.palette j).entrants = (t.palette j).entrants := Team.entrants_modPal ..
    unfold t1
    split
    · exact Team.entrants_modPal ..
    · exact hrs
  have hs : s.Admits team s1 := modTeam s h1
  split
  · exact hs
  · exact hs.trans (countCore ..)

theorem admitGroup (slot starter : Nat) (E rem : List Nat) : s.Admits team (s.admitGroup team slot starter E rem) := by
  unfold State.admitGroup
  extract_lets t miss t1 t2 s1
  have h1 (j : Nat) : (t1.palette j).entrants = (t.palette j).entrants := by
    unfold t1
    generalize t = u
    induction E generalizing u with
    | nil => rfl
    | cons x E ih => exact (ih _).trans (Team.entrants_modPal ..)
  have h2 (j : Nat) : (t2.palette j).entrants = (t.palette j).entrants := (Team.entrants_modPal ..).trans (h1 j)
  have hs : s.Admits team s1 :=
    ((modTeam s h2).trans (foldl (fun s l => of_teams (.releaseLine s team l false) (.releaseLine s team l false)) rem _)).trans (countCore ..)
  exact hs.trans (foldl (fun s l => of_teams (.fillLine s team slot l) (.fillLine s team slot l)) miss _)

theorem palMove (fuel : Nat) : s.Admits team (s.palMove team fuel) := by
  induction fuel generalizing s with
  | zero => exact refl s
  | succ n ih =>
    unfold State.palMove
    dsimp only
    split
    · exact (completeFill ..).trans (ih _)
    · split
      · exact refl s
      · split
        · exact refl s
        · exact ((modTeam s fun _ => rfl).trans (admitGroup ..)).trans (ih _)

end State.Admits

/-! #### Fills that complete while no palette waits -/

/-- What the completion of a fill leaves: the requests, the lines of every L1, and of the team its queue, its generations and the slots that hold no palette. -/
structure State.Filled (team : Nat) (s t : State) : Prop where
  reqs : t.reqs = s.reqs
  l1 (k : Nat) : (t.core k).l1 = (s.core k).l1
  queue : (t.team team).palQueue = (s.team team).palQueue
  gens : (t.team team).palGen = (s.team team).palGen
  absent (k : Nat) : tfind k (s.team team).pals = none → tfind k (t.team team).pals = none

namespace State.Filled

variable {team : Nat}

theorem refl (s : State) : s.Filled team s := ⟨rfl, fun _ => rfl, rfl, rfl, fun _ h => h⟩

theorem trans {s t u : State} (h : s.Filled team t) (k : t.Filled team u) : s.Filled team u :=
  ⟨k.reqs.trans h.reqs, fun j => (k.l1 j).trans (h.l1 j), k.queue.trans h.queue, k.gens.trans h.gens, fun j hj => k.absent j (h.absent j hj)⟩

theorem of_book {s t : State} (h : Book s t) : s.Filled team t :=
  have hb := State.Beside.of_book h
  ⟨hb.reqs, hb.l1, by rw [h.team], by rw [h.team], fun k hk => by rwa [h.team]⟩

theorem completeFill {s : State} {slot : Nat} (hslot : tfind slot (s.team team).pals ≠ none) : s.Filled team (s.completeFill team slot) := by
  unfold State.completeFill
  extract_lets t0 again t rs t1 s1
  have absent (k : Nat) (hk : tfind k t0.pals = none) : tfind k t1.pals = none := by
    have hne : k ≠ slot := fun e => hslot (e ▸ hk)
    unfold t1
    split <;> exact (tfind_tput_ne hne ..).trans ((tfind_tput_ne hne ..).trans hk)
  have hq : t1.palQueue = t0.palQueue := by unfold t1; split <;> rfl
  have hg : t1.palGen = t0.palGen := by unfold t1; split <;> rfl
  have ht : s1.team team = t1 := State.team_modTeam_self ..
  have hs : s.Filled team s1 := ⟨rfl, fun _ => rfl, by rw [ht]; exact hq, by rw [ht]; exact hg, fun k hk => by rw [ht]; exact absent k hk⟩
  split
  · exact hs
  · exact hs.trans (of_book (.countCore ..))

theorem palMove {s : State} (h : (s.team team).palQueue = []) (fuel : Nat) : s.Filled team (s.palMove team fuel) := by
  induction fuel generalizing s with
  | zero => exact refl s
  | succ n ih =>
    unfold State.palMove
    dsimp only
    split
    next p hp =>
      have hf : s.Filled team (s.completeFill team p.1) := completeFill (tfind_ne_none_iff.2 (List.mem_map_of_mem (List.mem_of_find?_eq_some hp)))
      exact hf.trans (ih (hf.queue.trans h))
    · rw [h]; exact refl s

end State.Filled

/-! #### Words that check a handle first -/

/-- The check of its own that a ready word fails stops it (01 R25, R27). -/
theorem issue_refused {i : Instr} {s : State} {gr : Grant} {f : Flt} (h : Ready i s gr) (pre : Iss → Option Flt) (hp : pre (s.seen gr) = some f) (eff : Iss → State → Except Flt State) :
    issue i s pre eff = .next (s.trapAt (s.seen gr) f) := by
  have hplace : (i.isTransfer && decide ((s.seen gr).cl.left ≠ 1)) = false := by
    cases ht : i.isTransfer with
    | false => rfl
    | true => simp [h.place ht]
  have hfront : frontCheck i (s.seen gr) (some f) = some f := by
    unfold frontCheck
    simp only [hplace]
    cases hl : i.longLat with
    | none => rfl
    | some sb =>
      have hf := h.flag sb hl
      cases hg : (s.seen gr).flag sb with
      | none => simp [hg] at hf
      | some n => simp [hg, frontCheck.later]
  unfold issue
  rw [h.granted]
  simp only [h.right, Option.orElse, hp, hfront]

section
variable {i : Instr} {o : FOps} {s : State} {gr : Grant} {eff : Iss → State → Except Flt State} {k : Nat}

theorem palCheck_eq_none (h : (s.team (s.group gr.gid).team).handle ((s.group gr.gid).rs o.a.toNat) = some k) : palCheck s o (s.seen gr) = none := by
  unfold palCheck
  rw [show (s.team (s.seen gr).g.team).handle ((s.seen gr).g.rs o.a.toNat) = some k from h]

theorem fPalette_cause (h : Word) (n : Nat) : (fPalette h n).cause ≠ 16 := (by decide : (10 : Nat) ≠ 16)

/-- A handle that is not valid stops a ready palette word (04 R85). -/
theorem traps_of_badHandle (hr : Ready i s gr) (he : exec i s = issue i s (palCheck s o) eff) (h : (s.team (s.group gr.gid).team).handle ((s.group gr.gid).rs o.a.toNat) = none) :
    Traps i s gr (fPalette ((s.group gr.gid).rs o.a.toNat) 1) := by
  have hp : palCheck s o (s.seen gr) = some (fPalette ((s.group gr.gid).rs o.a.toNat) 1) := by
    unfold palCheck
    rw [show (s.team (s.seen gr).g.team).handle ((s.seen gr).g.rs o.a.toNat) = none from h]
    rfl
  unfold Traps
  rw [he, issue_refused hr _ hp]
  exact congrArg Host.Outcome.next (State.trapAt_of_cause (fPalette_cause _ _))

variable (hr : Ready i s gr) (he : exec i s = issue i s (palCheck s o) eff) (hh : (s.team (s.group gr.gid).team).handle ((s.group gr.gid).rs o.a.toNat) = some k)
include hr he hh

/-- A ready palette word on a valid handle has its effect. -/
theorem exec_of_handle {t : State} (hf : eff (s.seen gr) (s.begun gr i) = .ok t) : exec i s = .next (t.written (s.seen gr) i) := by
  rw [he, issue_ready hr _ (palCheck_eq_none hh), hf]

/-- … or stops with the fault that its effect finds. -/
theorem traps_of_handle {h : Word} {n : Nat} (hf : eff (s.seen gr) (s.begun gr i) = .error (fPalette h n)) : Traps i s gr (fPalette h n) := by
  unfold Traps
  rw [he, issue_ready hr _ (palCheck_eq_none hh), hf]
  exact congrArg Host.Outcome.next (State.trapAt_of_cause (fPalette_cause _ _))

end

/-! #### Words that leave the registers -/

theorem Group.Issued.wait {g h : Group} (k : g.Issued h) : h.wait = g.wait := by rw [k]

theorem Quiet.begin (s : State) (c : Iss) (i : Instr) : Quiet s (s.begin c i) c.gid := by
  obtain ⟨h1, h2, h3, h4, h5, h6, h7, h8, h9, h10, h11, h12, h13, -, h15, h16, h17⟩ := Quiet.of_begin s c i id
  exact ⟨h1, h2, h3, h4, h5, h6, h7, h8, h9, h10, h11, h12, h13, fun k hk => s.group_begin_ne c i k hk, h15, h16, h17⟩

section
variable {i : Instr} {s t : State} {gr : Grant} {post : State → Prop} {k : WaitKind}

/-- A ready word that does nothing but issue completes. -/
theorem completes_of_begun (hl : i.longLat = none) (he : exec i s = .next ((s.begun gr i).written (s.seen gr) i)) : Completes i s gr {} := by
  have hb : ((s.begun gr i).written (s.seen gr) i).after gr = (s.seen gr).issued i (s.issues + 1) := (State.group_written ..).trans (s.group_begun gr i)
  refine ⟨_, he, (Quiet.begin s (s.seen gr) i).written _ _, ?_, ?_, fun r L _ => ?_, fun r => ?_, fun r => ?_⟩ <;> rw [hb]
  · rw [(s.seen gr).issued_short i _ hl]; rfl
  · exact (s.seen gr).issued_advanced i _
  · exact Group.rv_congr ((s.seen gr).issued_eq i _).regs.1 ..
  · exact Group.rs_congr ((s.seen gr).issued_eq i _).regs.2.1 ..
  · exact Group.rq_congr ((s.seen gr).issued_eq i _).regs.2.2.1 ..

theorem sameRegs_of_stays (hst : ((s.begun gr i).group gr.gid).Stays (t.group gr.gid)) : (s.group gr.gid).sameRegs (t.group gr.gid) := by
  rw [State.group_begun] at hst
  obtain ⟨a1, a2, a3, a4, a5⟩ := ((s.seen gr).issued_eq i (s.issues + 1)).regs
  obtain ⟨b1, b2, b3, b4, b5⟩ := hst.regs
  exact ⟨b1.trans a1, b2.trans a2, b3.trans a3, b4.trans a4, b5.trans a5⟩

theorem advanced_of_stays (hst : ((s.begun gr i).group gr.gid).Stays (t.group gr.gid)) : advanced (s.seen gr) (t.group gr.gid) := by
  rw [State.group_begun] at hst
  exact hst.advanced ((s.seen gr).issued_advanced i _)

/-- A word that leaves the registers and the slots of its group as it issued passes. -/
theorem passes_of_stays (he : exec i s = .next (t.written (s.seen gr) i)) (hst : ((s.begun gr i).group gr.gid).Stays (t.group gr.gid)) (hp : post (t.written (s.seen gr) i)) :
    Passes i s gr post :=
  ⟨_, he, by rw [State.after, State.group_written]; exact sameRegs_of_stays hst, by rw [State.after, State.group_written]; exact advanced_of_stays hst, hp⟩

/-- A word that then holds its group waits at itself (01 R25). -/
theorem holds_of_block (he : exec i s = .next ((t.block (s.seen gr) i k).written (s.seen gr) i)) (hst : ((s.begun gr i).group gr.gid).Stays (t.group gr.gid))
    (hp : post ((t.block (s.seen gr) i k).written (s.seen gr) i)) : Holds i s gr (fun w => w = k) post := by
  have hg : (t.block (s.seen gr) i k).group gr.gid = { t.group gr.gid with wait := ((t.block (s.seen gr) i k).group gr.gid).wait } := by
    unfold State.block
    rw [show (s.seen gr).gid = gr.gid from rfl, State.group_modGroup_self]
  have hb : ((s.begun gr i).group gr.gid).Stays ((t.block (s.seen gr) i k).group gr.gid) := by
    rw [hg]; exact ⟨hst.regs, hst.a, hst.b⟩
  refine ⟨_, _, he, (congrArg Group.wait (State.group_written ..)).trans (t.block_wait (s.seen gr) i k), rfl, rfl, rfl, rfl, rfl, ?_, ?_, hp⟩
  · rw [State.after, State.group_written]; exact sameRegs_of_stays hb
  · rw [State.after, State.group_written]; exact advanced_of_stays hb

end

/-! #### The commit that a palette word makes -/

/-- The word has issued, and the region of its group has committed. -/
def State.closed (s : State) (gr : Grant) (i : Instr) : State := (s.begun gr i).commitRegion gr.gid gr.slotB

section
variable (s : State) (gr : Grant) (i : Instr)

theorem State.closed_stays : ((s.begun gr i).group gr.gid).Stays ((s.closed gr i).group gr.gid) := (State.commitRegion_group (s.begun gr i) gr.gid gr.slotB false).1

theorem State.closed_buf : ((s.closed gr i).group gr.gid).buf = [] := (State.commitRegion_group (s.begun gr i) gr.gid gr.slotB false).2.1

theorem State.closed_wait : ((s.closed gr i).group gr.gid).wait = (s.group gr.gid).wait := by
  have hw := congrArg Group.wait ((State.Way.commitRegion (s.begun gr i) gr.gid gr.slotB false).groups gr.gid).1
  have hi : ((s.begun gr i).group gr.gid).wait = (s.group gr.gid).wait := by
    rw [State.group_begun]
    exact ((s.seen gr).issued_eq i (s.issues + 1)).wait
  exact hw.trans hi

theorem State.begun_teams : s.SameTeams (s.begun gr i) := ⟨fun k => by rw [show (s.begun gr i).team k = s.team k from s.begin_team ..]⟩

theorem State.closed_teams : s.SameTeams (s.closed gr i) := (s.begun_teams gr i).trans (.commitRegion (s.begun gr i) gr.gid gr.slotB false)

end

/-! #### PENTER and PLEAVE -/

/-- The group becomes an entrant of palette `k` (04 R78). -/
def State.entering (s : State) (gid team k : Nat) : State :=
  (s.modTeam team (fun t => t.modPal k (fun p => { p with entrants := p.entrants + 1 }))).modGroup gid (fun g => { g with pal := some k, readmit := false })

/-- Palette `k` takes a state. -/
def State.putPal (s : State) (team k : Nat) (x : PalState) : State := s.modTeam team (fun t => t.modPal k (fun p => { p with state := x }))

/-- The palette waits in its team's queue (04 R80). -/
def State.queuePal (s : State) (team k starter : Nat) : State :=
  s.modTeam team (fun t => { t.modPal k (fun p => { p with state := .queued, starter := starter }) with palQueue := t.palQueue ++ [k] })

/-- The group waits for its palette from now on. -/
def State.awaitPal (s : State) (gid ctx : Nat) : State := s.modGroup gid (fun g => { g with palSince := some (s.ctxTime ctx) })

/-- An absent palette with lines missing is admitted where it fits and none waits, and is queued else (04 R80). -/
def State.seekPal (s : State) (g : Group) (gid k : Nat) : State :=
  match (if (s.team g.team).palQueue = [] then (s.team g.team).tryAdmit k else none) with
  | some (E, rem) => (s.admitGroup g.team k g.index E rem).palMove g.team 32
  | none => (s.queuePal g.team k g.index).awaitPal gid g.ctx

/-- What PENTER does for the group once it is an entrant (04 R80). -/
def State.enterPal (s : State) (g : Group) (gid k : Nat) : State :=
  match ((s.team g.team).palette k).state with
  | .entered | .resident => s.putPal g.team k .entered
  | .filling => s
  | .queued => s.awaitPal gid g.ctx
  | .absent => if (s.team g.team).missingLines k = [] then s.putPal g.team k .entered else s.seekPal g gid k

section
variable (s : State) (team k : Nat)

theorem State.Admits.putPal (x : PalState) : s.Admits team (s.putPal team k x) := .modTeam s fun _ => Team.entrants_modPal ..

theorem State.palette_putPal (x : PalState) : (((s.putPal team k x).team team).palette k).state = x := by
  rw [State.putPal, State.team_modTeam_self, Team.palette_modPal_self]

theorem State.Admits.queuePal (starter : Nat) : s.Admits team (s.queuePal team k starter) :=
  .modTeam s fun _ => Team.entrants_modPal _ _ _ (f := fun p => { p with state := .queued, starter := starter })

theorem State.Admits.seekPal (g : Group) (gid : Nat) : s.Admits g.team (s.seekPal g gid k) := by
  unfold State.seekPal
  split
  · exact (State.Admits.admitGroup ..).trans (.palMove ..)
  · exact (State.Admits.queuePal ..).trans (.awaits ..)

theorem State.Admits.enterPal (g : Group) (gid : Nat) : s.Admits g.team (s.enterPal g gid k) := by
  unfold State.enterPal
  split
  · exact .putPal ..
  · exact .putPal ..
  · exact .refl s
  · exact .awaits ..
  · split
    · exact .putPal ..
    · exact .seekPal ..

/-- An Entered or Resident palette is Entered at once (04 R80). -/
theorem State.enterPal_state {g : Group} {gid : Nat} (h : ((s.team g.team).palette k).state = .entered ∨ ((s.team g.team).palette k).state = .resident) :
    (((s.enterPal g gid k).team g.team).palette k).state = .entered := by
  unfold State.enterPal
  rcases h with h | h <;> rw [h] <;> exact State.palette_putPal ..

/-- An entrant more, and the group has the palette (04 R78). -/
theorem State.entering_palette (gid : Nat) : ((s.entering gid team k).team team).palette k = { (s.team team).palette k with entrants := ((s.team team).palette k).entrants + 1 } := by
  rw [State.entering, State.team_modGroup, State.team_modTeam_self, Team.palette_modPal_self]

theorem State.entering_group (gid : Nat) : (s.entering gid team k).group gid = { s.group gid with pal := some k, readmit := false } := State.group_modGroup_self ..

theorem State.entering_stays (gid : Nat) : (s.group gid).Stays ((s.entering gid team k).group gid) := by
  rw [State.entering_group]; exact ⟨⟨rfl, rfl, rfl, rfl, rfl⟩, rfl, rfl⟩

/-- The group is an entrant of palette `k` no longer, and what that changes of the palette (04 R78). -/
def State.leaving (s : State) (gid team k : Nat) : State :=
  (s.modGroup gid (fun g => { g with pal := none, readmit := false, palSince := none })).modTeam team (fun t =>
    let n := (t.palette k).entrants - 1
    let t1 := t.modPal k (fun p => { p with entrants := n })
    if n ≠ 0 then t1
    else match (t.palette k).state with
      | .queued => { t1.modPal k (fun p => { p with state := .absent }) with palQueue := t1.palQueue.filter (· ≠ k) }
      | .entered => { t1.modPal k (fun p => { p with state := .resident, leave := t1.palLeave }) with palLeave := (t1.palLeave + 1) % 2 ^ 32 }
      | _ => t1)

theorem State.leaving_group (gid : Nat) : (s.leaving gid team k).group gid = { s.group gid with pal := none, readmit := false, palSince := none } := by
  rw [State.leaving, State.group_modTeam, State.group_modGroup_self]

theorem State.leaving_stays (gid : Nat) : (s.group gid).Stays ((s.leaving gid team k).group gid) := by
  rw [State.leaving_group]; exact ⟨⟨rfl, rfl, rfl, rfl, rfl⟩, rfl, rfl⟩

theorem State.leaving_entrants (gid : Nat) : (((s.leaving gid team k).team team).palette k).entrants = ((s.team team).palette k).entrants - 1 := by
  rw [State.leaving, State.team_modTeam_self, State.team_modGroup]
  extract_lets n t1
  have h1 : (t1.palette k).entrants = n := by unfold t1; rw [Team.palette_modPal_self]
  split
  · exact h1
  · split
    · exact (Team.entrants_modPal t1 k k (f := fun p => { p with state := .absent })).trans h1
    · exact (Team.entrants_modPal t1 k k (f := fun p => { p with state := .resident, leave := t1.palLeave })).trans h1
    · exact h1

end

section
variable {o : FOps} {s : State} {gr : Grant} {k : Nat}
  (hh : (s.team (s.group gr.gid).team).handle ((s.group gr.gid).rs o.a.toNat) = some k) (hm : (s.seen gr).active o.g ≠ 0)
include hh hm

theorem exec_penter_enters (hr : Ready (.penter o) s gr) (hp : (s.group gr.gid).pal = none) :
    exec (.penter o) s = .next ((((s.closed gr (.penter o)).entering gr.gid (s.group gr.gid).team k).enterPal (s.group gr.gid) gr.gid k).written (s.seen gr) (.penter o)) := by
  obtain rfl := Team.handle_eq hh
  have hpal : ¬ (s.group gr.gid).pal.isSome = true := by rw [hp]; decide
  exact exec_of_handle hr (exec_penter o s) hh ((if_neg hm).trans (if_neg hpal))

theorem exec_pleave_leaves (hr : Ready (.pleave o) s gr) (hp : (s.group gr.gid).pal = some k) :
    exec (.pleave o) s = .next ((((s.closed gr (.pleave o)).leaving gr.gid (s.group gr.gid).team k).palMove (s.group gr.gid).team 32).written (s.seen gr) (.pleave o)) := by
  obtain rfl := Team.handle_eq hh
  exact exec_of_handle hr (exec_pleave o s) hh ((if_neg hm).trans (if_neg (not_not.2 hp)))

end

/-! #### PDROP -/

theorem State.Admits.releaseLines {team : Nat} (s : State) (ls : List Nat) (pin : Bool) : s.Admits team (s.releaseLines team ls pin) :=
  .foldl (fun s l => .of_teams (.releaseLine s team l pin) (.releaseLine s team l pin)) ls s

theorem State.SameTeams.releaseLines (s : State) (team : Nat) (ls : List Nat) (pin : Bool) : s.SameTeams (s.releaseLines team ls pin) :=
  .foldl (fun s l => .releaseLine s team l pin) ls s

/-- A palette that is dropped while none waits leaves its slot, and the slot's generation goes on (04 R85). -/
theorem State.dropPalette_spec {s : State} {team k : Nat} (h : (s.team team).palQueue = []) :
    (∀ n, (s.group n).Seated ((s.dropPalette team k).group n)) ∧ tfind k ((s.dropPalette team k).team team).pals = none ∧
      tget 0 k ((s.dropPalette team k).team team).palGen = (tget 0 k (s.team team).palGen + 1) % 2 ^ 16 := by
  unfold State.dropPalette
  extract_lets t p others s1
  have hadm : s.Admits team s1 := by
    unfold s1
    split
    · exact .releaseLines ..
    · exact .refl s
  have ht : s.SameTeams s1 := .ite (.releaseLines ..) (.refl s)
  clear_value s1
  set u := s1.modTeam team (fun t => { t with pals := tdel k t.pals, palGen := tset 0 k ((tget 0 k t.palGen + 1) % 2 ^ 16) t.palGen }) with hu
  have hteam : u.team team = { s1.team team with pals := tdel k (s1.team team).pals, palGen := tset 0 k ((tget 0 k (s1.team team).palGen + 1) % 2 ^ 16) (s1.team team).palGen } := State.team_modTeam_self ..
  have hfill : u.Filled team (u.palMove team 32) := .palMove (by rw [hteam]; exact (ht.palQueue team).trans h) 32
  refine ⟨fun n => (hadm.groups n).trans ((State.Admits.palMove u 32 (team := team)).groups n), hfill.absent k ?_, ?_⟩
  · rw [hteam]; exact tfind_tdel_self ..
  · rw [hfill.gens, hteam, ht.palGen]; exact tget_tset_self ..

section
variable {o : FOps} {s : State} {gr : Grant} {k : Nat}
  (hh : (s.team (s.group gr.gid).team).handle ((s.group gr.gid).rs o.a.toNat) = some k)
include hh

/-- A palette word without an active lane commits the region, and nothing else (04 R85). -/
theorem passes_without_lanes {i : Instr} (hi : i = .penter o ∨ i = .pwait o ∨ i = .pleave o ∨ i = .pdrop o) (hr : Ready i s gr) (hm : (s.seen gr).active o.g = 0) :
    Passes i s gr (fun t => (t.team (s.group gr.gid).team).pals = (s.team (s.group gr.gid).team).pals ∧ (t.after gr).buf = []) := by
  have he : exec i s = .next ((s.closed gr i).written (s.seen gr) i) := by
    rcases hi with rfl | rfl | rfl | rfl
    · exact exec_of_handle hr (exec_penter o s) hh (if_pos hm)
    · exact exec_of_handle hr ((exec_pwait o s).trans (issue2_first _ _ _ _ _ _ hr.granted hr.first)) hh (if_pos hm)
    · exact exec_of_handle hr (exec_pleave o s) hh (if_pos hm)
    · exact exec_of_handle hr ((exec_pdrop o s).trans (issue2_first _ _ _ _ _ _ hr.granted hr.first)) hh (congrArg Except.ok (if_pos hm))
  refine passes_of_stays he (s.closed_stays gr i) ⟨((s.closed_teams gr i).trans (.of_book (.written ..))).pals _, ?_⟩
  rw [State.after, State.group_written]
  exact s.closed_buf gr i

variable (hm : (s.seen gr).active o.g ≠ 0)
include hm

theorem exec_pdrop_drops (hr : Ready (.pdrop o) s gr) (h0 : ((s.team (s.group gr.gid).team).palette k).entrants = 0) (hf : ((s.team (s.group gr.gid).team).palette k).state ≠ .filling) :
    exec (.pdrop o) s = .next (((s.closed gr (.pdrop o)).dropPalette (s.group gr.gid).team k).written (s.seen gr) (.pdrop o)) := by
  obtain rfl := Team.handle_eq hh
  refine exec_of_handle hr ((exec_pdrop o s).trans (issue2_first _ _ _ _ _ _ hr.granted hr.first)) hh (congrArg Except.ok ?_)
  rw [← (s.closed_teams gr (.pdrop o)).palette] at h0 hf
  exact (if_neg hm).trans ((if_neg (Nat.not_lt.2 h0.le)).trans (if_neg hf))

theorem exec_pdrop_waits (hr : Ready (.pdrop o) s gr) (h0 : ((s.team (s.group gr.gid).team).palette k).entrants = 0) (hf : ((s.team (s.group gr.gid).team).palette k).state = .filling) :
    exec (.pdrop o) s = .next (((s.closed gr (.pdrop o)).block (s.seen gr) (.pdrop o) (.pdrop k)).written (s.seen gr) (.pdrop o)) := by
  obtain rfl := Team.handle_eq hh
  refine exec_of_handle hr ((exec_pdrop o s).trans (issue2_first _ _ _ _ _ _ hr.granted hr.first)) hh (congrArg Except.ok ?_)
  rw [← (s.closed_teams gr (.pdrop o)).palette] at h0 hf
  exact (if_neg hm).trans ((if_neg (Nat.not_lt.2 h0.le)).trans (if_pos hf))

/-! #### PWAIT -/

theorem exec_pwait_entered (hr : Ready (.pwait o) s gr) (hp : (s.group gr.gid).pal = some k) (he : ((s.team (s.group gr.gid).team).palette k).state = .entered) :
    exec (.pwait o) s = .next ((s.closed gr (.pwait o)).written (s.seen gr) (.pwait o)) := by
  obtain rfl := Team.handle_eq hh
  rw [← (s.closed_teams gr (.pwait o)).palette] at he
  exact exec_of_handle hr ((exec_pwait o s).trans (issue2_first _ _ _ _ _ _ hr.granted hr.first)) hh ((if_neg hm).trans ((if_neg (not_not.2 hp)).trans (congrArg Except.ok (if_pos he))))

theorem exec_pwait_waits (hr : Ready (.pwait o) s gr) (hp : (s.group gr.gid).pal = some k) (he : ((s.team (s.group gr.gid).team).palette k).state ≠ .entered) :
    exec (.pwait o) s = .next (((s.closed gr (.pwait o)).block (s.seen gr) (.pwait o) (.palette k)).written (s.seen gr) (.pwait o)) := by
  obtain rfl := Team.handle_eq hh
  rw [← (s.closed_teams gr (.pwait o)).palette] at he
  exact exec_of_handle hr ((exec_pwait o s).trans (issue2_first _ _ _ _ _ _ hr.granted hr.first)) hh ((if_neg hm).trans ((if_neg (not_not.2 hp)).trans (congrArg Except.ok (if_neg he))))

/-- A palette of which the group is not an entrant stops PWAIT and PLEAVE (04 R85). -/
theorem traps_without_palette {i : Instr} (hi : i = .pwait o ∨ i = .pleave o) (hr : Ready i s gr) (hp : (s.group gr.gid).pal ≠ some k) :
    Traps i s gr (fPalette ((s.group gr.gid).rs o.a.toNat) 3) := by
  obtain rfl := Team.handle_eq hh
  rcases hi with rfl | rfl
  · exact traps_of_handle hr ((exec_pwait o s).trans (issue2_first _ _ _ _ _ _ hr.granted hr.first)) hh ((if_neg hm).trans (if_pos hp))
  · exact traps_of_handle hr (exec_pleave o s) hh ((if_neg hm).trans (if_pos hp))

end

/-! #### What the group finds after a word that blocks -/

theorem State.block_buf (s : State) (c : Iss) (i : Instr) (k : WaitKind) : ((s.block c i k).group c.gid).buf = (s.group c.gid).buf := by
  rw [State.block, State.group_modGroup_self]

/-! #### PDECL and PQRY -/

theorem unionLines_singleton (l : List Nat) : unionLines [l] = l := by simp [unionLines]

/-- The lines that a palette word declares, as its core names them (04 R76). -/
def State.declared (s : State) (gr : Grant) (i : Instr) (vas : List Nat) : List Nat :=
  unionLines (vas.map (fun va => [((s.closed gr i).core (coreOf gr.gid)).remap (s.group gr.gid).tenant va / 128]))

theorem declared_eq (s : State) (gr : Grant) (i : Instr) (vas : List Nat) :
    unionLines ((unionLines [vas.map (fun va => ((s.closed gr i).core (coreOf gr.gid)).remap (s.group gr.gid).tenant va / 128)]).map (fun l => [l])) = s.declared gr i vas := by
  rw [unionLines_singleton, List.map_map]
  rfl

section
variable {o : FOps} {s : State} {gr : Grant}

/-- The group takes the answer of PDECL. -/
def State.answer (s : State) (gid d x : Nat) : State := s.modGroup gid (fun g => g.ws d (BitVec.ofNat 32 x))

/-- What PDECL of the lines given, or of an invalid shape, does (04 R77). -/
def State.declare (s : State) (gid d team : Nat) : Option (List Nat) → State
  | none => s.answer gid d 0x300
  | some lines => match (List.range 8).find? (fun k => (tfind k (s.team team).pals).isNone) with
    | none => s.answer gid d 0x100
    | some k => if (s.team team).palCap < lines.length then s.answer gid d 0x200
      else (s.modTeam team (fun t => { t with pals := tput k { lines := lines } t.pals })).answer gid d (tget 0 k (s.team team).palGen * 2 ^ 16 + 2 ^ 7 + k)

theorem gives_answer {v : State} {x : Nat} {pals : Table Palette} (he : exec (.pdecl o) s = .next ((v.answer gr.gid o.d.toNat x).written (s.seen gr) (.pdecl o)))
    (hg : v.group gr.gid = (s.closed gr (.pdecl o)).group gr.gid) (hp : (v.team (s.group gr.gid).team).pals = pals) :
    Gives (.pdecl o) s gr { s := only o.d.toNat (BitVec.ofNat 32 x) } (fun t => (t.team (s.group gr.gid).team).pals = pals ∧ (t.after gr).buf = []) := by
  have hst := s.closed_stays gr (.pdecl o)
  rw [State.group_begun] at hst
  have ha : ((v.answer gr.gid o.d.toNat x).written (s.seen gr) (.pdecl o)).after gr = ((s.closed gr (.pdecl o)).group gr.gid).ws o.d.toNat (BitVec.ofNat 32 x) := by
    rw [State.after, State.group_written, State.answer, State.group_modGroup_self, hg]
  refine Gives.of_issued he hst ha (.ws _ _) (fun _ _ _ _ => rfl) (fun g r => ?_) (fun _ _ => rfl) ⟨?_, ?_⟩
  · rw [Group.rs_ws]; simp only [only]; split <;> rfl
  · rw [(Book.written ..).team]; exact hp
  · rw [ha]; exact s.closed_buf gr (.pdecl o)

variable (hr : Ready (.pdecl o) s gr)
include hr

theorem pdecl_without_lanes (hm : (s.seen gr).active o.g = 0) :
    Gives (.pdecl o) s gr {} (fun t => (t.team (s.group gr.gid).team).pals = (s.team (s.group gr.gid).team).pals ∧ (t.after gr).buf = []) := by
  have hst := s.closed_stays gr (.pdecl o)
  rw [State.group_begun] at hst
  have he := exec_of_effect hr (exec_pdecl o s) (if_pos hm)
  refine Gives.of_issued (f := id) he hst (State.group_written ..) (fun _ => rfl) (fun g r L _ => rfl) (fun g r => rfl) (fun g r => rfl)
    ⟨((s.closed_teams gr (.pdecl o)).trans (.of_book (.written ..))).pals _, ?_⟩
  rw [State.after, State.group_written]
  exact s.closed_buf gr (.pdecl o)

variable (hm : (s.seen gr).active o.g ≠ 0)
include hm

/-- The answer of PDECL, and the palette that it makes (04 R77). -/
theorem exec_pdecl_active {shape : Option (List Nat)}
    (hs : paletteShape (o.ox.getLsbD 0) ((s.group gr.gid).rpair o.a.toNat).toNat ((s.group gr.gid).rs o.b.toNat) ((s.group gr.gid).rs o.c.toNat) = shape) :
    exec (.pdecl o) s = .next (((s.closed gr (.pdecl o)).declare gr.gid o.d.toNat (s.group gr.gid).team (shape.map (s.declared gr (.pdecl o)))).written (s.seen gr) (.pdecl o)) := by
  refine exec_of_effect hr (exec_pdecl o s) ((if_neg hm).trans ?_)
  dsimp only
  rcases hsh : paletteShape (o.ox.getLsbD 0) ((s.seen gr).g.rpair o.a.toNat).toNat ((s.seen gr).g.rs o.b.toNat) ((s.seen gr).g.rs o.c.toNat) with _ | vas
  · obtain rfl := hs.symm.trans hsh
    rfl
  · obtain rfl := hs.symm.trans hsh
    rw [Option.map_some, ← declared_eq]
    change _ = Except.ok (((s.begun gr (.pdecl o)).commitRegion (s.seen gr).gid (s.seen gr).slotB).declare (s.seen gr).gid o.d.toNat (s.seen gr).g.team _)
    unfold State.declare
    dsimp only
    generalize List.find? _ _ = slot
    rcases slot with _ | k
    · rfl
    · dsimp only
      split
      next h => exact congrArg Except.ok (if_pos h).symm
      next h => exact congrArg Except.ok (if_neg h).symm

end

/-- The answer of PQRY: the state, the entrants, the missing lines and the free lines of a palette (04 R78). -/
def Team.status (t : Team) (k : Nat) : Nat :=
  (t.palette k).state.code + (t.palette k).entrants % 32 * 2 ^ 3 + (if (t.palette k).state.holds then 0 else (t.missingLines k).length) % 2 ^ 12 * 2 ^ 8 + (t.palCap - t.usage) % 2 ^ 12 * 2 ^ 20

theorem PalState.holds_iff (x : PalState) : x.holds = true ↔ x = .filling ∨ x = .entered ∨ x = .resident := by cases x <;> decide

/-- A ready word, not long-latency, whose effect writes one scalar register completes with it. -/
theorem completes_of_ws {i : Instr} {s : State} {gr : Grant} {pre : Iss → Option Flt} {eff : Iss → State → Except Flt State} {d : Nat} {x : Word}
    (hr : Ready i s gr) (hl : i.longLat = none) (he : exec i s = issue i s pre eff) (hp : pre (s.seen gr) = none)
    (hf : eff (s.seen gr) (s.begun gr i) = .ok ((s.begun gr i).modGroup gr.gid (fun g => g.ws d x))) : Completes i s gr { s := only d x } := by
  refine completes_of hr hl he hp hf (.ws d x) (fun g hg r L _ => Group.rv_congr (g := g.ws d x) hg r L) (fun g hg r => ?_) (fun g hg => Group.rq_congr (g := g.ws d x) hg)
  rw [Group.rs_ws, Group.rs_congr hg]
  simp only [only]
  split <;> rfl

theorem pqry_completes {o : FOps} {s : State} {gr : Grant} {k : Nat} (hr : Ready (.pqry o) s gr) (hm : (s.seen gr).active o.g ≠ 0)
    (hh : (s.team (s.group gr.gid).team).handle ((s.group gr.gid).rs o.a.toNat) = some k) :
    Completes (.pqry o) s gr { s := only o.d.toNat (BitVec.ofNat 32 ((s.team (s.group gr.gid).team).status k)) } := by
  refine completes_of_ws hr rfl (exec_pqry o s) (palCheck_eq_none hh) ((if_neg hm).trans ?_)
  dsimp only
  rw [show (s.begun gr (.pqry o)).team (s.seen gr).g.team = s.team (s.group gr.gid).team from s.begin_team .., show nbits ((s.seen gr).g.rs o.a.toNat).toNat 0 3 = k from Team.handle_eq hh]
  rfl

theorem pqry_without_lanes {o : FOps} {s : State} {gr : Grant} (hr : Ready (.pqry o) s gr) (hm : (s.seen gr).active o.g = 0)
    (hh : (s.team (s.group gr.gid).team).handle ((s.group gr.gid).rs o.a.toNat) ≠ none) : Completes (.pqry o) s gr {} := by
  obtain ⟨k, hk⟩ := Option.ne_none_iff_exists'.1 hh
  exact completes_of_begun rfl (exec_of_handle hr (exec_pqry o s) hk (if_pos hm))

section
variable {o : FOps} {s : State} {gr : Grant} {k : Nat}
  (hh : (s.team (s.group gr.gid).team).handle ((s.group gr.gid).rs o.a.toNat) = some k) (hm : (s.seen gr).active o.g ≠ 0)
include hh hm

/-- PENTER of a group without a palette makes it an entrant (04 R80). -/
theorem penter_passes (hr : Ready (.penter o) s gr) (hp : (s.group gr.gid).pal = none) :
    Passes (.penter o) s gr (fun t => (t.after gr).pal = some k ∧
      ((t.team (s.group gr.gid).team).palette k).entrants = ((s.team (s.group gr.gid).team).palette k).entrants + 1 ∧
      (((s.team (s.group gr.gid).team).palette k).state = .entered ∨ ((s.team (s.group gr.gid).team).palette k).state = .resident → ((t.team (s.group gr.gid).team).palette k).state = .entered) ∧
      (t.after gr).buf = []) := by
  have he := exec_penter_enters hh hm hr hp
  have hin := State.entering_palette (s.closed gr (.penter o)) (s.group gr.gid).team k gr.gid
  rw [(s.closed_teams gr (.penter o)).palette] at hin
  have hg := (State.Admits.enterPal ((s.closed gr (.penter o)).entering gr.gid (s.group gr.gid).team k) k (s.group gr.gid) gr.gid)
  have hgr := hg.groups gr.gid
  refine passes_of_stays he (((s.closed_stays gr (.penter o)).trans (State.entering_stays ..)).trans hgr.stays) ⟨?_, ?_, fun h => ?_, ?_⟩
  · rw [State.after, State.group_written, hgr.pal, State.entering_group]
  · rw [(Book.written ..).team, hg.entrants, hin]
  · rw [(Book.written ..).team]
    exact State.enterPal_state _ _ (by rw [hin]; exact h)
  · rw [State.after, State.group_written, hgr.buf, State.entering_group]; exact s.closed_buf gr _

/-- PLEAVE takes the group from the entrants of its palette (04 R85). -/
theorem pleave_passes (hr : Ready (.pleave o) s gr) (hp : (s.group gr.gid).pal = some k) :
    Passes (.pleave o) s gr (fun t => (t.after gr).pal = none ∧
      ((t.team (s.group gr.gid).team).palette k).entrants = ((s.team (s.group gr.gid).team).palette k).entrants - 1 ∧ (t.after gr).buf = []) := by
  have he := exec_pleave_leaves hh hm hr hp
  have hadm := State.Admits.palMove (team := (s.group gr.gid).team) ((s.closed gr (.pleave o)).leaving gr.gid (s.group gr.gid).team k) 32
  have hgr := hadm.groups gr.gid
  refine passes_of_stays he (((s.closed_stays gr (.pleave o)).trans (State.leaving_stays ..)).trans hgr.stays) ⟨?_, ?_, ?_⟩
  · rw [State.after, State.group_written, hgr.pal, State.leaving_group]
  · rw [(Book.written ..).team, hadm.entrants, State.leaving_entrants, (s.closed_teams gr (.pleave o)).palette]
  · rw [State.after, State.group_written, hgr.buf, State.leaving_group]; exact s.closed_buf gr _

end

/-- Settles O12: each word is its effect at the state in which its region has committed; the moves of palettes (04 R80) leave the groups and count no entrant, and
with no palette queued only fills complete. -/
theorem palettes : Obligations.Palettes := by
  unfold Obligations.Palettes
  refine ⟨fun o s gr => ?_, fun o s gr k => ?_⟩
  · intro c g team m shape free core answers lines
    have ht := s.closed_teams gr (.pdecl o)
    have hfree : (List.range 8).find? (fun k => (tfind k ((s.closed gr (.pdecl o)).team (s.group gr.gid).team).pals).isNone) = free := by rw [ht.pals]
    have declares {vas k} (hr : Ready (.pdecl o) s gr) (hm : m ≠ 0) (hs : shape = some vas) (hf : free = some k) :
        exec (.pdecl o) s = .next ((if team.palCap < (lines vas).length then (s.closed gr (.pdecl o)).answer gr.gid o.d.toNat 0x200
          else ((s.closed gr (.pdecl o)).modTeam g.team (fun t => { t with pals := tput k { lines := lines vas } t.pals })).answer gr.gid o.d.toNat (tget 0 k team.palGen * 2 ^ 16 + 2 ^ 7 + k)).written c (.pdecl o)) := by
      rw [exec_pdecl_active hr hm hs, Option.map_some]
      unfold State.declare
      rw [hfree, hf, ht.palCap, ht.palGen]
      rfl
    refine ⟨fun hr hm => pdecl_without_lanes hr hm, fun hr hm hs => ?_, fun hr hm hs hf => ?_, fun vas k hr hm hs hf hc => ?_, fun vas k hr hm hs hf hc => ?_, fun k hr hm hh => ?_, fun hr hm hh => pqry_without_lanes hr hm hh, fun i hi hr hh => ?_⟩
    · exact gives_answer (exec_pdecl_active hr hm hs) rfl (ht.pals _)
    · obtain ⟨vas, hs⟩ := Option.ne_none_iff_exists'.1 hs
      refine gives_answer (v := s.closed gr (.pdecl o)) ?_ rfl (ht.pals _)
      rw [exec_pdecl_active hr hm hs, Option.map_some]
      unfold State.declare
      rw [hfree, hf]
    · have he := declares hr hm hs hf
      rw [if_pos hc] at he
      exact gives_answer he rfl (ht.pals _)
    · have he := declares hr hm hs hf
      rw [if_neg (Nat.not_lt.2 hc)] at he
      refine gives_answer he rfl ?_
      rw [State.team_modTeam_self, ht.pals]
    · have he := pqry_completes hr hm hh
      simp only [Team.status, PalState.holds_iff] at he
      exact he
    · rcases hi with rfl | rfl | rfl | rfl | rfl
      · exact traps_of_badHandle hr (exec_penter o s) hh
      · exact traps_of_badHandle hr ((exec_pwait o s).trans (issue2_first _ _ _ _ _ _ hr.granted hr.first)) hh
      · exact traps_of_badHandle hr (exec_pleave o s) hh
      · exact traps_of_badHandle hr ((exec_pdrop o s).trans (issue2_first _ _ _ _ _ _ hr.granted hr.first)) hh
      · exact traps_of_badHandle hr (exec_pqry o s) hh
  · intro c g h team p new ready m
    refine ⟨fun i hi ⟨hr, hh⟩ hm => passes_without_lanes hh hi hr hm, fun ⟨hr, hh⟩ hm hp => penter_passes hh hm hr hp, fun ⟨hr, hh⟩ hm hp => ?_, fun ⟨hr, hh⟩ hm hp hs => ?_, fun ⟨hr, hh⟩ hm hp hs => ?_,
      fun ⟨hr, hh⟩ hm hp => pleave_passes hh hm hr hp, fun i hi ⟨hr, hh⟩ hm hp => traps_without_palette hh hm hi hr hp, fun ⟨hr, hh⟩ hm h0 hs hq => ?_, fun ⟨hr, hh⟩ hm h0 hs => ?_⟩
    · exact traps_of_handle hr (exec_penter o s) hh ((if_neg hm).trans (if_pos (Option.isSome_iff_ne_none.2 hp)))
    · refine passes_of_stays (exec_pwait_entered hh hm hr hp hs) (s.closed_stays gr _) ⟨?_, ?_⟩ <;> rw [State.after, State.group_written]
      · exact s.closed_wait gr _
      · exact s.closed_buf gr _
    · refine holds_of_block (exec_pwait_waits hh hm hr hp hs) (s.closed_stays gr _) ?_
      exact (congrArg Group.buf (State.group_written ..)).trans ((State.block_buf ..).trans (s.closed_buf gr _))
    · have hd := State.dropPalette_spec (k := k) (((s.closed_teams gr (.pdrop o)).palQueue g.team).trans hq)
      obtain ⟨hgr, hpal, hgen⟩ := hd
      refine passes_of_stays (exec_pdrop_drops hh hm hr h0 hs) ((s.closed_stays gr _).trans (hgr gr.gid).stays) ⟨?_, ?_⟩ <;> rw [(Book.written ..).team]
      · exact hpal
      · rw [hgen, (s.closed_teams gr (.pdrop o)).palGen]
    · refine holds_of_block (exec_pdrop_waits hh hm hr h0 hs) (s.closed_stays gr _) ?_
      exact (congrArg Group.buf (State.group_written ..)).trans ((State.block_buf ..).trans (s.closed_buf gr _))

end Sys2Proof.Machine
end

-- ==== What returns to a core, and the scrubber (O31) ====
section
/-! SUPPORT. The scrubber (06 R110, R111), the registers that an operation writes when it completes (01 R26), and the lines of an L1 as fills, accepted stores and
palette lines reach it (04 R68, R80); then O31. -/

namespace Sys2Proof.Machine

/-! #### The scrubber -/

section
variable {k : Core} {w x : FileWord}

theorem Core.mend_flips (p : FileWord → Bool) : x ∈ (k.mend p).flips ↔ x ∈ k.flips ∧ p x = false := by
  unfold Core.mend
  split
  next h =>
    have hf : k.flips = [] := by simp_all [Core.sound]
    simp [hf]
  · simp

theorem Core.mend_doubles (p : FileWord → Bool) (x : FileWord × Bool) : x ∈ (k.mend p).doubles ↔ x ∈ k.doubles ∧ p x.1 = false := by
  unfold Core.mend
  split
  next h =>
    have hf : k.doubles = [] := by simp_all [Core.sound]
    simp [hf]
  · simp

theorem Core.mend_poison (p : FileWord → Bool) : x ∈ (k.mend p).poison ↔ x ∈ k.poison ∧ p x = false := by
  unfold Core.mend
  split
  next h =>
    have hf : k.poison = [] := by simp_all [Core.sound]
    simp [hf]
  · simp

/-- What the scrubber finds (06 R111). -/
theorem Core.shows_eq (k : Core) (w : FileWord) (e : WordError) :
    k.shows w e = match k.doubles.find? (fun x => x.1 == w) with | some x => (if x.2 then .doubleLasting else if w ∈ k.flips then .doubleSingle else .doubleTransient) | none => if w ∈ k.flips then .single else e := by
  unfold Core.shows
  cases k.doubles.find? (fun x => x.1 == w) <;> simp only [List.contains_iff_mem]

/-- A word that the scrubber corrects loses its error, and no other word's (06 R111). -/
theorem Core.mend_one (hw : w ∉ k.poison) :
    (∀ x, x ∈ (k.mend (· = w)).flips ↔ x ∈ k.flips ∧ x ≠ w) ∧ (∀ x, x ∈ (k.mend (· = w)).doubles ↔ x ∈ k.doubles ∧ x.1 ≠ w) ∧ ∀ x ∈ k.poison, x ∈ (k.mend (· = w)).poison :=
  ⟨fun x => by rw [Core.mend_flips, decide_eq_false_iff_not], fun x => by rw [Core.mend_doubles, decide_eq_false_iff_not],
    fun x hx => (Core.mend_poison _).2 ⟨hx, decide_eq_false fun e => hw (e ▸ hx)⟩⟩

theorem Core.mend_one_poison (hw : w ∉ k.poison) : w ∉ (k.mend (· = w)).poison := fun h => hw ((Core.mend_poison _).1 h).1

theorem Core.mend_scrub (k : Core) (p : FileWord → Bool) : (k.mend p).scrub = k.scrub := by
  obtain ⟨a, b, c, d, h⟩ := k.mend_eq p
  rw [h]

end

section
variable {s : State} {core : Nat} {w : FileWord} {e : WordError}

/-- The INFO of what the scrubber logs (16 R313). -/
def State.scrubInfo (s : State) (core : Nat) (w : FileWord) (lasting : Bool) : Nat := logInfo (s.ownerOf core w) true lasting lasting (wordUnit w) (40 + clusterOfCore core % 8)

/-- The core once the scrubber has corrected what it found in a word, or has poisoned it. -/
def Core.scrubbed (k : Core) (w : FileWord) (x : WordError) : Core :=
  { k.mend (· = w) with
    scrub := if x = .single ∨ x = .doubleSingle then (k.scrub + 1) % 2 ^ 32 else (k.mend (· = w)).scrub
    poison := if x = .doubleLasting then k.poison ++ [w] else (k.mend (· = w)).poison }

/-- What a pass of the scrubber that may look does with what it finds (06 R111, 16 R313). -/
def State.scrubbed (s : State) (core : Nat) (w : FileWord) : WordError → State
  | .none => s
  | .single => s.modCore core (·.scrubbed w .single)
  | x => (s.modCore core (·.scrubbed w x)).logDie (dieOfCore core) (x == .doubleLasting) (s.scrubInfo core w (x == .doubleLasting)) 0 (wordAddr w)

theorem exec_scrubPass_off (h : ¬ ((s.core core).scrubCtl = true ∧ w ∉ (s.core core).poison ∧ w.file ≠ .memory)) : exec (.scrubPass core w ⟨e, true⟩) s = .next s := by
  have hoff : (!(s.core core).scrubCtl || (s.core core).poison.contains w || decide (w.file = .memory)) = true := by
    simp only [Bool.or_eq_true, Bool.not_eq_true', List.contains_iff_mem, decide_eq_true_eq]
    by_contra hn
    simp_all
  rw [exec_scrubPass]
  unfold execScrubPass
  dsimp only
  rw [if_neg (by decide), if_pos hoff]

theorem exec_scrubPass_on (h : (s.core core).scrubCtl = true ∧ w ∉ (s.core core).poison ∧ w.file ≠ .memory) :
    exec (.scrubPass core w ⟨e, true⟩) s = .next (s.scrubbed core w ((s.core core).shows w e)) := by
  obtain ⟨hc, hp, hm⟩ := h
  have hon : ¬ (!(s.core core).scrubCtl || (s.core core).poison.contains w || decide (w.file = .memory)) = true := by simp [hc, hp, hm]
  rw [exec_scrubPass]
  unfold execScrubPass
  dsimp only
  rw [if_neg (by decide), if_neg hon]
  cases (s.core core).shows w e <;> rfl

/-- An error that comes to be without the scrubber (06 R110). -/
theorem exec_scrubPass_strikes : exec (.scrubPass core w ⟨e, false⟩) s = .next (s.strike core w e) := rfl

end

theorem State.scrubbed_rest (s : State) (core : Nat) (w : FileWord) (x : WordError) : (s.scrubbed core w x).groups = s.groups ∧ (s.scrubbed core w x).mem = s.mem ∧ (s.scrubbed core w x).contexts = s.contexts := by
  cases x <;> exact ⟨rfl, rfl, rfl⟩

theorem State.scrubbed_core (s : State) (core : Nat) (w : FileWord) {x : WordError} (hx : x ≠ .none) : (s.scrubbed core w x).core core = (s.core core).scrubbed w x := by
  cases x with
  | none => exact absurd rfl hx
  | single => exact State.core_modCore_self ..
  | doubleTransient | doubleSingle | doubleLasting => exact (State.core_modDie ..).trans (State.core_modCore_self ..)

/-- The log of the scrubber's cluster takes an error of two bits (16 R313). -/
theorem State.scrubbed_log (s : State) (core : Nat) (w : FileWord) {x : WordError} (h0 : x ≠ .none) (h1 : x ≠ .single) :
    ((s.scrubbed core w x).die (dieOfCore core)).log = (s.die (dieOfCore core)).log.event (x == .doubleLasting) s.devTime (s.scrubInfo core w (x == .doubleLasting)) 0 (wordAddr w) := by
  cases x with
  | none => exact absurd rfl h0
  | single => exact absurd rfl h1
  | doubleTransient | doubleSingle | doubleLasting => exact congrArg Die.log (State.die_modDie_self ..)

theorem Core.scrubbed_poison_eq (k : Core) (w : FileWord) (x : WordError) : (k.scrubbed w x).poison = if x = .doubleLasting then k.poison ++ [w] else (k.mend (· = w)).poison := rfl

/-- A word that the scrubber finds in error loses it, and no other word does (06 R111). -/
theorem Core.scrubbed_mends {k : Core} {w : FileWord} (hw : w ∉ k.poison) (x : WordError) :
    (∀ y, y ∈ (k.scrubbed w x).flips ↔ y ∈ k.flips ∧ y ≠ w) ∧ (∀ y, y ∈ (k.scrubbed w x).doubles ↔ y ∈ k.doubles ∧ y.1 ≠ w) ∧ ∀ y ∈ k.poison, y ∈ (k.scrubbed w x).poison := by
  obtain ⟨hf, hd, hp⟩ := k.mend_one hw
  refine ⟨hf, hd, fun y hy => ?_⟩
  rw [Core.scrubbed_poison_eq]
  split
  · exact List.mem_append_left _ hy
  · exact hp y hy

theorem Core.scrubbed_poison {k : Core} {w : FileWord} (hw : w ∉ k.poison) (x : WordError) : w ∈ (k.scrubbed w x).poison ↔ x = .doubleLasting := by
  rw [Core.scrubbed_poison_eq]
  split
  next h => simp [h]
  next h => simp [h, k.mend_one_poison hw]

theorem Core.scrubbed_scrub (k : Core) (w : FileWord) (x : WordError) : (k.scrubbed w x).scrub = if x = .single ∨ x = .doubleSingle then (k.scrub + 1) % 2 ^ 32 else k.scrub := by
  have h : (k.scrubbed w x).scrub = if x = .single ∨ x = .doubleSingle then (k.scrub + 1) % 2 ^ 32 else (k.mend (· = w)).scrub := rfl
  rw [h, Core.mend_scrub]

/-- The core in whose word an error comes to be (06 R110). -/
def Core.struck (k : Core) (w : FileWord) (e : WordError) : Core :=
  if e = .single then { k with flips := k.flips.filter (· ≠ w) ++ [w] }
  else { k with flips := k.flips.filter (· ≠ w) ++ (if e = .doubleSingle then [w] else []), doubles := k.doubles.filter (fun x => x.1 ≠ w) ++ [(w, e == .doubleLasting)] }

theorem State.strike_eq {s : State} {core : Nat} {w : FileWord} {e : WordError} (hm : w.file ≠ .memory) (hp : w ∉ (s.core core).poison) (he : e ≠ .none) : s.strike core w e = s.modCore core (·.struck w e) := by
  have hc : ¬ (s.core core).poison.contains w = true := by rwa [List.contains_iff_mem]
  cases e with
  | none => exact absurd rfl he
  | single | doubleTransient | doubleSingle | doubleLasting =>
    unfold State.strike
    dsimp only
    rw [if_neg hm, if_neg hc]
    rfl

theorem Core.struck_flips (k : Core) (w : FileWord) {e : WordError} (h : e = .single ∨ e = .doubleSingle) : w ∈ (k.struck w e).flips := by
  rcases h with rfl | rfl <;> exact List.mem_append_right _ (List.mem_singleton.2 rfl)

theorem Core.struck_doubles (k : Core) (w : FileWord) {e : WordError} (h : e ≠ .single) : (w, e == .doubleLasting) ∈ (k.struck w e).doubles := by
  rw [Core.struck, if_neg h]
  exact List.mem_append_right _ (List.mem_singleton.2 rfl)

/-! #### Registers by cell -/

/-- The words of a class of registers. -/
def Group.file (g : Group) : Nat → Table Word
  | 0 => g.v | 1 => g.s | 2 => g.q | 3 => g.t | _ => g.acc

/-- The word of a cell. -/
def Group.cell (g : Group) (c : RCell) : Word := tget 0 c.key (g.file c.cls)

theorem Group.rv_cell (g : Group) (k : Nat) : g.rv (k / 32) (k % 32) = tget 0 k g.v := congrArg (tget 0 · g.v) (Nat.div_add_mod k 32)

theorem Group.file_wcell (g : Group) (c : RCell) (w : Word) (hc : c.cls < 5) {j : Nat} (hj : j < 5) : (g.wcell c w).file j = if j = c.cls then tset 0 c.key w (g.file j) else g.file j := by
  obtain ⟨cls, key⟩ := c
  have hv : (g.wv (key / 32) (key % 32) w).v = tset 0 key w g.v := congrArg (tset 0 · w g.v) (Nat.div_add_mod key 32)
  dsimp only at hc ⊢
  match cls, j, hc, hj with
  | 0, 0, _, _ => exact hv
  | 0, 1, _, _ | 0, 2, _, _ | 0, 3, _, _ | 0, 4, _, _ | 1, 0, _, _ | 1, 1, _, _ | 1, 2, _, _ | 1, 3, _, _ | 1, 4, _, _ | 2, 0, _, _ | 2, 1, _, _ | 2, 2, _, _
  | 2, 3, _, _ | 2, 4, _, _ | 3, 0, _, _ | 3, 1, _, _ | 3, 2, _, _ | 3, 3, _, _ | 3, 4, _, _ | 4, 0, _, _ | 4, 1, _, _ | 4, 2, _, _ | 4, 3, _, _ | 4, 4, _, _ => rfl

theorem Group.cell_wcell (g : Group) {c d : RCell} (w : Word) (hc : c.cls < 5) (hd : d.cls < 5) : (g.wcell c w).cell d = if d = c then w else g.cell d := by
  obtain ⟨ccls, ckey⟩ := c
  obtain ⟨dcls, dkey⟩ := d
  unfold Group.cell
  rw [Group.file_wcell g _ w hc hd]
  by_cases h : dcls = ccls
  · subst h
    by_cases hk : dkey = ckey
    · subst hk; simp
    · simp [hk, tget_tset_ne]
  · simp [h]

theorem Group.cell_wcells_ne {ws : List (RCell × Word)} (hw : ∀ x ∈ ws, x.1.cls < 5) {c : RCell} (hc : c.cls < 5) (h : c ∉ ws.map (·.1)) (g : Group) : (g.wcells ws).cell c = g.cell c := by
  induction ws generalizing g with
  | nil => rfl
  | cons x ws ih =>
    obtain ⟨hx, hws⟩ := List.forall_mem_cons.1 hw
    obtain ⟨hne, hnm⟩ := not_or.1 (mt List.mem_cons.2 h)
    exact (ih hws hnm _).trans ((g.cell_wcell x.2 hx hc).trans (if_neg hne))

/-- Each of distinct cells takes its word. -/
theorem Group.cell_wcells {ws : List (RCell × Word)} (hw : ∀ x ∈ ws, x.1.cls < 5) (hn : (ws.map (·.1)).Nodup) {x : RCell × Word} (h : x ∈ ws) (g : Group) : (g.wcells ws).cell x.1 = x.2 := by
  induction ws generalizing g with
  | nil => cases h
  | cons y ws ih =>
    obtain ⟨hy, hws⟩ := List.forall_mem_cons.1 hw
    obtain ⟨hnm, hn⟩ := List.nodup_cons.1 hn
    rcases List.mem_cons.1 h with rfl | h
    · exact (Group.cell_wcells_ne hws hy hnm _).trans ((g.cell_wcell x.2 hy hy).trans (if_pos rfl))
    · exact ih hws hn h _

/-! #### The bytes of an operation as a number -/

theorem Op.num_eq (o : Op) (va n : Nat) : o.num va n = ((List.range n).map (fun j => o.byte (va + j) * 256 ^ j)).sum := by
  induction n generalizing va with
  | zero => rfl
  | succ n ih =>
    rw [Op.num, ih, List.range_succ_eq_map, List.map_cons, List.sum_cons, List.map_map, ← List.sum_map_mul_left]
    simp only [Nat.add_zero, pow_zero, Nat.mul_one]
    refine congrArg (o.byte va + ·) (congrArg List.sum (List.map_congr_left fun j _ => ?_))
    simp only [Function.comp_apply, Nat.succ_eq_add_one]
    rw [pow_succ, Nat.add_right_comm va 1 j, ← Nat.add_assoc]
    ring

theorem Group.flags_wcell (g : Group) (c : RCell) (w : Word) : (g.wcell c w).flags = g.flags := by
  unfold Group.wcell
  split <;> rfl

theorem Group.flags_wcells (ws : List (RCell × Word)) (g : Group) : (g.wcells ws).flags = g.flags := by
  induction ws generalizing g with
  | nil => rfl
  | cons x ws ih => exact (ih _).trans (Group.flags_wcell ..)

/-! #### The completion of an operation -/

theorem State.settle_of_calm {s : State} (h : s.holds = []) : s.settle = s := by
  unfold State.settle
  rw [h]
  rfl

/-- Words that lose their errors leave the rest of a core. -/
theorem Core.mend_rest (k : Core) (p : FileWord → Bool) : { k.mend p with flips := k.flips, doubles := k.doubles, poison := k.poison } = k := by
  unfold Core.mend
  split <;> rfl

/-- The cells written, and the cores but for the errors of their words. -/
theorem State.putCells_spec (s : State) (gid : Nat) (ws : List (RCell × Word)) :
    (s.putCells gid ws).groups = (s.modGroup gid (fun g => g.wcells ws)).groups ∧ (s.putCells gid ws).ops = s.ops ∧ (s.putCells gid ws).holds = s.holds ∧ (s.putCells gid ws).sameCores s := by
  unfold State.putCells State.mendCells
  split
  · exact ⟨rfl, rfl, rfl, fun _ => rfl⟩
  · refine ⟨rfl, rfl, rfl, fun k => ?_⟩
    by_cases hk : k = coreOf gid
    · subst hk
      rw [State.core_modCore_self]
      exact Core.mend_rest ..
    · rw [State.core_modCore_ne _ _ _ _ hk]
      rfl

/-- The group of an operation that completes: its path and its flag count it no longer (01 R26, 05 R89). -/
theorem State.finishOp_group {s : State} {n f : Nat} {o : Op} (hr : s.resident o.gid = true) (hf : o.flag = some f) :
    ∃ p e, (s.finishOp n o).group o.gid = { (s.group o.gid).clearFlag f with paths := p, engScope := e } := by
  unfold State.finishOp
  dsimp only
  rw [if_neg (by rw [show State.resident { s with ops := tdel n s.ops } o.gid = true from hr]; decide), State.group_modGroup_self, hf]
  rcases o.path with _ | p <;> rcases o.scope with _ | sc <;> exact ⟨_, _, rfl⟩

theorem State.finishOp_group_ne {s : State} {n g : Nat} {o : Op} (h : g ≠ o.gid) : (s.finishOp n o).group g = s.group g := by
  unfold State.finishOp
  dsimp only
  split
  · rfl
  · exact State.group_modGroup_ne _ _ _ _ h

/-- An operation all of whose parts have returned completes (01 R26, 05 R89). -/
theorem exec_longLatencyComplete_done {s : State} {k f : Nat} {o : Op} (hh : s.holds = []) (ho : s.op k = some o) (hp : o.parts = 0) (hf : o.flag = some f) (hx : o.path ≠ some 3) :
    exec (.longLatencyComplete k) s = .next ((s.putCells o.gid o.results).finishOp k o) := by
  rw [exec_longLatencyComplete]
  unfold execLongLatencyComplete
  rw [ho]
  dsimp only
  rw [if_neg (by simp [hp, hf, hx]), State.settle_of_calm]
  obtain ⟨g, hg⟩ := (s.putCells o.gid o.results).finishOp_eq k o
  rw [hg]
  exact (s.putCells_spec o.gid o.results).2.2.1.trans hh

/-- What the completion of an operation leaves (01 R26). -/
theorem State.completed_spec (s : State) {k f : Nat} {o : Op} (hf : o.flag = some f) :
    let t := (s.putCells o.gid o.results).finishOp k o
    t.op k = none ∧ (t.group o.gid).flagCount f = (s.group o.gid).flagCount f - 1 ∧ (∀ c, (t.group o.gid).cell c = ((s.group o.gid).wcells o.results).cell c) ∧
      (∀ g, g ≠ o.gid → t.group g = s.group g) ∧ t.mem = s.mem ∧ t.sameCores s := by
  intro t
  obtain ⟨hg, -, -, hc⟩ := s.putCells_spec o.gid o.results
  have hgroup (g : Nat) : (s.putCells o.gid o.results).group g = (s.modGroup o.gid (fun g => g.wcells o.results)).group g := by unfold State.group; rw [hg]
  have hres : (s.putCells o.gid o.results).resident o.gid = true := by
    unfold State.resident; rw [hg]; exact State.resident_modGroup_self ..
  obtain ⟨g, heq⟩ := (s.putCells o.gid o.results).finishOp_eq k o
  obtain ⟨p, e, hself⟩ := State.finishOp_group (n := k) hres hf
  rw [hgroup, State.group_modGroup_self] at hself
  refine ⟨?_, ?_, fun c => ?_, fun g hne => ?_, ?_, fun j => ?_⟩
  · show tfind k t.ops = none
    rw [show t.ops = _ from congrArg State.ops heq]
    exact tfind_tdel_self ..
  · rw [hself]
    refine (tget_tset_self ..).trans ?_
    unfold Group.flagCount
    rw [Group.flags_wcells]
  · rw [hself]; rfl
  · rw [State.finishOp_group_ne hne, hgroup, State.group_modGroup_ne _ _ _ _ hne]
  · rw [State.finishOp_mem, State.putCells_mem]
  · have hj : t.core j = (s.putCells o.gid o.results).core j := by unfold State.core; rw [show t.cores = _ from congrArg State.cores heq]
    rw [hj]; exact hc j

/-! #### Many entries put into a table -/

section
variable {α β : Type} (d : β) (key : α → Nat) (val : α → β)

theorem tget_puts_ne {l : List α} {k : Nat} (h : ∀ a ∈ l, key a ≠ k) (t : Table β) : tget d k (l.foldl (fun t a => tput (key a) (val a) t) t) = tget d k t := by
  induction l generalizing t with
  | nil => rfl
  | cons a l ih =>
    obtain ⟨ha, hl⟩ := List.forall_mem_cons.1 h
    exact (ih hl _).trans (tget_tput_ne d ha.symm ..)

/-- Entries of one key that agree leave their value at it. -/
theorem tget_puts {l : List α} {k : Nat} {v : β} (hv : ∀ a ∈ l, key a = k → val a = v) (h : ∃ a ∈ l, key a = k) (t : Table β) :
    tget d k (l.foldl (fun t a => tput (key a) (val a) t) t) = v := by
  induction l generalizing t with
  | nil => obtain ⟨a, ha, -⟩ := h; cases ha
  | cons a l ih =>
    obtain ⟨hva, hvl⟩ := List.forall_mem_cons.1 hv
    by_cases hl : ∃ b ∈ l, key b = k
    · exact ih hvl hl _
    · have hne : ∀ b ∈ l, key b ≠ k := fun b hb e => hl ⟨b, hb, e⟩
      have ha : key a = k := by
        obtain ⟨b, hb, e⟩ := h
        exact (List.mem_cons.1 hb).elim (fun eb => eb ▸ e) (fun hb => absurd e (hne b hb))
      subst ha
      exact (tget_puts_ne d key val hne _).trans ((tget_tput_self ..).trans (hva rfl))

end

/-! #### Lines of an L1 as they take bytes -/

namespace L1Line

/-- One more sector of a line becomes valid with the bytes given. -/
def fillSector (l : L1Line) (i : Nat) (bs : Table Byte) : L1Line :=
  { l with valid := l.valid ||| 2 ^ i, data := (List.range 32).foldl (fun d o => tput (32 * i + o) (tget 0 (32 * i + o) bs) d) l.data }

theorem fill_cons (l : L1Line) (i : Nat) (secs : List Nat) (bs : Table Byte) : l.fill (i :: secs) bs = (l.fillSector i bs).fill secs bs := rfl

/-- A fill leaves everything but the bytes and the valid bits. -/
theorem fill_eq (l : L1Line) (secs : List Nat) (bs : Table Byte) : l.fill secs bs = { l with valid := (l.fill secs bs).valid, data := (l.fill secs bs).data } := by
  induction secs generalizing l with
  | nil => rfl
  | cons i secs ih => rw [fill_cons, ih]; rfl

theorem fill_dirty (l : L1Line) (secs : List Nat) (bs : Table Byte) : (l.fill secs bs).dirty = l.dirty := by rw [fill_eq]
theorem fill_pool (l : L1Line) (secs : List Nat) (bs : Table Byte) : (l.fill secs bs).pool = l.pool := by rw [fill_eq]
theorem fill_rd (l : L1Line) (secs : List Nat) (bs : Table Byte) : (l.fill secs bs).rd = l.rd := by rw [fill_eq]
theorem fill_wr (l : L1Line) (secs : List Nat) (bs : Table Byte) : (l.fill secs bs).wr = l.wr := by rw [fill_eq]

theorem fill_valid (l : L1Line) (secs : List Nat) (bs : Table Byte) (i : Nat) : (l.fill secs bs).valid.testBit i = (l.valid.testBit i || decide (i ∈ secs)) := by
  induction secs generalizing l with
  | nil => simp [fill]
  | cons j secs ih =>
    rw [fill_cons, ih]
    simp only [fillSector, Nat.testBit_or, Nat.testBit_two_pow, List.mem_cons, Bool.decide_or, eq_comm (a := i), Bool.or_assoc]

theorem fillSector_data (l : L1Line) (i : Nat) (bs : Table Byte) : (l.fillSector i bs).data = (List.range 32).foldl (fun d o => tput (32 * i + o) (tget 0 (32 * i + o) bs) d) l.data := by
  simp only [fillSector]

theorem fillSector_self (l : L1Line) (i : Nat) (bs : Table Byte) {j : Nat} (hj : j < 32) : tget 0 (32 * i + j) (l.fillSector i bs).data = tget 0 (32 * i + j) bs := by
  rw [fillSector_data]
  exact tget_puts 0 (fun o => 32 * i + o) (fun o => tget 0 (32 * i + o) bs) (fun o _ e => congrArg (tget 0 · bs) e) ⟨j, List.mem_range.2 hj, rfl⟩ _

theorem fillSector_ne (l : L1Line) {i k : Nat} (bs : Table Byte) {j : Nat} (hj : j < 32) (h : k ≠ i) : tget 0 (32 * k + j) (l.fillSector i bs).data = tget 0 (32 * k + j) l.data := by
  rw [fillSector_data]
  refine tget_puts_ne 0 (fun o => 32 * i + o) (fun o => tget 0 (32 * i + o) bs) (fun o ho => ?_) _
  have := List.mem_range.1 ho
  omega

theorem fill_data_ne (l : L1Line) {secs : List Nat} (bs : Table Byte) {i j : Nat} (hj : j < 32) (h : i ∉ secs) : tget 0 (32 * i + j) (l.fill secs bs).data = tget 0 (32 * i + j) l.data := by
  induction secs generalizing l with
  | nil => rfl
  | cons k secs ih =>
    obtain ⟨hk, hs⟩ := not_or.1 (mt List.mem_cons.2 h)
    rw [fill_cons, ih _ hs, fillSector_ne _ _ hj hk]

theorem fill_data (l : L1Line) {secs : List Nat} (bs : Table Byte) {i j : Nat} (hj : j < 32) (h : i ∈ secs) : tget 0 (32 * i + j) (l.fill secs bs).data = tget 0 (32 * i + j) bs := by
  induction secs generalizing l with
  | nil => cases h
  | cons k secs ih =>
    rw [fill_cons]
    by_cases hs : i ∈ secs
    · exact ih _ hs
    · obtain rfl := (List.mem_cons.1 h).resolve_right hs
      rw [fill_data_ne _ _ hj hs, fillSector_self _ _ _ hj]

theorem byte_of_dirty_none {l : L1Line} {o : Nat} (h : tfind o l.dirty = none) : l.byte o = tget 0 o l.data := by
  unfold byte; rw [h]

theorem byte_eq (l : L1Line) (o : Nat) : l.byte o = (tfind o l.dirty).getD (tget 0 o l.data) := by
  unfold byte
  cases tfind o l.dirty <;> rfl

/-- Bytes that a line absorbs are dirty no longer (log 65). -/
theorem absorb_dirty (l : L1Line) {bs : Table Byte} {o : Nat} (h : tfind o bs ≠ none) : tfind o (l.absorb bs).dirty = none := by
  by_contra hne
  obtain ⟨x, hx, e⟩ := List.mem_map.1 (tfind_ne_none_iff.1 hne)
  have hp := (List.mem_filter.1 hx).2
  rw [Option.isNone_iff_eq_none, e] at hp
  exact h hp

/-- A byte in a valid sector that a line absorbs (04 R68). -/
theorem absorb_data (l : L1Line) {bs : Table Byte} (hn : (bs.map (·.1)).Nodup) {b : Nat × Byte} (hb : b ∈ bs) (hv : l.valid.testBit (b.1 / 32) = true) : tget 0 b.1 (l.absorb bs).data = b.2 := by
  unfold absorb
  dsimp only
  rw [← List.foldl_filter]
  have hm : b ∈ bs.filter (fun b => l.valid.testBit (b.1 / 32)) := List.mem_filter.2 ⟨hb, hv⟩
  refine tget_puts 0 (fun b => b.1) (fun b => b.2) (fun a ha e => ?_) ⟨b, hm, rfl⟩ _
  exact congrArg Prod.snd (List.inj_on_of_nodup_map hn (List.mem_filter.1 ha).1 hb e)

end L1Line

theorem tfind_of_mem_nodup {β : Type} {t : Table β} (hn : (t.map (·.1)).Nodup) {b : Nat × β} (hb : b ∈ t) : tfind b.1 t = some b.2 := by
  obtain ⟨v, hv⟩ := Option.ne_none_iff_exists'.1 (tfind_ne_none_iff.2 (List.mem_map_of_mem hb))
  rw [hv, ← congrArg Prod.snd (List.inj_on_of_nodup_map hn (mem_of_tfind hv) hb rfl)]

theorem mem_wholeSectors {bs : Table Byte} {i : Nat} (hi : i < 4) : i ∈ wholeSectors bs ↔ ∀ j, j < 32 → (tfind (32 * i + j) bs).isSome = true := by
  simp [wholeSectors, hi]

/-- A byte of an accepted store in a line held is dirty no longer, and stands in its sector where that is or becomes valid (04 R68, log 65). -/
theorem L1Line.absorb_fill {l : L1Line} {bs : Table Byte} (hn : (bs.map (·.1)).Nodup) {b : Nat × Byte} (hb : b ∈ bs) (hlt : b.1 < 128) :
    tfind b.1 ((l.absorb bs).fill ((wholeSectors bs).filter (fun i => !l.valid.testBit i)) bs).dirty = none ∧
      (l.valid.testBit (b.1 / 32) = true ∨ (∀ j, j < 32 → (tfind (32 * (b.1 / 32) + j) bs).isSome = true) →
        ((l.absorb bs).fill ((wholeSectors bs).filter (fun i => !l.valid.testBit i)) bs).byte b.1 = b.2) := by
  have hfind := tfind_of_mem_nodup hn hb
  have hj : b.1 % 32 < 32 := Nat.mod_lt _ (by decide)
  have hdirty : tfind b.1 ((l.absorb bs).fill ((wholeSectors bs).filter (fun i => !l.valid.testBit i)) bs).dirty = none := by
    rw [L1Line.fill_dirty]
    exact l.absorb_dirty (by rw [hfind]; exact Option.some_ne_none _)
  refine ⟨hdirty, fun h => ?_⟩
  rw [L1Line.byte_of_dirty_none hdirty]
  by_cases hv : l.valid.testBit (b.1 / 32) = true
  · have e := (l.absorb bs).fill_data_ne bs (secs := (wholeSectors bs).filter (fun i => !l.valid.testBit i)) hj (i := b.1 / 32) (fun hm => by simp [hv] at hm)
    rw [Nat.div_add_mod] at e
    rw [e]
    exact l.absorb_data hn hb hv
  · have hw := (mem_wholeSectors (by omega)).2 (h.resolve_left hv)
    have e := (l.absorb bs).fill_data bs (secs := (wholeSectors bs).filter (fun i => !l.valid.testBit i)) hj (List.mem_filter.2 ⟨hw, by simpa using hv⟩)
    rw [Nat.div_add_mod] at e
    rw [e, tget_eq_tfind, hfind]
    rfl

/-! #### What an L1 takes in and gives up -/

/-- The operations, the releases, the groups, the teams and the remap filters stand as they were. -/
structure State.Stocks (s t : State) : Prop where
  ops : t.ops = s.ops
  holds : t.holds = s.holds
  groups : t.groups = s.groups
  teams : t.teams = s.teams
  filter (k : Nat) : (t.core k).alias_ = (s.core k).alias_ ∧ (t.core k).canon = (s.core k).canon

namespace State.Stocks

theorem refl (s : State) : s.Stocks s := ⟨rfl, rfl, rfl, rfl, fun _ => ⟨rfl, rfl⟩⟩

theorem trans {s t u : State} (h : s.Stocks t) (k : t.Stocks u) : s.Stocks u :=
  ⟨k.ops.trans h.ops, k.holds.trans h.holds, k.groups.trans h.groups, k.teams.trans h.teams, fun n => ⟨(k.filter n).1.trans (h.filter n).1, (k.filter n).2.trans (h.filter n).2⟩⟩

theorem ite {s t u : State} {p : Prop} {_ : Decidable p} (ht : s.Stocks t) (hu : s.Stocks u) : s.Stocks (if p then t else u) := by split <;> assumption

theorem of_book {s t : State} (h : Book s t) : s.Stocks t := by
  refine ⟨?_, ?_, ?_, ?_, fun k => ⟨?_, ?_⟩⟩
  · rw [h.rest]
  · rw [h.rest]
  · rw [h.rest]
  · rw [h.rest]
  · have e := congrArg Core.alias_ (h.cores k); exact e
  · have e := congrArg Core.canon (h.cores k); exact e

variable (s : State)

theorem modCore (k : Nat) {f : Core → Core} (h : (f (s.core k)).alias_ = (s.core k).alias_ ∧ (f (s.core k)).canon = (s.core k).canon) : s.Stocks (s.modCore k f) := by
  refine ⟨rfl, rfl, rfl, rfl, fun j => ?_⟩
  by_cases hj : j = k
  · subst hj; rw [State.core_modCore_self]; exact h
  · rw [State.core_modCore_ne _ _ _ _ hj]; exact ⟨rfl, rfl⟩

theorem setL1 (core tenant line : Nat) (l : L1Line) : s.Stocks (s.setL1 core tenant line l) := modCore s _ ⟨rfl, rfl⟩
theorem delL1 (core tenant line : Nat) : s.Stocks (s.delL1 core tenant line) := modCore s _ ⟨rfl, rfl⟩
theorem delReq (n : Nat) : s.Stocks (s.delReq n) := ⟨rfl, rfl, rfl, rfl, fun _ => ⟨rfl, rfl⟩⟩
theorem addReq (r : Req) : s.Stocks (s.addReq r).2 := ⟨rfl, rfl, rfl, rfl, fun _ => ⟨rfl, rfl⟩⟩
theorem raise_die (ctx : Nat) (f : Flt) (die : Nat) : s.Stocks (s.raise ctx f { die := die }) := ⟨rfl, rfl, rfl, rfl, fun _ => ⟨rfl, rfl⟩⟩
theorem logLasting (ctx die tenant core : Nat) (f : Flt) : s.Stocks (s.logLasting ctx die tenant core f) := .ite ⟨rfl, rfl, rfl, rfl, fun _ => ⟨rfl, rfl⟩⟩ (refl s)

theorem choose (n : Nat) : s.Stocks (s.choose n).2 := by
  unfold State.choose
  split
  · exact refl s
  · exact ⟨rfl, rfl, rfl, rfl, fun _ => ⟨rfl, rfl⟩⟩

theorem mendL1 (core tenant line : Nat) (offs : List Nat) : s.Stocks (s.mendL1 core tenant line offs) :=
  .ite (refl s) (modCore s _ (by obtain ⟨_, _, _, _, h⟩ := (s.core core).mend_eq (fun w => w.file = .l1 ∧ w.index / 32 = tenant * 2 ^ 49 + line ∧ offs.any (fun o => o / 4 == w.index % 32)); rw [h]; exact ⟨rfl, rfl⟩))

theorem readDirty (core tenant line : Nat) (l : L1Line) : s.Stocks (s.readDirty core tenant line l).2 := by
  unfold State.readDirty
  split
  · exact refl s
  · refine State.Stocks.trans ?_ (of_book (.readWords ..))
    split
    · exact (logLasting ..).trans (raise_die ..)
    · exact refl s

theorem sendDirty (core tenant line : Nat) (l : L1Line) : s.Stocks (s.sendDirty core tenant line l).2 := by
  unfold State.sendDirty
  dsimp only
  split
  · exact readDirty ..
  · exact (readDirty ..).trans (addReq ..)

theorem evictL1 (core tenant line : Nat) (l : L1Line) : s.Stocks (s.evictL1 core tenant line l) := (sendDirty ..).trans (delL1 ..)

theorem roomL1 (core : Nat) : s.Stocks (s.roomL1 core) := by
  unfold State.roomL1
  dsimp only
  refine .ite (refl s) ?_
  split
  · exact (choose ..).trans (evictL1 ..)
  · exact choose ..

theorem fillL1 (r : Req) : s.Stocks (s.fillL1 r) := by
  unfold State.fillL1
  dsimp only
  split
  · exact .ite (refl s) ((setL1 ..).trans (mendL1 ..))
  · exact .ite (refl s) (((roomL1 ..).trans (setL1 ..)).trans (mendL1 ..))

variable {s} {t : State} (h : s.Stocks t)
include h

theorem op (n : Nat) : t.op n = s.op n := by unfold State.op; rw [h.ops]

theorem team (k : Nat) : t.team k = s.team k := by unfold State.team; rw [h.teams]

/-- Which lines lie in the per-thread range of another group (04 R70). -/
theorem ptmOfOther (gid tenant line : Nat) : t.ptmOfOther gid tenant line = s.ptmOfOther gid tenant line := by
  have names (k : Nat) : (t.core k).namesOf tenant line = (s.core k).namesOf tenant line := by
    obtain ⟨ha, hc⟩ := h.filter k
    unfold Core.namesOf Core.remap
    rw [ha, hc]
  unfold State.ptmOfOther
  rw [h.groups]
  simp only [names]

end State.Stocks

/-! #### Requests that end -/

theorem State.partsDone_rest (s : State) (ops : List Nat) : (s.partsDone ops).reqs = s.reqs ∧ (s.partsDone ops).holds = s.holds ∧ (s.partsDone ops).cores = s.cores := by
  have step (s : State) (n : Nat) : (s.partDone n).reqs = s.reqs ∧ (s.partDone n).holds = s.holds ∧ (s.partDone n).cores = s.cores := by
    unfold State.partDone
    split
    · exact ⟨rfl, rfl, rfl⟩
    next o _ =>
      dsimp only
      generalize (_ && _ : Bool) = last
      cases last with
      | false => exact ⟨rfl, rfl, rfl⟩
      | true =>
        obtain ⟨g, h⟩ := s.finishOp_eq n { o with parts := o.parts - 1 }
        rw [if_pos rfl, h]
        exact ⟨rfl, rfl, rfl⟩
  induction ops generalizing s with
  | nil => exact ⟨rfl, rfl, rfl⟩
  | cons n ops ih =>
    obtain ⟨h1, h2, h3⟩ := ih (s.partDone n)
    obtain ⟨k1, k2, k3⟩ := step s n
    exact ⟨h1.trans k1, h2.trans k2, h3.trans k3⟩

/-- A request that has ended is in flight no longer, and with no release in progress nothing more moves. -/
theorem State.reqDone_calm {s : State} (h : s.holds = []) (n : Nat) (r : Req) : (s.reqDone n r).settle = s.reqDone n r ∧ (s.reqDone n r).req n = none := by
  obtain ⟨hr, hh, -⟩ := (s.delReq n).partsDone_rest r.ops
  refine ⟨State.settle_of_calm (hh.trans h), ?_⟩
  show tfind n (s.reqDone n r).reqs = none
  rw [State.reqDone, hr]
  exact tfind_tdel_self ..

/-- An operation with a result to write, or a flag, has one part fewer. -/
theorem State.partDone_lasts {s : State} {k : Nat} {o : Op} (ho : s.op k = some o) (hl : o.flag ≠ none ∨ o.dest ≠ .none) : (s.partDone k).op k = some { o with parts := o.parts - 1 } := by
  have hn : ¬ ((decide ((o.parts - 1) = 0) && o.flag.isNone && (match o.dest with | .none => true | _ => false)) = true) := by
    intro h
    simp only [Bool.and_eq_true, Option.isNone_iff_eq_none] at h
    obtain ⟨⟨-, hf⟩, hd⟩ := h
    rcases hl with hl | hl
    · exact hl hf
    · revert hd
      cases hdd : o.dest with
      | none => exact absurd hdd hl
      | _ => intro h; cases h
  unfold State.partDone
  rw [ho]
  refine Eq.trans (congrArg (State.op · k) (if_neg hn)) ?_
  exact tfind_tput_self ..

/-- An operation with neither has one part fewer, or has completed (05 R89). -/
theorem State.partDone_plain {s : State} {k : Nat} {o : Op} (ho : s.op k = some o) (hf : o.flag = none) (hd : o.dest = .none) :
    (o.parts ≤ 1 → (s.partDone k).op k = none) ∧ (1 < o.parts → (s.partDone k).op k = some { o with parts := o.parts - 1 }) := by
  unfold State.partDone
  rw [ho]
  dsimp only
  refine ⟨fun h => ?_, fun h => ?_⟩
  · rw [if_pos (by simp [hf, hd]; omega)]
    obtain ⟨g, hg⟩ := s.finishOp_eq k { o with parts := o.parts - 1 }
    rw [hg]
    exact tfind_tdel_self ..
  · rw [if_neg (by simp [hf, hd]; omega)]
    exact tfind_tput_self ..

/-! #### Bytes handed to operations -/

theorem State.handBytes_rest (s : State) (r : Req) (offs : List Nat) (f : Nat → Byte) : ∃ o d, s.handBytes r offs f = { s with ops := o, draws := d } := by
  have deliver (s : State) (n : Nat) (bs : List (Nat × Byte)) : ∃ o, s.deliver n bs = { s with ops := o } := by
    unfold State.deliver
    split
    · exact ⟨_, rfl⟩
    · exact ⟨_, rfl⟩
  have hand (s : State) (n : Nat) (xs : List (Nat × Byte)) : ∃ o d, s.handOp r xs n = { s with ops := o, draws := d } := by
    have either {p : Prop} [Decidable p] {a b : State} (ha : ∃ o d, a = { s with ops := o, draws := d }) (hb : ∃ o d, b = { s with ops := o, draws := d }) :
        ∃ o d, (if p then a else b) = { s with ops := o, draws := d } := by split <;> assumption
    exact either ((deliver _ n _).imp fun o h => ⟨_, h⟩) ((deliver _ n _).imp fun o h => ⟨_, h⟩)
  unfold State.handBytes
  generalize r.ops = ops
  induction ops generalizing s with
  | nil => exact ⟨_, _, rfl⟩
  | cons n ops ih =>
    obtain ⟨o, d, h⟩ := hand s n (offs.map (fun o => (r.line * 128 + o, f o)))
    obtain ⟨o', d', h'⟩ := ih (s.handOp r (offs.map (fun o => (r.line * 128 + o, f o))) n)
    exact ⟨o', d', by rw [List.foldl_cons, h', h]⟩

/-- What an operation has once the bytes are handed to it; those of another group's per-thread range are not said (04 R70). -/
theorem State.handBytes_op {s : State} {r : Req} {k : Nat} {o : Op} (hr : r.ops = [k]) (ho : s.op k = some o) (offs : List Nat) (f : Nat → Byte) :
    ∃ g, (s.handBytes r offs f).op k = some { o with got := g } ∧ (s.ptmOfOther o.gid r.tenant r.line = false → ∀ b ∈ offs, tget 0 (128 * r.line + b) g = (f b).toNat) := by
  have deliver {t : State} (ht : t.op k = some o) (bs : List (Nat × Byte)) : (t.deliver k bs).op k = some { o with got := bs.foldl (fun t b => tput b.1 b.2.toNat t) o.got } := by
    unfold State.deliver
    rw [ht]
    exact tfind_tput_self ..
  unfold State.handBytes
  rw [hr, List.foldl_cons, List.foldl_nil]
  unfold State.handOp
  rw [ho]
  dsimp only
  split
  next h => exact ⟨_, deliver (by exact ho) _, fun hn => absurd (h.symm.trans hn) (by decide)⟩
  next h =>
    refine ⟨_, deliver ho _, fun _ b hb => ?_⟩
    refine tget_puts 0 (fun b : Nat × Byte => b.1) (fun b => b.2.toNat) (fun a ha e => ?_) ⟨_, List.mem_map_of_mem hb, Nat.mul_comm .. ▸ rfl⟩ _
    obtain ⟨x, -, rfl⟩ := List.mem_map.1 ha
    have hx : x = b := by dsimp only at e; omega
    rw [hx]

/-! #### Fills that return (04 R68) -/

theorem State.mendL1_line (s : State) (core tenant line : Nat) (offs : List Nat) (k tn ln : Nat) : ((s.mendL1 core tenant line offs).core k).line tn ln = (s.core k).line tn ln :=
  congrArg (tfind (lineKey tn ln)) ((State.Beside.mendL1 s core tenant line offs).l1 k)

theorem State.setL1_line_self (s : State) (core tenant line : Nat) (l : L1Line) : ((s.setL1 core tenant line l).core core).line tenant line = some l :=
  (s.setL1_line core tenant line line l).trans (if_pos rfl)

/-- The sectors of its line that a request asks for. -/
def Req.sectorList (r : Req) : List Nat := (List.range 4).filter (fun i => r.sectors.testBit i)

theorem Req.mem_sectorList {r : Req} {i : Nat} (hi : i < 4) : i ∈ r.sectorList ↔ r.sectors.testBit i = true := by simp [sectorList, hi]

/-- The sectors that a fill brings to a line: those returned that are not valid there. -/
def Req.newSectors (r : Req) (l : L1Line) : List Nat := r.sectorList.filter (fun i => !l.valid.testBit i)

theorem Req.mem_newSectors {r : Req} {l : L1Line} {i : Nat} (hi : i < 4) : i ∈ r.newSectors l ↔ r.sectors.testBit i = true ∧ l.valid.testBit i = false := by
  simp [newSectors, List.mem_filter, mem_sectorList hi]

/-- The sectors that a fill brings become valid beside those that are (04 R68). -/
theorem L1Line.fill_new_valid (l : L1Line) (r : Req) {i : Nat} (hi : i < 4) : (l.fill (r.newSectors l) r.data).valid.testBit i = (l.valid.testBit i || r.sectors.testBit i) := by
  rw [L1Line.fill_valid]
  simp only [Req.mem_newSectors hi]
  cases l.valid.testBit i <;> simp

/-- The bytes of a sector that is valid stay; those that a fill brings stand below the dirty ones (04 R68). -/
theorem L1Line.fill_new_byte (l : L1Line) (r : Req) {i j : Nat} (hi : i < 4) (hj : j < 32) :
    (l.valid.testBit i = true → (l.fill (r.newSectors l) r.data).byte (32 * i + j) = l.byte (32 * i + j)) ∧
    (l.valid.testBit i = false → r.sectors.testBit i = true → (l.fill (r.newSectors l) r.data).byte (32 * i + j) = (tfind (32 * i + j) l.dirty).getD (tget 0 (32 * i + j) r.data)) := by
  refine ⟨fun hv => ?_, fun hv hs => ?_⟩
  · have hmem : i ∉ r.newSectors l := fun hm => by simp [((Req.mem_newSectors hi).1 hm).2] at hv
    rw [L1Line.byte_eq, L1Line.byte_eq, L1Line.fill_dirty, L1Line.fill_data_ne _ _ hj hmem]
  · rw [L1Line.byte_eq, L1Line.fill_dirty, L1Line.fill_data _ _ hj ((Req.mem_newSectors hi).2 ⟨hs, hv⟩)]

section
variable {s : State} {r : Req}

theorem State.fillL1_absent (hl : (s.core r.core).line r.tenant r.line = none) (ha : r.noAlloc = false) (hn : r.nl1 = false) :
    ((s.fillL1 r).core r.core).line r.tenant r.line = some ({ rd := r.rd, wr := r.wr, ctx := r.ctx, hint := r.hint, pa := r.pa : L1Line }.fill r.sectorList r.data) := by
  unfold State.fillL1
  dsimp only
  rw [hl]
  dsimp only
  rw [if_neg (by simp [ha, hn]), State.mendL1_line, State.setL1_line_self]
  rfl

theorem State.fillL1_held {l : L1Line} (hl : (s.core r.core).line r.tenant r.line = some l) (ha : r.noAlloc = false) (hn : r.nl1 = false) :
    ((s.fillL1 r).core r.core).line r.tenant r.line = some { l.fill (r.newSectors l) r.data with rd := r.rd, wr := r.wr, pa := r.pa, hint := if r.hint < 2 then l.hint else r.hint } := by
  unfold State.fillL1
  dsimp only
  rw [hl]
  dsimp only
  rw [if_neg (by simp [ha, hn]), State.mendL1_line, State.setL1_line_self]
  rfl

/-- A load that may not allocate leaves the L1 as it is (03 R63). -/
theorem State.fillL1_barred (h : r.noAlloc = true ∨ r.nl1 = true) : s.fillL1 r = s := by
  have hp : (r.noAlloc || r.nl1) = true := by simpa using h
  unfold State.fillL1
  dsimp only
  split <;> exact if_pos hp

/-- The state that a fill leaves (04 R68). -/
def State.filled (s : State) (n : Nat) (r : Req) : State := ((s.fillL1 r).handBytes r (r.data.map (·.1)) (s.filledByte r)).reqDone n r

theorem State.filled_line (s : State) (n : Nat) (r : Req) : ((s.filled n r).core r.core).line r.tenant r.line = ((s.fillL1 r).core r.core).line r.tenant r.line := by
  obtain ⟨o, d, h⟩ := (s.fillL1 r).handBytes_rest r (r.data.map (·.1)) (s.filledByte r)
  rw [State.filled, State.reqDone_line, h]
  rfl

/-- A fill that returns to a calm machine ends its request. -/
theorem exec_l1FillReturn_reply {n : Nat} (hh : s.holds = []) (hr : s.req n = some r) (hs : r.stage = .reply) (hk : r.kind = .load ∨ r.kind = .table ∨ r.kind = .prefetch) :
    exec (.l1FillReturn n) s = .next (s.filled n r) ∧ (s.filled n r).req n = none := by
  obtain ⟨o, d, h⟩ := (s.fillL1 r).handBytes_rest r (r.data.map (·.1)) (s.filledByte r)
  have hcalm : ((s.fillL1 r).handBytes r (r.data.map (·.1)) (s.filledByte r)).holds = [] := by
    rw [h]; exact (State.Stocks.fillL1 s r).holds.trans hh
  obtain ⟨hset, hreq⟩ := State.reqDone_calm hcalm n r
  refine ⟨?_, hreq⟩
  rw [exec_l1FillReturn]
  unfold execL1FillReturn
  rw [hr]
  dsimp only
  rw [if_neg, hset]
  · rfl
  · rcases hk with hk | hk | hk <;> simp [hs, hk]

/-- The operation of a fill takes the bytes, and has one part fewer (01 R26). -/
theorem State.filled_op {n k : Nat} {o : Op} (hops : r.ops = [k]) (ho : s.op k = some o) (hl : o.flag ≠ none ∨ o.dest ≠ .none) :
    ∃ g, (s.filled n r).op k = some { o with got := g, parts := o.parts - 1 } ∧
      (s.ptmOfOther o.gid r.tenant r.line = false → ∀ b ∈ r.data, tget 0 (128 * r.line + b.1) g = (s.filledByte r b.1).toNat) := by
  have hst := State.Stocks.fillL1 s r
  obtain ⟨g, hg, hbytes⟩ := State.handBytes_op hops ((hst.op k).trans ho) (r.data.map (·.1)) (s.filledByte r)
  refine ⟨g, ?_, fun hp b hb => hbytes ((hst.ptmOfOther ..).trans hp) b.1 (List.mem_map_of_mem hb)⟩
  have hd : (((s.fillL1 r).handBytes r (r.data.map (·.1)) (s.filledByte r)).delReq n).op k = some { o with got := g } := hg
  rw [State.filled, State.reqDone, hops]
  exact State.partDone_lasts hd hl

/-! #### Stores that are accepted (04 R68) -/

/-- The L1 once it has taken an accepted store. -/
def State.stored (s : State) (r : Req) : State :=
  match (s.core r.core).line r.tenant r.line with
  | some l => s.setL1 r.core r.tenant r.line ((l.absorb r.bytes).fill ((wholeSectors r.bytes).filter (fun i => !l.valid.testBit i)) r.bytes)
  | none => if r.nl1 then s else (s.roomL1 r.core).setL1 r.core r.tenant r.line ({ rd := r.rd, wr := r.wr, ctx := r.ctx, hint := r.hint, pa := r.pa : L1Line }.fill (wholeSectors r.bytes) r.bytes)

/-- The state that an accepted store leaves before its request ends. -/
def State.accepted (s : State) (r : Req) : State := if r.noAlloc then s else (s.stored r).mendL1 r.core r.tenant r.line (r.bytes.map (·.1))

theorem State.Stocks.accepted (s : State) (r : Req) : s.Stocks (s.accepted r) := by
  have h : s.Stocks (s.stored r) := by
    unfold State.stored
    split
    · exact .setL1 ..
    · exact .ite (.refl s) ((State.Stocks.roomL1 ..).trans (.setL1 ..))
  exact .ite (.refl s) (h.trans (.mendL1 ..))

theorem State.accepted_absent (hl : (s.core r.core).line r.tenant r.line = none) (ha : r.noAlloc = false) (hn : r.nl1 = false) :
    ((s.accepted r).core r.core).line r.tenant r.line = some ({ rd := r.rd, wr := r.wr, ctx := r.ctx, hint := r.hint, pa := r.pa : L1Line }.fill (wholeSectors r.bytes) r.bytes) := by
  unfold State.accepted State.stored
  rw [hl]
  dsimp only
  rw [if_neg (by simp [ha]), if_neg (by simp [hn]), State.mendL1_line, State.setL1_line_self]

theorem State.accepted_held {l : L1Line} (hl : (s.core r.core).line r.tenant r.line = some l) (ha : r.noAlloc = false) :
    ((s.accepted r).core r.core).line r.tenant r.line = some ((l.absorb r.bytes).fill ((wholeSectors r.bytes).filter (fun i => !l.valid.testBit i)) r.bytes) := by
  unfold State.accepted State.stored
  rw [hl]
  dsimp only
  rw [if_neg (by simp [ha]), State.mendL1_line, State.setL1_line_self]

/-- A store that is accepted in a calm machine ends its request. -/
theorem exec_storeAccepted_reply {n : Nat} (hh : s.holds = []) (hr : s.req n = some r) (hs : r.stage = .reply) (hk : r.kind = .store) :
    exec (.storeAccepted n) s = .next ((s.accepted r).reqDone n r) ∧ ((s.accepted r).reqDone n r).req n = none := by
  obtain ⟨hset, hreq⟩ := State.reqDone_calm ((State.Stocks.accepted s r).holds.trans hh) n r
  refine ⟨?_, hreq⟩
  rw [exec_storeAccepted]
  unfold execStoreAccepted
  rw [hr]
  dsimp only
  rw [if_neg (by simp [hs, hk])]
  refine congrArg Host.Outcome.next (Eq.trans ?_ hset)
  rfl

end

/-! #### Palette lines that are filled (04 R80) -/

section
variable {s : State} {r : Req}

/-- The line of a palette once the sectors returned are valid in it. -/
def Req.palLine (r : Req) (l : L1Line) : L1Line := { l.fill (r.newSectors l) r.data with rd := r.rd, wr := r.wr, pa := r.pa }

theorem Req.palLine_valid (r : Req) (l : L1Line) {i : Nat} (hi : i < 4) : (r.palLine l).valid.testBit i = (l.valid.testBit i || r.sectors.testBit i) := l.fill_new_valid r hi

/-- A line that has every sector once it is filled is valid throughout. -/
theorem Req.palLine_whole {r : Req} {l : L1Line} (hv : l.valid < 16) (h : ∀ i, i < 4 → l.valid.testBit i = true ∨ r.sectors.testBit i = true) : (r.palLine l).valid = 0xF := by
  refine Nat.eq_of_testBit_eq fun i => ?_
  by_cases hi : i < 4
  · rw [palLine_valid r l hi]
    have h15 : (0xF : Nat).testBit i = true := by interval_cases i <;> decide
    rw [h15]
    rcases h i hi with h | h <;> simp [h]
  · have hpow : 16 ≤ 2 ^ i := (Nat.pow_le_pow_right (by decide) (not_lt.1 hi) : 2 ^ 4 ≤ 2 ^ i)
    have hl : l.valid.testBit i = false := Nat.testBit_eq_false_of_lt (hv.trans_le hpow)
    have h15 : (0xF : Nat).testBit i = false := Nat.testBit_eq_false_of_lt (lt_of_lt_of_le (by decide) hpow)
    have hn : i ∉ r.newSectors l := fun hm => hi (List.mem_range.1 (List.mem_filter.1 (List.mem_filter.1 hm).1).1)
    show (l.fill (r.newSectors l) r.data).valid.testBit i = _
    rw [L1Line.fill_valid, hl, h15]
    simp [hn]

/-- The L1 once it has taken the sectors of a palette's line that it holds. -/
def State.palTaken (s : State) (r : Req) (l : L1Line) : State :=
  (s.setL1 r.core r.tenant r.line (r.palLine l)).mendL1 r.core r.tenant r.line ((r.newSectors l).flatMap (fun i => (List.range 32).map (32 * i + ·)))

theorem State.Stocks.palTaken (s : State) (r : Req) (l : L1Line) : s.Stocks (s.palTaken r l) := (setL1 ..).trans (mendL1 ..)

theorem State.palTaken_line (s : State) (r : Req) (l : L1Line) : ((s.palTaken r l).core r.core).line r.tenant r.line = some (r.palLine l) := by
  rw [State.palTaken, State.mendL1_line, State.setL1_line_self]

theorem exec_paletteLineFilled_reply {n team slot : Nat} {l : L1Line} (hr : s.req n = some r) (hs : r.stage = .reply) (hk : r.kind = .palette team slot) (hl : (s.core r.core).line r.tenant r.line = some l) :
    exec (.paletteLineFilled n) s = .next (((s.palTaken r l).delReq n).palMove team 32) := by
  rw [exec_paletteLineFilled]
  unfold execPaletteLineFilled
  rw [hr]
  dsimp only
  rw [hs, hk, hl]
  refine congrArg (fun u : State => Host.Outcome.next ((u.delReq n).palMove team 32)) ?_
  unfold State.palTaken Req.palLine Req.newSectors Req.sectorList
  rw [List.filter_filter]
  simp only [Bool.and_comm]

/-- With none waiting, what fills complete leaves the lines and ends the request. -/
theorem State.palTaken_filled {n team : Nat} {l : L1Line} (hq : (s.team team).palQueue = []) :
    ((s.palTaken r l).delReq n).Filled team (((s.palTaken r l).delReq n).palMove team 32) :=
  .palMove (by rw [((State.Stocks.palTaken s r l).trans (.delReq _ n)).team]; exact hq) 32

end

/-! #### The last line of a palette (04 R78) -/

/-- Without a Filling palette and with none queued nothing moves. -/
theorem State.palMove_still {s : State} {team : Nat} (hp : ∀ p ∈ (s.team team).pals, p.2.state ≠ .filling) (hq : (s.team team).palQueue = []) (n : Nat) : s.palMove team n = s := by
  cases n with
  | zero => rfl
  | succ n =>
    have hf : (s.team team).pals.find? (fun p => decide (p.2.state = .filling) && s.palFilled team p.1) = none := find?_none_of fun p hm => by simp [hp p hm]
    unfold State.palMove
    dsimp only
    rw [hf]
    dsimp only
    rw [hq]

/-- The one palette of a team once its fill completes. -/
theorem State.completeFill_one {s : State} {team slot : Nat} {p : Palette} (h : (s.team team).pals = [(slot, p)]) :
    ∃ q, ((s.completeFill team slot).team team).pals = [(slot, q)] ∧ q.state = if 0 < p.entrants then .entered else .resident := by
  have hp (t : Team) (q : Palette) (ht : t.pals = [(slot, q)]) : t.palette slot = q := by unfold Team.palette; rw [ht]; exact if_pos rfl
  have hmod (t : Team) (q : Palette) (f : Palette → Palette) (ht : t.pals = [(slot, q)]) : (t.modPal slot f).pals = [(slot, f q)] := by
    unfold Team.modPal
    dsimp only
    rw [hp t q ht, ht]
    exact if_pos rfl
  unfold State.completeFill
  extract_lets t0 again t rs t1 s1
  have ht : t.pals = [(slot, { p with refill := false })] := hmod _ _ _ h
  have hent : (t.palette slot).entrants = p.entrants := by rw [hp t _ ht]
  have hs1 : ∃ q, (s1.team team).pals = [(slot, q)] ∧ q.state = if 0 < p.entrants then .entered else .resident := by
    have hrs : rs.pals = [(slot, { p with refill := false, state := .resident, leave := t.palLeave })] := hmod _ _ _ ht
    rw [show s1.team team = t1 from State.team_modTeam_self ..]
    unfold t1
    rw [hent]
    split
    · exact ⟨_, hmod _ _ _ ht, rfl⟩
    · exact ⟨_, hrs, rfl⟩
  split
  · exact hs1
  · rwa [(Book.countCore ..).team]

/-- A team's one palette whose line is whole ends its fill, and nothing else moves (04 R78). -/
theorem State.palMove_one {s : State} {team slot line : Nat} {p : Palette} {l : L1Line} (hq : (s.team team).palQueue = []) (hp : (s.team team).pals = [(slot, p)]) (hf : p.state = .filling) (hlines : p.lines = [line])
    (hl : (s.core (s.team team).core).line (s.team team).tenant line = some l) (hrd : l.rd = true) (hv : l.valid = 0xF) (n : Nat) :
    (((s.palMove team (n + 1)).team team).palette slot).state = if 0 < p.entrants then .entered else .resident := by
  have hpal : (s.team team).palette slot = p := by unfold Team.palette; rw [hp]; exact if_pos rfl
  have hwhole : s.palFilled team slot = true := by
    unfold State.palFilled
    dsimp only
    rw [hpal, hlines, List.all_cons, hl]
    simp [hrd, hv]
  have hfind : (s.team team).pals.find? (fun p => decide (p.2.state = .filling) && s.palFilled team p.1) = some (slot, p) := by
    rw [hp, List.find?_cons_of_pos]
    simp [hf, hwhole]
  obtain ⟨q, hpals, hstate⟩ := State.completeFill_one hp
  have hfill : s.Filled team (s.completeFill team slot) := .completeFill (by rw [hp]; simp [tfind])
  have hne : q.state ≠ .filling := by rw [hstate]; split <;> decide
  unfold State.palMove
  dsimp only
  rw [hfind]
  dsimp only
  rw [State.palMove_still (by rw [hpals]; simpa using hne) (hfill.queue.trans hq)]
  unfold Team.palette
  rw [hpals, ← hstate]
  exact congrArg Palette.state (if_pos rfl)

/-- Settles O31: a fill, an accepted store and a palette line each change one line of an L1 and end their request, whose operation then has one part fewer; an
operation all of whose parts have returned writes its cells one by one; the scrubber's pass is one case for each error that it finds. -/
theorem returnsToCore : Obligations.ReturnsToCore := by
  unfold Obligations.ReturnsToCore
  refine ⟨fun s n k r o => ?_, fun s k f o => ?_, fun s core w => ?_⟩
  · intro line back load of_ whole
    have fills {post : State → Prop} (h : back load) (hp : post (s.filled n r)) : of_ (.l1FillReturn n) post := by
      obtain ⟨hh, hr, hs, hk⟩ := h
      obtain ⟨he, hreq⟩ := exec_l1FillReturn_reply hh hr hs hk
      exact ⟨_, he, hreq, hp⟩
    have stores {post : State → Prop} (h : back (· = .store)) (hp : post ((s.accepted r).reqDone n r)) : of_ (.storeAccepted n) post := by
      obtain ⟨hh, hr, hs, hk⟩ := h
      obtain ⟨he, hreq⟩ := exec_storeAccepted_reply hh hr hs hk
      exact ⟨_, he, hreq, hp⟩
    refine ⟨fun hb hl ha hn => ?_, fun hb hl ha => ?_, fun hb hops ho hlast => ?_, fun l hb hl ha hn => ?_, fun hb hl ha hn => ?_, fun l hb hl ha hnd => ?_, fun hb ha => ?_, fun hb hops ho hf hd => ?_, fun team slot l hb hq hl => ?_, fun team slot l p hb hl hc ht hq hp hf hlines hrd hv hall => ?_⟩
    · refine fills hb ⟨_, (s.filled_line n r).trans (State.fillL1_absent hl ha hn), L1Line.fill_rd .., L1Line.fill_wr .., L1Line.fill_dirty .., fun i hi => ⟨?_, fun hi' j hj => ?_⟩⟩
      · rw [L1Line.fill_valid]
        simp [Req.mem_sectorList hi]
      · rw [L1Line.byte_of_dirty_none (by rw [L1Line.fill_dirty]; rfl), L1Line.fill_data _ _ hj ((Req.mem_sectorList hi).2 hi')]
    · refine fills hb ((s.filled_line n r).trans ?_)
      rw [State.fillL1_barred ha]
      exact hl
    · obtain ⟨g, hg, hbytes⟩ := State.filled_op (n := n) hops ho hlast
      exact fills hb ⟨_, hg, rfl, fun hp b hb => (hbytes hp b hb).trans rfl⟩
    · exact fills hb ⟨_, (s.filled_line n r).trans (State.fillL1_held hl ha hn), rfl, rfl, L1Line.fill_dirty .., L1Line.fill_pool .., fun i hi => ⟨l.fill_new_valid r hi, fun j hj => l.fill_new_byte r hi hj⟩⟩
    · refine stores hb ⟨_, (State.reqDone_line ..).trans (State.accepted_absent hl ha hn), L1Line.fill_rd .., L1Line.fill_wr .., L1Line.fill_dirty .., fun i hi => ⟨?_, fun hw j hj => ?_⟩⟩
      · rw [L1Line.fill_valid]
        simp [mem_wholeSectors hi, whole]
      · rw [L1Line.byte_of_dirty_none (by rw [L1Line.fill_dirty]; rfl), L1Line.fill_data _ _ hj ((mem_wholeSectors hi).2 hw)]
    · refine stores hb ⟨_, (State.reqDone_line ..).trans (State.accepted_held hl ha), fun b hm hlt => L1Line.absorb_fill hnd hm hlt⟩
    · refine stores hb ((State.reqDone_line ..).trans ?_)
      rw [State.accepted, if_pos ha]
    · have hop := (((State.Stocks.accepted s r).trans (.delReq _ n)).op k).trans ho
      refine stores hb ?_
      rw [State.reqDone, hops]
      exact State.partDone_plain hop hf hd
    · obtain ⟨-, hr, hs, hk⟩ := hb
      have hfill := State.palTaken_filled (r := r) (n := n) (l := l) hq
      refine ⟨_, exec_paletteLineFilled_reply hr hs hk hl, ?_, r.palLine l, ?_, rfl, rfl, L1Line.fill_pool .., fun i hi => r.palLine_valid l hi⟩
      · exact (congrArg (tfind n) hfill.reqs).trans (tfind_tdel_self ..)
      · exact (congrArg (tfind (lineKey r.tenant r.line)) (hfill.l1 r.core)).trans (State.palTaken_line s r l)
    · obtain ⟨-, hr, hs, hk⟩ := hb
      have hfill := State.palTaken_filled (r := r) (n := n) (l := l) hq
      have hteam := ((State.Stocks.palTaken s r l).trans (.delReq _ n)).team team
      refine ⟨_, exec_paletteLineFilled_reply hr hs hk hl, ?_, ?_⟩
      · exact (congrArg (tfind n) hfill.reqs).trans (tfind_tdel_self ..)
      · refine State.palMove_one (line := r.line) (l := r.palLine l) (by rw [hteam]; exact hq) (by rw [hteam]; exact hp) hf hlines ?_ hrd (Req.palLine_whole hv hall) 31
        rw [hteam, ← hc, ← ht]
        exact State.palTaken_line s r l
  · intro byte num res cell hh ho hp hf hx hnd hcls
    have hres : o.results = res := by
      unfold Op.results Op.words
      simp only [Op.num_eq] <;> rfl
    have hcell (g : Group) (c : RCell) (hc : c.cls < 5) : cell g c = g.cell c := by
      obtain ⟨cls, key⟩ := c
      match cls, hc with
      | 0, _ => exact g.rv_cell key
      | 1, _ | 2, _ | 3, _ | 4, _ => rfl
    obtain ⟨hop, hflag, hcells, hgroups, hmem, hcores⟩ := s.completed_spec (k := k) hf
    refine ⟨_, exec_longLatencyComplete_done hh ho hp hf hx, hop, hflag, fun x hm => ?_, fun c hc hn => ?_, hgroups, hmem, hcores⟩
    · rw [hcell _ _ (hcls x hm), hcells, hres, Group.cell_wcells hcls hnd hm]
    · rw [hcell _ _ hc, hcell _ _ hc, hcells, hres, Group.cell_wcells_ne hcls hc hn]
  · intro k d log old on finds rest mended
    have ran {e x} (hon : on) (hx : finds e x) : exec (.scrubPass core w ⟨e, true⟩) s = .next (s.scrubbed core w x) := by
      rw [exec_scrubPass_on hon, (Core.shows_eq k w e).trans (Eq.symm hx)]
    have hrest := s.scrubbed_rest core w
    have hmended {x} (hon : on) (hx : x ≠ .none) : mended (s.scrubbed core w x) := by
      simp only [mended, s.scrubbed_core core w hx]
      exact Core.scrubbed_mends hon.2.1 x
    have hpoison {x} (hon : on) (hx : x ≠ .none) : w ∈ ((s.scrubbed core w x).core core).poison ↔ x = .doubleLasting := by
      rw [s.scrubbed_core core w hx]
      exact Core.scrubbed_poison hon.2.1 x
    have hscrub {x} (hx : x ≠ .none) : ((s.scrubbed core w x).core core).scrub = if x = .single ∨ x = .doubleSingle then (k.scrub + 1) % 2 ^ 32 else k.scrub := by
      rw [s.scrubbed_core core w hx, Core.scrubbed_scrub]
    have hlog {x} (h0 : x ≠ .none) (h1 : x ≠ .single) : log (s.scrubbed core w x) = _ := s.scrubbed_log core w h0 h1
    refine ⟨fun e h => exec_scrubPass_off h, fun e hon hx => ran hon hx, fun e hon hx => ⟨_, ran hon hx, hrest _, hscrub (by decide), hmended hon (by decide), rfl⟩, fun e hon hx => ?_, fun e hon hx => ?_, fun e hon hx => ?_, fun hm hp e he => ?_⟩
    · refine ⟨_, ran hon hx, hrest _, hmended hon (by decide), fun h => absurd ((hpoison hon (by decide)).1 h) (by decide), hscrub (by decide), ?_, ?_, ?_⟩ <;> rw [hlog (by decide) (by decide)] <;> rfl
    · refine ⟨_, ran hon hx, hrest _, hmended hon (by decide), fun h => absurd ((hpoison hon (by decide)).1 h) (by decide), hscrub (by decide), ?_, ?_, ?_⟩ <;> rw [hlog (by decide) (by decide)] <;> rfl
    · refine ⟨_, ran hon hx, hrest _, hmended hon (by decide), (hpoison hon (by decide)).2 rfl, ?_, ?_, ?_⟩ <;> rw [hlog (by decide) (by decide)] <;> rfl
    · have hc : (s.strike core w e).core core = k.struck w e := by rw [State.strike_eq hm hp he, State.core_modCore_self]
      refine ⟨_, exec_scrubPass_strikes, ?_, ?_, fun h => ?_, fun h => ?_, fun h => ⟨?_, ?_⟩, fun h => ?_⟩
      · rw [State.strike_eq hm hp he]; exact ⟨rfl, rfl, rfl⟩
      · rw [State.strike_eq hm hp he]; rfl
      all_goals subst h; rw [hc]
      · exact k.struck_flips w (.inl rfl)
      · exact k.struck_doubles w (by decide)
      · exact k.struck_flips w (.inr rfl)
      · exact k.struck_doubles w (by decide)
      · exact k.struck_doubles w (by decide)

end Sys2Proof.Machine
end

-- ==== Words that release first (O17) ====
section
/-! SUPPORT. What a request leaves of the releases in progress; a release as it moves on, in the terms of the group that holds for it (13 R355);
then O17. -/

namespace Sys2Proof.Machine

/-! #### Requests start and end no release

A request that goes its way, and a line that leaves an L1, leave the releases and acquires in progress as they are. -/

structure State.SameHolds (s t : State) : Prop where
  holds : t.holds = s.holds

namespace State.SameHolds

theorem refl (s : State) : s.SameHolds s := ⟨rfl⟩

theorem trans {s t u : State} (h : s.SameHolds t) (k : t.SameHolds u) : s.SameHolds u := ⟨k.holds.trans h.holds⟩

theorem ite {s t u : State} {p : Prop} {_ : Decidable p} (ht : s.SameHolds t) (hu : s.SameHolds u) : s.SameHolds (if p then t else u) := by split <;> assumption

theorem foldl {α : Type} {f : State → α → State} (h : ∀ (s : State) (a : α), s.SameHolds (f s a)) (l : List α) (s : State) : s.SameHolds (l.foldl f s) := by
  induction l generalizing s with
  | nil => exact refl s
  | cons a l ih => exact (h s a).trans (ih _)

theorem of_beside {s t : State} (h : s.Beside t) : s.SameHolds t := ⟨h.holds⟩

variable (s : State)

theorem putReq (n : Nat) (r : Req) : s.SameHolds (s.putReq n r) := ⟨rfl⟩
theorem setL1 (core tenant line : Nat) (l : L1Line) : s.SameHolds (s.setL1 core tenant line l) := ⟨rfl⟩
theorem delL1 (core tenant line : Nat) : s.SameHolds (s.delL1 core tenant line) := ⟨rfl⟩
theorem dropFills (core tenant : Nat) (p : Nat → Bool) : s.SameHolds (s.dropFills core tenant p) := ⟨rfl⟩
theorem addReq (r : Req) : s.SameHolds (s.addReq r).2 := ⟨rfl⟩
theorem raceReq (r : Req) (write : Bool) (offs : List Nat) : s.SameHolds (s.raceReq r write offs) := of_beside (.raceReq ..)
theorem reqDone (n : Nat) (r : Req) : s.SameHolds (s.reqDone n r) := ⟨((s.delReq n).partsDone_rest r.ops).2.1⟩

theorem handBytes (r : Req) (offs : List Nat) (f : Nat → Byte) : s.SameHolds (s.handBytes r offs f) := by
  obtain ⟨o, d, h⟩ := s.handBytes_rest r offs f
  rw [h]
  exact ⟨rfl⟩

theorem sendDirty (core tenant line : Nat) (l : L1Line) : s.SameHolds (s.sendDirty core tenant line l).2 := by
  have hr : s.SameHolds (s.readDirty core tenant line l).2 := of_beside (.readDirty ..)
  unfold State.sendDirty
  dsimp only
  split
  · exact hr
  · exact hr.trans (addReq ..)

theorem yieldLine (core tenant line : Nat) (pools : Bool) : s.SameHolds (s.yieldLine core tenant line pools) := by
  unfold State.yieldLine
  split
  · exact ite (refl s) (((sendDirty ..).trans (ite (setL1 ..) (delL1 ..))).trans (dropFills ..))
  · exact dropFills ..

theorem releaseL1 (core tenant : Nat) : s.SameHolds (s.releaseL1 core tenant) := foldl (fun s _ => ite (refl s) ((sendDirty ..).trans (setL1 ..))) _ _

theorem leave (n : Nat) (r : Req) : s.SameHolds (s.leave n r) := by
  unfold State.leave
  split
  · exact (ite (of_beside (.countCore ..)) (refl s)).trans (putReq ..)
  · exact putReq ..

theorem maintain (n : Nat) (r : Req) (inv l2 : Bool) : s.SameHolds (s.maintain n r inv l2) := by
  have go {p : Prop} {_ : Decidable p} {t : State} (h : s.SameHolds t) (r : Req) : s.SameHolds (if p then t.leave n r else t.reqDone n r) :=
    h.trans (ite (leave ..) (reqDone ..))
  unfold State.maintain
  dsimp only
  split
  · exact go (refl s) _
  · exact ite (reqDone ..) (go ((sendDirty ..).trans (ite ((delL1 ..).trans (dropFills ..)) (setL1 ..))) _)

theorem hitL1 (n : Nat) (r : Req) (l : L1Line) (have_ : Nat) {go : State → State} (hgo : ∀ t : State, t.SameHolds (go t)) : s.SameHolds (s.hitL1 n r l have_ go) := by
  unfold State.hitL1
  dsimp only
  split
  · exact ((of_beside (.logLasting ..)).trans (putReq ..)).trans (of_beside (.raiseOps ..))
  · exact ((of_beside (.readWords ..)).trans (handBytes ..)).trans (hgo _)

theorem send (n : Nat) (r : Req) : s.SameHolds (s.send n r) := by
  unfold State.send
  dsimp only
  split
  case h_1 | h_2 =>
    split
    · exact ite ((yieldLine ..).trans (leave ..)) (hitL1 _ _ _ _ _ (fun t => ite ((raceReq ..).trans (reqDone ..)) (leave ..)))
    · exact leave ..
  · split
    · exact ite ((((setL1 ..).trans (of_beside (.mendL1 ..))).trans (raceReq ..)).trans (reqDone ..)) (leave ..)
    · exact leave ..
  · exact (foldl (fun s _ => yieldLine s ..) _ _).trans (leave ..)
  · exact (yieldLine ..).trans (leave ..)
  · exact (yieldLine ..).trans (leave ..)
  · exact (yieldLine ..).trans (leave ..)
  · refine ite (ite (leave ..) (reqDone ..)) ?_
    split
    · exact ite ((putReq ..).trans (maintain ..)) (leave ..)
    · exact leave ..
  · split
    · exact ite (reqDone ..) (leave ..)
    · exact leave ..
  · exact leave ..
  · exact leave ..
  · exact putReq ..

theorem enter (n : Nat) (r : Req) (again : Bool) : s.SameHolds (s.enter n r again) := by
  unfold State.enter
  split
  · exact send ..
  · exact putReq ..

end State.SameHolds

/-! #### Releases that move on -/

/-- What a release that moves on leaves: the store buffers and the regions, and of the releases and acquires in progress their
group, their scope and what they are. -/
structure State.Moving (s t : State) : Prop where
  buf : ∀ k, (t.group k).buf = (s.group k).buf
  region : ∀ k, (t.group k).region = (s.group k).region
  holds : ∀ n h, tfind n t.holds = some h → ∃ h0, tfind n s.holds = some h0 ∧ h = { h0 with sent := h.sent, wbs := h.wbs }

namespace State.Moving

theorem refl (s : State) : s.Moving s := ⟨fun _ => rfl, fun _ => rfl, fun _ h hh => ⟨h, hh, rfl⟩⟩

theorem trans {s t u : State} (h : s.Moving t) (k : t.Moving u) : s.Moving u := by
  refine ⟨fun j => (k.buf j).trans (h.buf j), fun j => (k.region j).trans (h.region j), fun n x hx => ?_⟩
  obtain ⟨y, hy, e⟩ := k.holds n x hx
  obtain ⟨z, hz, e'⟩ := h.holds n y hy
  exact ⟨z, hz, by rw [e, e']⟩

theorem ite {s t u : State} {p : Prop} {_ : Decidable p} (ht : s.Moving t) (hu : s.Moving u) : s.Moving (if p then t else u) := by split <;> assumption

theorem foldl {α : Type} {f : State → α → State} (h : ∀ (s : State) (a : α), s.Moving (f s a)) (l : List α) (s : State) : s.Moving (l.foldl f s) := by
  induction l generalizing s with
  | nil => exact refl s
  | cons a l ih => exact (h s a).trans (ih _)

theorem of_keeps {s t : State} (hk : s.Keeps t) (hh : s.SameHolds t) : s.Moving t :=
  ⟨fun k => by rw [hk.groups k], fun k => by rw [hk.groups k], fun _ h hx => ⟨h, hh.holds ▸ hx, rfl⟩⟩

variable (s : State)

theorem enter (n : Nat) (r : Req) (again : Bool) : s.Moving (s.enter n r again) := of_keeps (.enter ..) (.enter ..)

theorem sendDirty (core tenant line : Nat) (l : L1Line) : s.Moving (s.sendDirty core tenant line l).2 := of_keeps (.sendDirty ..) (.sendDirty ..)
theorem setL1 (core tenant line : Nat) (l : L1Line) : s.Moving (s.setL1 core tenant line l) := of_keeps (.setL1 ..) (.setL1 ..)
theorem delL1 (core tenant line : Nat) : s.Moving (s.delL1 core tenant line) := of_keeps (.delL1 ..) (.delL1 ..)
theorem dropFills (core tenant : Nat) (p : Nat → Bool) : s.Moving (s.dropFills core tenant p) := of_keeps (.dropFills ..) (.dropFills ..)

theorem evictL1 (core tenant line : Nat) (l : L1Line) : s.Moving (s.evictL1 core tenant line l) := (sendDirty ..).trans (delL1 ..)

theorem releaseL1 (core tenant : Nat) : s.Moving (s.releaseL1 core tenant) := foldl (fun s _ => ite (refl s) ((sendDirty ..).trans (setL1 ..))) _ _

theorem acquireL1 (core tenant : Nat) : s.Moving (s.acquireL1 core tenant) := (foldl (fun s _ => ite (refl s) (evictL1 ..)) _ _).trans (dropFills ..)

/-- A release or acquire ends. -/
theorem ends (n : Nat) : s.Moving { s with holds := tdel n s.holds } := by
  refine ⟨fun _ => rfl, fun _ => rfl, fun m h hm => ⟨h, ?_, rfl⟩⟩
  by_cases e : m = n
  · subst e
    cases (tfind_tdel_self m s.holds).symm.trans hm
  · exact (tfind_tdel_ne e s.holds).symm.trans hm

/-- A release goes on to its write-backs. -/
theorem goes {n : Nat} {h : Hold} (hn : tfind n s.holds = some h) (b : Bool) (l : List Nat) : s.Moving { s with holds := tput n { h with sent := b, wbs := l } s.holds } := by
  refine ⟨fun _ => rfl, fun _ => rfl, fun m x hm => ?_⟩
  by_cases e : m = n
  · subst e
    cases (tfind_tput_self m _ s.holds).symm.trans hm
    exact ⟨h, hn, rfl⟩
  · exact ⟨x, (tfind_tput_ne e ..).symm.trans hm, rfl⟩

theorem released (gid scope : Nat) : s.Moving (s.modGroup gid (fun g => g.released scope)) := by
  have hg (k : Nat) : ((s.modGroup gid (fun g => g.released scope)).group k).buf = (s.group k).buf ∧ ((s.modGroup gid (fun g => g.released scope)).group k).region = (s.group k).region := by
    by_cases e : k = gid
    · subst e; rw [State.group_modGroup_self]; exact ⟨rfl, rfl⟩
    · rw [State.group_modGroup_ne _ _ _ _ e]; exact ⟨rfl, rfl⟩
  exact ⟨fun k => (hg k).1, fun k => (hg k).2, fun _ h hh => ⟨h, hh, rfl⟩⟩

theorem endRelease (n : Nat) (h : Hold) : s.Moving (s.endRelease n h) := by
  unfold State.endRelease
  extract_lets s1 s2 rc
  have h2 : s.Moving s2 := (ends s n).trans (.ite (released ..) (refl _))
  refine h2.trans (.foldl (fun s r => State.Moving.trans (.foldl (fun s k => ?_) _ _) (enter ..)) _ _)
  split
  · exact ⟨fun _ => rfl, fun _ => rfl, fun _ h hh => ⟨h, hh, rfl⟩⟩
  · exact refl s

theorem moveHold (n : Nat) : s.Moving (s.moveHold n) := by
  unfold State.moveHold
  split
  · exact refl s
  next h hn =>
    have hr : s.Moving (s.releaseL1 (coreOf h.gid) (s.group h.gid).tenant) := releaseL1 ..
    have hn1 := (congrArg (tfind n) (State.SameHolds.releaseL1 s (coreOf h.gid) (s.group h.gid).tenant).holds).trans hn
    refine .ite (.ite (refl s) (.ite (.ite (endRelease ..) (.ite (hr.trans (endRelease ..)) (hr.trans (goes _ hn1 _ _)))) ?_)) (.ite (refl s) (endRelease ..))
    exact .ite ((ends s n).trans (acquireL1 ..)) (ends ..)

theorem settle : s.Moving s.settle := .foldl (fun s _ => moveHold s _) _ _

end State.Moving

theorem Group.Went.stays {g h : Group} (k : g.Went h) : g.Stays h := by
  rw [k.1]; exact ⟨⟨rfl, rfl, rfl, rfl, rfl⟩, rfl, rfl⟩

/-! #### A word held for its release -/

/-- The region recorded at a commit starts at the word that follows (16 R297). -/
theorem State.commitRegion_start (s : State) (gid : Nat) (slotB retire : Bool) :
    ((s.commitRegion gid slotB retire).group gid).region.start = (((s.commitRegion gid slotB retire).group gid).slot slotB).pc := by
  unfold State.commitRegion
  extract_lets g s1 s2
  rw [State.group_modGroup_self]
  rfl

/-- A release starts under a number of its own and leaves the groups' buffers and regions (13 R355). -/
theorem State.startRelease_spec (s : State) (gid scope : Nat) (whole : Bool) :
    s.Keeps (s.startRelease gid scope whole).2 ∧ s.nextId ≤ (s.startRelease gid scope whole).1 ∧
      ∃ h, tfind (s.startRelease gid scope whole).1 (s.startRelease gid scope whole).2.holds = some h ∧ h.gid = gid ∧ h.rel = true ∧ h.whole = whole ∧ h.scope = scope := by
  have hf : s.Keeps (s.flushCombine (clusterOfCore (coreOf gid)) (fun e => e.by gid)) := .flushCombine ..
  exact ⟨hf.trans (.of_groups rfl (Nat.le_succ _)), hf.ids, _, tfind_tput_self .., rfl, rfl, rfl, rfl⟩

section
variable {i : Instr} {s : State} {gr : Grant} {scope : Nat} {check : Option Flt} {first : Iss → State → Except Flt State} {again : Iss → Wait → State → Except Flt State}

/-- Where the check of a ready `i` passes, the word holds its group for a release at `scope`, with its region committed; else its group stops before it. -/
def FirstReleases (i : Instr) (s : State) (gr : Grant) (scope : Nat) (check : Option Flt) : Prop :=
  match check with
  | some f => Traps i s gr f
  | none => ∃ n, s.nextId ≤ n ∧ Holds i s gr (fun k => k = .release n) (fun t => (t.after gr).buf = [] ∧ (t.after gr).region.start = (s.seen gr).pc + 8 ∧
      ∀ h, tfind n t.holds = some h → h.gid = gr.gid ∧ h.rel = true ∧ h.whole = true ∧ h.scope = scope)

/-- A word whose effect is `State.releaseAt` holds its group for the release. -/
theorem firstReleases_of_releaseAt (he : exec i s = .next (((s.begun gr i).releaseAt (s.seen gr) i scope).written (s.seen gr) i)) : FirstReleases i s gr scope none := by
  let t := s.closed gr i
  let r := t.startRelease gr.gid scope true
  let u := r.2.block (s.seen gr) i (.release r.1)
  obtain ⟨hkeep, hn, h0, hfind, hgid, hrel, hwhole, hscope⟩ := t.startRelease_spec gr.gid scope true
  have hids : s.nextId ≤ t.nextId := (s.begin_nextId (s.seen gr) i).ge.trans (State.commitRegion_group ..).2.2
  have hclosed := s.closed_stays gr i
  have hblock : u.group gr.gid = { r.2.group gr.gid with wait := (u.group gr.gid).wait } := by
    unfold u State.block
    rw [show (s.seen gr).gid = gr.gid from rfl, State.group_modGroup_self]
  have hgroup := hkeep.groups gr.gid
  have hmove : u.Moving u.settle := .settle u
  have hwent := (State.Way.settle u).groups gr.gid
  have hstays : ((s.begun gr i).group gr.gid).Stays (u.settle.group gr.gid) := by
    refine (hclosed.trans hgroup.stays).trans (Group.Stays.trans ?_ hwent.stays)
    rw [hblock]
    exact ⟨⟨rfl, rfl, rfl, rfl, rfl⟩, rfl, rfl⟩
  have hwait : (u.settle.group gr.gid).wait = _ := (congrArg Group.wait hwent.1).trans (r.2.block_wait (s.seen gr) i (.release r.1))
  have hbuf : (u.settle.group gr.gid).buf = [] := by
    rw [hmove.buf, hblock]
    exact (congrArg Group.buf hgroup).trans (s.closed_buf gr i)
  have hstart : (u.settle.group gr.gid).region.start = (s.seen gr).pc + 8 := by
    have hpc : ((t.group gr.gid).slot gr.slotB).pc = (s.seen gr).pc + 8 := congrArg Slot.pc (advanced_of_stays hclosed).1
    rw [hmove.region, hblock]
    exact (congrArg (fun g : Group => g.region.start) hgroup).trans ((State.commitRegion_start ..).trans hpc)
  have hholds (h : Hold) (hh : tfind r.1 u.settle.holds = some h) : h.gid = gr.gid ∧ h.rel = true ∧ h.whole = true ∧ h.scope = scope := by
    obtain ⟨h1, hh1, e⟩ := hmove.holds _ _ hh
    cases hfind.symm.trans hh1
    rw [e]
    exact ⟨hgid, hrel, hwhole, hscope⟩
  have hg : (u.settle.written (s.seen gr) i).after gr = u.settle.group gr.gid := State.group_written ..
  refine ⟨r.1, hids.trans hn, u.settle.written (s.seen gr) i, _, he, hg ▸ hwait, rfl, rfl, rfl, rfl, rfl, hg ▸ sameRegs_of_stays hstays, hg ▸ advanced_of_stays hstays, hg ▸ hbuf, hg ▸ hstart, fun h hh => hholds h ?_⟩
  rwa [(Book.written ..).rest] at hh

/-- A word that makes its check as it issues. -/
theorem firstReleases_of_first (hr : Ready i s gr) (he : exec i s = issue2 i s free_ first again)
    (hf : first (s.seen gr) (s.begun gr i) = match check with | some f => .error f | none => .ok ((s.begun gr i).releaseAt (s.seen gr) i scope))
    (hc : ∀ f, check = some f → f.cause ≠ 16) : FirstReleases i s gr scope check := by
  have hi : exec i s = issue i s free_ first := he.trans (issue2_first i s gr free_ first again hr.granted hr.first)
  cases check with
  | some f => exact traps_of_effect hr hi hf (hc f rfl)
  | none => exact firstReleases_of_releaseAt (exec_of_effect hr hi hf)

/-- A word that makes its check ahead of those of its registers (01 R27). -/
theorem firstReleases_of_pre (hr : Ready i s gr) {pre : Iss → Option Flt} (he : exec i s = issue2 i s pre (fun c t => .ok (t.releaseAt c i scope)) again)
    (hc : ∀ f, pre (s.seen gr) = some f → f.cause ≠ 16) : FirstReleases i s gr scope (pre (s.seen gr)) := by
  have hi := he.trans (issue2_first i s gr pre _ again hr.granted hr.first)
  cases hp : pre (s.seen gr) with
  | some f =>
    rw [issue_refused hr pre hp] at hi
    exact hi.trans (congrArg Host.Outcome.next (State.trapAt_of_cause (hc f hp)))
  | none =>
    rw [issue_ready hr pre hp] at hi
    exact firstReleases_of_releaseAt hi

end

/-! #### The checks -/

section
variable {s : State} {o : FOps} {c : Iss} {f : Flt}

theorem requestCheck_cause : requestCheck s o c = some f → f.cause ≠ 16 := by
  unfold requestCheck
  dsimp only
  split
  · rintro ⟨⟩; simp [fAlign]
  · split <;> rintro ⟨⟩
    simp [fScratch, fRegister]

theorem countCheck_cause : countCheck s c o = some f → f.cause ≠ 16 := by
  unfold countCheck
  dsimp only
  split <;> rintro ⟨⟩
  simp [fSync]

theorem boundCheck_cause : boundCheck s o c = some f → f.cause ≠ 16 := by
  unfold boundCheck
  split <;> rintro ⟨⟩
  simp [fSync]

theorem allowCheck_cause : allowCheck s o c = some f → f.cause ≠ 16 := by
  unfold allowCheck
  dsimp only
  split
  · rintro ⟨⟩; simp [fSync]
  · split <;> rintro ⟨⟩
    simp [fSync]

theorem ringCheck_cause : ringCheck s o c = some f → f.cause ≠ 16 := by
  unfold ringCheck
  dsimp only
  repeat' split
  all_goals rintro ⟨⟩
  · simp [fSync]
  · simp [fAlign]
  · simp [fScratch, fRegister]
  · simp [fSync]

theorem gridCheck_cause : gridCheck s o c = some f → f.cause ≠ 16 := by
  unfold gridCheck
  dsimp only
  repeat' split
  all_goals rintro ⟨⟩
  · simp [fAlign]
  · simp [fTranslation]
  · simp [fSync]

theorem handleCheck_cause {n : Nat} : handleCheck s n o c = some f → f.cause ≠ 16 := by
  unfold handleCheck
  split <;> rintro ⟨⟩
  simp [fHandle, fNode]

theorem launchCheck_cause : launchCheck s o c = some f → f.cause ≠ 16 := by
  unfold launchCheck
  dsimp only
  split
  next g hg => rintro ⟨⟩; exact handleCheck_cause hg
  · repeat' split
    all_goals rintro ⟨⟩
    · simp [fHandle, fNode]
    · simp [fNode]
    · simp [fNode]

theorem nodeqCheck_cause : nodeqCheck s o c = some f → f.cause ≠ 16 := by
  unfold nodeqCheck
  split
  next g hg => rintro ⟨⟩; exact handleCheck_cause hg
  · split <;> rintro ⟨⟩
    simp [fHandle, fNode]

/-- A gather's rows are refused for an address, and for no error of memory (05 R103). -/
theorem gatherRows_cause {scatter : Bool} {limit len pitch : Nat} : gatherRows c o scatter limit len pitch = .error f → f.cause ≠ 16 := by
  unfold gatherRows
  induction lanesIn (c.active o.g) with
  | nil => rintro ⟨⟩
  | cons L ls ih =>
    rw [List.foldr_cons]
    dsimp only
    split
    · rintro ⟨⟩; simp [fAlign]
    · split
      · rintro ⟨⟩; simp [fAlign]
      · split
        · rintro ⟨⟩; simp [fTranslation]
        · split
          · rintro ⟨⟩; simp [fScratch, fRegister]
          · split
            next g hg => rintro ⟨⟩; exact ih hg
            · rintro ⟨⟩

/-- What GTHR and SCTR check as they issue: their descriptor, then their rows (05 R103). -/
def rowsCheck (c : Iss) (o : FOps) (scatter : Bool) (limit len pitch : Nat) : Option Flt :=
  if len = 0 ∨ 4096 < len ∨ len % 4 ≠ 0 ∨ pitch % 4 ≠ 0 then some (fEngine true 1 0 7)
  else match gatherRows c o scatter limit len pitch with | .ok _ => none | .error f => some f

theorem rowsCheck_cause {scatter : Bool} {limit len pitch : Nat} : rowsCheck c o scatter limit len pitch = some f → f.cause ≠ 16 := by
  unfold rowsCheck
  split
  · rintro ⟨⟩; simp [fEngine]
  · split <;> rintro ⟨⟩
    next h => exact gatherRows_cause h

end

section
variable {o : FOps} {s : State} {gr : Grant}

/-- The upper half of a word. -/
theorem nbits_high (x : BitVec 32) : nbits x.toNat 16 16 = x.toNat / 2 ^ 16 := by
  rw [nbits_eq]; exact Nat.mod_eq_of_lt (by have := x.isLt; omega)

/-- GTHR and SCTR (05 R103). -/
theorem firstReleases_gather {i : Instr} {scatter : Bool} (hr : Ready i s gr) (he : exec i s = gatherWord i o s scatter) :
    FirstReleases i s gr (fld o.ox 5 3) (rowsCheck (s.seen gr) o scatter (s.team (s.group gr.gid).team).scratchSize (((s.seen gr).g.rs o.c.toNat).toNat % 2 ^ 16) (((s.seen gr).g.rs o.c.toNat).toNat / 2 ^ 16)) := by
  unfold gatherWord at he
  refine firstReleases_of_first hr he ?_ (fun _ => rowsCheck_cause)
  dsimp only
  rw [State.begin_team, nbits_high, nbits_zero]
  unfold rowsCheck
  simp only [Bool.or_eq_true, decide_eq_true_eq, or_assoc]
  split
  · rfl
  · show (match gatherRows (s.seen gr) o scatter (s.team (s.group gr.gid).team).scratchSize _ _ with | .error f => _ | .ok _ => _) = _
    split
    next h => rw [h]
    next h => rw [h]

/-- RPASS and RREJ (14 R279). -/
theorem firstReleases_report {i : Instr} {pass : Bool} (hr : Ready i s gr) (he : exec i s = reportWord i o s pass) : FirstReleases i s gr 3 none := by
  unfold reportWord at he
  exact firstReleases_of_pre (pre := free_) hr he (by rintro f ⟨⟩)

/-- NODEQ `.seal` and `.open` (14 R282). -/
theorem firstReleases_seal {i : Instr} {b : Bool} (hr : Ready i s gr) (he : exec i s = sealWord i o s b) : FirstReleases i s gr 3 (nodeqCheck s o (s.seen gr)) := by
  unfold sealWord at he
  exact firstReleases_of_pre hr he fun _ => nodeqCheck_cause

/-- A word that makes its check in the state in which it has issued, and then releases. -/
theorem firstReleases_check {i : Instr} {scope : Nat} {check : State → Iss → Option Flt} {again : Iss → Wait → State → Except Flt State} (hr : Ready i s gr)
    (he : exec i s = issue2 i s free_ (fun c t => match check t c with | some f => .error f | none => .ok (t.releaseAt c i scope)) again)
    (hc : ∀ f, check (s.begun gr i) (s.seen gr) = some f → f.cause ≠ 16) : FirstReleases i s gr scope (check (s.begun gr i) (s.seen gr)) := by
  exact firstReleases_of_first hr he rfl hc

end

/-- Settles O17: each word's first issue is its check and then `State.releaseAt`, which commits the region, starts the release and holds the group. -/
theorem releaseFirst : Obligations.ReleaseFirst := by
  intro o s gr i scope check c b len pitch rows hi hr
  show FirstReleases i s gr scope check
  simp only [List.mem_cons, List.not_mem_nil, Prod.mk.injEq, or_false] at hi
  rcases hi with ⟨rfl, rfl, rfl⟩ | ⟨rfl, rfl, rfl⟩ | ⟨rfl, rfl, rfl⟩ | ⟨rfl, rfl, rfl⟩ | ⟨rfl, rfl, rfl⟩ | ⟨rfl, rfl, rfl⟩ | ⟨rfl, rfl, rfl⟩ | ⟨rfl, rfl, rfl⟩ | ⟨rfl, rfl, rfl⟩ | ⟨rfl, rfl, rfl⟩ |
    ⟨rfl, rfl, rfl⟩ | ⟨rfl, rfl, rfl⟩ | ⟨rfl, rfl, rfl⟩ | ⟨rfl, rfl, rfl⟩ | ⟨rfl, rfl, rfl⟩ | ⟨rfl, rfl, rfl⟩ | ⟨rfl, rfl, rfl⟩ | ⟨rfl, rfl, rfl⟩ | ⟨rfl, rfl, rfl⟩
  · exact firstReleases_check (check := fun t c => requestCheck t o c) hr (exec_ckick ..) fun _ => requestCheck_cause
  · exact firstReleases_check (check := fun t c => requestCheck t o c) hr (exec_coll ..) fun _ => requestCheck_cause
  · exact firstReleases_gather hr (exec_gthr ..)
  · exact firstReleases_gather hr (exec_sctr ..)
  · exact firstReleases_check (check := fun t c => countCheck t c o) hr (exec_barv ..) fun _ => countCheck_cause
  · exact firstReleases_check (check := fun t c => countCheck t c o) hr (exec_bsyn ..) fun _ => countCheck_cause
  · exact firstReleases_of_pre (pre := free_) hr (exec_bphs ..) (by rintro f ⟨⟩)
  · exact firstReleases_check (check := fun t c => boundCheck t o c) hr (exec_qpush ..) fun _ => boundCheck_cause
  · exact firstReleases_check (check := fun t c => allowCheck t o c) hr (exec_qalw ..) fun _ => allowCheck_cause
  · exact firstReleases_check (check := fun t c => ringCheck t o c) hr (exec_qalwInit ..) fun _ => ringCheck_cause
  · exact firstReleases_check (check := fun t c => boundCheck t o c) hr (exec_qtryPush ..) fun _ => boundCheck_cause
  · exact firstReleases_check (check := fun t c => boundCheck t o c) hr (exec_qtryPop ..) fun _ => boundCheck_cause
  · exact firstReleases_check (check := fun t c => gridCheck t o c) hr (exec_gsync ..) fun _ => gridCheck_cause
  · exact firstReleases_of_pre hr (exec_rpush ..) fun _ => handleCheck_cause
  · exact firstReleases_report hr (exec_rpass ..)
  · exact firstReleases_report hr (exec_rrej ..)
  · exact firstReleases_of_pre hr (exec_lnch ..) fun _ => launchCheck_cause
  · exact firstReleases_seal hr (exec_nodeqSeal ..)
  · exact firstReleases_seal hr (exec_nodeqOpen ..)

end Sys2Proof.Machine
end

-- ==== Barrier objects (O19) ====
section
/-! SUPPORT. Numbers in a team's scratchpad, the object of BINIT, BEXP and BWAIT (05 R92 to R94), and what the wake of the groups that wait on it
leaves alone; then O19. -/

namespace Sys2Proof.Machine

/-! #### Numbers in a scratchpad -/

theorem Team.num_succ (t : Team) (a n : Nat) : t.num a (n + 1) = (tget 0 a t.scratch).toNat + 256 * t.num (a + 1) n := by
  unfold Team.num
  rw [List.range_succ_eq_map, List.map_cons, List.map_map, ofBytes]
  simp only [Nat.add_zero]
  congr 3
  refine List.map_congr_left fun k _ => ?_
  exact congrArg (tget 0 · t.scratch) (Nat.add_right_comm a k 1)

theorem Team.num_congr {t u : Team} {a n : Nat} (h : ∀ b, a ≤ b → b < a + n → tget 0 b u.scratch = tget 0 b t.scratch) : u.num a n = t.num a n := by
  unfold Team.num
  refine congrArg ofBytes (List.map_congr_left fun k hk => h _ (Nat.le_add_right ..) ?_)
  have := List.mem_range.mp hk
  omega

/-- A number written is read back. -/
theorem Team.num_setBytes (t : Team) (a x n : Nat) : (t.setBytes (bytesAt a x n)).num a n = x % 256 ^ n := by
  induction n generalizing t a x with
  | zero => simp [Team.num, ofBytes, Nat.mod_one]
  | succ n ih =>
    have hrest : t.setBytes (bytesAt a x (n + 1)) = (t.setBytes [(a, BitVec.ofNat 8 (x % 256))]).setBytes (bytesAt (a + 1) (x / 256) n) := by
      rw [bytesAt_succ]; rfl
    have hb : tget 0 a (t.setBytes (bytesAt a x (n + 1))).scratch = BitVec.ofNat 8 (x % 256) := by
      rw [hrest]
      refine (tget_tsetAll_ne 0 (bytesAt (a + 1) (x / 256) n) a (fun w hw e => ?_) _).trans (tget_tset_self ..)
      have := key_of_mem_bytesAt hw
      omega
    rw [Team.num_succ, hb, hrest, ih, Nat.pow_succ', Nat.mod_mul, BitVec.toNat_ofNat]
    omega

/-- A number apart from the bytes written stays. -/
theorem Team.num_setBytes_ne (t : Team) {a x n b k : Nat} (h : b + k ≤ a ∨ a + n ≤ b) : (t.setBytes (bytesAt a x n)).num b k = t.num b k :=
  Team.num_congr fun c h1 h2 => tget_tsetAll_ne 0 _ c (fun w hw e => by have := key_of_mem_bytesAt hw; omega) _

theorem wrap_lt (x : Int) (n : Nat) : wrap x n < 2 ^ n := by
  have := Int.emod_nonneg x (b := ((2 ^ n : Nat) : Int)) (by positivity)
  have := Int.emod_lt_of_pos x (b := ((2 ^ n : Nat) : Int)) (by positivity)
  unfold wrap
  omega

/-- REM becomes the number, modulo 2^32 (05 R93). -/
theorem Team.setRem_num (t : Team) (a : Nat) (x : Int) : (t.setRem a x).num a 4 = wrap x 32 := by
  have h (t : Team) : (t.setBytes (bytesAt a (wrap x 32) 4)).num a 4 = wrap x 32 := (t.num_setBytes ..).trans (Nat.mod_eq_of_lt (wrap_lt x 32))
  unfold Team.setRem
  dsimp only
  split
  · exact h t
  · exact (Team.num_setBytes_ne _ (by omega)).trans (h t)

/-- PH flips where REM becomes 0 (05 R93). -/
theorem Team.setRem_phase (t : Team) (a : Nat) (x : Int) : (t.setRem a x).phase a ≠ t.phase a ↔ wrap x 32 = 0 := by
  unfold Team.setRem Team.phase
  dsimp only
  split
  next h => simp [h, Team.num_setBytes_ne t (b := a + 4) (k := 1) (a := a) (n := 4) (.inr le_rfl)]
  next h =>
    refine iff_of_true ?_ (not_not.mp h)
    show (((t.setBytes (bytesAt a (wrap x 32) 4)).setBytes (bytesAt (a + 4) (t.num (a + 4) 1 ^^^ 1) 1)).num (a + 4) 1).testBit 0 ≠ _
    rw [Team.num_setBytes, show (256 : Nat) ^ 1 = 2 ^ 8 from rfl, Nat.testBit_mod_two_pow, Nat.testBit_xor]
    simp

theorem Team.setRem_spec {m u : Team} {a : Nat} {x : Int} (h : m = u.setRem a x) : m.num a 4 = (x % 2 ^ 32).toNat ∧ (m.phase a ≠ u.phase a ↔ x % 2 ^ 32 = 0) := by
  have hx := Int.emod_nonneg x (b := 2 ^ 32) (by decide)
  have hwrap : wrap x 32 = (x % 2 ^ 32).toNat := rfl
  rw [h, Team.setRem_num, Team.setRem_phase, hwrap]
  exact ⟨rfl, by omega⟩

/-! #### Groups that wake -/

/-- The groups, the teams and the issue opportunity are as before. -/
structure State.SameGroups (s t : State) : Prop where
  groups : t.groups = s.groups
  teams : t.teams = s.teams
  grant : t.grant = s.grant

namespace State.SameGroups

theorem refl (s : State) : s.SameGroups s := ⟨rfl, rfl, rfl⟩

theorem trans {s t u : State} (h : s.SameGroups t) (k : t.SameGroups u) : s.SameGroups u := ⟨k.groups.trans h.groups, k.teams.trans h.teams, k.grant.trans h.grant⟩

theorem ite {s t u : State} {p : Prop} {_ : Decidable p} (ht : s.SameGroups t) (hu : s.SameGroups u) : s.SameGroups (if p then t else u) := by split <;> assumption

theorem foldl {α : Type} {f : State → α → State} (h : ∀ (s : State) (a : α), s.SameGroups (f s a)) (l : List α) (s : State) : s.SameGroups (l.foldl f s) := by
  induction l generalizing s with
  | nil => exact refl s
  | cons a l ih => exact (h s a).trans (ih _)

theorem of_book {s t : State} (h : Book s t) : s.SameGroups t := by constructor <;> rw [h.rest]

theorem group {s t : State} (h : s.SameGroups t) (k : Nat) : t.group k = s.group k := by unfold State.group; rw [h.groups]
theorem team {s t : State} (h : s.SameGroups t) (k : Nat) : t.team k = s.team k := by unfold State.team; rw [h.teams]

variable (s : State)

theorem readDirty (core tenant line : Nat) (l : L1Line) : s.SameGroups (s.readDirty core tenant line l).2 := by
  have log (f : Flt) : s.SameGroups (s.logLasting l.ctx (dieOfCore core) tenant core f) := ite ⟨rfl, rfl, rfl⟩ (refl s)
  unfold State.readDirty
  split
  · exact refl s
  · refine State.SameGroups.trans ?_ (of_book (.readWords ..))
    split
    · exact (log _).trans ⟨rfl, rfl, rfl⟩
    · exact refl s

theorem evictL1 (core tenant line : Nat) (l : L1Line) : s.SameGroups (s.evictL1 core tenant line l) := by
  refine State.SameGroups.trans (t := (s.sendDirty core tenant line l).2) ?_ ⟨rfl, rfl, rfl⟩
  unfold State.sendDirty
  dsimp only
  split
  · exact readDirty ..
  · exact (readDirty ..).trans ⟨rfl, rfl, rfl⟩

theorem dropFills (core tenant : Nat) (p : Nat → Bool) : s.SameGroups (s.dropFills core tenant p) := ⟨rfl, rfl, rfl⟩

theorem acquireL1 (core tenant : Nat) : s.SameGroups (s.acquireL1 core tenant) := (foldl (fun s _ => ite (refl s) (evictL1 ..)) _ _).trans (dropFills ..)

/-- A BWAIT that returns (05 R91). -/
theorem bwaitReturns (gid a : Nat) (p : Bool) : s.SameGroups (s.bwaitReturns gid a p) := ite (acquireL1 ..) (refl s)

theorem touchObject (team a : Nat) (ends : Bool) : s.SameGroups (s.touchObject team a ends) :=
  (of_book (.spRead ..)).trans (ite (refl _) ⟨rfl, rfl, rfl⟩)

end State.SameGroups

/-- The teams are as before, and the groups but for what they wait for. -/
structure State.Wakes (s t : State) : Prop where
  teams : t.teams = s.teams
  groups : ∀ k, t.group k = { s.group k with wait := (t.group k).wait }

namespace State.Wakes

theorem refl (s : State) : s.Wakes s := ⟨rfl, fun _ => rfl⟩

theorem trans {s t u : State} (h : s.Wakes t) (k : t.Wakes u) : s.Wakes u := ⟨k.teams.trans h.teams, fun j => by rw [k.groups j, h.groups j]⟩

theorem foldl {α : Type} {f : State → α → State} (h : ∀ (s : State) (a : α), s.Wakes (f s a)) (l : List α) (s : State) : s.Wakes (l.foldl f s) := by
  induction l generalizing s with
  | nil => exact refl s
  | cons a l ih => exact (h s a).trans (ih _)

theorem of_sameGroups {s t : State} (h : s.SameGroups t) : s.Wakes t := ⟨h.teams, fun k => by rw [h.group k]⟩

/-- A group waits no more. -/
theorem wake (s : State) (gid : Nat) : s.Wakes (s.modGroup gid (fun g => { g with wait := none })) := by
  refine ⟨rfl, fun k => ?_⟩
  by_cases e : k = gid
  · subst e; rw [State.group_modGroup_self]
  · rw [State.group_modGroup_ne _ _ _ _ e]

theorem wakeObject (s : State) (team a : Nat) : s.Wakes (s.wakeObject team a) := by
  refine .foldl (fun s x => ?_) _ _
  split
  · split
    · split
      · exact (of_sameGroups (.bwaitReturns ..)).trans (wake ..)
      · exact refl s
    · exact refl s
  · exact refl s

theorem stays {s t : State} (h : s.Wakes t) (k : Nat) : (s.group k).Stays (t.group k) := by
  rw [h.groups k]; exact ⟨⟨rfl, rfl, rfl, rfl, rfl⟩, rfl, rfl⟩

theorem buf {s t : State} (h : s.Wakes t) (k : Nat) : (t.group k).buf = (s.group k).buf := by rw [h.groups k]

end State.Wakes

/-! #### Lasting errors of a scratchpad -/

/-- The unit of a lasting error of a core's own memories is none of the shared memories' (16 R309). -/
theorem fLasting_ofMemory (seq : Nat) (mach poison : Bool) {unit : Nat} (hu : unit < 4) (addr : Nat) : (fLasting seq mach poison unit addr).ofMemory = false := by
  have hn : nbits (fLasting seq mach poison unit addr).detail.toNat 56 4 = unit := by
    have hm : mach.toNat ≤ 1 := Bool.toNat_le mach
    have hp : poison.toNat ≤ 1 := Bool.toNat_le poison
    rw [nbits_eq, fLasting, detail, BitVec.toNat_ofNat]
    dsimp only [List.foldl]
    omega
  have hu' : ¬ 4 ≤ unit := by omega
  simp [Flt.ofMemory, hn, hu']

theorem State.spPoison_ofMemory {s : State} {team : Nat} {as : List Nat} {f : Flt} (h : s.spPoison team as = some f) : f.ofMemory = false := by
  unfold State.spPoison State.errorFault at h
  dsimp only at h
  split at h
  · cases h
  · obtain ⟨w, -, rfl⟩ := Option.map_eq_some_iff.mp h
    exact fLasting_ofMemory _ _ _ (by decide) _

/-- A word that meets a lasting error of the scratchpad stops with it, logged (06 R110, 16 R313). -/
theorem trapsError_of_effect {i : Instr} {s t : State} {gr : Grant} {eff : Iss → State → Except Flt State} {team : Nat} {as : List Nat} {f : Flt} (hr : Ready i s gr)
    (he : exec i s = issue i s free_ eff) (hf : eff (s.seen gr) (s.begun gr i) = .error f) (hp : t.spPoison team as = some f) : TrapsError i s gr f := by
  have hlog (u : State) : u.logStack (s.seen gr) f = u := by rw [State.logStack, State.spPoison_ofMemory hp]; rfl
  unfold TrapsError
  rw [he, issue_ready hr free_ rfl, hf]
  exact congrArg Host.Outcome.next (congrArg (fun u : State => u.takeTrap gr.gid gr.slotB (s.seen gr).pc f) (hlog _))

/-! #### The words on an object -/

/-- A word on an object checks it, commits its region and goes on (05 R94). -/
def onObject (o : FOps) (go : Iss → State → State → Except Flt State) (c : Iss) (t : State) : Except Flt State :=
  match objectCheck t o c with
  | some f => .error f
  | none => go c t (t.commitRegion c.gid c.slotB)

/-- What a word that reads its object does once its region has committed: nothing without an active lane, and nothing with a lasting error of the object
(05 R94, 06 R110). -/
def readObject (o : FOps) (go : State → Except Flt State) (c : Iss) (u : State) : Except Flt State :=
  if c.active o.g = 0 then .ok u else objectSound u c (c.g.rs o.a.toNat).toNat go

/-- BINIT writes its object (05 R93). -/
def State.initObject (u : State) (team a x : Nat) : State :=
  (u.mendScratch team (spBytes 8 [a])).modTeam team (fun m => { m.setBytes (bytesAt a x 8) with barScope := tset 0 (phaseKey a false) 0 (tset 0 (phaseKey a true) 0 m.barScope) })

/-- BEXP and arrivals write REM, and wake those who wait for the phase where it ends (05 R93, R94). -/
def State.putRem (u : State) (team a : Nat) (x : Int) : State :=
  ((u.touchObject team a (wrap x 32 = 0)).modTeam team (fun m => m.setRem a x)).wakeObject team a

theorem exec_binit_object (o : FOps) (s : State) : exec (.binit o) s = issue (.binit o) s free_ (onObject o fun c t u =>
    .ok (if c.active o.g = 0 then u else u.initObject c.g.team (c.g.rs o.a.toNat).toNat (c.bs t o).toNat)) := rfl

theorem exec_bexp_object (o : FOps) (s : State) : exec (.bexp o) s = issue (.bexp o) s free_ (onObject o fun c t u =>
    readObject o (fun v => if 2 ^ 31 ≤ (u.team c.g.team).rem (c.g.rs o.a.toNat).toNat + (c.bs t o).toInt then .error (fSync (c.g.rs o.a.toNat).toNat 0 0 0 4)
      else .ok (v.putRem c.g.team (c.g.rs o.a.toNat).toNat ((u.team c.g.team).rem (c.g.rs o.a.toNat).toNat + (c.bs t o).toInt))) c u) := rfl

theorem exec_bwait_object {o : FOps} {s : State} {gr : Grant} (hr : Ready (.bwait o) s gr) : exec (.bwait o) s = issue (.bwait o) s free_ (onObject o fun c t u =>
    readObject o (fun v => .ok (if (v.team c.g.team).phase (c.g.rs o.a.toNat).toNat ≠ (c.bs t o).getLsbD 0 then v.bwaitReturns c.gid (c.g.rs o.a.toNat).toNat ((c.bs t o).getLsbD 0)
      else v.block c (.bwait o) (.object (c.g.rs o.a.toNat).toNat ((c.bs t o).getLsbD 0)))) c u) :=
  (exec_bwait ..).trans (issue2_first (.bwait o) s gr _ _ _ hr.granted hr.first)

theorem State.initObject_group (u : State) (team a x k : Nat) : (u.initObject team a x).group k = u.group k := by
  have h : u.SameGroups (u.mendScratch team (spBytes 8 [a])) := .ite (.refl _) ⟨rfl, rfl, rfl⟩
  exact h.group k

theorem State.initObject_num (u : State) (team a : Nat) (x : Word) : ((u.initObject team a x.toNat).team team).num a 8 = x.toNat := by
  unfold State.initObject
  rw [State.team_modTeam_self]
  refine (Team.num_setBytes ..).trans (Nat.mod_eq_of_lt ?_)
  have := x.isLt
  omega

/-- Groups wake where REM is written, and nothing else of a group changes. -/
theorem State.putRem_spec (u : State) (team a : Nat) (x : Int) :
    (u.putRem team a x).team team = (u.team team).setRem a x ∧ ∀ k, (u.group k).Stays ((u.putRem team a x).group k) ∧ ((u.putRem team a x).group k).buf = (u.group k).buf := by
  have ht := State.SameGroups.touchObject u team a (wrap x 32 = 0)
  have hw := State.Wakes.wakeObject ((u.touchObject team a (wrap x 32 = 0)).modTeam team (fun m => m.setRem a x)) team a
  have hg (k : Nat) : ((u.touchObject team a (wrap x 32 = 0)).modTeam team (fun m => m.setRem a x)).group k = u.group k := ht.group k
  refine ⟨?_, fun k => ⟨hg k ▸ hw.stays k, hg k ▸ hw.buf k⟩⟩
  unfold State.putRem State.team
  rw [hw.teams]
  show State.team (State.modTeam _ team _) team = _
  rw [State.team_modTeam_self, ht.team]
  rfl

/-- The object that a word of group `gr` names. -/
abbrev State.objectOf (s : State) (gr : Grant) (o : FOps) : Nat := ((s.group gr.gid).rs o.a.toNat).toNat

/-- The team of the issuing group. -/
abbrev State.teamOf (s : State) (gr : Grant) : Nat := (s.group gr.gid).team

section
variable {o : FOps} {s : State} {gr : Grant} {i : Instr} {go : Iss → State → State → Except Flt State}

/-- A misaligned object, and one outside the scratchpad, stop the group (05 R94). -/
theorem traps_of_badObject (hr : Ready i s gr) (he : exec i s = issue i s free_ (onObject o go)) (h : ¬ (s.objectOf gr o % 8 = 0 ∧ s.objectOf gr o + 8 ≤ (s.team (s.teamOf gr)).scratchSize)) :
    Traps i s gr (if s.objectOf gr o % 8 ≠ 0 then fAlign 1 0 3 (s.objectOf gr o) else fScratch (s.objectOf gr o)) := by
  have hcheck : objectCheck (s.begun gr i) o (s.seen gr) = some (if s.objectOf gr o % 8 ≠ 0 then fAlign 1 0 3 (s.objectOf gr o) else fScratch (s.objectOf gr o)) := by
    unfold objectCheck
    dsimp only
    rw [State.begin_team]
    by_cases ha : s.objectOf gr o % 8 ≠ 0
    · rw [if_pos ha]; exact if_pos ha
    · rw [if_neg ha]
      exact (if_neg ha).trans (if_pos (Nat.lt_of_not_le fun hb => h ⟨not_not.mp ha, hb⟩))
  refine traps_of_effect hr he (by unfold onObject; rw [hcheck]) ?_
  split
  · simp [fAlign]
  · simp [fScratch, fRegister]

variable (hs : s.objectOf gr o % 8 = 0 ∧ s.objectOf gr o + 8 ≤ (s.team (s.teamOf gr)).scratchSize)
include hs

theorem onObject_sound : onObject o go (s.seen gr) (s.begun gr i) = go (s.seen gr) (s.begun gr i) (s.closed gr i) := by
  have hcheck : objectCheck (s.begun gr i) o (s.seen gr) = none := by
    unfold objectCheck
    dsimp only
    rw [State.begin_team]
    exact (if_neg (not_not.mpr hs.1)).trans (if_neg (Nat.not_lt.mpr hs.2))
  unfold onObject
  rw [hcheck]
  rfl

variable (hr : Ready i s gr) (he : exec i s = issue i s free_ (onObject o go))
include hr he

/-- What a word on an object makes of the state with its region committed, where the group but for its wait stays as it is then, is how it passes. -/
theorem passes_of_object {t : State} {post : State → Prop} (hgo : go (s.seen gr) (s.begun gr i) (s.closed gr i) = .ok t)
    (hst : ((s.closed gr i).group gr.gid).Stays (t.group gr.gid)) (hb : (t.group gr.gid).buf = ((s.closed gr i).group gr.gid).buf)
    (hp : ((t.written (s.seen gr) i).after gr).buf = [] → post (t.written (s.seen gr) i)) : Passes i s gr post := by
  refine passes_of_stays (exec_of_effect hr he ((onObject_sound hs).trans hgo)) ((s.closed_stays gr i).trans hst) (hp ?_)
  rw [State.after, State.group_written]
  exact hb.trans (s.closed_buf gr i)

/-- Without an active lane a word on an object does nothing but commit its region. -/
theorem passes_object_without_lanes (hgo : go (s.seen gr) (s.begun gr i) (s.closed gr i) = .ok (s.closed gr i)) :
    Passes i s gr (fun t => t.team (s.teamOf gr) = (s.closed gr i).team (s.teamOf gr) ∧ (t.after gr).buf = []) :=
  passes_of_object hs hr he hgo ⟨⟨rfl, rfl, rfl, rfl, rfl⟩, rfl, rfl⟩ rfl fun h => ⟨(Book.written ..).team _, h⟩

/-- A word that reads an object in lasting error stops with it (06 R110). -/
theorem trapsError_of_object {read : State → Except Flt State} {f : Flt} (hgo : go (s.seen gr) (s.begun gr i) (s.closed gr i) = readObject o read (s.seen gr) (s.closed gr i))
    (hm : (s.seen gr).active o.g ≠ 0) (hp : (s.closed gr i).spPoison (s.teamOf gr) (spBytes 8 [s.objectOf gr o]) = some f) : TrapsError i s gr f := by
  refine trapsError_of_effect hr he ((onObject_sound hs).trans (hgo.trans ?_)) hp
  unfold readObject objectSound
  rw [if_neg hm]
  rw [show (s.closed gr i).spPoison (s.seen gr).g.team (spBytes 8 [((s.seen gr).g.rs o.a.toNat).toNat]) = some f from hp]

end

section
variable {o : FOps} {s : State} {gr : Grant}

/-- The state in which a word on an object has read it. -/
abbrev State.objectRead (s : State) (gr : Grant) (i : Instr) (o : FOps) : State := (s.closed gr i).spRead (s.teamOf gr) (spBytes 8 [s.objectOf gr o])

theorem State.objectRead_same (i : Instr) : (s.closed gr i).SameGroups (s.objectRead gr i o) := .of_book (.spRead ..)

theorem readObject_clean {i : Instr} {read : State → Except Flt State} (hm : (s.seen gr).active o.g ≠ 0)
    (hc : (s.closed gr i).spPoison (s.teamOf gr) (spBytes 8 [s.objectOf gr o]) = none) : readObject o read (s.seen gr) (s.closed gr i) = read (s.objectRead gr i o) := by
  unfold readObject objectSound
  rw [if_neg hm]
  rw [show (s.closed gr i).spPoison (s.seen gr).g.team (spBytes 8 [((s.seen gr).g.rs o.a.toNat).toNat]) = none from hc]
  rfl

/-- What BEXP makes REM of its object (05 R93). -/
abbrev State.expected (s : State) (gr : Grant) (o : FOps) : Int :=
  ((s.closed gr (.bexp o)).team (s.teamOf gr)).rem (s.objectOf gr o) + (s.operandBs gr (.bexp o) o).toInt

variable (hs : s.objectOf gr o % 8 = 0 ∧ s.objectOf gr o + 8 ≤ (s.team (s.teamOf gr)).scratchSize) (hm : (s.seen gr).active o.g ≠ 0)
include hs hm

/-- BINIT writes B to its object (05 R93). -/
theorem binit_passes (hr : Ready (.binit o) s gr) :
    Passes (.binit o) s gr (fun t => (t.team (s.teamOf gr)).num (s.objectOf gr o) 8 = (s.operandBs gr (.binit o) o).toNat ∧ (t.after gr).buf = []) := by
  have hg := (s.closed gr (.binit o)).initObject_group (s.teamOf gr) (s.objectOf gr o) (s.operandBs gr (.binit o) o).toNat gr.gid
  refine passes_of_object hs hr (exec_binit_object o s) (congrArg Except.ok (if_neg hm)) ?_ (congrArg Group.buf hg) fun h => ⟨?_, h⟩
  · exact hg.symm ▸ ⟨⟨rfl, rfl, rfl, rfl, rfl⟩, rfl, rfl⟩
  · rw [(Book.written ..).team]
    exact State.initObject_num ..

section
variable (hr : Ready (.bexp o) s gr) (hc : (s.closed gr (.bexp o)).spPoison (s.teamOf gr) (spBytes 8 [s.objectOf gr o]) = none)
include hr hc

/-- BEXP adds B to REM, modulo 2^32, and ends the phase where that gives 0 (05 R93, log 48). -/
theorem bexp_passes (hx : s.expected gr o < 2 ^ 31) : Passes (.bexp o) s gr (fun t => (t.team (s.teamOf gr)).num (s.objectOf gr o) 4 = (s.expected gr o % 2 ^ 32).toNat ∧
    ((t.team (s.teamOf gr)).phase (s.objectOf gr o) ≠ ((s.closed gr (.bexp o)).team (s.teamOf gr)).phase (s.objectOf gr o) ↔ s.expected gr o % 2 ^ 32 = 0) ∧ (t.after gr).buf = []) := by
  have hread := State.objectRead_same (o := o) (s := s) (gr := gr) (.bexp o)
  obtain ⟨hteam, hgroups⟩ := (s.objectRead gr (.bexp o) o).putRem_spec (s.teamOf gr) (s.objectOf gr o) (s.expected gr o)
  obtain ⟨hst, hbuf⟩ := hgroups gr.gid
  rw [hread.team] at hteam
  rw [hread.group] at hst hbuf
  refine passes_of_object hs hr (exec_bexp_object o s) ((readObject_clean hm hc).trans (if_neg (not_le.mpr hx))) hst hbuf fun h => ?_
  rw [(Book.written ..).team]
  obtain ⟨hnum, hphase⟩ := Team.setRem_spec hteam
  exact ⟨hnum, hphase, h⟩

/-- An overflow of REM changes nothing (05 R93, log 75). -/
theorem bexp_traps (hx : 2 ^ 31 ≤ s.expected gr o) : Traps (.bexp o) s gr (fSync (s.objectOf gr o) 0 0 0 4) :=
  traps_of_effect hr (exec_bexp_object o s) ((onObject_sound hs).trans ((readObject_clean hm hc).trans (if_pos hx))) (by simp [fSync])

end

section
variable (hr : Ready (.bwait o) s gr) (hc : (s.closed gr (.bwait o)).spPoison (s.teamOf gr) (spBytes 8 [s.objectOf gr o]) = none)
include hr hc

/-- BWAIT on a phase that is over goes on (05 R94). -/
theorem bwait_passes (hp : ((s.closed gr (.bwait o)).team (s.teamOf gr)).phase (s.objectOf gr o) ≠ (s.operandBs gr (.bwait o) o).getLsbD 0) :
    Passes (.bwait o) s gr (fun t => (t.after gr).wait = (s.group gr.gid).wait ∧ (t.after gr).buf = []) := by
  have hread := State.objectRead_same (o := o) (s := s) (gr := gr) (.bwait o)
  have hg := (hread.trans (State.SameGroups.bwaitReturns _ gr.gid (s.objectOf gr o) ((s.operandBs gr (.bwait o) o).getLsbD 0))).group gr.gid
  refine passes_of_object hs hr (exec_bwait_object hr) ((readObject_clean hm hc).trans (congrArg Except.ok (if_pos ?_))) ?_ (congrArg Group.buf hg) fun h => ⟨?_, h⟩
  · exact fun e => hp ((congrArg (Team.phase · _) (hread.team _)).symm.trans e)
  · exact hg.symm ▸ ⟨⟨rfl, rfl, rfl, rfl, rfl⟩, rfl, rfl⟩
  · rw [State.after, State.group_written]
    exact (congrArg Group.wait hg).trans (s.closed_wait gr _)

/-- BWAIT on the phase that is on holds its group (05 R94). -/
theorem bwait_holds (hp : ((s.closed gr (.bwait o)).team (s.teamOf gr)).phase (s.objectOf gr o) = (s.operandBs gr (.bwait o) o).getLsbD 0) :
    Holds (.bwait o) s gr (fun k => k = .object (s.objectOf gr o) ((s.operandBs gr (.bwait o) o).getLsbD 0)) (fun t => (t.after gr).buf = []) := by
  have hread := State.objectRead_same (o := o) (s := s) (gr := gr) (.bwait o)
  have hphase : ¬ ((s.objectRead gr (.bwait o) o).team (s.teamOf gr)).phase (s.objectOf gr o) ≠ (s.operandBs gr (.bwait o) o).getLsbD 0 :=
    not_not.mpr ((congrArg (Team.phase · _) (hread.team _)).trans hp)
  have hst := s.closed_stays gr (.bwait o)
  rw [← hread.group] at hst
  refine holds_of_block (exec_of_effect hr (exec_bwait_object hr) ((onObject_sound hs).trans ((readObject_clean hm hc).trans (congrArg Except.ok (if_neg hphase))))) hst ?_
  rw [State.after, State.group_written]
  exact (State.block_buf ..).trans ((congrArg Group.buf (hread.group _)).trans (s.closed_buf gr _))

end
end

/-- BWAIT goes on at its last return: the registers of its group and its team's scratchpad are as they were (05 R94). -/
theorem bwait_ends {o : FOps} {s : State} {gr : Grant} {w : Wait} {b : Nat} {q : Bool} (hr : Returning s gr w) (hk : w.kind = .object b q) :
    Ends (.bwait o) s gr (fun t => (s.group gr.gid).sameRegs (t.after gr) ∧ t.team (s.teamOf gr) = s.team (s.teamOf gr)) := by
  have hs := State.SameGroups.bwaitReturns (s.woken gr) gr.gid b q
  have hw : (s.woken gr).group gr.gid = { s.group gr.gid with wait := none } := State.group_setGroup_self ..
  have he : exec (.bwait o) s = .next (((s.woken gr).bwaitReturns gr.gid b q).written (s.back gr w) (.bwait o)) := by
    refine (exec_bwait ..).trans ((issue2_again _ _ _ hr).trans ?_)
    dsimp only
    rw [hk]
    rfl
  have hg : (((s.woken gr).bwaitReturns gr.gid b q).written (s.back gr w) (.bwait o)).after gr = { s.group gr.gid with wait := none } :=
    (State.group_written ..).trans ((hs.group _).trans hw)
  refine ⟨_, he, ?_, by rw [hg], by rw [hg]; exact ⟨rfl, rfl, rfl, rfl, rfl⟩, ?_⟩
  · rw [(Book.written ..).rest]
    exact hs.grant
  · exact ((Book.written ..).team _).trans (hs.team _)

/-- CSTAT writes a path counter, or the free entries of the kick queue (05 R107). -/
theorem cstat_completes {o : FOps} {s : State} {gr : Grant} (hr : Ready (.cstat o) s gr) :
    Completes (.cstat o) s gr { s := if (s.seen gr).active o.g = 0 then fun _ => none else only o.d.toNat (BitVec.ofNat 32 (if fld o.ox 0 3 < 6 then (s.group gr.gid).counter (fld o.ox 0 3) else 16 - (s.core (coreOf gr.gid)).kicks.length)) } := by
  have hk : ((s.begun gr (.cstat o)).core (coreOf gr.gid)).kicks = (s.core (coreOf gr.gid)).kicks := by
    have e := congrArg Core.kicks ((s.begin_book (s.seen gr) (.cstat o)).cores (coreOf gr.gid))
    exact e
  by_cases hm : (s.seen gr).active o.g = 0
  · rw [if_pos hm]
    exact completes_of_begun rfl (exec_of_effect hr (exec_cstat o s) (congrArg Except.ok (if_pos hm)))
  · rw [if_neg hm, ← hk]
    exact completes_of_ws hr rfl (exec_cstat o s) rfl (congrArg Except.ok (if_neg hm))

/-- Settles O19: each word on an object is its effect at the state in which its region has committed; the wake of the groups that wait changes nothing of a
group but its wait, and what REM and PH become is `Team.setRem`. -/
theorem barrierObjects : Obligations.BarrierObjects := by
  intro o s gr w c g T a m size sound front u clean x p z
  refine ⟨fun hr hs hm => binit_passes hs hm hr, fun hr hs hm hc hx => bexp_passes hs hm hr hc hx, fun hr hs hm hc hx => bexp_traps hs hm hr hc hx, ?_, ?_,
    fun hr hs hm hc hp => bwait_passes hs hm hr hc hp, fun hr hs hm hc hp => bwait_holds hs hm hr hc hp, fun b q hr hk => bwait_ends hr hk, ?_, fun hr => cstat_completes hr⟩
  · rintro i (rfl | rfl | rfl) hr hs hm
    · exact passes_object_without_lanes hs hr (exec_binit_object o s) (congrArg Except.ok (if_pos hm))
    · exact passes_object_without_lanes hs hr (exec_bexp_object o s) (if_pos hm)
    · exact passes_object_without_lanes hs hr (exec_bwait_object hr) (if_pos hm)
  · rintro i f (rfl | rfl) hr hs hm hp
    · exact trapsError_of_object hs hr (exec_bexp_object o s) rfl hm hp
    · exact trapsError_of_object hs hr (exec_bwait_object hr) rfl hm hp
  · rintro i (rfl | rfl | rfl) hr hs
    · exact traps_of_badObject hr (exec_binit_object o s) hs
    · exact traps_of_badObject hr (exec_bexp_object o s) hs
    · exact traps_of_badObject hr (exec_bwait_object hr) hs

end Sys2Proof.Machine
end

-- ==== Engine operations that start (O18) ====
section
/-! SUPPORT. A word that has returned once its release is complete, and the operation that it then queues for an engine (05 R96, R103, R104); then O18. -/

namespace Sys2Proof.Machine

/-! #### A returned word and the result of its effect -/

section
variable {i : Instr} {s : State} {gr : Grant} {w : Wait} {pre : Iss → Option Flt} {first : Iss → State → Except Flt State} {again : Iss → Wait → State → Except Flt State} (hr : Returning s gr w)
  (he : exec i s = issue2 i s pre first again)

theorem State.woken_group (s : State) (gr : Grant) : (s.woken gr).group gr.gid = { s.group gr.gid with wait := none } := State.group_setGroup_self ..

include hr he in
theorem stops_of_again {f : Flt} (hf : again (s.back gr w) w (s.woken gr) = .error f) : Stops i s gr w f := by
  unfold Stops
  rw [he, issue2_again pre first again hr, hf]

include hr he in
theorem ends_of_again {t : State} {post : State → Prop} (hf : again (s.back gr w) w (s.woken gr) = .ok t) (hg : t.grant = none) (hw : (t.group gr.gid).wait = none)
    (hp : post (t.written (s.back gr w) i)) : Ends i s gr post := by
  refine ⟨_, by rw [he, issue2_again pre first again hr, hf], ?_, ?_, hp⟩
  · rw [(Book.written ..).rest]; exact hg
  · rw [State.after, State.group_written]; exact hw

/-- A word without a destination that has changed nothing of its group writes no register. -/
theorem State.written_still {t : State} {c : Iss} {i : Instr} (hs : (t.group c.gid).s = c.g.s) (hr : i.regs.2 = []) : t.written c i = t := by
  have hm : ([0, 1].filter (fun r => (t.group c.gid).rs r ≠ c.g.rs r)) = [] := by
    refine List.filter_eq_nil_iff.mpr fun r _ => ?_
    simp [Group.rs, hs]
  have hwr : c.writesOf i (c.lanes i) i.regs.2 = [] := by rw [hr]; rfl
  unfold State.written
  dsimp only
  rw [hm, hwr]
  simp

include hr he in
/-- A returned word without a destination that finds nothing to do ends and leaves the cores, the dies and the operations. -/
theorem ends_of_nothing (hregs : i.regs.2 = []) (hf : again (s.back gr w) w (s.woken gr) = .ok (s.woken gr)) :
    Ends i s gr (fun t => t.cores = s.cores ∧ t.dies = s.dies ∧ t.ops = s.ops) := by
  refine ends_of_again hr he hf rfl (by rw [State.woken_group]) ?_
  rw [State.written_still (congrArg Group.s (s.woken_group gr)) hregs]
  exact ⟨rfl, rfl, rfl⟩

end

/-! #### An operation for an engine -/

/-- The operation that a kick starts on a path, with the scope of its bytes (05 R89, R91). -/
def State.startEngine (s : State) (c : Iss) (i : Instr) (path parts scope : Nat) : State :=
  let n := s.newOp c i (some path) .none parts
  match n.2.op n.1 with
  | some x => n.2.putOp n.1 { x with scope := some scope }
  | none => n.2

theorem State.startEngine_rest (s : State) (c : Iss) (i : Instr) (path parts scope : Nat) :
    ∃ g o n, s.startEngine c i path parts scope = { s with groups := g, ops := o, nextId := n } := by
  unfold State.startEngine State.newOp
  dsimp only
  split <;> exact ⟨_, _, _, rfl⟩

section
variable (s : State) (c : Iss) (i : Instr) (path parts scope : Nat)

theorem State.startEngine_core (k : Nat) : (s.startEngine c i path parts scope).core k = s.core k := by
  obtain ⟨g, o, n, h⟩ := s.startEngine_rest c i path parts scope
  rw [h]; rfl

theorem State.startEngine_die (k : Nat) : (s.startEngine c i path parts scope).die k = s.die k := by
  obtain ⟨g, o, n, h⟩ := s.startEngine_rest c i path parts scope
  rw [h]; rfl

theorem State.startEngine_grant : (s.startEngine c i path parts scope).grant = s.grant := by
  obtain ⟨g, o, n, h⟩ := s.startEngine_rest c i path parts scope
  rw [h]

end

/-- The operation is new, has the parts and the scope, and counts on its path. -/
theorem State.startEngine_spec (s : State) (c : Iss) (i : Instr) (path parts scope : Nat) :
    (∃ x, (s.startEngine c i path parts scope).op s.nextId = some x ∧ x.instr = i ∧ x.path = some path ∧ x.parts = parts ∧ x.scope = some scope ∧ x.dest = .none) ∧
      (⟨path, s.nextId, false⟩ : PathOp) ∈ ((s.startEngine c i path parts scope).group c.gid).paths ∧ ((s.startEngine c i path parts scope).group c.gid).wait = (s.group c.gid).wait := by
  obtain ⟨x, hn, hx, -, hinstr, hpath, -, hdest, hparts⟩ := s.newOp_spec c i (some path) .none parts
  obtain ⟨-, -, -, -, -, -, -, hpaths⟩ := s.newOp_new c i (some path) .none parts
  have he : s.startEngine c i path parts scope = (s.newOp c i (some path) .none parts).2.putOp s.nextId { x with scope := some scope } := by
    unfold State.startEngine
    dsimp only
    rw [hn, hx]
  rw [he]
  refine ⟨⟨_, tfind_tput_self .., hinstr, hpath, hparts, rfl, hdest⟩, hpaths path rfl, ?_⟩
  have e := congrArg Group.wait (s.newOp_group c i (some path) .none parts)
  exact e

/-- `t` holds the operation that word `i` has started on a path (05 R89). -/
def Launched (s t : State) (gr : Grant) (n path parts scope : Nat) (i : Instr) : Prop :=
  s.nextId ≤ n ∧ (⟨path, n, false⟩ : PathOp) ∈ (t.after gr).paths ∧ ∃ x, t.op n = some x ∧ x.instr = i ∧ x.path = some path ∧ x.parts = parts ∧ x.scope = some scope ∧ x.dest = .none

section
variable {i : Instr} {s u t : State} {gr : Grant} {w : Wait} {pre : Iss → Option Flt} {first : Iss → State → Except Flt State} {again : Iss → Wait → State → Except Flt State}
  {path parts scope : Nat} {post : Nat → State → Prop}

/-- A returned word that, beside reading its request, starts an operation and queues it ends with that operation in flight. -/
theorem ends_of_launch (hr : Returning s gr w) (he : exec i s = issue2 i s pre first again) (hf : again (s.back gr w) w (s.woken gr) = .ok t) (hu : Book (s.woken gr) u)
    (hgroups : t.groups = (u.startEngine (s.back gr w) i path parts scope).groups) (hops : t.ops = (u.startEngine (s.back gr w) i path parts scope).ops) (hgrant : t.grant = u.grant)
    (hp : post s.nextId (t.written (s.back gr w) i)) : Ends i s gr (fun t => ∃ n, post n t ∧ Launched s t gr n path parts scope i) := by
  have hn : u.nextId = s.nextId := by rw [hu.rest]; rfl
  have hwait : (u.group gr.gid).wait = none := by rw [hu.group, State.woken_group]
  obtain ⟨⟨x, hx, hinstr, hpath, hparts, hscope, hdest⟩, hpaths, hkept⟩ := u.startEngine_spec (s.back gr w) i path parts scope
  rw [hn] at hx hpaths
  have hg : t.group gr.gid = (u.startEngine (s.back gr w) i path parts scope).group gr.gid := by unfold State.group; rw [hgroups]
  have ho (n : Nat) : t.op n = (u.startEngine (s.back gr w) i path parts scope).op n := by unfold State.op; rw [hops]
  refine ends_of_again hr he hf (hgrant.trans (by rw [hu.rest]; rfl)) ((congrArg Group.wait hg).trans (hkept.trans hwait)) ⟨s.nextId, hp, le_rfl, ?_, x, ?_, hinstr, hpath, hparts, hscope, hdest⟩
  · rw [State.after, State.group_written, hg]; exact hpaths
  · rw [State.op_written, ho]; exact hx

end

/-! #### The queues of the engines, through the bookkeeping of a read -/

theorem Book.kicks {s t : State} (h : Book s t) (k : Nat) : (t.core k).kicks = (s.core k).kicks := by
  have e := congrArg Core.kicks (h.cores k)
  exact e

theorem Book.gathers {s t : State} (h : Book s t) (k : Nat) : (t.core k).gathers = (s.core k).gathers := by
  have e := congrArg Core.gathers (h.cores k)
  exact e

theorem Book.colls {s t : State} (h : Book s t) (k : Nat) : (t.die k).colls = (s.die k).colls := by
  have e := congrArg Die.colls (h.dies k)
  exact e

/-! #### The words -/

section
variable {o : FOps} {s : State} {gr : Grant} {w : Wait}

/-- The address of the request that CKICK or COLL names. -/
abbrev State.requestOf (s : State) (gr : Grant) (o : FOps) : Nat := ((s.group gr.gid).rs o.a.toNat).toNat

/-- The state in which CKICK or COLL has read its request. -/
abbrev State.requestDone (s : State) (gr : Grant) (o : FOps) : State := (s.woken gr).spRead (s.teamOf gr) (spBytes 64 [s.requestOf gr o])

theorem requestRead_clean {go : State → Except Flt State} (hc : (s.woken gr).spPoison (s.teamOf gr) (spBytes 64 [s.requestOf gr o]) = none) :
    requestRead (s.woken gr) (s.back gr w) (s.requestOf gr o) go = go (s.requestDone gr o) := by
  unfold requestRead
  rw [show (s.woken gr).spPoison (s.back gr w).g.team (spBytes 64 [s.requestOf gr o]) = none from hc]
  rfl

theorem requestRead_poisoned {go : State → Except Flt State} {f : Flt} (hc : (s.woken gr).spPoison (s.teamOf gr) (spBytes 64 [s.requestOf gr o]) = some f) :
    requestRead (s.woken gr) (s.back gr w) (s.requestOf gr o) go = .error f := by
  unfold requestRead
  rw [show (s.woken gr).spPoison (s.back gr w).g.team (spBytes 64 [s.requestOf gr o]) = some f from hc]

theorem State.requestDone_nextId (s : State) (gr : Grant) (o : FOps) : (s.requestDone gr o).nextId = s.nextId := by
  have h : Book (s.woken gr) (s.requestDone gr o) := .spRead ..
  rw [h.rest]; rfl

/-- What a returned CKICK does with its request (05 R96, R98). -/
def kickAgain (o : FOps) (c : Iss) (w : Wait) (t : State) : Except Flt State :=
  if c.active o.g = 0 then .ok t
  else if 16 ≤ (t.core (coreOf c.gid)).kicks.length then .ok (t.block c (.ckick o) w.kind)
  else requestRead t c (c.g.rs o.a.toNat).toNat (fun u =>
    match copyBad (t.team c.g.team) (c.g.rs o.a.toNat).toNat (readCopy (t.team c.g.team) (c.g.rs o.a.toNat).toNat c (fld o.ox 0 3)) with
    | some k => .error (fEngine true 0 (c.g.rs o.a.toNat).toNat k)
    | none =>
      let r := readCopy (t.team c.g.team) (c.g.rs o.a.toNat).toNat c (fld o.ox 0 3)
      .ok ((u.startEngine c (.ckick o) 2 (r.x * r.y * r.z) (fld o.ox 0 3)).modCore (coreOf c.gid) (fun k => { k with kicks := k.kicks ++ [{ r with op := u.nextId }] })))

/-- What a returned GTHR or SCTR does with its rows (05 R102, R103). -/
def gatherAgain (i : Instr) (o : FOps) (scatter : Bool) (c : Iss) (w : Wait) (t : State) : Except Flt State :=
  match gatherRows c o scatter (t.team c.g.team).scratchSize (nbits (c.g.rs o.c.toNat).toNat 0 16) (nbits (c.g.rs o.c.toNat).toNat 16 16) with
  | .error f => .error f
  | .ok [] => .ok t
  | .ok rows =>
    if 8 ≤ (t.core (coreOf c.gid)).gathers.length then .ok (t.block c i w.kind)
    else .ok ((t.startEngine c i 4 rows.length (fld o.ox 5 3)).modCore (coreOf c.gid) (fun k => { k with gathers := k.gathers ++ [{ op := t.nextId, gid := c.gid, team := c.g.team, ctx := c.g.ctx, tenant := c.g.tenant, scope := fld o.ox 5 3, scatter := scatter, len := nbits (c.g.rs o.c.toNat).toNat 0 16, rows := rows, left := rows.map (·.1) }] }))

/-- What a returned COLL does with its request (05 R104). -/
def collAgain (o : FOps) (c : Iss) (_ : Wait) (t : State) : Except Flt State :=
  if c.active o.g = 0 then .ok t
  else requestRead t c (c.g.rs o.a.toNat).toNat (fun u =>
    if collBad (t.team c.g.team) (c.g.rs o.a.toNat).toNat (readColl (t.team c.g.team) (c.g.rs o.a.toNat).toNat c (fld o.ox 0 3)) then .error (fEngine true 2 (c.g.rs o.a.toNat).toNat 8)
    else
      let r := readColl (t.team c.g.team) (c.g.rs o.a.toNat).toNat c (fld o.ox 0 3)
      .ok (((u.startEngine c (.coll o) 5 1 (fld o.ox 0 3)).modDie (dieOf c.gid) (fun d => { d with colls := d.colls ++ [{ r with op := u.nextId }] })).meetArrive (collMeet c.g.ctx r.comm) (clusterOfCore (coreOf c.gid))))

theorem exec_ckick_again (o : FOps) (s : State) : exec (.ckick o) s = issue2 (.ckick o) s free_ (fun c t => match requestCheck t o c with
    | some f => .error f
    | none => .ok (t.releaseAt c (.ckick o) (fld o.ox 0 3))) (kickAgain o) := rfl

theorem exec_coll_again (o : FOps) (s : State) : exec (.coll o) s = issue2 (.coll o) s free_ (fun c t => match requestCheck t o c with
    | some f => .error f
    | none => .ok (t.releaseAt c (.coll o) (fld o.ox 0 3))) (collAgain o) := rfl

/-- What GTHR and SCTR do as they issue (05 R103). -/
def gatherFirst (i : Instr) (o : FOps) (scatter : Bool) (c : Iss) (t : State) : Except Flt State :=
  let len := nbits (c.g.rs o.c.toNat).toNat 0 16
  let pitch := nbits (c.g.rs o.c.toNat).toNat 16 16
  if len = 0 || 4096 < len || len % 4 ≠ 0 || pitch % 4 ≠ 0 then .error (fEngine true 1 0 7)
  else match gatherRows c o scatter (t.team c.g.team).scratchSize len pitch with
    | .error f => .error f
    | .ok _ => .ok (t.releaseAt c i (fld o.ox 5 3))

theorem gatherWord_again (i : Instr) (o : FOps) (s : State) (scatter : Bool) : gatherWord i o s scatter = issue2 i s free_ (gatherFirst i o scatter) (gatherAgain i o scatter) := rfl

section
variable (hm : (s.back gr w).active o.g ≠ 0)
include hm

/-- A request in lasting error stops its word (06 R110). -/
theorem ckick_stops_error (hr : Returning s gr w) {f : Flt} (hk : (s.core (coreOf gr.gid)).kicks.length < 16)
    (hp : (s.woken gr).spPoison (s.teamOf gr) (spBytes 64 [s.requestOf gr o]) = some f) : Stops (.ckick o) s gr w f :=
  stops_of_again hr (exec_ckick_again o s) ((if_neg hm).trans ((if_neg (Nat.not_le.mpr hk)).trans (requestRead_poisoned hp)))

theorem coll_stops_error (hr : Returning s gr w) {f : Flt} (hp : (s.woken gr).spPoison (s.teamOf gr) (spBytes 64 [s.requestOf gr o]) = some f) : Stops (.coll o) s gr w f :=
  stops_of_again hr (exec_coll_again o s) ((if_neg hm).trans (requestRead_poisoned hp))

variable (hc : (s.woken gr).spPoison (s.teamOf gr) (spBytes 64 [s.requestOf gr o]) = none)
include hc

/-- The copy request of a returned CKICK. -/
abbrev State.copyOf (s : State) (gr : Grant) (w : Wait) (o : FOps) : Copy := readCopy (s.team (s.teamOf gr)) (s.requestOf gr o) (s.back gr w) (fld o.ox 0 3)

/-- The collective request of a returned COLL. -/
abbrev State.collOf (s : State) (gr : Grant) (w : Wait) (o : FOps) : Collective := readColl (s.team (s.teamOf gr)) (s.requestOf gr o) (s.back gr w) (fld o.ox 0 3)

theorem kickAgain_clean (hk : (s.core (coreOf gr.gid)).kicks.length < 16) : kickAgain o (s.back gr w) w (s.woken gr) =
    match copyBad (s.team (s.teamOf gr)) (s.requestOf gr o) (s.copyOf gr w o) with
    | some k => .error (fEngine true 0 (s.requestOf gr o) k)
    | none => .ok (((s.requestDone gr o).startEngine (s.back gr w) (.ckick o) 2 ((s.copyOf gr w o).x * (s.copyOf gr w o).y * (s.copyOf gr w o).z) (fld o.ox 0 3)).modCore (coreOf gr.gid)
        (fun k => { k with kicks := k.kicks ++ [{ s.copyOf gr w o with op := (s.requestDone gr o).nextId }] })) :=
  (if_neg hm).trans ((if_neg (Nat.not_le.mpr hk)).trans (requestRead_clean hc))

theorem collAgain_clean : collAgain o (s.back gr w) w (s.woken gr) =
    if collBad (s.team (s.teamOf gr)) (s.requestOf gr o) (s.collOf gr w o) then .error (fEngine true 2 (s.requestOf gr o) 8)
    else .ok ((((s.requestDone gr o).startEngine (s.back gr w) (.coll o) 5 1 (fld o.ox 0 3)).modDie (dieOf gr.gid)
        (fun d => { d with colls := d.colls ++ [{ s.collOf gr w o with op := (s.requestDone gr o).nextId }] })).meetArrive (collMeet (s.group gr.gid).ctx (s.collOf gr w o).comm) (clusterOfCore (coreOf gr.gid))) :=
  (if_neg hm).trans (requestRead_clean hc)

variable (hr : Returning s gr w)
include hr

/-- A copy request that fails validation stops its word (05 R98). -/
theorem ckick_stops (hk : (s.core (coreOf gr.gid)).kicks.length < 16) {e : Nat} (hb : copyBad (s.team (s.teamOf gr)) (s.requestOf gr o) (s.copyOf gr w o) = some e) :
    Stops (.ckick o) s gr w (fEngine true 0 (s.requestOf gr o) e) :=
  stops_of_again hr (exec_ckick_again o s) ((kickAgain_clean hm hc hk).trans (by rw [hb]))

/-- A collective request that fails validation stops its word (05 R104). -/
theorem coll_stops (hb : collBad (s.team (s.teamOf gr)) (s.requestOf gr o) (s.collOf gr w o) = true) : Stops (.coll o) s gr w (fEngine true 2 (s.requestOf gr o) 8) :=
  stops_of_again hr (exec_coll_again o s) ((collAgain_clean hm hc).trans (if_pos hb))

/-- A sound copy request is queued behind those of its core, its bytes the parts of its operation (05 R96, R97). -/
theorem ckick_launches (hk : (s.core (coreOf gr.gid)).kicks.length < 16) (hb : copyBad (s.team (s.teamOf gr)) (s.requestOf gr o) (s.copyOf gr w o) = none) :
    Ends (.ckick o) s gr (fun t => ∃ n, (t.core (coreOf gr.gid)).kicks = (s.core (coreOf gr.gid)).kicks ++ [{ s.copyOf gr w o with op := n }] ∧
      Launched s t gr n 2 ((s.copyOf gr w o).x * (s.copyOf gr w o).y * (s.copyOf gr w o).z) (fld o.ox 0 3) (.ckick o)) := by
  have hu : Book (s.woken gr) (s.requestDone gr o) := .spRead ..
  have hf := kickAgain_clean hm hc hk
  rw [hb] at hf
  refine ends_of_launch hr (exec_ckick_again o s) hf hu rfl rfl (State.startEngine_grant ..) ?_
  rw [Book.kicks (.written ..), State.core_modCore_self, State.startEngine_core, s.requestDone_nextId]
  exact congrArg (· ++ _) (hu.kicks _)

/-- A sound collective request is queued behind those of its die (05 R104). -/
theorem coll_launches (hb : collBad (s.team (s.teamOf gr)) (s.requestOf gr o) (s.collOf gr w o) = false) :
    Ends (.coll o) s gr (fun t => ∃ n, (t.die (dieOf gr.gid)).colls = (s.die (dieOf gr.gid)).colls ++ [{ s.collOf gr w o with op := n }] ∧
      Launched s t gr n 5 1 (fld o.ox 0 3) (.coll o)) := by
  have hu : Book (s.woken gr) (s.requestDone gr o) := .spRead ..
  have hf := collAgain_clean hm hc
  rw [hb, if_neg Bool.false_ne_true] at hf
  refine ends_of_launch hr (exec_coll_again o s) hf hu rfl rfl (State.startEngine_grant ..) ?_
  rw [Book.colls (.written ..)]
  have e := congrArg Die.colls (((s.requestDone gr o).startEngine (s.back gr w) (.coll o) 5 1 (fld o.ox 0 3)).die_modDie_self (dieOf gr.gid) fun d => { d with colls := d.colls ++ [{ s.collOf gr w o with op := (s.requestDone gr o).nextId }] })
  refine Eq.trans e ?_
  rw [State.startEngine_die, s.requestDone_nextId]
  exact congrArg (· ++ _) (hu.colls _)

end

/-- What GTHR and SCTR hand to their unit (05 R102). -/
abbrev State.gatherOf (s : State) (gr : Grant) (o : FOps) (scatter : Bool) (n : Nat) (l : List (Nat × Nat × Nat)) : Gather :=
  { op := n, gid := gr.gid, team := s.teamOf gr, ctx := (s.group gr.gid).ctx, tenant := (s.group gr.gid).tenant, scope := fld o.ox 5 3, scatter := scatter, len := ((s.group gr.gid).rs o.c.toNat).toNat % 2 ^ 16, rows := l, left := l.map (·.1) }

/-- The rows of a returned GTHR or SCTR (05 R103). -/
abbrev State.rowsOf (s : State) (gr : Grant) (w : Wait) (o : FOps) (scatter : Bool) : Except Flt (List (Nat × Nat × Nat)) :=
  gatherRows (s.back gr w) o scatter (s.team (s.teamOf gr)).scratchSize (((s.group gr.gid).rs o.c.toNat).toNat % 2 ^ 16) (((s.group gr.gid).rs o.c.toNat).toNat / 2 ^ 16)

section
variable {i : Instr} {scatter : Bool} {l : List (Nat × Nat × Nat)} (hr : Returning s gr w) (he : exec i s = gatherWord i o s scatter)

theorem gatherAgain_of_rows (hl : s.rowsOf gr w o scatter = .ok l) : gatherAgain i o scatter (s.back gr w) w (s.woken gr) =
    if l = [] then .ok (s.woken gr)
    else if 8 ≤ (s.core (coreOf gr.gid)).gathers.length then .ok ((s.woken gr).block (s.back gr w) i w.kind)
    else .ok (((s.woken gr).startEngine (s.back gr w) i 4 l.length (fld o.ox 5 3)).modCore (coreOf gr.gid) (fun k => { k with gathers := k.gathers ++ [s.gatherOf gr o scatter s.nextId l] })) := by
  unfold gatherAgain
  rw [nbits_high, nbits_zero, show gatherRows (s.back gr w) o scatter ((s.woken gr).team (s.back gr w).g.team).scratchSize (((s.back gr w).g.rs o.c.toNat).toNat % 2 ^ 16)
    (((s.back gr w).g.rs o.c.toNat).toNat / 2 ^ 16) = .ok l from hl]
  cases l <;> rfl

include hr he

/-- Rows are queued behind those of the core, each a part of the operation (05 R102). -/
theorem gather_launches (hl : s.rowsOf gr w o scatter = .ok l) (hne : l ≠ []) (hk : (s.core (coreOf gr.gid)).gathers.length < 8) :
    Ends i s gr (fun t => ∃ n, (t.core (coreOf gr.gid)).gathers = (s.core (coreOf gr.gid)).gathers ++ [s.gatherOf gr o scatter n l] ∧ Launched s t gr n 4 l.length (fld o.ox 5 3) i) := by
  have hf := gatherAgain_of_rows (i := i) hl
  rw [if_neg hne, if_neg (Nat.not_le.mpr hk)] at hf
  refine ends_of_launch hr (he.trans (gatherWord_again ..)) hf (.refl _) rfl rfl (State.startEngine_grant ..) ?_
  rw [Book.gathers (.written ..), State.core_modCore_self, State.startEngine_core]
  rfl

/-- Without an active lane there is no row, and nothing is queued. -/
theorem gather_ends (hregs : i.regs.2 = []) (hl : s.rowsOf gr w o scatter = .ok []) : Ends i s gr (fun t => t.cores = s.cores ∧ t.dies = s.dies ∧ t.ops = s.ops) := by
  exact ends_of_nothing hr (he.trans (gatherWord_again ..)) hregs ((gatherAgain_of_rows hl).trans (if_pos rfl))

end
end

theorem Ends.weaken {i : Instr} {s : State} {gr : Grant} {p q : State → Prop} (h : Ends i s gr p) (hpq : ∀ t, p t → q t) : Ends i s gr q := by
  obtain ⟨t, he, hg, hw, hp⟩ := h
  exact ⟨t, he, hg, hw, hpq t hp⟩

/-- Settles O18: a returned word that finds its request sound makes its operation and queues the request; else it stops or ends. -/
theorem engineKicks : Obligations.EngineKicks := by
  intro o s gr w c g k team a m copy coll desc clean rows gather started
  refine ⟨fun hr hm hc hk hb => ckick_launches hm hc hr hk hb, fun e hr hm hc hk hb => ckick_stops hm hc hr hk hb, fun hr hm => ?_, ?_, ?_,
    fun hr hm hc hb => coll_launches hm hc hr hb, fun hr hm hc hb => coll_stops hm hc hr hb, ?_, fun hr hm => ?_⟩
  · exact (ends_of_nothing hr (exec_ckick_again o s) rfl (if_pos hm)).weaken fun t h => ⟨h.1, h.2.2⟩
  · intro scatter l i hr hl hne hk
    cases scatter with
    | false => exact gather_launches hr (exec_gthr o s) hl hne hk
    | true => exact gather_launches hr (exec_sctr o s) hl hne hk
  · intro scatter i hr hl
    cases scatter with
    | false => exact (gather_ends hr (exec_gthr o s) rfl hl).weaken fun t h => ⟨h.1, h.2.2⟩
    | true => exact (gather_ends hr (exec_sctr o s) rfl hl).weaken fun t h => ⟨h.1, h.2.2⟩
  · rintro i f (rfl | rfl) hr hm hk hp
    · exact ckick_stops_error hm hr hk hp
    · exact coll_stops_error hm hr hp
  · exact (ends_of_nothing hr (exec_coll_again o s) rfl (if_pos hm)).weaken fun t h => h.2

end Sys2Proof.Machine
end

-- ==== The work of the engines (O38) ====
section
/-! SUPPORT. What an engine's reads leave alone, the pieces of a copy, and the bytes, rows and results that the engines perform (05 R97 to R106); then O38. -/

namespace Sys2Proof.Machine

/-! #### What a read of an engine leaves alone -/

/-- The tracker's samples leave the collectives of its die (03 R48). -/
theorem Die.access_colls (d : Die) (slow : Bool) (page : Option (Nat × Nat)) : (d.access slow page).colls = d.colls := by
  have either {p : Bool} {a b : Die} (ha : a.colls = d.colls) (hb : b.colls = d.colls) : (if p = true then a else b).colls = d.colls := by split <;> assumption
  unfold Die.access
  refine either rfl ?_
  dsimp only
  split
  · exact either rfl rfl
  · cases slow <;> rfl

theorem State.op_congr {s t : State} (h : t.ops = s.ops) (n : Nat) : t.op n = s.op n := congrArg (tfind n) h
theorem State.team_congr {s t : State} (h : t.teams = s.teams) (n : Nat) : t.team n = s.team n := congrArg (tget ({} : Team) n) h

/-- `t` differs from `s` at most in the slices and in the dies, which keep their collectives. -/
structure State.Peeked (s t : State) : Prop where
  rest : t = { s with dies := t.dies, slices := t.slices }
  colls : ∀ k, (t.die k).colls = (s.die k).colls

namespace State.Peeked

theorem refl (s : State) : s.Peeked s := ⟨rfl, fun _ => rfl⟩

theorem trans {s t u : State} (h : s.Peeked t) (k : t.Peeked u) : s.Peeked u :=
  ⟨by rw [k.rest, h.rest], fun n => (k.colls n).trans (h.colls n)⟩

theorem ite {s t u : State} {p : Prop} {_ : Decidable p} (ht : s.Peeked t) (hu : s.Peeked u) : s.Peeked (if p then t else u) := by split <;> assumption

theorem foldl {α : Type} {f : State → α → State} (h : ∀ (s : State) (a : α), s.Peeked (f s a)) (l : List α) (s : State) : s.Peeked (l.foldl f s) := by
  induction l generalizing s with
  | nil => exact refl s
  | cons a l ih => exact (h s a).trans (ih _)

section
variable {s t : State} (h : s.Peeked t)
include h

theorem mem : t.mem = s.mem := by rw [h.rest]
theorem teams : t.teams = s.teams := by rw [h.rest]
theorem ops : t.ops = s.ops := by rw [h.rest]
theorem cores : t.cores = s.cores := by rw [h.rest]

end

variable (s : State)

theorem modSlice (k : Nat) (f : Slice → Slice) : s.Peeked (s.modSlice k f) := ⟨rfl, fun _ => rfl⟩

theorem modDie (k : Nat) {f : Die → Die} (h : (f (s.die k)).colls = (s.die k).colls) : s.Peeked (s.modDie k f) := by
  refine ⟨rfl, fun j => ?_⟩
  by_cases hj : j = k
  · subst hj; rw [State.die_modDie_self]; exact h
  · rw [State.die_modDie_ne _ _ _ _ hj]

theorem logMem (ctx slice unit sector : Nat) (lasting : Bool) : s.Peeked (s.logMem ctx slice unit sector lasting) := by
  unfold State.logMem State.logDie; exact modDie _ _ rfl
theorem logRead (ctx slice : Nat) (f : Flt) : s.Peeked (s.logRead ctx slice f) := .ite (logMem ..) (refl s)

theorem countDie (d ctx src n : Nat) : s.Peeked (s.countDie d ctx src n) := by
  unfold State.countDie
  split
  · exact .ite (refl s) (modDie _ _ rfl)
  · exact refl s

theorem memRetried (walker : Bool) (ctx slice : Nat) (sectors : List Nat) : s.Peeked (s.memRetried walker ctx slice sectors) :=
  .ite (refl s) (.foldl (fun s _ => .ite ((modDie _ _ rfl).trans (logMem ..)) (refl s)) _ _)

theorem accessAt (ma : Nat) (page : Option (Nat × Nat)) : s.Peeked (s.accessAt ma page) := .ite (modDie _ _ (Die.access_colls ..)) (refl s)

theorem walkDone (ctx slice va : Nat) (local_ : Bool) (n : Need) (acc : Acc) : s.Peeked (s.walkDone ctx slice va local_ n acc) := by
  have h (l m : List Nat) : s.Peeked ((s.memRetried true ctx slice l).walkAccesses ctx slice va m) :=
    (memRetried s ..).trans (.foldl (fun s _ => accessAt s ..) _ _)
  unfold State.walkDone
  refine .ite (refl s) ?_
  dsimp only
  split
  · exact (h ..).trans (modSlice ..)
  · exact h ..

theorem missed (ctx slice va : Nat) (local_ : Bool) (n : Need) (acc : Acc) : s.Peeked (s.missed ctx slice va local_ n acc) :=
  (countDie s ..).trans ((State.Peeked.ite (refl _) (countDie ..)).trans (walkDone ..))

theorem peekedLine (src : Option Nat) (ctx : Nat) (nd : Need) (acc : Acc) (va n : Nat) : s.Peeked (s.peekedLine src ctx nd acc va n) := by
  have take (p : Prop) [Decidable p] (t : State) (h : s.Peeked t) (l : List Nat) (slice ma : Nat) (page : Option (Nat × Nat)) :
      s.Peeked (if p then t else (t.memRetried false ctx slice l).accessAt ma page) :=
    .ite h (h.trans ((memRetried ..).trans (accessAt ..)))
  unfold State.peekedLine
  dsimp only
  split
  · exact refl s
  · exact take _ _ (.ite (refl s) (countDie ..)) _ _ _ _
  · split
    · exact missed ..
    · exact take _ _ (missed ..) _ _ _ _

theorem peekedRuns (src : Option Nat) (ctx : Nat) (nd : Need) (acc : Acc) (l : List (Nat × Nat)) : s.Peeked (State.peekedRuns src ctx nd acc l s) := by
  induction l generalizing s with
  | nil => exact refl s
  | cons r l ih =>
    unfold State.peekedRuns
    split
    · exact peekedLine ..
    · exact (peekedLine ..).trans (ih _)

theorem logPeek (ctx : Nat) (nd : Need) (acc : Acc) (va n : Nat) (src : Option Nat) : s.Peeked (s.logPeek ctx nd acc va n src) := by
  unfold State.logPeek
  split
  · exact logRead ..
  · exact refl s

theorem slicePeeked (ctx : Nat) (nd : Need) (acc : Acc) (va n : Nat) (src : Option Nat) : s.Peeked (s.slicePeeked ctx nd acc va n src) :=
  (logPeek s ..).trans (peekedRuns ..)

theorem pokeMet (ctx line : Nat) (bs : Table Byte) (n : Need) (acc : Acc) (f : Flt) : s.Peeked (s.pokeMet ctx line bs n acc f) :=
  .ite (refl s) ((logRead ..).trans (missed ..))

theorem engineTook (team ctx : Nat) (sp : Bool) (va n : Nat) : s.Peeked (s.engineTook team ctx sp va n) := .ite (refl s) (slicePeeked ..)

theorem engineMet (team ctx : Nat) (sp : Bool) (bs : List (Nat × Byte)) : s.Peeked (s.engineMet team ctx sp bs) := by
  refine .ite (refl s) ?_
  unfold State.pokesMet
  split
  · exact pokeMet ..
  · exact refl s

theorem copyAccess (c : Copy) (k : Nat) : s.Peeked (s.copyAccess c k) := .ite (refl s) (peekedLine ..)

theorem copyMet (c : Copy) (k : Nat) : s.Peeked (s.copyMet c k) := by
  unfold State.copyMet
  split
  · exact engineTook ..
  · exact engineMet ..

theorem rowMet (x : Gather) (g p : Nat) : s.Peeked (s.rowMet x g p) := by
  unfold State.rowMet
  split
  · exact engineTook ..
  · exact engineMet ..

theorem commTook (c : Collective) : s.Peeked (s.commTook c) := slicePeeked ..

theorem logInput (c : Collective) (ranks : List (Nat × Nat)) : s.Peeked (s.logInput c ranks) := by
  unfold State.logInput
  split
  · exact logPeek ..
  · exact refl s

end State.Peeked

/-! #### What a race detector and a cache hint that are off leave alone, and a team with groups -/

/-- An operation that was issued with the detector off is not checked (13 R254). -/
theorem State.raceOp_off {s : State} {n : Nat} (h : ∀ y, s.op n = some y → y.race = false) (lane : Nat) (write : Bool) (scope : Nat) (vas : List Nat) :
    s.raceOp n lane write scope vas = s := by
  unfold State.raceOp
  split
  next o ho => rw [if_neg (by simp [h o ho])]
  · rfl

/-- A module whose operations are all issued with the detector off reads the inputs of its ranks and does no more. -/
theorem State.Peeked.inputsTook {s : State} (hr : ∀ n y, s.op n = some y → y.race = false) (c : Collective) (ranks : List (Nat × Nat)) : s.Peeked (s.inputsTook c ranks) := by
  have checked {t : State} (h : s.Peeked t) (n lane : Nat) (write : Bool) (scope : Nat) (vas : List Nat) : s.Peeked (t.raceOp n lane write scope vas) := by
    rw [State.raceOp_off (fun y hy => hr n y ((State.op_congr h.ops n).symm.trans hy))]; exact h
  have all (l : List (Nat × Nat)) (t : State) (h : s.Peeked t) : s.Peeked (t.inputsTook c l) := by
    induction l generalizing t with
    | nil => exact h
    | cons x l ih =>
      refine ih _ ?_
      dsimp only
      split
      · exact .ite h (checked (h.trans (peekedRuns ..)) ..)
      · exact h
  exact all ranks s (refl s)

/-- A team with a group of its own stays (02 R42). -/
theorem State.reapTeam_stays {s : State} {k : Nat} (h : (s.team k).gids.any (·.isSome) = true) : s.reapTeam k = s := by
  unfold State.reapTeam
  split
  · rfl
  next m hm =>
    have e : s.team k = m := by unfold State.team; rw [tget_eq_tfind, hm]; rfl
    rw [e] at h
    rw [if_pos (by rw [h]; simp)]

/-- A part of an operation that is done changes the operations and the groups. -/
theorem State.partDone_eq (s : State) (k : Nat) : ∃ o g, s.partDone k = { s with ops := o, groups := g } := by
  unfold State.partDone
  split
  · exact ⟨_, _, rfl⟩
  next o _ =>
    dsimp only
    generalize (_ && _ : Bool) = last
    cases last with
    | false => exact ⟨_, _, rfl⟩
    | true =>
      obtain ⟨g, h⟩ := s.finishOp_eq k { o with parts := o.parts - 1 }
      exact ⟨_, g, by rw [if_pos rfl, h]⟩

/-- The parts of operation `k` of `s` in `t`, where one of them has been performed (05 R89). -/
theorem State.partDone_counts {s : State} {k : Nat} {y : Op} (h : s.op k = some y) :
    (1 < y.parts → (s.partDone k).op k = some { y with parts := y.parts - 1 }) ∧ (y.parts ≤ 1 → y.flag = none → y.dest = .none → (s.partDone k).op k = none) := by
  refine ⟨fun hp => ?_, fun hp hf hd => (State.partDone_plain h hf hd).1 hp⟩
  unfold State.partDone
  rw [h]
  dsimp only
  rw [if_neg (by simp; omega)]
  exact tfind_tput_self ..

/-! #### A part that is done -/

/-- What is left of the operation after a part of it in `s` is done, in `t` (05 R89). -/
def State.Counted (s t : State) (k : Nat) : Prop :=
  ∀ y, s.op k = some y → (1 < y.parts → t.op k = some { y with parts := y.parts - 1 }) ∧ (y.parts ≤ 1 → y.flag = none → y.dest = .none → t.op k = none)

/-- A part that is done of a team with a group of its own. -/
theorem State.partDone_reapTeam {s v : State} {k team : Nat} (ho : v.ops = s.ops) (h : (v.team team).gids.any (·.isSome) = true) :
    ∃ o g, (v.partDone k).reapTeam team = { v with ops := o, groups := g } ∧ s.Counted { v with ops := o, groups := g } k := by
  obtain ⟨o, g, e⟩ := v.partDone_eq k
  have hs : (v.partDone k).reapTeam team = v.partDone k := State.reapTeam_stays (by rw [e]; exact h)
  refine ⟨o, g, hs.trans e, fun y hy => ?_⟩
  rw [← e]
  exact State.partDone_counts ((State.op_congr ho k).trans hy)

/-! #### A fault of an engine -/

theorem State.running {s : State} {ctx : Nat} (h : (s.context ctx).hb.halt = false) : s.halted ctx = false := by simp [State.halted, h]

theorem State.raiseEngine_halts (s : State) (ctx : Nat) (f : Flt) (r : EngRec) : ((s.raiseEngine ctx f r).context ctx).hb.halt = true := by
  have h := s.raise_halts ctx f { die := r.die }
  unfold State.raiseEngine
  rw [State.context_modContext_self]
  dsimp only
  split <;> exact h

section
variable (s : State) (ctx : Nat) (f : Flt) (kind number die gid req prog : Nat)

theorem State.engineFault_halts : ((s.engineFault ctx f kind number die gid req prog).context ctx).hb.halt = true := State.raiseEngine_halts ..

/-- A fault of an engine that is no lasting error is not logged: it writes the groups and the contexts alone (05 R100, 16 R306). -/
theorem State.engineFault_eq {f : Flt} (h : f.cause ≠ 16) : ∃ g c, s.engineFault ctx f kind number die gid req prog = { s with groups := g, contexts := c } := by
  unfold State.engineFault State.logEngine State.raiseEngine
  rw [if_neg (by simp [h])]
  obtain ⟨g, c, hr⟩ := s.raise_eq ctx f { die := die }
  rw [hr]
  exact ⟨_, _, rfl⟩

end

/-! #### The pieces of a copy (R99) -/

/-- The bytes queued at engine `e`. -/
def queuedAt (ps : Table Piece) (e : Nat) : Nat := (ps.filter (fun x => x.2.engine == e)).foldl (fun n x => n + (x.2.stop - x.2.next)) 0

/-- Going through the numbers below `n`, the lowest of those with the least value is kept. -/
theorem least_of_foldl (q : Nat → Nat) (n : Nat) :
    let r := (List.range n).foldl (fun best e => if q e < q best then e else best) 0
    r ≤ n - 1 ∧ ∀ e, e < n → q r < q e ∨ (q r = q e ∧ r ≤ e) := by
  induction n with
  | zero => exact ⟨Nat.le_refl 0, fun e he => absurd he (Nat.not_lt_zero e)⟩
  | succ n ih =>
    obtain ⟨hr, hq⟩ := ih
    simp only [List.range_succ, List.foldl_append, List.foldl_cons, List.foldl_nil]
    generalize (List.range n).foldl (fun best e => if q e < q best then e else best) 0 = r at hr hq
    split
    next hn =>
      refine ⟨by omega, fun e he => ?_⟩
      rcases Nat.lt_succ_iff_lt_or_eq.mp he with h | rfl
      · have := hq e h; omega
      · exact .inr ⟨rfl, Nat.le_refl e⟩
    next hn =>
      refine ⟨by omega, fun e he => ?_⟩
      rcases Nat.lt_succ_iff_lt_or_eq.mp he with h | rfl
      · exact hq e h
      · omega

theorem leastEngine_spec (ps : Table Piece) : leastEngine ps < 4 ∧ ∀ e, e < 4 → queuedAt ps (leastEngine ps) < queuedAt ps e ∨ (queuedAt ps (leastEngine ps) = queuedAt ps e ∧ leastEngine ps ≤ e) := by
  have hq : leastEngine ps = (List.range 4).foldl (fun best e => if queuedAt ps e < queuedAt ps best then e else best) 0 := by
    have h (e : Nat) : ps.foldl (fun n p => if p.2.engine = e then n + (p.2.stop - p.2.next) else n) 0 = queuedAt ps e := by
      simp [queuedAt, List.foldl_filter]
    simp only [leastEngine, h]
  obtain ⟨h1, h2⟩ := least_of_foldl (queuedAt ps) 4
  rw [← hq] at h1 h2
  exact ⟨by omega, h2⟩

/-- The pieces that a request of `total` bytes is cut into from byte `k` on. -/
theorem State.handPieces_spec (s : State) (c : Copy) (total n k : Nat) :
    let t := s.handPieces c total n k
    (t.cores = s.cores ∧ t.mem = s.mem ∧ t.groups = s.groups) ∧
    (∀ m, m < s.nextId → tfind m (t.die (dieOf c.gid)).pieces = tfind m (s.die (dieOf c.gid)).pieces) ∧
    ∀ i, i < n → ∃ e, tfind (s.nextId + i) (t.die (dieOf c.gid)).pieces = some { copy := c, engine := e, next := k + 65536 * i, stop := min total (k + 65536 * (i + 1)) } ∧
      e < 4 ∧ (i = 0 → e = leastEngine (s.die (dieOf c.gid)).pieces) := by
  induction n generalizing s k with
  | zero => exact ⟨⟨rfl, rfl, rfl⟩, fun _ _ => rfl, fun i hi => absurd hi (Nat.not_lt_zero i)⟩
  | succ n ih =>
    let p : Piece := { copy := c, engine := leastEngine (s.die (dieOf c.gid)).pieces, next := k, stop := min total (k + 65536) }
    let u := s.fresh.2.modDie (dieOf c.gid) (fun x => { x with pieces := tput s.nextId p x.pieces })
    obtain ⟨hrest, hold, hnew⟩ := ih u (k + 65536)
    have hu : (u.die (dieOf c.gid)).pieces = tput s.nextId p (s.die (dieOf c.gid)).pieces := by rw [State.die_modDie_self]; rfl
    have hid : u.nextId = s.nextId + 1 := rfl
    refine ⟨hrest, fun m hm => ?_, fun i hi => ?_⟩
    · refine (hold m (by omega)).trans ?_
      rw [hu, tfind_tput_ne (by omega)]
    · cases i with
      | zero =>
        refine ⟨_, (hold s.nextId (by omega)).trans ?_, (leastEngine_spec _).1, fun _ => rfl⟩
        rw [hu, tfind_tput_self]
        simp [p]
      | succ i =>
        obtain ⟨e, he, h4, -⟩ := hnew i (by omega)
        refine ⟨e, ?_, h4, fun h => absurd h (Nat.succ_ne_zero i)⟩
        have h1 : s.nextId + (i + 1) = u.nextId + i := by omega
        have h2 (j : Nat) : k + 65536 * (j + 1) = k + 65536 + 65536 * j := by rw [Nat.mul_succ]; ac_rfl
        rw [h1, h2, h2]
        exact he

/-- KICK_QUEUE_TAKE of a context that runs. -/
theorem kickQueueTake_running {s : State} {core : Nat} {c : Copy} {rest : List Copy} (hk : (s.core core).kicks = c :: rest) (hh : s.halted c.ctx = false) :
    exec (.kickQueueTake core) s = .next ((s.modCore core (fun k => { k with kicks := rest })).handPieces c (c.x * c.y * c.z) ((c.x * c.y * c.z + 65535) / 65536) 0) := by
  rw [exec_kickQueueTake]
  unfold execKickQueueTake
  rw [hk]
  dsimp only
  rw [hh]
  rfl

theorem kickQueueTake_cuts {s : State} {core : Nat} {c : Copy} {rest : List Copy} (hk : (s.core core).kicks = c :: rest) (hh : (s.context c.ctx).hb.halt = false) :
    ∃ t, exec (.kickQueueTake core) s = .next t ∧ (t.core core).kicks = rest ∧ t.mem = s.mem ∧ t.groups = s.groups ∧
      ∀ i, i < (c.x * c.y * c.z + 65535) / 65536 → ∃ x, tfind (s.nextId + i) (t.die (dieOf c.gid)).pieces = some x ∧ x.copy = c ∧ x.next = 65536 * i ∧ x.stop = min (c.x * c.y * c.z) (65536 * (i + 1)) ∧
        x.held = none ∧ x.engine < 4 ∧ (i = 0 → ∀ e, e < 4 → queuedAt (s.die (dieOf c.gid)).pieces x.engine < queuedAt (s.die (dieOf c.gid)).pieces e ∨
          (queuedAt (s.die (dieOf c.gid)).pieces x.engine = queuedAt (s.die (dieOf c.gid)).pieces e ∧ x.engine ≤ e)) := by
  obtain ⟨⟨hc, hm, hg⟩, -, hnew⟩ := (s.modCore core (fun k => { k with kicks := rest })).handPieces_spec c (c.x * c.y * c.z) ((c.x * c.y * c.z + 65535) / 65536) 0
  refine ⟨_, kickQueueTake_running hk (State.running hh), ?_, hm, hg, fun i hi => ?_⟩
  · unfold State.core
    rw [hc]
    exact congrArg Core.kicks (s.core_modCore_self core _)
  · obtain ⟨e, he, h4, h0⟩ := hnew i hi
    refine ⟨_, he, rfl, by simp, by simp, rfl, h4, fun hi => ?_⟩
    rw [h0 hi]
    exact (leastEngine_spec _).2

/-! #### The bytes of a copy (R97, R100) -/

/-- The address that byte `k` of a copy is written to. -/
def Copy.to_ (c : Copy) (k : Nat) : Nat := if c.dsp then (c.dst k).toNat else wrap (c.dst k) 64

section
variable {s u : State} {c : Copy} {k : Nat} {b : Byte}

/-- Reads and writes of the scratchpad leave what a byte of a copy writes. -/
theorem State.copyByte_moves (hbar : s.barPoison c.team c.bar = none) (hb : s.engineByte c.team c.ctx c.ssp (c.src k) = .ok b) (hw : s.engineWrite c.team c.ctx c.dsp [(c.to_ k, b)] = .ok u)
    (hr : ∀ y, u.op c.op = some y → y.race = false) (hh : c.hint < 2) :
    ∃ v, s.copyByte c k = .ok v ∧ v.mem = u.mem ∧ v.slices = (u.copyAccess c k).slices ∧ v.teams = u.teams ∧ v.ops = u.ops := by
  have hint (w : State) (ctx line : Nat) : w.hintLine ctx line c.hint = w := if_pos hh
  unfold State.copyByte
  rw [hb, hbar]
  dsimp only
  unfold Copy.to_ at hw
  rw [hw]
  dsimp only
  rw [State.raceOp_off hr, hint, ite_self]
  cases hs : c.ssp with
  | false =>
    simp only [Bool.false_eq_true, if_false]
    rw [State.raceOp_off hr, ite_self]
    have hp := State.Peeked.copyAccess u c k
    exact ⟨_, rfl, hp.mem, rfl, hp.teams, hp.ops⟩
  | true =>
    simp only [if_true]
    have h := Book.spRead u c.team [(c.src k).toNat]
    have stays (w : State) : w.copyAccess c k = w := by unfold State.copyAccess; simp [hs]
    rw [State.raceOp_off (fun y hy => hr y ((h.op _).symm.trans hy)), ite_self, stays, stays]
    refine ⟨_, rfl, ?_, ?_, ?_, ?_⟩ <;> rw [h.rest]

/-- A byte that meets a fault moves nothing. -/
theorem State.copyByte_faults {f : Flt} (hbar : s.barPoison c.team c.bar = none)
    (h : s.engineByte c.team c.ctx c.ssp (c.src k) = .error f ∨ (s.engineByte c.team c.ctx c.ssp (c.src k) = .ok b ∧ s.engineWrite c.team c.ctx c.dsp [(c.to_ k, b)] = .error f)) :
    s.copyByte c k = .error f := by
  unfold State.copyByte
  rw [hbar]
  rcases h with h | ⟨hb, hw⟩
  · rw [h]
  · rw [hb]
    unfold Copy.to_ at hw
    dsimp only
    rw [hw]

end

section
variable {s : State} {op die : Nat} {p : Piece} {d : Die}

/-- Piece `p` is the one that the engine of die `die` holds under number `op`, with its next byte free to move. -/
structure State.AtPiece (s : State) (op die : Nat) (d : Die) (p : Piece) : Prop where
  die : s.dies.find? (fun d => (tfind op d.2.pieces).isSome) = some (die, d)
  piece : tfind op d.pieces = some p
  free : p.held = none
  runs : (s.context p.copy.ctx).hb.halt = false
  source : p.copy.ssp = false → s.swapStalls p.copy.ctx (wrap (p.copy.src p.next) 64) = false
  target : p.copy.dsp = false → s.swapStalls p.copy.ctx (wrap (p.copy.dst p.next) 64) = false

variable (h : s.AtPiece op die d p)
include h

theorem State.AtPiece.exec_ok {v : State} (hv : s.copyByte p.copy p.next = .ok v) : exec (.copyBytePerformed op) s =
    .next (((v.modDie die (fun x => { x with pieces := if p.next + 1 < p.stop then tput op { p with next := p.next + 1 } x.pieces else tdel op x.pieces })).countByte p.copy).reapTeam p.copy.team) := by
  obtain ⟨hd, hp, hf, hr, hs, ht⟩ := h
  rw [exec_copyBytePerformed]
  unfold execCopyBytePerformed
  simp only [hd, hp, State.running hr, hf]
  rw [if_neg (by cases h1 : p.copy.ssp <;> cases h2 : p.copy.dsp <;> simp_all), hv]

theorem State.AtPiece.exec_error {f : Flt} (hv : s.copyByte p.copy p.next = .error f) : exec (.copyBytePerformed op) s =
    .next (((s.copyMet p.copy p.next).modDie die (fun x => { x with pieces := tput op { p with held := some f } x.pieces })).engineFault p.copy.ctx f 0 p.engine die p.copy.gid p.copy.req p.next) := by
  obtain ⟨hd, hp, hf, hr, hs, ht⟩ := h
  rw [exec_copyBytePerformed]
  unfold execCopyBytePerformed
  simp only [hd, hp, State.running hr, hf]
  rw [if_neg (by cases h1 : p.copy.ssp <;> cases h2 : p.copy.dsp <;> simp_all), hv]

/-- COPY_BYTE_PERFORMED of a byte that moves. -/
theorem State.AtPiece.moves {u : State} {b : Byte} (hbar : p.copy.bar = none) (hb : s.engineByte p.copy.team p.copy.ctx p.copy.ssp (p.copy.src p.next) = .ok b)
    (hw : s.engineWrite p.copy.team p.copy.ctx p.copy.dsp [(p.copy.to_ p.next, b)] = .ok u) (hr : ∀ y, u.op p.copy.op = some y → y.race = false) (hh : p.copy.hint < 2)
    (hg : (u.team p.copy.team).gids.any (·.isSome) = true) :
    ∃ t, exec (.copyBytePerformed op) s = .next t ∧ t.mem = u.mem ∧ t.slices = (u.copyAccess p.copy p.next).slices ∧ t.teams = u.teams ∧
      tfind op (t.die die).pieces = (if p.next + 1 < p.stop then some { p with next := p.next + 1, held := none } else none) ∧ u.Counted t p.copy.op := by
  obtain ⟨v, hv, hmem, hsl, hteams, hops⟩ := State.copyByte_moves (by rw [hbar]; rfl) hb hw hr hh
  have he := h.exec_ok hv
  have hfree := h.free
  generalize hw : v.modDie die _ = w at he
  have hpieces : tfind op (w.die die).pieces = (if p.next + 1 < p.stop then some { p with next := p.next + 1, held := none } else none) := by
    rw [← hw, State.die_modDie_self, ← hfree]
    dsimp only
    split
    · exact tfind_tput_self ..
    · exact tfind_tdel_self ..
  have hcount : w.countByte p.copy = w.partDone p.copy.op := by unfold State.countByte; rw [hbar]
  obtain ⟨o, g, hpart, hc⟩ := State.partDone_reapTeam (s := u) (v := w) (k := p.copy.op) (team := p.copy.team) (by rw [← hw]; exact hops)
    (by rw [← hw]; rwa [← State.team_congr hteams] at hg)
  rw [hcount, hpart] at he
  subst hw
  exact ⟨_, he, hmem, hsl, hteams, hpieces, hc⟩

/-- COPY_BYTE_PERFORMED of a byte that meets a fault. -/
theorem State.AtPiece.faults {f : Flt} {b : Byte} (hbar : s.barPoison p.copy.team p.copy.bar = none) (hf : f.cause ≠ 16)
    (hb : s.engineByte p.copy.team p.copy.ctx p.copy.ssp (p.copy.src p.next) = .error f ∨
      (s.engineByte p.copy.team p.copy.ctx p.copy.ssp (p.copy.src p.next) = .ok b ∧ s.engineWrite p.copy.team p.copy.ctx p.copy.dsp [(p.copy.to_ p.next, b)] = .error f)) :
    ∃ t, exec (.copyBytePerformed op) s = .next t ∧ tfind op (t.die die).pieces = some { p with held := some f } ∧ (t.context p.copy.ctx).hb.halt = true ∧ t.mem = s.mem ∧ t.teams = s.teams ∧ t.ops = s.ops := by
  have he := h.exec_error (State.copyByte_faults hbar hb)
  have hp := State.Peeked.copyMet s p.copy p.next
  generalize hw : (s.copyMet p.copy p.next).modDie die _ = w at he
  have hpieces : tfind op (w.die die).pieces = some { p with held := some f } := by
    rw [← hw, State.die_modDie_self]
    exact tfind_tput_self ..
  obtain ⟨g, c, ht⟩ := State.engineFault_eq w p.copy.ctx 0 p.engine die p.copy.gid p.copy.req p.next hf
  refine ⟨_, he, ?_, State.engineFault_halts .., ?_⟩
  · rw [ht]; exact hpieces
  · rw [ht, ← hw]; exact ⟨hp.mem, hp.teams, hp.ops⟩

end

/-! #### The rows of a gather (R102, R103) -/

/-- The address of the bytes that a row of a gather or a scatter reads, and of those that it writes. -/
def Gather.source (x : Gather) (g p : Nat) : Nat := if x.scatter then p else g
def Gather.target (x : Gather) (g p : Nat) : Nat := if x.scatter then g else p

/-- The writes of a row that moves. -/
def Gather.writes (x : Gather) (g p : Nat) (byte : Nat → Byte) : List (Nat × Byte) := (List.range x.len).map (fun k => (x.target g p + k, byte k))

theorem ok_bytes_of_foldr {read : Nat → Except Flt Byte} {byte : Nat → Byte} {to_ : Nat → Nat} {l : List Nat} (h : ∀ k ∈ l, read k = .ok (byte k)) :
    l.foldr (fun k (rest : Except Flt (List (Nat × Byte))) => match read k with
      | .error f => .error f
      | .ok b => match rest with
        | .error f => .error f
        | .ok l => .ok ((to_ k, b) :: l)) (.ok []) = .ok (l.map (fun k => (to_ k, byte k))) := by
  induction l with
  | nil => rfl
  | cons k l ih =>
    rw [List.foldr_cons, h k (List.mem_cons_self ..), ih fun j hj => h j (List.mem_cons_of_mem k hj)]
    rfl

section
variable {s : State} {x : Gather} {lane g p : Nat} {byte : Nat → Byte}

theorem State.rowBytes_ok (h : ∀ j, j < x.len → s.engineByte x.team x.ctx x.scatter (x.source g p + j : Nat) = .ok (byte j)) : s.rowBytes x g p = .ok (x.writes g p byte) := by
  have h' : ∀ k ∈ List.range x.len, s.engineByte x.team x.ctx x.scatter (if x.scatter then p + k else g + k : Nat) = .ok (byte k) := by
    intro k hk
    rw [← h k (List.mem_range.mp hk)]
    unfold Gather.source
    split <;> rfl
  exact ok_bytes_of_foldr h'

theorem State.rowBytes_error {f : Flt} (hl : 0 < x.len) (h : s.engineByte x.team x.ctx x.scatter (x.source g p : Nat) = .error f) : s.rowBytes x g p = .error f := by
  obtain ⟨n, hn⟩ : ∃ n, x.len = n + 1 := ⟨x.len - 1, by omega⟩
  unfold State.rowBytes
  rw [hn, List.range_succ_eq_map, List.foldr_cons]
  have h' : s.engineByte x.team x.ctx x.scatter (if x.scatter then p + 0 else g + 0 : Nat) = .error f := by
    rw [← h]; unfold Gather.source; split <;> rfl
  rw [h']

/-- What a row that moves leaves on the side that it read. -/
def State.rowTook (s : State) (x : Gather) (g p : Nat) : State :=
  if x.scatter then s.spRead x.team ((List.range x.len).map (fun k => p + k)) else s.engineTook x.team x.ctx false g x.len

/-- A row that is the only one of its operation writes all its bytes. -/
theorem State.moveRow_ok {u : State} (hrows : x.rows = [(lane, g, p)]) (hb : ∀ j, j < x.len → s.engineByte x.team x.ctx x.scatter (x.source g p + j : Nat) = .ok (byte j))
    (hw : s.engineWrite x.team x.ctx (!x.scatter) (x.writes g p byte) = .ok u) (hr : ∀ y, (u.rowTook x g p).op x.op = some y → y.race = false) : s.moveRow x lane g p = .ok (u.rowTook x g p) := by
  have habove : x.rows.filter (fun r => decide (lane < r.1)) = [] := by simp [hrows]
  have hown (l : List Nat) : l.filter (fun k => !([] : List (Nat × Nat × Nat)).any (fun r => decide ((if x.scatter then r.2.1 else r.2.2) ≤ (if x.scatter then g else p) + k) &&
      decide ((if x.scatter then g else p) + k < (if x.scatter then r.2.1 else r.2.2) + x.len))) = l := List.filter_eq_self.mpr fun k _ => rfl
  have hall : (x.writes g p byte).filter (fun b => (List.range x.len).contains (b.1 - (if x.scatter then g else p))) = x.writes g p byte := by
    refine List.filter_eq_self.mpr fun b hb => ?_
    obtain ⟨k, hk, rfl⟩ := List.mem_map.mp hb
    have : x.target g p + k - (if x.scatter then g else p) = k := Nat.add_sub_cancel_left ..
    simpa [this] using hk
  unfold State.moveRow
  simp only [habove, hown, State.rowBytes_ok hb, hall, hw]
  exact congrArg Except.ok (State.raceOp_off hr ..)

theorem State.moveRow_error {f : Flt} (hl : 0 < x.len) (h : s.engineByte x.team x.ctx x.scatter (x.source g p : Nat) = .error f) : s.moveRow x lane g p = .error f := by
  unfold State.moveRow
  rw [State.rowBytes_error hl h]

end

/-- `x` is the operation `op` of a unit of core `core`, with one row left, of lane `lane`, free to move. -/
structure State.AtRow (s : State) (op lane core g p : Nat) (k : Core) (x : Gather) : Prop where
  seat : s.cores.find? (fun k => k.2.gathers.any (fun x => x.op == op)) = some (core, k)
  unit : k.gathers.find? (fun x => x.op == op) = some x
  held : s.core core = k
  rows : x.rows = [(lane, g, p)]
  left : x.left = [lane]
  runs : (s.context x.ctx).hb.halt = false
  faults : x.faults = []
  quiet : ∀ y, s.op op = some y → y.race = false
  still : s.swapStallsAt x.ctx g x.len = false
  kept : (s.team x.team).gids.any (·.isSome) = true

section
variable {s : State} {op lane core g p : Nat} {k : Core} {x : Gather} (h : s.AtRow op lane core g p k x)
include h

theorem State.AtRow.op_eq : x.op = op := by simpa using List.find?_some h.unit

theorem State.AtRow.exec_ok {v : State} (hv : s.moveRow x lane g p = .ok v) : exec (.gatherRowPerformed op lane) s =
    .next (((v.modCore core (fun k => { k with gathers := k.gathers.filter (fun z => z.op ≠ op) })).partDone op).reapTeam x.team) := by
  rw [exec_gatherRowPerformed]
  unfold execGatherRowPerformed
  simp [h.seat, h.unit, h.rows, h.left, State.running h.runs, h.faults, h.still, hv]

theorem State.AtRow.exec_error {f : Flt} (hv : s.moveRow x lane g p = .error f) : exec (.gatherRowPerformed op lane) s =
    .next (((s.rowMet x g p).modCore core (fun k => { k with gathers := k.gathers.map (fun z => if z.op = op then { x with faults := [(lane, f)] } else z) })).engineFault x.ctx f 1 (core % 64) (dieOfCore core) x.gid 0 lane) := by
  rw [exec_gatherRowPerformed]
  unfold execGatherRowPerformed
  simp [h.seat, h.unit, h.rows, h.left, State.running h.runs, h.faults, h.still, hv]

/-- GATHER_ROW_PERFORMED of a row that moves: it was the last, and the operation leaves its unit. -/
theorem State.AtRow.moves {v : State} (hv : s.moveRow x lane g p = .ok v) (ho : v.ops = s.ops) (hg : (v.team x.team).gids.any (·.isSome) = true) :
    ∃ t, exec (.gatherRowPerformed op lane) s = .next t ∧ t.mem = v.mem ∧ t.slices = v.slices ∧ t.teams = v.teams ∧ (∀ y ∈ (t.core core).gathers, y.op ≠ op) ∧ s.Counted t op := by
  have he := h.exec_ok hv
  generalize hw : v.modCore core _ = w at he
  have hgone : ∀ y ∈ (w.core core).gathers, y.op ≠ op := by
    rw [← hw, State.core_modCore_self]
    exact fun y hy => of_decide_eq_true (List.mem_filter.mp hy).2
  obtain ⟨o, gs, hpart, hc⟩ := State.partDone_reapTeam (s := s) (v := w) (k := op) (team := x.team) (by rw [← hw]; exact ho) (by rw [← hw]; exact hg)
  rw [hpart] at he
  subst hw
  exact ⟨_, he, rfl, rfl, rfl, hgone, hc⟩

/-- GATHER_ROW_PERFORMED of a row that meets a fault: the row is held with it. -/
theorem State.AtRow.faulted {f : Flt} (hl : 0 < x.len) (hb : s.engineByte x.team x.ctx x.scatter (x.source g p : Nat) = .error f) (hf : f.cause ≠ 16) :
    ∃ t, exec (.gatherRowPerformed op lane) s = .next t ∧ t.mem = s.mem ∧ t.teams = s.teams ∧ (t.context x.ctx).hb.halt = true ∧
      ∃ y ∈ (t.core core).gathers, y.op = op ∧ y.left = [lane] ∧ y.faults = [(lane, f)] := by
  have he := h.exec_error (State.moveRow_error (lane := lane) hl hb)
  have hp := State.Peeked.rowMet s x g p
  have hx : x ∈ ((s.rowMet x g p).core core).gathers := by
    unfold State.core
    rw [hp.cores]
    have hk := h.held
    unfold State.core at hk
    rw [hk]
    exact List.mem_of_find?_eq_some h.unit
  generalize hw : (s.rowMet x g p).modCore core _ = w at he
  have hheld : { x with faults := [(lane, f)] } ∈ (w.core core).gathers := by
    rw [← hw, State.core_modCore_self]
    exact List.mem_map.mpr ⟨x, hx, if_pos h.op_eq⟩
  obtain ⟨gs, c, ht⟩ := State.engineFault_eq w x.ctx 1 (core % 64) (dieOfCore core) x.gid 0 lane hf
  refine ⟨_, he, ?_, ?_, State.engineFault_halts .., { x with faults := [(lane, f)] }, ?_, h.op_eq, h.left, rfl⟩
  · rw [ht, ← hw]; exact hp.mem
  · rw [ht, ← hw]; exact hp.teams
  · rw [ht]; exact hheld

end

/-- A write of the scratchpad changes its team, and of the cores the errors of its files. -/
theorem State.writeScratch_eq (s : State) (team : Nat) (bs : List (Nat × Byte)) :
    ∃ c, s.writeScratch team bs = { s.modTeam team (fun t => { t with scratch := tsetAll 0 bs t.scratch }) with cores := c } := by
  unfold State.writeScratch State.mendScratch
  dsimp only
  split <;> exact ⟨_, rfl⟩

/-- The bytes that a row writes, one after another. -/
theorem Gather.tget_writes (x : Gather) (g p : Nat) (byte : Nat → Byte) (t : Table Byte) :
    (∀ j, j < x.len → tget 0 (x.target g p + j) (tsetAll 0 (x.writes g p byte) t) = byte j) ∧
      ∀ a, a < x.target g p ∨ x.target g p + x.len ≤ a → tget 0 a (tsetAll 0 (x.writes g p byte) t) = tget 0 a t := by
  have mem (w : Nat × Byte) : w ∈ x.writes g p byte ↔ ∃ k, k < x.len ∧ (x.target g p + k, byte k) = w := by simp [Gather.writes]
  refine ⟨fun j hj => tget_tsetAll_of_mem (fun w hw e => ?_) ⟨_, (mem _).mpr ⟨j, hj, rfl⟩, rfl⟩ t, fun a ha => tget_tsetAll_ne _ _ _ (fun w hw => ?_) t⟩
  · obtain ⟨k, -, rfl⟩ := (mem w).mp hw
    have : k = j := Nat.add_left_cancel e
    rw [this]
  · obtain ⟨k, hk, rfl⟩ := (mem w).mp hw
    dsimp only
    omega

section
variable {s u : State} {op lane core g p : Nat} {k : Core} {x : Gather} {byte : Nat → Byte} (h : s.AtRow op lane core g p k x)
include h

/-- A row of a gather goes to the scratchpad. -/
theorem State.AtRow.gathers (hs : x.scatter = false) (hb : ∀ j, j < x.len → s.engineByte x.team x.ctx false (g + j : Nat) = .ok (byte j)) :
    ∃ t, exec (.gatherRowPerformed op lane) s = .next t ∧ t.mem = s.mem ∧ (∀ y ∈ (t.core core).gathers, y.op ≠ op) ∧ s.Counted t op ∧
      (∀ j, j < x.len → tget 0 (p + j) (t.team x.team).scratch = byte j) ∧ ∀ a, a < p ∨ p + x.len ≤ a → tget 0 a (t.team x.team).scratch = tget 0 a (s.team x.team).scratch := by
  obtain ⟨c, hu⟩ := s.writeScratch_eq x.team (x.writes g p byte)
  generalize hud : s.writeScratch x.team (x.writes g p byte) = u at hu
  have hv : u.rowTook x g p = u.engineTook x.team x.ctx false g x.len := by unfold State.rowTook; simp [hs]
  have hp := State.Peeked.engineTook u x.team x.ctx false g x.len
  have hops : (u.rowTook x g p).ops = s.ops := by rw [hv, hp.ops, hu]; rfl
  have hteam : (u.rowTook x g p).team x.team = { s.team x.team with scratch := tsetAll 0 (x.writes g p byte) (s.team x.team).scratch } := by
    rw [hv]
    unfold State.team
    rw [hp.teams, hu]
    exact tget_tput_self ..
  have hm : s.moveRow x lane g p = .ok (u.rowTook x g p) := by
    refine State.moveRow_ok (byte := byte) h.rows (by rw [hs]; unfold Gather.source; rw [hs]; exact hb) (by rw [hs, ← hud]; rfl) fun y hy => ?_
    rw [h.op_eq] at hy
    exact h.quiet y ((State.op_congr hops op).symm.trans hy)
  obtain ⟨t, he, hmem, -, hteams, hgone, hc⟩ := h.moves hm hops (by rw [hteam]; exact h.kept)
  have ht : (t.team x.team).scratch = tsetAll 0 (x.writes g p byte) (s.team x.team).scratch := by
    unfold State.team
    rw [hteams]
    exact congrArg Team.scratch hteam
  have htarget : x.target g p = p := by unfold Gather.target; rw [hs]; rfl
  obtain ⟨hin, hout⟩ := x.tget_writes g p byte (s.team x.team).scratch
  rw [htarget] at hin hout
  refine ⟨t, he, ?_, hgone, hc, ?_, ?_⟩
  · rw [hmem, hv, hp.mem, hu]; rfl
  · rw [ht]; exact hin
  · rw [ht]; exact hout

/-- A row of a scatter goes to global memory. -/
theorem State.AtRow.scatters (hs : x.scatter = true) (hb : ∀ j, j < x.len → s.engineByte x.team x.ctx true (p + j : Nat) = .ok (byte j))
    (hw : s.engineWrite x.team x.ctx false ((List.range x.len).map (fun j => (g + j, byte j))) = .ok u) (hteams : u.teams = s.teams) (hops : u.ops = s.ops) :
    ∃ t, exec (.gatherRowPerformed op lane) s = .next t ∧ t.mem = u.mem ∧ t.slices = u.slices ∧ (∀ y ∈ (t.core core).gathers, y.op ≠ op) ∧ s.Counted t op := by
  have hk : Book u (u.rowTook x g p) := by unfold State.rowTook; rw [hs]; exact Book.spRead ..
  have hm : s.moveRow x lane g p = .ok (u.rowTook x g p) := by
    refine State.moveRow_ok (byte := byte) h.rows (by rw [hs]; unfold Gather.source; rw [hs]; exact hb) (by rw [hs]; unfold Gather.writes Gather.target; rw [hs]; exact hw) fun y hy => ?_
    rw [h.op_eq, hk.op] at hy
    exact h.quiet y ((State.op_congr hops op).symm.trans hy)
  obtain ⟨t, he, hmem, hsl, -, hgone, hc⟩ := h.moves hm (by rw [hk.rest]; exact hops) (by rw [hk.team, State.team_congr hteams]; exact h.kept)
  exact ⟨t, he, by rw [hmem, hk.rest], by rw [hsl, hk.rest], hgone, hc⟩

end

/-! #### A rank of a collective that writes its result (R106) -/

/-- The writes of a result at OUT. -/
def Collective.writes (c : Collective) (bs : List Byte) : List (Nat × Byte) := bs.zipIdx.map (fun b => (c.out + b.2, b.1))

/-- `v` is `s` after the rank of `c` has written its result, if it has one. -/
def State.Wrote (s : State) (c : Collective) (ins : List (List Byte)) (v : State) : Prop :=
  match c.result ins with
  | some bs => s.engineWrite c.team c.ctx false (c.writes bs) = .ok v
  | none => v = s

/-- `t` is left by the rank of `c`: its request is gone from its die, and what it wrote in `v` stays. -/
structure State.Ranked (v : State) (c : Collective) (t : State) : Prop where
  mem : t.mem = v.mem
  slices : t.slices = v.slices
  gone : ∀ y ∈ (t.die (dieOf c.gid)).colls, y.op ≠ c.op
  counts : v.Counted t c.op

theorem State.engineWrite_ops {s v : State} {team ctx : Nat} {bs : List (Nat × Byte)} (h : s.engineWrite team ctx false bs = .ok v) : v.ops = s.ops := by
  unfold State.engineWrite at h
  rw [if_neg Bool.false_ne_true] at h
  split at h
  · cases h
  · exact (State.Beside.slicePokes h).ops

theorem State.finishColl_ok {s v : State} {c : Collective} {ins : List (List Byte)} (n : Nat) (hbar : c.bar = none) (hw : s.Wrote c ins v) (hr : ∀ y, s.op c.op = some y → y.race = false)
    (hg : (v.team c.team).gids.any (·.isSome) = true) : ∃ t, s.finishColl c n ins = .ok t ∧ v.Ranked c t := by
  let w := v.modDie (dieOf c.gid) (fun d => { d with colls := d.colls.filter (fun x => x.op ≠ c.op) })
  have hfin : s.finishColl c n ins = .ok ((w.partDone c.op).reapTeam c.team) := by
    have hpoison : s.barPoison c.team c.bar = none := by rw [hbar]; rfl
    unfold State.Wrote Collective.writes at hw
    unfold State.finishColl
    rw [hpoison]
    cases hres : c.result ins with
    | none =>
      rw [hres] at hw
      simp only at hw
      rw [hbar, ← hw]
    | some bs =>
      rw [hres] at hw
      simp only at hw
      have hv : ∀ y, v.op c.op = some y → y.race = false := fun y hy => hr y ((State.op_congr (State.engineWrite_ops hw) c.op).symm.trans hy)
      dsimp only
      rw [hw, hbar]
      dsimp only
      rw [State.raceOp_off hv]
  obtain ⟨o, g, hpart, hc⟩ := State.partDone_reapTeam (s := v) (v := w) (k := c.op) (team := c.team) rfl hg
  rw [hpart] at hfin
  refine ⟨_, hfin, rfl, rfl, fun y hy => ?_, hc⟩
  have hy' : y ∈ (w.die (dieOf c.gid)).colls := hy
  rw [State.die_modDie_self] at hy'
  exact of_decide_eq_true (List.mem_filter.mp hy').2

/-! #### The ranks of a collective as one of them sees them (R104) -/

/-- Members by rank. -/
theorem mem_roll {α : Type} {ms : List (Nat × Nat)} {member : Nat → Nat × Nat → α} {x : α} : x ∈ ms.zipIdx.map (fun m => member m.2 m.1) ↔ ∃ r m, ms[r]? = some m ∧ member r m = x := by
  rw [List.mem_map]
  constructor
  · rintro ⟨⟨m, r⟩, hm, rfl⟩
    exact ⟨r, m, List.mem_zipIdx_iff_getElem?.mp hm, rfl⟩
  · rintro ⟨r, m, hm, rfl⟩
    exact ⟨(m, r), List.mem_zipIdx_iff_getElem?.mpr hm, rfl⟩

theorem mem_zip_roll {α : Type} {ms : List (Nat × Nat)} {member : Nat → Nat × Nat → α} {x : (Nat × Nat) × α} :
    x ∈ ms.zip (ms.zipIdx.map (fun m => member m.2 m.1)) ↔ ∃ r m, ms[r]? = some m ∧ (m, member r m) = x := by
  rw [List.mem_iff_getElem?]
  constructor
  · rintro ⟨r, hr⟩
    obtain ⟨hm, hx⟩ := List.getElem?_zip_eq_some.mp hr
    refine ⟨r, x.1, hm, ?_⟩
    simp [hm] at hx
    exact Prod.ext rfl hx
  · rintro ⟨r, m, hm, rfl⟩
    exact ⟨r, List.getElem?_zip_eq_some.mpr ⟨hm, by simp [hm]⟩⟩

/-- A rank of this module whose request has arrived is no absent one, and its input is its own. -/
theorem State.memberOf_peer {s : State} {c p : Collective} {remote : List RankInput} {r : Nat} {m : Nat × Nat} (hm : m.1 = s.hub.module) (hp : s.peer c m.2 r = some p) :
    s.memberOf c remote r m = .mismatch ∨ (∃ f, s.memberOf c remote r m = .fault f) ∨ ∃ b, s.memberOf c remote r m = .input b (some p) := by
  unfold State.memberOf
  rw [if_pos hm, hp]
  dsimp only
  split
  · exact .inl rfl
  · split
    next f _ => exact .inr (.inl ⟨f, rfl⟩)
    next b _ => exact .inr (.inr ⟨b, rfl⟩)

theorem State.peer_rank {s : State} {c p : Collective} {die r : Nat} (h : s.peer c die r = some p) : p.rank = r := by
  have := List.find?_some h
  simp only [Bool.and_eq_true, beq_iff_eq] at this
  exact this.2

theorem State.peer_mem {s : State} {c p : Collective} {die r : Nat} (h : s.peer c die r = some p) : p ∈ (s.die die).colls := List.mem_of_find?_eq_some h

/-- A list in which one element alone has an effect. -/
theorem foldl_once {α β : Type} {step : β → α → β} {g : Nat → α} {k n : Nat} {b : β} (h : ∀ r b, r ≠ k → step b (g r) = b) (hk : k < n) :
    ((List.range n).map g).foldl step b = step b (g k) := by
  have none (l : List Nat) (b : β) (hl : k ∉ l) : (l.map g).foldl step b = b := by
    induction l generalizing b with
    | nil => rfl
    | cons r l ih =>
      rw [List.map_cons, List.foldl_cons, h r b (fun e => hl (e ▸ List.mem_cons_self ..)), ih b (fun hm => hl (List.mem_cons_of_mem r hm))]
  have hsplit : List.range n = List.range k ++ k :: (List.range' (k + 1) (n - k - 1)) := by
    have e : n = k + (n - k - 1 + 1) := by omega
    rw [e, List.range_eq_range', List.range_eq_range', ← List.range'_append_1, Nat.zero_add, List.range'_succ]
    simp
  rw [hsplit, List.map_append, List.foldl_append, none _ b (by simp), List.map_cons, List.foldl_cons]
  exact none _ _ (by simp)

/-! #### COLLECTIVE_COMPLETE -/

/-- `c` is the request that operation `op` names, with the members `ms`, and nothing of its own keeps it from completing. -/
structure State.AtColl (s : State) (op : Nat) (c : Collective) (ms : List (Nat × Nat)) : Prop where
  queued : (s.dies.flatMap (fun d => d.2.colls)).find? (fun c => c.op == op) = some c
  named : c.op = op
  runs : (s.context c.ctx).hb.halt = false
  free : c.held = none
  first : (s.peer c (dieOf c.gid) c.rank).map (·.op) = some op
  quiet : ∀ n y, s.op n = some y → y.race = false
  ready : s.commStalls c = false
  still : s.collStalls c ms.length c.rank = false
  members : s.members c = .ok (some ms)
  rank : c.rank < ms.length
  root : c.root < ms.length

/-- A request that stops with a fault. -/
def State.failColl (s : State) (c : Collective) (op : Nat) (f : Flt) : State :=
  (s.modDie (dieOf c.gid) (fun d => { d with colls := d.colls.map (fun x => if x.op = op then { x with held := some f } else x) })).engineFault c.ctx f 2 0 (dieOf c.gid) c.gid c.req 0

theorem State.failColl_spec {s t : State} (h : s.Peeked t) (c : Collective) (op : Nat) {f : Flt} (hf : f.cause ≠ 16) :
    ((t.failColl c op f).context c.ctx).hb.halt = true ∧ (t.failColl c op f).mem = s.mem ∧ (t.failColl c op f).ops = s.ops ∧
      ∀ x ∈ (s.die (dieOf c.gid)).colls, x.op = op → ∃ y ∈ ((t.failColl c op f).die (dieOf c.gid)).colls, y.op = op ∧ y.held = some f := by
  refine ⟨State.engineFault_halts .., ?_⟩
  unfold State.failColl
  generalize hw : t.modDie (dieOf c.gid) _ = w
  obtain ⟨g, x, e⟩ := State.engineFault_eq w c.ctx 2 0 (dieOf c.gid) c.gid c.req 0 hf
  rw [e]
  refine ⟨by rw [← hw]; exact h.mem, by rw [← hw]; exact h.ops, fun y hy ho => ?_⟩
  have hin : { y with held := some f } ∈ (w.die (dieOf c.gid)).colls := by
    rw [← hw, State.die_modDie_self]
    exact List.mem_map.mpr ⟨y, by rwa [h.colls], if_pos ho⟩
  exact ⟨_, hin, ho, rfl⟩

/-- A rank of this module that would stall for a page swap (03 R49). -/
def State.RankStalls (s : State) (c : Collective) (ms : List (Nat × Nat)) : Prop := ∃ r m p, ms[r]? = some m ∧ m.1 = s.hub.module ∧ s.peer c m.2 r = some p ∧ s.collStalls p ms.length r = true

/-- The test of the model that some rank of this module stalls. -/
theorem State.rankStalls_iff {s : State} {c : Collective} {ms : List (Nat × Nat)} {stalls : Nat × Nat → Nat → Bool}
    (h : ∀ m r, stalls m r = match s.peer c m.2 r with | some p => s.collStalls p ms.length r | none => false) :
    ms.zipIdx.any (fun m => decide (m.1.1 = s.hub.module) && stalls m.1 m.2) = true ↔ s.RankStalls c ms := by
  rw [List.any_eq_true]
  constructor
  · rintro ⟨⟨m, r⟩, hm, hs⟩
    rw [Bool.and_eq_true, decide_eq_true_eq, h] at hs
    obtain ⟨hmod, hs⟩ := hs
    split at hs
    next p hp => exact ⟨r, m, p, List.mem_zipIdx_iff_getElem?.mp hm, hmod, hp, hs⟩
    · cases hs
  · rintro ⟨r, m, p, hm, hmod, hp, hs⟩
    refine ⟨(m, r), List.mem_zipIdx_iff_getElem?.mpr hm, ?_⟩
    rw [Bool.and_eq_true, decide_eq_true_eq, h, hp]
    exact ⟨hmod, hs⟩

/-- Every rank has given its input of the right shape, or has not arrived. -/
def State.Agreed (s : State) (c : Collective) (remote : List RankInput) (ms : List (Nat × Nat)) : Prop :=
  ∀ r m, ms[r]? = some m → s.memberOf c remote r m = .absent ∨ ∃ b p, s.memberOf c remote r m = .input b p

/-- Every rank has supplied its input, and the request's own rank alone is of this module. -/
def State.Arrived (s : State) (c : Collective) (remote : List RankInput) (ms : List (Nat × Nat)) (data : Nat → List Byte) : Prop :=
  ∀ r m, ms[r]? = some m → s.memberOf c remote r m = .input (data r) (if r = c.rank then some c else none)

/-- What the reads of the communicator and of the inputs leave behind. -/
def State.collTook (s : State) (c : Collective) (ms : List (Nat × Nat)) : State := (s.commTook c).inputsTook c (s.ownRanks ms)

/-- What COLLECTIVE_COMPLETE of a request can come to: a rank is refused, a rank stalls, a rank is out of reach, a rank is waited for, or all inputs are there. -/
inductive State.CollOutcome (s : State) (op : Nat) (c : Collective) (remote : List RankInput) (ms : List (Nat × Nat)) : Host.Outcome State Fault Refusal → Prop where
  | refused (r : Nat) (m : Nat × Nat) (f : Flt) (hm : ms[r]? = some m) (hx : s.memberOf c remote r m = .mismatch ∧ f = fEngine false 2 c.req 9 ∨ s.memberOf c remote r m = .fault f) :
      CollOutcome s op c remote ms (.next ((((s.logInput c (s.ownRanks ms)).commTook c).inputsTook c (s.ownRanks ms)).failColl c op f))
  | stalled (ha : s.Agreed c remote ms) (hs : s.RankStalls c ms) : CollOutcome s op c remote ms (.next s)
  | unreachable (ha : s.Agreed c remote ms) (r : Nat) (m : Nat × Nat) (f : Flt) (hm : ms[r]? = some m) (hx : s.memberOf c remote r m = .absent) (hmod : m.1 ≠ s.hub.module) (hf : s.hub.noWay m.1 c.comm = some f) :
      CollOutcome s op c remote ms (.next ((s.commTook c).failColl c op f))
  | waits (ha : s.Agreed c remote ms) (r : Nat) (m : Nat × Nat) (hm : ms[r]? = some m) (hx : s.memberOf c remote r m = .absent)
      (hn : ∀ r m, ms[r]? = some m → s.memberOf c remote r m = .absent → m.1 ≠ s.hub.module → s.hub.noWay m.1 c.comm = none) : CollOutcome s op c remote ms (.next s)
  | full {o : Host.Outcome State Fault Refusal} (ha : s.Agreed c remote ms) (hall : ∀ r m, ms[r]? = some m → s.memberOf c remote r m ≠ .absent)
      (hd : ∀ data t, s.Arrived c remote ms data → (s.collTook c ms).finishColl c ms.length ((List.range ms.length).map data) = .ok t → o = .next (t.meetDone (collMeet c.ctx c.comm))) :
      CollOutcome s op c remote ms o

section
variable {s : State} {op : Nat} {c : Collective} {ms : List (Nat × Nat)} {remote : List RankInput}

theorem State.Arrived.roll {data : Nat → List Byte} (ha : s.Arrived c remote ms data) :
    ms.zipIdx.map (fun m => s.memberOf c remote m.2 m.1) = (List.range ms.length).map (fun r => .input (data r) (if r = c.rank then some c else none)) := by
  refine List.ext_getElem? fun r => ?_
  rw [List.getElem?_map, List.getElem?_map, List.getElem?_zipIdx, Nat.zero_add]
  cases hm : ms[r]? with
  | none => simp [List.getElem?_eq_none_iff.mp hm]
  | some m =>
    obtain ⟨hr, -⟩ := List.getElem?_eq_some_iff.mp hm
    rw [List.getElem?_range hr]
    exact congrArg some (ha r m hm)

variable (h : s.AtColl op c ms)
include h

/-- The request's own rank is queued at its die. -/
theorem State.AtColl.own : ∃ x ∈ (s.die (dieOf c.gid)).colls, x.op = op := by
  have hf := h.first
  cases hp : s.peer c (dieOf c.gid) c.rank with
  | none => rw [hp] at hf; cases hf
  | some x => rw [hp] at hf; exact ⟨x, State.peer_mem hp, Option.some.inj hf⟩

theorem State.AtColl.outcome : s.CollOutcome op c remote ms (exec (.collectiveComplete op remote) s) := by
  rw [exec_collectiveComplete]
  unfold execCollectiveComplete
  rw [h.queued]
  dsimp only
  rw [if_neg (by simp [State.running h.runs, h.free, h.first, h.ready]), h.members]
  dsimp only
  rw [if_neg (by have := h.rank; have := h.root; simp; omega)]
  split
  next f hbad =>
    obtain ⟨x, hin, hv⟩ := List.exists_of_findSome?_eq_some hbad
    obtain ⟨r, m, hm, rfl⟩ := mem_roll.mp hin
    refine .refused r m f hm ?_
    cases hx : s.memberOf c remote r m with
    | absent => rw [hx] at hv; cases hv
    | mismatch => rw [hx] at hv; cases hv; exact .inl ⟨rfl, rfl⟩
    | fault g => rw [hx] at hv; cases hv; exact .inr rfl
    | input b p => rw [hx] at hv; cases hv
  next hbad =>
  have ha : s.Agreed c remote ms := by
    intro r m hm
    have hv := List.findSome?_eq_none_iff.mp hbad _ (mem_roll.mpr ⟨r, m, hm, rfl⟩)
    cases hx : s.memberOf c remote r m with
    | absent => exact .inl rfl
    | mismatch => rw [hx] at hv; cases hv
    | fault g => rw [hx] at hv; cases hv
    | input b p => exact .inr ⟨b, p, rfl⟩
  split
  next hs => exact .stalled ha ((State.rankStalls_iff fun _ _ => rfl).mp hs)
  split
  next habsent =>
    obtain ⟨x, hin, hv⟩ := List.any_eq_true.mp habsent
    obtain ⟨r, m, hm, rfl⟩ := mem_roll.mp hin
    have hx : s.memberOf c remote r m = .absent := by
      rcases ha r m hm with e | ⟨b, p, e⟩
      · exact e
      · rw [e] at hv; cases hv
    split
    next f hway =>
      obtain ⟨x, hin, hv⟩ := List.exists_of_findSome?_eq_some hway
      obtain ⟨q, n, hn, rfl⟩ := mem_zip_roll.mp hin
      rcases ha q n hn with e | ⟨b, p, e⟩ <;> rw [e] at hv
      · dsimp only at hv
        split at hv
        next hmod => exact .unreachable ha q n f hn e hmod hv
        · cases hv
      · cases hv
    next hway =>
      refine .waits ha r m hm hx fun q n hn e hmod => ?_
      have hv := List.findSome?_eq_none_iff.mp hway _ (mem_zip_roll.mpr ⟨q, n, hn, rfl⟩)
      rw [e] at hv
      dsimp only at hv
      rwa [if_pos hmod] at hv
  next habsent =>
    refine .full ha (fun r m hm hx => habsent (List.any_eq_true.mpr ⟨_, mem_roll.mpr ⟨r, m, hm, hx⟩, rfl⟩)) fun data t hd ht => ?_
    rw [hd.roll, foldl_once ?_ h.rank]
    · simp only [if_true, List.map_map, Function.comp_def]
      unfold State.collTook at ht
      rw [ht]
    · intro r b hr
      rw [if_neg hr]
      cases b <;> rfl

/-- No rank stalls where those of this module that have arrived are the request's own. -/
theorem State.AtColl.no_stall (ha : ∀ r m, ms[r]? = some m → s.memberOf c remote r m = .absent ∨ ∃ b p, s.memberOf c remote r m = .input b p ∧ (p = none ∨ p = some c)) : ¬ s.RankStalls c ms := by
  rintro ⟨r, m, p, hm, hmod, hp, hs⟩
  have hpc : p = c := by
    rcases ha r m hm with e | ⟨b, q, e, hq⟩ <;> rcases State.memberOf_peer (remote := remote) hmod hp with e' | ⟨f, e'⟩ | ⟨b', e'⟩ <;> rw [e] at e' <;> cases e'
    rcases hq with hq | hq <;> cases hq
    rfl
  subst hpc
  rw [← State.peer_rank hp, h.still] at hs
  cases hs

/-- A rank of another shape stops the request. -/
theorem State.AtColl.mismatched {r : Nat} {m : Nat × Nat} (hm : ms[r]? = some m) (hx : s.memberOf c remote r m = .mismatch) (hf : ∀ r m f, ms[r]? = some m → s.memberOf c remote r m ≠ .fault f) :
    exec (.collectiveComplete op remote) s = .next ((((s.logInput c (s.ownRanks ms)).commTook c).inputsTook c (s.ownRanks ms)).failColl c op (fEngine false 2 c.req 9)) := by
  have clash (ha : s.Agreed c remote ms) : False := by
    rcases ha r m hm with e | ⟨b, p, e⟩ <;> rw [hx] at e <;> cases e
  have ho := h.outcome (remote := remote)
  generalize exec _ _ = o at ho ⊢
  cases ho with
  | refused q n f hn hy =>
    rcases hy with ⟨-, rfl⟩ | e
    · rfl
    · exact absurd e (hf q n f hn)
  | stalled ha | unreachable ha | waits ha | full ha => exact (clash ha).elim

/-- A rank that has not arrived, with ranks that agree, leaves all waiting, or stops the request if no port reaches its module (17 R357). -/
theorem State.AtColl.awaits {r : Nat} {m : Nat × Nat} (hm : ms[r]? = some m) (hx : s.memberOf c remote r m = .absent) (hagree : s.Agreed c remote ms) :
    (exec (.collectiveComplete op remote) s = .next s ∧ (s.RankStalls c ms ∨ ∀ r m, ms[r]? = some m → s.memberOf c remote r m = .absent → m.1 ≠ s.hub.module → s.hub.noWay m.1 c.comm = none)) ∨
      ∃ r m f, ms[r]? = some m ∧ s.memberOf c remote r m = .absent ∧ m.1 ≠ s.hub.module ∧ s.hub.noWay m.1 c.comm = some f ∧
        exec (.collectiveComplete op remote) s = .next ((s.commTook c).failColl c op f) := by
  have ho := h.outcome (remote := remote)
  generalize exec _ _ = o at ho ⊢
  cases ho with
  | refused q n f hn hy => rcases hagree q n hn with e | ⟨b, p, e⟩ <;> rcases hy with ⟨e', -⟩ | e' <;> rw [e] at e' <;> cases e'
  | stalled _ hs => exact .inl ⟨rfl, .inl hs⟩
  | unreachable _ q n f hn e hmod hf => exact .inr ⟨q, n, f, hn, e, hmod, hf, rfl⟩
  | waits _ _ _ _ _ hn => exact .inl ⟨rfl, .inr hn⟩
  | full _ hall => exact absurd hx (hall r m hm)

/-- The inputs of all ranks are there: the request's own rank writes its result. -/
theorem State.AtColl.completed {data : Nat → List Byte} (ha : s.Arrived c remote ms data) {t : State}
    (ht : (s.collTook c ms).finishColl c ms.length ((List.range ms.length).map data) = .ok t) : exec (.collectiveComplete op remote) s = .next (t.meetDone (collMeet c.ctx c.comm)) := by
  have hstall : ¬ s.RankStalls c ms := h.no_stall (remote := remote) fun r m hm => .inr ⟨_, _, ha r m hm, by split <;> simp⟩
  have ho := h.outcome (remote := remote)
  generalize exec _ _ = o at ho ⊢
  cases ho with
  | refused r m f hm hy => rcases hy with ⟨e, -⟩ | e <;> rw [ha r m hm] at e <;> cases e
  | stalled _ hs => exact absurd hs hstall
  | unreachable _ r m f hm e => rw [ha r m hm] at e; cases e
  | waits _ r m hm e => rw [ha r m hm] at e; cases e
  | full _ _ hd => exact hd data t ha ht

end

/-! #### The sum of a reduction (R105) -/

/-- The sum of two values held in 32 bits. -/
abbrev add32 : Nat → Nat → Nat := collOp 0 2

theorem collRound_length (f : Nat → Nat → Nat) (l : List Nat) : (collRound f l).length ≤ l.length ∧ (2 ≤ l.length → (collRound f l).length < l.length) := by
  induction l using collRound.induct with
  | case1 a b rest ih =>
    simp only [collRound, List.length_cons]
    omega
  | case2 l hl =>
    rw [collRound]
    · refine ⟨Nat.le_refl _, fun h => ?_⟩
      match l with
      | [] => simp at h
      | [x] => simp at h
      | a :: b :: rest => exact absurd rfl (hl a b rest)
    · exact hl

theorem collRound_sum (l : List Nat) : (collRound add32 l).sum % 2 ^ 32 = l.sum % 2 ^ 32 ∧ (l ≠ [] → collRound add32 l ≠ []) ∧ ((∀ x ∈ l, x < 2 ^ 32) → ∀ x ∈ collRound add32 l, x < 2 ^ 32) := by
  have hadd (a b : Nat) : add32 a b = (a + b) % 2 ^ 32 := rfl
  induction l using collRound.induct with
  | case1 a b rest ih =>
    obtain ⟨hs, -, hb⟩ := ih
    simp only [collRound, List.sum_cons, hadd]
    refine ⟨by omega, fun _ => List.cons_ne_nil _ _, fun h x hx => ?_⟩
    rcases List.mem_cons.mp hx with rfl | hx
    · exact Nat.mod_lt _ (by decide)
    · exact hb (fun y hy => h y (by simp [hy])) x hx
  | case2 l hl =>
    rw [collRound]
    · exact ⟨rfl, id, id⟩
    · exact hl

/-- Whatever its tree, a reduction of 32-bit values by sum gives their sum modulo 2^32. -/
theorem collTree_sum (n : Nat) {l : List Nat} (hl : l ≠ []) (hn : l.length ≤ n) (hb : ∀ x ∈ l, x < 2 ^ 32) : collTree add32 n l = l.sum % 2 ^ 32 := by
  induction n generalizing l with
  | zero => exact absurd (List.eq_nil_of_length_eq_zero (Nat.le_zero.mp hn)) hl
  | succ n ih =>
    match l, hl, hn, hb with
    | [x], _, _, hb => simpa [collTree] using (Nat.mod_eq_of_lt (hb x (List.mem_singleton_self x))).symm
    | a :: b :: rest, _, hn, hb =>
      obtain ⟨hs, hne, hlt⟩ := collRound_sum (a :: b :: rest)
      have hlen := (collRound_length add32 (a :: b :: rest)).2 (by simp)
      rw [collTree, ih (hne (List.cons_ne_nil _ _)) (by omega) (hlt hb), hs]
      all_goals simp

theorem ofBytes_bound (bs : List Byte) : ofBytes bs < 256 ^ bs.length := by
  induction bs with
  | nil => exact Nat.one_pos
  | cons b bs ih =>
    have := b.isLt
    simp only [ofBytes, List.length_cons, pow_succ]
    omega

/-- The 32-bit element `e` of an input. -/
theorem elemOf_int (bs : List Byte) (e : Nat) : elemOf 2 bs e = ofBytes ((bs.drop (4 * e)).take 4) ∧ elemOf 2 bs e < 2 ^ 32 := by
  have he : elemOf 2 bs e = ofBytes ((bs.drop (4 * e)).take 4) := by rw [Nat.mul_comm]; rfl
  refine ⟨he, he ▸ Nat.lt_of_lt_of_le (ofBytes_bound _) ?_⟩
  exact Nat.pow_le_pow_right (by decide) (by simp : _ ≤ 4)

theorem collReduce_sum (count : Nat) {bs : List (List Byte)} (h : 0 < bs.length) :
    collReduce 0 2 count bs = (List.range count).flatMap (fun e => toBytes ((bs.map (fun b => ofBytes ((b.drop (4 * e)).take 4))).sum % 2 ^ 32) 4) := by
  unfold collReduce
  congr 1
  funext e
  have hmap : bs.map (fun b => elemOf 2 b e) = bs.map (fun b => ofBytes ((b.drop (4 * e)).take 4)) := List.map_congr_left fun b _ => (elemOf_int b e).1
  have htree := collTree_sum bs.length (l := bs.map (fun b => elemOf 2 b e)) (by simpa [List.ne_nil_iff_length_pos] using h) (by simp) fun x hx => by
    obtain ⟨b, -, rfl⟩ := List.mem_map.mp hx
    exact (elemOf_int b e).2
  rw [← hmap, ← htree]
  rfl

/-! #### The obligation -/

/-- A context that has halted hands out no pieces. -/
theorem kickQueueTake_stopped {s : State} {core : Nat} {c : Copy} {rest : List Copy} (hk : (s.core core).kicks = c :: rest) (hh : s.halted c.ctx = true) :
    exec (.kickQueueTake core) s = .next s := by
  rw [exec_kickQueueTake]
  unfold execKickQueueTake
  rw [hk]
  exact if_pos hh

theorem Hub.noWay_cause {h : Hub} {m addr : Nat} {f : Flt} (hf : h.noWay m addr = some f) : f.cause = 18 := by
  unfold Hub.noWay at hf
  split at hf
  · cases hf; rfl
  · split at hf
    · cases hf; rfl
    · cases hf

/-- The low 64 bits of an address. -/
theorem toNat_ofInt_64 (a : Int) : (BitVec.ofInt 64 a).toNat = wrap a 64 := BitVec.toNat_ofInt a

theorem Collective.result_eq {c : Collective} {ms : List (Nat × Nat)} {data : Nat → List Byte} {r : Option (List Byte)} (hroot : c.root < ms.length)
    (hr : (match c.kind with
      | 0 => some (collReduce c.opc c.type c.count ((List.range ms.length).map data))
      | 1 => if c.rank = c.root then some (collReduce c.opc c.type c.count ((List.range ms.length).map data)) else none
      | 2 => some (data c.root)
      | _ => some ((List.range ms.length).map data).flatten) = r) : c.result ((List.range ms.length).map data) = r := by
  have hget : ((List.range ms.length).map data).getD c.root [] = data c.root := by simp [hroot]
  rw [← hr]
  unfold Collective.result
  rw [hget]
  split <;> simp [*]

section
variable {s u : State} {op : Nat} {c : Collective} {ms : List (Nat × Nat)} {remote : List RankInput} {data : Nat → List Byte} (h : s.AtColl op c ms)
include h

theorem State.AtColl.took : s.Peeked (s.collTook c ms) :=
  have hp := State.Peeked.commTook s c
  hp.trans (.inputsTook (fun n y hy => h.quiet n y ((State.op_congr hp.ops n).symm.trans hy)) c _)

/-- COLLECTIVE_COMPLETE with every input there: the rank writes what `u` holds and leaves. -/
theorem State.AtColl.completes (ha : s.Arrived c remote ms data) (hbar : c.bar = none) (hw : (s.collTook c ms).Wrote c ((List.range ms.length).map data) u)
    (hg : (u.team c.team).gids.any (·.isSome) = true) :
    ∃ t, exec (.collectiveComplete op remote) s = .next t ∧ t.mem = u.mem ∧ t.slices = u.slices ∧ (∀ y ∈ (t.die (dieOf c.gid)).colls, y.op ≠ op) ∧ u.Counted t op := by
  have hq : ∀ y, (s.collTook c ms).op c.op = some y → y.race = false := fun y hy => h.quiet c.op y ((State.op_congr h.took.ops c.op).symm.trans hy)
  obtain ⟨t, hfin, ⟨hm, hs, hgone, hc⟩⟩ := State.finishColl_ok ms.length hbar hw hq hg
  refine ⟨_, h.completed ha hfin, hm, hs, ?_, ?_⟩
  · rw [h.named] at hgone; exact hgone
  · rw [h.named] at hc; exact hc

/-- COLLECTIVE_COMPLETE with a rank of another shape. -/
theorem State.AtColl.refuses {r : Nat} {m : Nat × Nat} (hm : ms[r]? = some m) (hx : s.memberOf c remote r m = .mismatch) (hf : ∀ r m f, ms[r]? = some m → s.memberOf c remote r m ≠ .fault f) :
    ∃ t, exec (.collectiveComplete op remote) s = .next t ∧ (t.context c.ctx).hb.halt = true ∧ t.mem = s.mem ∧ t.ops = s.ops := by
  have hl := (State.Peeked.logInput s c (s.ownRanks ms)).trans (.commTook _ c)
  have hp := hl.trans (.inputsTook (fun n y hy => h.quiet n y ((State.op_congr hl.ops n).symm.trans hy)) c (s.ownRanks ms))
  obtain ⟨hh, hmem, hops, -⟩ := State.failColl_spec hp c op (f := fEngine false 2 c.req 9) (show 8 ≠ 16 by decide)
  exact ⟨_, h.mismatched hm hx hf, hh, hmem, hops⟩

/-- COLLECTIVE_COMPLETE with a rank of a module that no port reaches (17 R357). -/
theorem State.AtColl.unreachable {r : Nat} {m : Nat × Nat} (hm : ms[r]? = some m) (hx : s.memberOf c remote r m = .absent) (hmod : m.1 ≠ s.hub.module) (hway : s.hub.noWay m.1 c.comm ≠ none)
    (ha : ∀ r m, ms[r]? = some m → s.memberOf c remote r m = .absent ∨ ∃ b p, s.memberOf c remote r m = .input b p ∧ (p = none ∨ p = some c)) :
    ∃ t f, exec (.collectiveComplete op remote) s = .next t ∧ f.cause = 18 ∧ (∃ y ∈ (t.die (dieOf c.gid)).colls, y.op = op ∧ y.held = some f) ∧ (t.context c.ctx).hb.halt = true ∧ t.mem = s.mem ∧ t.ops = s.ops := by
  have ha' : ∀ r m, ms[r]? = some m → s.memberOf c remote r m = .absent ∨ ∃ b p, s.memberOf c remote r m = .input b p := fun r m hm =>
    (ha r m hm).imp id fun ⟨b, p, e, _⟩ => ⟨b, p, e⟩
  rcases h.awaits hm hx ha' with ⟨-, hs | hn⟩ | ⟨q, n, f, -, -, -, hf, he⟩
  · exact absurd hs (h.no_stall ha)
  · exact absurd (hn r m hm hx hmod) hway
  · have hcause : f.cause = 18 := Hub.noWay_cause hf
    obtain ⟨hh, hmem, hops, hheld⟩ := State.failColl_spec (State.Peeked.commTook s c) c op (f := f) (by rw [hcause]; decide)
    obtain ⟨x, hx, ho⟩ := h.own
    exact ⟨_, f, he, hcause, hheld x hx ho, hh, hmem, hops⟩

end

/-- Settles O38, by one lemma per event of an engine: what an engine reads leaves all but the slices and the dies alone, and what it writes is the write of the model, so that only the queues, the counts and the halt line remain. -/
theorem engineWork : Obligations.EngineWork := by
  unfold Obligations.EngineWork
  refine ⟨?_, ?_, ?_⟩
  · intro s core op die c rest p d b u f total mine queued q k src dst to_ at_ once piece runs
    have hwrap (a : Int) : at_ a = wrap a 64 := toNat_ofInt_64 a
    have hto : to_ = q.to_ k := by unfold Copy.to_; rw [← toNat_ofInt_64]; rfl
    have hpiece : piece → runs → s.AtPiece op die d p := by
      rintro ⟨hf, hd, -, hp⟩ ⟨hr, hs, ht⟩
      rw [hwrap] at hs ht
      exact ⟨hd, hp, hf, hr, hs, ht⟩
    rw [hto]
    refine ⟨kickQueueTake_cuts, kickQueueTake_stopped, ?_, ?_⟩
    · intro hp hr hb hw hq hh hbar hg _
      exact (hpiece hp hr).moves hbar hb hw hq hh hg
    · intro hp hr hbar hb hcause
      exact (hpiece hp hr).faults hbar hcause hb
  · intro s u op lane core g p k x byte f unit runs gone counts
    have hrow : unit → runs → s.AtRow op lane core g p k x := by
      rintro ⟨hseat, hk, hx, hrows, hleft⟩ ⟨hr, hf, hq, hst, hg⟩
      exact ⟨hseat, hx, hk, hrows, hleft, hr, hf, hq, hst, hg⟩
    refine ⟨?_, ?_, ?_⟩
    · intro hu hr hs hb
      exact (hrow hu hr).gathers hs hb
    · intro hu hr hs hb hw _ _ hteams hops
      exact (hrow hu hr).scatters hs hb hw hteams hops
    · intro hu hr hs hl hb hcause
      exact (hrow hu hr).faulted hl (by unfold Gather.source; rw [hs]; exact hb) hcause
  · intro s u op remote c ms data request runs member took way ins arrived result done sum
    have hcoll : request → runs → s.AtColl op c ms := by
      rintro ⟨hq, hn⟩ ⟨hr, hf, hfirst, hquiet, hready, hstill, hm, hrank, hroot, -⟩
      exact ⟨hq, hn, hr, hf, hfirst, hquiet, hready, hstill, hm, hrank, hroot⟩
    have hway (m : Nat × Nat) (hne : way m ≠ none) : m.1 ≠ s.hub.module ∧ s.hub.noWay m.1 c.comm ≠ none := by
      by_cases hmod : m.1 = s.hub.module
      · exact absurd (if_pos hmod) hne
      · exact ⟨hmod, by rwa [show way m = s.hub.noWay m.1 c.comm from if_neg hmod] at hne⟩
    refine ⟨?_, ?_, ?_, ?_, ?_, fun count bs h => collReduce_sum count h⟩
    · intro bs hreq hrun ha hbar hres hw _ hg
      have h := hcoll hreq hrun
      have hres := Collective.result_eq h.root hres
      exact h.completes ha hbar (by unfold State.Wrote; rw [hres]; exact hw) hg
    · intro hreq hrun ha hbar hres hg
      have h := hcoll hreq hrun
      have hres := Collective.result_eq h.root hres
      have hteam : took.team c.team = s.team c.team := State.team_congr h.took.teams c.team
      exact h.completes ha hbar (by unfold State.Wrote; rw [hres]; rfl) (by rwa [hteam])
    · intro r m hreq hrun hm hx ha hnone
      rcases (hcoll hreq hrun).awaits hm hx ha with ⟨he, -⟩ | ⟨q, n, f, hn, hab, hmod, hf, -⟩
      · exact he
      · have hno := hnone q n hn hab
        rw [show way n = s.hub.noWay n.1 c.comm from if_neg hmod, hf] at hno
        cases hno
    · intro r m hreq hrun hm hx hne ha
      exact (hcoll hreq hrun).unreachable hm hx (hway m hne).1 (hway m hne).2 ha
    · intro r m hreq hrun hm hx hf
      exact (hcoll hreq hrun).refuses hm hx hf

end Sys2Proof.Machine
end
